-- ==== Sys2Proof/Word.lean ====
section
/-!
DEFINITION. The words of the FX-820: a 32-bit register word, a byte, and nothing else.
-/
-- Declarations are elaborated one after another: side by side, the package as one text asks for more threads than a check may have.
set_option Elab.async false

namespace Sys2Proof

/-- A register of BAR0 is 32 bits wide (R10). -/
abbrev Word := BitVec 32

/-- One byte of host, design or hold memory. -/
abbrev Byte := BitVec 8

end Sys2Proof
end

