-- ==== Sys2Proof/Syntax.lean ====
section
/-!
DEFINITION. The commands and events of the FX-820, one constructor of `Instr` per row of spec/opcode_table.json, and the
types of their operands.
-/
namespace Sys2Proof

/-- One four-state value (R9): driven low, driven high, not driven, unknown.  `V4.code` (Operands.lean) is its two-bit code. -/
inductive V4 where
  | zero | one | z | x
  deriving DecidableEq, Repr

/-- What one module's pin carries from outside at a sample point (R220). -/
inductive PinIn where
  | none         -- nothing outside drives the pin
  | low | high   -- an outside driver holds the pin at this level
  | changing     -- the level changes inside the setup and hold window (R418)
  deriving DecidableEq, Repr

/-- Physical happenings inside the part that a step meets: upsets of stored bits, a fault of a processor's logic, the words
the scrub reaches in a slot, the steps a slipped basin has run, the levels at the lanes.  The spec gives each of them its
consequence and leaves open when it comes (R64, R137, R150, R256, R257).  `flip`: the data bits that read wrong where the upset
leaves the word uncorrectable. -/
inductive Happening where
  | instrUpset (cluster phys word : Nat) (double : Bool) (flip : BitVec 64)
  | routeUpset (cluster word quarter : Nat) (double : Bool) (flip : BitVec 64)
  | parityUpset (cluster phys entry : Nat)
  | dmUpset (bank word : Nat) (double : Bool) (flip : BitVec 64)
  | holdUpset (word : Nat) (double : Bool) (flip : BitVec 64)
  | logicFault (cluster lp : Nat) (result : V4)      -- the processor's own logic gives this result in this step
  | portFault (cluster lp : Nat) (word : BitVec 64) (operands : List V4) -- it presents this word's sub-operation and these operands
                                                     -- at the port in place of its own
  | shadowFault (cluster : Nat)                      -- the shadow's own evaluation of this step is wrong
  | scrubInstr (cluster phys word : Nat)             -- the scrub reads and rewrites this instruction word in this slot
  | scrubRoute (cluster word : Nat)                  -- and this routing word (1,024 and 1,025 the tick words)
  | slip (basin steps : Nat)                         -- the basin's own count of the frame's schedule steps
  | lanePin (lane : Nat) (level : PinIn)             -- what the outside drives on GAU_L[lane]
  | laneLeft (lane : Nat) (high : Bool)              -- the level at which the outside has left GAU_L[lane] since the last tick
  | zdPin (z : Nat) (level : PinIn)                  -- GAU_ZD[z] at the sample point
  | stdUpset (i : Nat) (double : Bool)               -- standing register i in the MRAM array (R407)
  deriving DecidableEq, Repr

/-- A barge of the network on chip, its header flit's fields and its data (R337). -/
structure Barge where
  pri    : Nat
  cls    : Nat          -- 0 request, 1 reply, 2 control
  master : Nat
  dst    : Nat
  src    : Nat
  remote : Bool
  dev    : Nat
  tag    : Nat
  op     : Nat          -- 0 read, 1 write, 2 set alias, 3 clear alias, 4 message
  status : Nat          -- of a reply: 0 OK, 1 FENCED
  code   : Nat
  ndata  : Nat
  len    : Nat
  addr   : Nat
  data   : List Byte
  deriving DecidableEq, Repr

/-- What the receiver makes of a codeword (R173, R177, R181). -/
inductive Codeword where
  | clean
  | corrected
  | uncorrectable (positions : List Nat) (flit : Bool) -- POS of the groups that have a bit in it; a barge flit lay in it
  deriving DecidableEq, Repr

/-- One UP link of the group: its two ends, device and link number, and its measured delay in ps (R176, R184). -/
structure GLink where
  a  : Nat
  la : Nat
  b  : Nat
  lb : Nat
  ps : Nat
  deriving DecidableEq, Repr

/-- How a clock multiplexer's switch goes (R308). -/
inductive SwitchEnd where
  | clean      -- both sources give edges
  | forced     -- the old source gives none: the switch is forced
  | noSource   -- the new source gives none: the switch is abandoned
  deriving DecidableEq, Repr

/-- What comes with a host's register write: how the clock switch that it asks for goes, and whether the lockkeeper writes the register
in the same cycle (R308, R399). -/
structure WriteEnd where
  sw    : SwitchEnd
  clash : Bool
  deriving DecidableEq, Repr

/-- An edge at an input: its polarity, and the ns since the last crystal cycle (R231, R232). -/
structure EdgeAt where
  rising : Bool
  sub    : Nat
  deriving DecidableEq, Repr

/-- How a barge request comes: whether its target serves it now, and the link of a request of master 6 (R339, R341). -/
structure BargeIn where
  served : Bool
  via    : Nat
  deriving DecidableEq, Repr

/-- What a clock that is lost brings: how the switch away from it goes, and the entries whose write the failing step clock cuts off
(R18, R308). -/
structure LossEnd where
  sw  : SwitchEnd
  cut : List (Nat × Nat × Nat)
  deriving DecidableEq, Repr

/-- A lockkeeper message of the ring (R185), as the rules that send one name it. -/
inductive RingMsg where
  | mode (stall : Bool)                        -- LKG_MODE from the lead (R190)
  | evtBound (steps : Nat)                     -- SEQ_HORIZON.EVT_BOUND from the lead (R184)
  | start (cont : Bool) (steps sec ns : Nat)   -- start instant of RUN (steps 0) or STEP_FRAMES (R81)
  | cancel                                     -- the pending start is cancelled (R81)
  | seqSet (gsc mask flight lock throttle ovr tmo : Nat) -- SEQ_SET (R397): agreed at `gsc`
  | stepMhz (mhz : Nat)                        -- STEP_CLOCK set (R313)
  | clkResume                                  -- R316
  | resetAt (lead sec ns : Nat)                -- group reset (R297)
  | resetCancel
  | report (st : Nat) (lock : Bool) (digest : List Byte) (power : Nat) (hold fenced apart : Bool) -- a member's state for its lead
                                                                          -- (R81, R253, R316, R327, R360)
  | linkUp (link peer peerLink ps : Nat)       -- a group link of the sender has reached UP (R184)
  | linkLost (link : Nat)                      -- one has left UP (R184, R191)
  | ack (op : Nat)                             -- the message of the command with this opcode is carried out
  | wake                                       -- ring wake (R325)
  | other (payload : Nat)                      -- acknowledgments and configuration exchange: the sending lockkeeper's own
  deriving DecidableEq, Repr

/-- A command record as the lockkeeper has taken it (R387), and the port it came from: ring 0 to 15, 16 the mailbox, 17 a ring
whose reply is lost (R388). -/
structure Cmd where
  port  : Nat
  op    : Nat
  flags : Nat
  rsv   : Nat            -- bytes 2-3
  tag   : Nat
  p0    : Nat
  p1    : Nat
  p2    : Nat
  p3    : List Byte
  deriving DecidableEq, Repr

/-- What a service access asks of a design-memory bank (R131). -/
inductive SvcOp where
  | read | readHalf               -- the full word; the addressed half
  | write                         -- full-word write
  | setBits | clearBits | partialW -- atomic read-modify-writes
  deriving DecidableEq, Repr

/-- How a service access is answered: to its sender at once; as the reply of the barge that carries it; or, its sender having given
it up, by a reply that comes too late (R343). -/
inductive SvcAnswer where
  | direct | barge | late
  deriving DecidableEq, Repr

/-- One waiting service access (R134, R135). -/
structure SvcReq where
  master : Nat
  tag    : Nat             -- names the access to its sender
  addr   : Nat             -- the host's BAR2 offset, master 0
  half   : Option Bool     -- a 4-byte access: true for the upper half
  op     : SvcOp
  bank   : Nat
  word   : Nat
  data   : BitVec 64       -- in the word's byte lanes
  mask   : BitVec 64       -- the bits a partial, set or clear write addresses
  poison : Bool            -- the word is written poisoned (a wharf return, R212)
  counted : Bool           -- DMC_CONF has counted it
  answer : SvcAnswer
  cycle  : Nat             -- the bank cycle of its arrival (R134)
  deriving DecidableEq, Repr

/-- What a march finds: for each failing row of a bank its bank, the failing data stores and the unrepairable rows of instruction
tiers as cluster and physical position, and the rows of instruction tiers it repairs. -/
structure MarchFinds where
  rows     : List Nat
  stores   : List (Nat × Nat)
  tiers    : List (Nat × Nat)
  repaired : Nat
  deriving DecidableEq, Repr

/-- One host read of its memory that fails (R381, R382), by the unit that made it. -/
inductive ReadUnit where
  | ring (i : Nat)                    -- a command ring
  | load (sec : Nat)                  -- IMG_LOAD, at this section
  | verify (sec : Nat)
  | tableLoad (c : Cmd)               -- the command as it is carried out
  | stateWrite (c : Cmd) (done : Nat) -- and the items read before
  | returnRing
  deriving DecidableEq, Repr

/-- The commands and events of the block: one constructor per row of spec/opcode_table.json, in its order.  A command of R393 carries its
record; an event carries what the outside or the physics of the part decides about it. -/
inductive Instr where
  | evaluationStep (hs : List Happening)  -- R71
  | firstTickStep (hs : List Happening)  -- R72
  | secondTickStep (hs : List Happening)  -- R73
  | lockPhaseStep (hs : List Happening)  -- R77
  | stallCycle  -- R87
  | stallTimeout  -- R89
  | imgLoad (c : Cmd)  -- R244
  | imageRelease  -- R291
  | imgVerify (c : Cmd)  -- R252
  | run (c : Cmd)  -- R81
  | runStartInstant  -- R81
  | halt (c : Cmd)  -- R82
  | stepFrames (c : Cmd)  -- R81
  | stateRead (c : Cmd)  -- R394
  | stateWrite (c : Cmd)  -- R394
  | bankOwner (c : Cmd)  -- R126
  | fence (c : Cmd)  -- R293
  | unfence (c : Cmd)  -- R293
  | powerState (c : Cmd)  -- R322
  | traceArm (c : Cmd)  -- R372
  | unseal (c : Cmd)  -- R378
  | selftest (c : Cmd) (failing : Nat)  -- R396: the mechanisms whose test fails, in the bit order of R396
  | march (c : Cmd)  -- R143
  | marchComplete (f : MarchFinds)  -- R142
  | faultRead (c : Cmd)  -- R276
  | faultDump (c : Cmd)  -- R276
  | timeSet (c : Cmd)  -- R361
  | tableLoad (c : Cmd)  -- R203
  | isolate (c : Cmd)  -- R187
  | reset (c : Cmd)  -- R283
  | clkResume (c : Cmd)  -- R316
  | stepClock (c : Cmd) (e : SwitchEnd)  -- R313
  | seqSet (c : Cmd)  -- R397
  | stdWrite (c : Cmd)  -- R405
  | bar0Read (off len : Nat) (hs : List Happening)  -- R10: `hs`: upsets of the standing register read (R407)
  | registerWrite (off : Nat) (data : List Byte) (e : WriteEnd)  -- R12
  | seqFrameLoRead  -- R98
  | seqGscLoRead  -- R98
  | timNsRead  -- R349
  | seqHaltReq  -- R82
  | cfgRstWarm (recover : Bool)  -- R280: RECOVER is written with it
  | cfgRstRecover  -- R299
  | dmcOwnHandover (k : Nat) (v : Word)  -- R126: bit 31 of the value is 0
  | dmcOwnRefusalClear (k : Nat) (v : Word)  -- R127: bit 31 of the value is 1
  | hldRegionWrite (q r : Nat) (size : Bool) (v : Word)  -- R161: HLD_RGN_SIZE or HLD_RGN_BASE
  | lnkCtlEnWrite (n : Nat) (en : Bool)  -- R170
  | lnkCtlRetrain (n : Nat) (en : Bool)  -- R170
  | lkgForm (v : Word)  -- R189: the other fields of LKG_CFG
  | lkgDissolve (v : Word)  -- R189
  | lkgModeWrite (v : Word)  -- R190
  | xchDoneWrite (v : Word)  -- R204
  | xchRingCiWrite (r : Nat) (v : Word)  -- R206
  | xchRingLoWrite (r : Nat) (v : Word)  -- R206
  | xchRetPiWrite (v : Word)  -- R211
  | xchRetLoWrite (v : Word)  -- R211
  | gauLaneWrite (n : Nat) (v : Word)  -- R217
  | gauZdmapWrite (z : Nat) (v : Word)  -- R222
  | gauRingLoWrite (r : Nat) (v : Word)  -- R228
  | gauRingCiWrite (r : Nat) (v : Word)  -- R228
  | trcArmWrite (v : Word)  -- R372: the other fields of TRC_CTL
  | trcDisarmWrite (v : Word)  -- R373
  | trcRpWrite (v : Word)  -- R368
  | ckgStepMhzWrite (mhz : Nat) (e : SwitchEnd)  -- R313
  | ckgStepRestore  -- R312
  | ckgEnWrite (second : Bool) (v : Word)  -- R314: CKG_EN1 or CKG_EN0
  | timCtlWrite (v : Word)  -- R351
  | timTrimWrite (v : Word)  -- R355
  | safInjectWrite (v : Word)  -- R277
  | lkpCrPiWrite (i : Nat) (v : Word)  -- R386
  | lkpRrCiWrite (i : Nat) (v : Word)  -- R386
  | lkpCrLoWrite (i : Nat) (v : Word)  -- R388
  | lkpRrLoWrite (i : Nat) (v : Word)  -- R388
  | lkpMboxGo  -- R389
  | commandTaken (failing : Nat) (e : SwitchEnd)  -- R388: operands of a SELFTEST or STEP_CLOCK taken
  | stdRegisterWrite (i : Nat) (v : Word)  -- R404
  | stdWriteComplete  -- R404
  | bar2Read (off len : Nat)  -- R131
  | bar2Write (off : Nat) (data : List Byte)  -- R130
  | bar4Read (off len : Nat)  -- R154
  | bar4Write (off : Nat) (data : List Byte)  -- R153
  | dmcServiceRequest (r : SvcReq)  -- R135
  | dmcServiceAccess (k : Nat)  -- R134
  | dmcDeferredWrite (k : Nat)  -- R135
  | dmcEccWriteback (k w : Nat)  -- R137
  | dmcPatrolRead (k : Nat)  -- R139
  | patrolLate  -- R139
  | instrScrubLate  -- R257
  | holdAccessComplete (d : Nat)  -- R155: DRAM bank
  | holdRefreshDue (d : Nat)  -- R151
  | holdScrubRead (i : Nat)  -- R152: hold stack
  | holdScrubLate  -- R152
  | sluiceReplyArrival (q t : Nat)  -- R157
  | holdStackReady (i : Nat)  -- R149
  | xchFragmentArrival  -- R197
  | xchClosePoint (f : Nat)  -- R198: frame
  | xchDeliveryWrite  -- R205
  | xchLossRecordWrite  -- R201
  | xchReturnRecordRead  -- R211
  | gauFailRecordWrite  -- R227
  | edgeCapture (i : Nat) (edge : EdgeAt)  -- R232
  | gauEdgeRecordWrite  -- R233
  | trcDrainWrite  -- R369
  | trcDrainRetry  -- R369
  | linkSignalDetected (n : Nat)  -- R170
  | linkDetectTimeout (n : Nat)  -- R170
  | linkTrainDone (n : Nat)  -- R170
  | linkTrainTimeout (n : Nat)  -- R170
  | linkAlignDone (n : Nat)  -- R170
  | linkAlignTimeout (n : Nat)  -- R170
  | linkIdentReceived (n dev link group : Nat)  -- R171
  | linkMeasureDone (n dlyPs : Nat)  -- R176
  | linkRetryTimer (n : Nat)  -- R170
  | linkDown (n fail : Nat)  -- R170
  | linkCodewordReceived (n : Nat) (w : Codeword)  -- R173
  | linkGroupReceived (n ctl : Nat) (vals : List V4)  -- R175: `ctl`: the control lane's 60 bits (R172)
  | doneMarkerReceived (n fLo : Nat) (taint early : Bool)  -- R179
  | markerWindowClose (n : Nat)  -- R179
  | linkFlitReceived (n seq : Nat) (crcOk : Bool)  -- R181
  | linkAckReceived (n : Nat) (nak : Bool) (seq : Nat)  -- R181
  | expressWordReceived (n kind src seq arg : Nat) (ok : Bool)  -- R183
  | groupFormationComplete (ferr : Nat) (links : List GLink)  -- R189: the other members' UP group links
  | groupFormationTimeout  -- R189
  | ringMessageReceived (src dst gid : Nat) (m : RingMsg) (e : SwitchEnd)  -- R185: `gid`: its group ID
  | ringPortRetrain (port : Nat) (up : Bool) (lost : Nat)  -- R186: training succeeds; how many messages last sent are lost
  | timeBeaconExchange (p : Nat) (t1 t2 t3 : Int) (sub master hops gid : Nat) (valid : Bool)  -- R352: the reply is back, t4, sub ps after the last crystal cycle
  | ppsInEdge (sub : Nat)  -- R353: ps after the last crystal cycle
  | timeSourceLost  -- R354
  | ppsOutPulse  -- R358
  | bargeRequestArrival (b : Barge) (how : BargeIn)  -- R339
  | bargeReplyArrival (r : Barge)  -- R343
  | bargeTimeout (b : Barge)  -- R343
  | controlBargeArrival (kind frm dst : Nat)  -- R340
  | drainComplete (n : Nat)  -- R345
  | drainTimeout (n : Nat)  -- R345
  | faultReport (code lkind loc frame : Nat)  -- R262
  | railMonitorTrip (r f : Nat)  -- R270
  | tempEmergency (tj : Nat)  -- R271
  | tempCritical (tj : Nat)  -- R271
  | watchdogMissed  -- R272
  | stepPllLockLoss (cut : List (Nat × Nat × Nat))  -- R316: entries whose write the failing clock cuts off (R32): cluster, position, entry
  | holdPllLockLoss (e : SwitchEnd)  -- R309
  | linkPllLockLoss (j : Nat)  -- R317
  | pllWindowEnd (i : Nat) (ppm : Int) (lock : Bool) (e : LossEnd)  -- R305
  | pllJudgeTimeout (i : Nat)  -- R305
  | crystalLost (e : LossEnd)  -- R304: the switch is the unit domain's
  | gustRampHoldEnd  -- R310
  | powerOnReset (pins : Nat)  -- R280: the straps DEVID as they stand
  | vinOvervoltage  -- R414
  | perstNAssert  -- R280
  | perstNRelease  -- R286
  | powerGood  -- R284
  | bootOscDone (testEn : Bool) (hs : List Happening)  -- R284
  | bootXtalDone (e : SwitchEnd)  -- R303
  | bootFwDone (ok : Bool)  -- R284
  | bootTestDone (f : MarchFinds) (bad : List Nat)  -- R284: stacks that failed training
  | bootArmDone (ms ports : Nat) (hs : List Happening)  -- R288: BOOT_MS, and the ring ports that train, bit per port
  | warmResetEffect  -- R280
  | groupResetInstant (missed : Bool)  -- R297: the lead's cancel was missed
  | groupResetCancel  -- R297
  | basinResetEffect (b : Nat)  -- R295
  | recoveryKeepEntry  -- R299
  | recoveryPauseTimeout  -- R299
  | recoveryRestartDone  -- R299
  | hostReadError (u : ReadUnit)  -- R382
  | powerEntryComplete  -- R323
  | gauFlushTimeout  -- R323
  | wakeNAsserted  -- R325
  | ringWake  -- R325
  | wakeTimerExpiry  -- R325
  | powerExitComplete  -- R326
  | vinBelow24v (mv : Nat)  -- R331
  | powerCapEnd (mv : Nat)  -- R331
  | powerCapSample (p mv : Nat)  -- R331
  | thermalThrottleSample (tj : Nat)  -- R330
  | vinOvervoltageEnd  -- R414
  | holdRefreshDoubling (i temp : Nat)  -- R151
  | unitDividerStep  -- R308
  | loadRelockTimeout  -- R292
  | checkPhaseEnd (verify : Bool)  -- R245
  deriving DecidableEq, Repr

end Sys2Proof
end

