-- ==== Sys2Proof/Decode.lean ====
section
/-!
DEFINITION. The words of the opcode table.  spec/opcode_table.json gives no row any bits: the rows are commands and events that reach
the block from outside, so no word spells one.
-/
namespace Sys2Proof

/-- The command a word of the opcode table spells: none. -/
def decodeTableWord (_nbits _w : Nat) : Option Instr := none

end Sys2Proof
end

