-- ==== Sys2Proof/Machine/Bits.lean ====
section
/-!
DEFINITION. Bit fields, byte order and counters: the small helpers of every register and record layout.
-/
namespace Sys2Proof.Machine

/-- Bits [hi:lo] of a number. -/
def nfld (n hi lo : Nat) : Nat := (n >>> lo) % 2 ^ (hi + 1 - lo)

/-- Bit `i` of a number. -/
def nbit (n i : Nat) : Bool := (n >>> i) % 2 == 1

/-- Bits [hi:lo] of a register word, as a number. -/
def fld (w : Word) (hi lo : Nat) : Nat := nfld w.toNat hi lo

/-- Bit `i` of a register word. -/
def bit (w : Word) (i : Nat) : Bool := w.getLsbD i

/-- `w` with bits [hi:lo] made `v`. -/
def setFld (w : Word) (hi lo v : Nat) : Word :=
  let m : Word := BitVec.ofNat 32 ((2 ^ (hi + 1 - lo) - 1) <<< lo)
  (w &&& ~~~m) ||| (BitVec.ofNat 32 (v <<< lo) &&& m)

/-- `w` with bit `i` made 1. -/
def setBit (w : Word) (i : Nat) : Word := w ||| BitVec.ofNat 32 (1 <<< i)

/-- `w` with bit `i` made 0. -/
def clrBit (w : Word) (i : Nat) : Word := w &&& ~~~(BitVec.ofNat 32 (1 <<< i))

/-- `w` with bit `i` made `b`. -/
def putBit (w : Word) (i : Nat) (b : Bool) : Word := if b then setBit w i else clrBit w i

/-- One as a number where `b` holds. -/
def b2n (b : Bool) : Nat := if b then 1 else 0

/-- A count of `w` bits raised by `k` and held at its largest value. -/
def satAdd (w n k : Nat) : Nat := min (n + k) (2 ^ w - 1)

/-- `w` with its counter [hi:lo] raised by `k`, saturating. -/
def satFld (w : Word) (hi lo k : Nat) : Word := setFld w hi lo (satAdd (hi + 1 - lo) (fld w hi lo) k)

/-- The bytes of `n`, least significant first: `c` of them (every layout of the spec is little-endian). -/
def leBytes (c n : Nat) : List Byte :=
  (List.range c).map fun i => BitVec.ofNat 8 (n >>> (8 * i))

/-- The number whose bytes, least significant first, are `bs`. -/
def leNat : List Byte → Nat
  | [] => 0
  | b :: t => b.toNat + 256 * leNat t

/-- The smallest multiple of `m` that is at least `n`. -/
def alignUp (n m : Nat) : Nat := ((n + m - 1) / m) * m

/-- Frames from `a` on to `b`, counted modulo 2^48 (R7). -/
def frDist (a b : Nat) : Nat := (b + 2 ^ 48 - a % 2 ^ 48) % 2 ^ 48

/-- Frame `a` comes before `b`, or is `b`, modulo 2^48 (R7): it lies less than half the range back (DESIGN CHOICE, log
entry 38). -/
def frLe (a b : Nat) : Bool := decide (frDist a b < 2 ^ 47)

/-- Frame `a` comes before `b`, modulo 2^48 (R7). -/
def frLt (a b : Nat) : Bool := !frLe b a

/-- The frame `k` before `f`, and the one `k` after it (R7). -/
def frBack (f k : Nat) : Nat := (f + 2 ^ 48 - k % 2 ^ 48) % 2 ^ 48
def frNext (f k : Nat) : Nat := (f + k) % 2 ^ 48

/-- The later of two frames (R7). -/
def frMax (a b : Nat) : Nat := if frLe a b then b else a

/-- Stable insertion of `x` by key `f` into a list that already stands in order. -/
def insertBy {α : Type} (f : α → Nat) (x : α) : List α → List α
  | [] => [x]
  | y :: t => if f x < f y then x :: y :: t else y :: insertBy f x t

/-- The list in ascending order of `f`, equal keys in the order they stood in. -/
def sortBy {α : Type} (f : α → Nat) (l : List α) : List α := l.foldl (fun acc x => insertBy f x acc) []

end Sys2Proof.Machine
end

