-- ==== Sys2Proof/Machine/Hash.lean ====
section
/-!
DEFINITION. The two sums the loader checks: CRC-32 with the IEEE 802.3 polynomial (R240) and SHA-256 (R239, R378).
-/
namespace Sys2Proof.Machine

/-- One bit of the CRC-32 register shifted out, the polynomial reflected. -/
def crcBit (c : Word) : Word := if c.getLsbD 0 then (c >>> 1) ^^^ 0xEDB88320#32 else c >>> 1

/-- One byte taken into the CRC-32 register. -/
def crcByte (c : Word) (b : Byte) : Word :=
  crcBit (crcBit (crcBit (crcBit (crcBit (crcBit (crcBit (crcBit (c ^^^ b.setWidth 32))))))))

/-- The CRC-32 of a byte string (R240). -/
def crc32 (bs : List Byte) : Word := ~~~(bs.foldl crcByte 0xFFFFFFFF#32)

/-- The whole part of the `k`-th root of `n`, below 2^40. -/
def wholeRoot (k n : Nat) : Nat := (List.range 40).foldr (fun i r => if (r + 2 ^ i) ^ k ≤ n then r + 2 ^ i else r) 0

/-- The first 32 bits of the fraction of the `k`-th root of `p`. -/
def rootFraction (k p : Nat) : Word := BitVec.ofNat 32 (wholeRoot k (p * 2 ^ (32 * k)))

/-- The first 64 primes. -/
def shaPrimes : List Nat :=
  (List.range 312).filter fun n => decide (2 ≤ n) && [2, 3, 5, 7, 11, 13, 17].all fun d => n = d || decide (n % d ≠ 0)

/-- The round constants of SHA-256 are fractions of cube roots, its initial state fractions of square roots, of primes. -/
def shaRounds : List Word := shaPrimes.map (rootFraction 3)
def shaStart : List Word := (shaPrimes.take 8).map (rootFraction 2)

/-- The exclusive or of three values of a word: rotated by `i` and `j`, and `k`. -/
def shaMix (i j : Nat) (k w : Word) : Word := w.rotateRight i ^^^ w.rotateRight j ^^^ k

/-- The message schedule: the first `n` words from a window of the next 16, oldest first. -/
def shaSchedule : Nat → List Word → List Word
  | n + 1, w :: t =>
    let old := t.getD 0 0
    let new := t.getD 13 0
    w :: shaSchedule n (t ++ [w + t.getD 8 0 + shaMix 7 18 (old >>> 3) old + shaMix 17 19 (new >>> 10) new])
  | _, _ => []

/-- One round on the eight words of the state. -/
def shaRound (x : List Word) (kw : Word × Word) : List Word :=
  match x with
  | [a, b, c, d, e, f, g, h] =>
    let t := kw.1 + kw.2 + h + (g ^^^ (e &&& (f ^^^ g))) + shaMix 6 11 (e.rotateRight 25) e
    [((a ||| b) &&& c ||| a &&& b) + shaMix 2 13 (a.rotateRight 22) a + t, a, b, c, t + d, e, f, g]
  | _ => x

/-- `n` bytes of a number, the most significant first, and the number of such bytes. -/
def beBytes (n v : Nat) : List Byte := (leBytes n v).reverse
def beNat (bs : List Byte) : Nat := leNat bs.reverse

/-- The 16 words of a block of 64 bytes. -/
def shaWords (bs : List Byte) : List Word := (List.range 16).map fun i => BitVec.ofNat 32 (beNat ((bs.drop (4 * i)).take 4))

/-- `n` blocks of a padded message taken in turn. -/
def shaBlocks : Nat → List Word → List Byte → List Word
  | 0, x, _ => x
  | n + 1, x, bs =>
    let y := (shaRounds.zip (shaSchedule 64 (shaWords (bs.take 64)))).foldl shaRound x
    shaBlocks n (List.zipWith (· + ·) x y) (bs.drop 64)

/-- SHA-256 of a byte string, padded with a one bit, zeros and its length in bits to whole blocks. -/
def sha256 (bs : List Byte) : List Byte :=
  let p := bs ++ 0x80#8 :: List.replicate ((119 - bs.length % 64) % 64) 0#8 ++ beBytes 8 (8 * bs.length)
  (shaBlocks (p.length / 64) shaStart p).flatMap fun w => beBytes 4 w.toNat

end Sys2Proof.Machine
end

