-- ==== Sys2Proof/Config.lean ====
section
/-!
DEFINITION. What one part fixes and the spec leaves open: constants without a body, of which nothing can be proved.
-/
namespace Sys2Proof

/-- FREE VALUE (log entry 1): what the `n`-th undefined value of a run is.  The State's counter `freeCtr` picks `n`. -/
opaque Config.freeValue : Nat → BitVec 64

/-- FREE VALUE (log entry 2): spare rows of bank `k` used by repairs made at manufacture, 0 to 8 (DMC_REPAIR card). -/
opaque Config.factoryRepairs : Nat → Fin 9

/-- FREE VALUE (log entry 2): the device serial number (STD_SERIAL_LO, STD_SERIAL_HI). -/
opaque Config.serial : BitVec 64

/-- FREE VALUE (log entry 2): the firmware release in the firmware store (LKP_FW); its MAJOR is at least 1 once the
firmware runs. -/
opaque Config.firmwareMajor : Fin 65535
opaque Config.firmwareMinor : BitVec 16

/-- FREE VALUE (log entry 2): the refreshes a DRAM bank may have postponed before one is forced (R151). -/
opaque Config.refreshLimit : Nat

/-- FREE VALUE (log entry 3): what entry `e` of physical position `ph` of cluster `cl` holds after the `n`-th undefined value's
destructive march of the data stores, as a two-bit code (R144 states the march and no contents). -/
opaque Config.marchedEntry : Nat → Nat → Nat → Nat → Fin 4

/-- FREE VALUE (log entry 3): the same of word `w` of an instruction store. -/
opaque Config.marchedWord : Nat → Nat → Nat → Nat → BitVec 64

/-- FREE VALUE (log entry 4): byte `a` of the hold memory that the `n`-th save copy fills (R326 gives what the copy holds and
not how it is laid out). -/
opaque Config.saveByte : Nat → Nat → BitVec 8


end Sys2Proof
end

