-- ==== Sys2Proof/Machine/Cards.lean ====
section
/-!
DEFINITION. The register cards of BAR0: where each register lies, what it reads as after reset, and which of its bits a
write can change and how (R10-R12, R20 and the register section of every chapter).  `reset` is the value of stepping B0
of the FX-820; what the member, the stepping or a standing register decides is put over it in Regs.lean.
-/
namespace Sys2Proof.Machine

/-- A register card: array bases and strides, reset value, and the masks of the field types of R12 (reserved bits lie in no mask). -/
structure Card where
  name  : String
  base  : Nat
  s1    : Nat
  n1    : Nat
  s2    : Nat
  n2    : Nat
  reset : Nat
  rw    : Nat
  w1c   : Nat
  w1s   : Nat
  rc    : Nat
  pw    : Nat
  wo    : Nat
  ro    : Nat
  deriving DecidableEq, Repr

def oCapId : Nat := 0x0
def oCapVer : Nat := 0x4
def oCapUnits : Nat := 0x8
def oCapGeom : Nat := 0xC
def oCapMem : Nat := 0x10
def oCapLinks : Nat := 0x14
def oCapGau : Nat := 0x18
def oCapFreq : Nat := 0x1C
def oCapDevid : Nat := 0x20
def oBasCflag0 (b : Nat) : Nat := 0x100080 + 65536*b
def oBasCflag1 (b : Nat) : Nat := 0x100084 + 65536*b
def oCluStat (b : Nat) (c : Nat) : Nat := 0x100400 + 65536*b + 256*c
def oCluShd (b : Nat) (c : Nat) : Nat := 0x100404 + 65536*b + 256*c
def oCluRepair (b : Nat) (c : Nat) : Nat := 0x100408 + 65536*b + 256*c
def oCluEcc (b : Nat) (c : Nat) : Nat := 0x10040C + 65536*b + 256*c
def oCluXev (b : Nat) (c : Nat) : Nat := 0x100410 + 65536*b + 256*c
def oSeqCfg : Nat := 0x90000
def oSeqFlight : Nat := 0x90004
def oSeqLock : Nat := 0x90008
def oSeqThrottle : Nat := 0x9000C
def oSeqThrSts : Nat := 0x90010
def oSeqSts : Nat := 0x90014
def oSeqFrameLo : Nat := 0x90018
def oSeqFrameHi : Nat := 0x9001C
def oSeqGscLo : Nat := 0x90020
def oSeqGscHi : Nat := 0x90024
def oSeqFltNum : Nat := 0x90028
def oSeqStepf : Nat := 0x9002C
def oSeqOvr : Nat := 0x90030
def oSeqOvrMax : Nat := 0x90034
def oSeqStallCnt : Nat := 0x90038
def oSeqStallCyc : Nat := 0x9003C
def oSeqStallTmo : Nat := 0x90040
def oSeqLastEvt : Nat := 0x90044
def oSeqHalt : Nat := 0x90048
def oSeqHorizon : Nat := 0x9004C
def oSeqInt : Nat := 0x90050
def oBasReachCfg (b : Nat) : Nat := 0x100100 + 65536*b
def oBasReachSts (b : Nat) : Nat := 0x100104 + 65536*b
def oBasContCtl (b : Nat) : Nat := 0x100108 + 65536*b
def oBasContBen (b : Nat) : Nat := 0x10010C + 65536*b
def oBasContHard (b : Nat) : Nat := 0x100110 + 65536*b
def oBasContRec (b : Nat) : Nat := 0x100114 + 65536*b
def oBasContRecF (b : Nat) : Nat := 0x100118 + 65536*b
def oBasImpOvf (b : Nat) : Nat := 0x10011C + 65536*b
def oBasRwEcc (b : Nat) : Nat := 0x100120 + 65536*b
def oDmcSts : Nat := 0x300000
def oDmcEq : Nat := 0x300004
def oDmcPatrol : Nat := 0x300008
def oDmcEccCnt : Nat := 0x300010
def oDmcUeRec : Nat := 0x300014
def oDmcHsts : Nat := 0x300018
def oDmcHaddr : Nat := 0x30001C
def oDmcMarchSts : Nat := 0x300020
def oDmcConf (m : Nat) : Nat := 0x300040 + 4*m
def oDmcOwn (k : Nat) : Nat := 0x301000 + 4*k
def oDmcRepair (k : Nat) : Nat := 0x302000 + 4*k
def oStdMarch : Nat := 0x60010
def oHldSts : Nat := 0xE0000
def oHldScrub : Nat := 0xE0004
def oHldEccCnt : Nat := 0xE0008
def oHldUeLine : Nat := 0xE000C
def oHldUeSrc : Nat := 0xE0010
def oHldHsts : Nat := 0xE0014
def oHldHaddr : Nat := 0xE0018
def oHldBankload : Nat := 0xE001C
def oHldMaxlat : Nat := 0xE0020
def oHldStackSts (i : Nat) : Nat := 0xE0040 + 4*i
def oHldSluSts (q : Nat) : Nat := 0xE1000 + 4*q
def oHldSluCnt (q : Nat) : Nat := 0xE1200 + 4*q
def oHldRgnBase (q : Nat) (r : Nat) : Nat := 0xE8000 + 128*q + 8*r
def oHldRgnSize (q : Nat) (r : Nat) : Nat := 0xE8004 + 128*q + 8*r
def oLnkCtl (n : Nat) : Nat := 0xA0000 + 64*n
def oLnkSts (n : Nat) : Nat := 0xA0004 + 64*n
def oLnkPeer (n : Nat) : Nat := 0xA0008 + 64*n
def oLnkDly (n : Nat) : Nat := 0xA000C + 64*n
def oLnkLat (n : Nat) : Nat := 0xA0010 + 64*n
def oLnkFec (n : Nat) : Nat := 0xA0014 + 64*n
def oLnkRetry (n : Nat) : Nat := 0xA0018 + 64*n
def oRingSts : Nat := 0xA0400
def oLkgCfg : Nat := 0xA0800
def oLkgMode : Nat := 0xA0804
def oLkgMembersLo : Nat := 0xA0808
def oLkgMembersHi : Nat := 0xA080C
def oLkgLinkmask : Nat := 0xA0810
def oLkgSts : Nat := 0xA0814
def oLkgLockrec : Nat := 0xA0818
def oXchSts : Nat := 0xC0000
def oXchDone : Nat := 0xC0004
def oXchFinalLo : Nat := 0xC0008
def oXchCaprec : Nat := 0xC000C
def oXchFired : Nat := 0xC0010
def oXchLoss : Nat := 0xC0014
def oXchRetLo : Nat := 0xC0018
def oXchRetHi : Nat := 0xC001C
def oXchRetPi : Nat := 0xC0020
def oXchRetCi : Nat := 0xC0024
def oXchCtl : Nat := 0xC0028
def oXchPart (j : Nat) : Nat := 0xC0100 + 4*j
def oXchPartUse (j : Nat) : Nat := 0xC0200 + 4*j
def oXchGrp (g : Nat) : Nat := 0xC0300 + 4*g
def oXchRingLo (r : Nat) : Nat := 0xC1000 + 16*r
def oXchRingHi (r : Nat) : Nat := 0xC1004 + 16*r
def oXchRingPi (r : Nat) : Nat := 0xC1008 + 16*r
def oXchRingCi (r : Nat) : Nat := 0xC100C + 16*r
def oGauSts : Nat := 0xD0000
def oGauHoldback : Nat := 0xD0004
def oGauVerF : Nat := 0xD0008
def oGauFfUse : Nat := 0xD000C
def oGauCnt (v : Nat) : Nat := 0xD0010 + 4*v
def oGauFf1Lane : Nat := 0xD0020
def oGauFf1FLo : Nat := 0xD0024
def oGauFf1FHi : Nat := 0xD0028
def oGauFf1Tsn : Nat := 0xD002C
def oGauFfLost : Nat := 0xD0030
def oGauInt : Nat := 0xD0034
def oGauBank (k : Nat) : Nat := 0xD0040 + 4*k
def oGauRingLo (r : Nat) : Nat := 0xD0080 + 16*r
def oGauRingHi (r : Nat) : Nat := 0xD0084 + 16*r
def oGauRingPi (r : Nat) : Nat := 0xD0088 + 16*r
def oGauRingCi (r : Nat) : Nat := 0xD008C + 16*r
def oGauEdgeCtl : Nat := 0xD00A0
def oGauEdgeMerged (i : Nat) : Nat := 0xD0100 + 4*i
def oGauEdgeOvf (i : Nat) : Nat := 0xD0140 + 4*i
def oGauZdmap (z : Nat) : Nat := 0xD0200 + 4*z
def oGauLane (n : Nat) : Nat := 0xD1000 + 4*n
def oGauFcnt (n : Nat) : Nat := 0xD2000 + 4*n
def oStdGauVio : Nat := 0x60040
def oStdGauDrv : Nat := 0x60044
def oStdPark : Nat := 0x60048
def oStdSafe : Nat := 0x6004C
def oCapLatVer : Nat := 0x100
def oCapLatDm : Nat := 0x104
def oCapLatHold : Nat := 0x108
def oCapLatReach : Nat := 0x10C
def oCapLatXl : Nat := 0x110
def oSafSts : Nat := 0x50000
def oSafReact : Nat := 0x50004
def oSafFnmask : Nat := 0x50008
def oSafCtl : Nat := 0x5000C
def oSafLogSts : Nat := 0x50010
def oSafFirst (w : Nat) : Nat := 0x50020 + 4*w
def oSafMon : Nat := 0x50030
def oSafTlim : Nat := 0x50034
def oSafInject : Nat := 0x50038
def oSafInt : Nat := 0x5003C
def oStdSafReact : Nat := 0x60050
def oStdSafFnmask : Nat := 0x60054
def oCfgBoot : Nat := 0x40000
def oCfgSts : Nat := 0x40004
def oCfgCause : Nat := 0x40008
def oCfgRst : Nat := 0x4000C
def oCfgFenced : Nat := 0x40010
def oCfgPlaced : Nat := 0x40014
def oCfgLoaded : Nat := 0x40018
def oCfgLoad : Nat := 0x4001C
def oStdPinpark : Nat := 0x60058
def oCkgSts : Nat := 0x20000
def oCkgEn0 : Nat := 0x20004
def oCkgEn1 : Nat := 0x20008
def oCkgTol : Nat := 0x2000C
def oCkgStep : Nat := 0x20010
def oCkgPll (i : Nat) : Nat := 0x20020 + 4*i
def oStdXtalWait : Nat := 0x60014
def oPwrSts : Nat := 0x30000
def oPwrCtl : Nat := 0x30004
def oPwrWakeTmr : Nat := 0x30008
def oPwrLastwake : Nat := 0x3000C
def oPwrLastwakeTsn : Nat := 0x30010
def oPwrSave : Nat := 0x30014
def oPwrVin : Nat := 0x30018
def oPwrTherm : Nat := 0x3001C
def oPwrKeepmask (i : Nat) : Nat := 0x30040 + 4*i
def oBnwTmo : Nat := 0xB0000
def oBnwSts : Nat := 0xB0004
def oBnwTmoCnt : Nat := 0xB0008
def oBnwLate : Nat := 0xB000C
def oBnwFencedCnt : Nat := 0xB0010
def oBnwTmorec : Nat := 0xB0014
def oBnwBad : Nat := 0xB0018
def oBnwUfenced : Nat := 0xB001C
def oTimCtl : Nat := 0x70000
def oTimSts : Nat := 0x70004
def oTimNs : Nat := 0x70008
def oTimSecLo : Nat := 0x7000C
def oTimSecHi : Nat := 0x70010
def oTimTsn : Nat := 0x70014
def oTimOffset : Nat := 0x70018
def oTimTrim : Nat := 0x7001C
def oTimServo : Nat := 0x70020
def oTimStepNs : Nat := 0x70024
def oTimLaststep : Nat := 0x70028
def oTimAsym (i : Nat) : Nat := 0x7002C + 4*i
def oTrcCtl : Nat := 0x80000
def oTrcSts : Nat := 0x80004
def oTrcBase : Nat := 0x80008
def oTrcSize : Nat := 0x8000C
def oTrcWp : Nat := 0x80010
def oTrcRp : Nat := 0x80014
def oTrcGrpLo : Nat := 0x80018
def oTrcGrpHi : Nat := 0x8001C
def oTrcStart : Nat := 0x80020
def oTrcStop : Nat := 0x80024
def oTrcPost : Nat := 0x80028
def oTrcLost : Nat := 0x8002C
def oTrcFinalLo : Nat := 0x80030
def oTrcUnseal : Nat := 0x80034
def oTrcInt : Nat := 0x80038
def oTrcFrcLo (i : Nat) : Nat := 0x80040 + 16*i
def oTrcFrcHi (i : Nat) : Nat := 0x80044 + 16*i
def oTrcFrcX (i : Nat) : Nat := 0x80048 + 16*i
def oTrcDacP (i : Nat) : Nat := 0x800C0 + 8*i
def oTrcDacR (i : Nat) : Nat := 0x800C4 + 8*i
def oTrcSeal (b : Nat) (h : Nat) : Nat := 0x80200 + 8*b + 4*h
def oLkpSts : Nat := 0x10000
def oLkpFw : Nat := 0x10004
def oLkpOwnSel : Nat := 0x10008
def oLkpOwn : Nat := 0x1000C
def oLkpHostWrLost : Nat := 0x10010
def oLkpHostWrRec : Nat := 0x10014
def oLkpMboxCmd (w : Nat) : Nat := 0x10100 + 4*w
def oLkpMboxRpl (w : Nat) : Nat := 0x10140 + 4*w
def oLkpMboxCtl : Nat := 0x10160
def oLkpCrLo (i : Nat) : Nat := 0x11000 + 32*i
def oLkpCrHi (i : Nat) : Nat := 0x11004 + 32*i
def oLkpCrPi (i : Nat) : Nat := 0x11008 + 32*i
def oLkpCrCi (i : Nat) : Nat := 0x1100C + 32*i
def oLkpRrLo (i : Nat) : Nat := 0x11010 + 32*i
def oLkpRrHi (i : Nat) : Nat := 0x11014 + 32*i
def oLkpRrPi (i : Nat) : Nat := 0x11018 + 32*i
def oLkpRrCi (i : Nat) : Nat := 0x1101C + 32*i
def oStdSerialLo : Nat := 0x60000
def oStdSerialHi : Nat := 0x60004
def oStdBoardId : Nat := 0x60008
def oStdBoardPos : Nat := 0x6000C
def oStdLnkTrim (n : Nat) (h : Nat) : Nat := 0x60100 + 8*n + 4*h
def oStdRingTrim : Nat := 0x60160
def oStdUser (j : Nat) : Nat := 0x60200 + 4*j
def oStdCmp (i : Nat) : Nat := 0x60400 + 4*i
def oStdSts : Nat := 0x60800

/-- Cards of CAP registers. -/
def cardsCap : List Card := [
  ⟨"CAP_ID", 0x0, 0, 1, 0, 1, 0x7E1A0820, 0x0, 0x0, 0x0, 0x0, 0x0, 0x0, 0xFFFFFFFF⟩,
  ⟨"CAP_VER", 0x4, 0, 1, 0, 1, 0x110, 0x0, 0x0, 0x0, 0x0, 0x0, 0x0, 0xFFFF⟩,
  ⟨"CAP_UNITS", 0x8, 0, 1, 0, 1, 0xFFFF, 0x0, 0x0, 0x0, 0x0, 0x0, 0x0, 0xFFFF⟩,
  ⟨"CAP_GEOM", 0xC, 0, 1, 0, 1, 0x404020, 0x0, 0x0, 0x0, 0x0, 0x0, 0x0, 0xFFFFFF⟩,
  ⟨"CAP_MEM", 0x10, 0, 1, 0, 1, 0x1840180, 0x0, 0x0, 0x0, 0x0, 0x0, 0x0, 0xFFFFFFF⟩,
  ⟨"CAP_LINKS", 0x14, 0, 1, 0, 1, 0x402C, 0x0, 0x0, 0x0, 0x0, 0x0, 0x0, 0xFFFF⟩,
  ⟨"CAP_GAU", 0x18, 0, 1, 0, 1, 0x100200, 0x0, 0x0, 0x0, 0x0, 0x0, 0x0, 0xFF03FF⟩,
  ⟨"CAP_FREQ", 0x1C, 0, 1, 0, 1, 0x1900640, 0x0, 0x0, 0x0, 0x0, 0x0, 0x0, 0xFFFFFFFF⟩,
  ⟨"CAP_DEVID", 0x20, 0, 1, 0, 1, 0x0, 0x0, 0x0, 0x0, 0x0, 0x0, 0x0, 0x3F⟩,
  ⟨"CAP_LAT_VER", 0x100, 0, 1, 0, 1, 0x104, 0x0, 0x0, 0x0, 0x0, 0x0, 0x0, 0xFFFF⟩,
  ⟨"CAP_LAT_DM", 0x104, 0, 1, 0, 1, 0x305, 0x0, 0x0, 0x0, 0x0, 0x0, 0x0, 0xFFFF⟩,
  ⟨"CAP_LAT_HOLD", 0x108, 0, 1, 0, 1, 0x2080340, 0x0, 0x0, 0x0, 0x0, 0x0, 0x0, 0xFFFFFFFF⟩,
  ⟨"CAP_LAT_REACH", 0x10C, 0, 1, 0, 1, 0x122301, 0x0, 0x0, 0x0, 0x0, 0x0, 0x0, 0xFFFFFF⟩,
  ⟨"CAP_LAT_XL", 0x110, 0, 1, 0, 1, 0x180060, 0x0, 0x0, 0x0, 0x0, 0x0, 0x0, 0xFF00FF⟩]

/-- Cards of BAS registers. -/
def cardsBas : List Card := [
  ⟨"BAS_CFLAG0", 0x100080, 65536, 32, 0, 1, 0x0, 0x0, 0x0, 0x0, 0x0, 0x0, 0x0, 0xFFFFFFFF⟩,
  ⟨"BAS_CFLAG1", 0x100084, 65536, 32, 0, 1, 0x0, 0x0, 0x0, 0x0, 0x0, 0x0, 0x0, 0xFFFFFFFF⟩,
  ⟨"CLU_STAT", 0x100400, 65536, 32, 256, 64, 0x0, 0x0, 0xFF, 0x0, 0x0, 0x0, 0x0, 0xFF00⟩,
  ⟨"CLU_SHD", 0x100404, 65536, 32, 256, 64, 0x0, 0x0, 0x0, 0x0, 0x0, 0x0, 0x0, 0xFFFFFFFF⟩,
  ⟨"CLU_REPAIR", 0x100408, 65536, 32, 256, 64, 0x0, 0x0, 0x0, 0x0, 0x0, 0x0, 0x0, 0x800001FF⟩,
  ⟨"CLU_ECC", 0x10040C, 65536, 32, 256, 64, 0x0, 0x0, 0x0, 0x0, 0xFFFFFFFF, 0x0, 0x0, 0x0⟩,
  ⟨"CLU_XEV", 0x100410, 65536, 32, 256, 64, 0x0, 0x0, 0x0, 0x0, 0xFFFFFFFF, 0x0, 0x0, 0x0⟩,
  ⟨"BAS_REACH_CFG", 0x100100, 65536, 32, 0, 1, 0x0, 0xF3, 0x0, 0x0, 0x0, 0x0, 0x0, 0x0⟩,
  ⟨"BAS_REACH_STS", 0x100104, 65536, 32, 0, 1, 0x0, 0x0, 0x1F, 0x0, 0x0, 0x0, 0x0, 0x0⟩,
  ⟨"BAS_CONT_CTL", 0x100108, 65536, 32, 0, 1, 0x0, 0x1, 0x0, 0x0, 0x0, 0x0, 0x0, 0x0⟩,
  ⟨"BAS_CONT_BEN", 0x10010C, 65536, 32, 0, 1, 0x0, 0x0, 0x0, 0x0, 0xFFFFFFFF, 0x0, 0x0, 0x0⟩,
  ⟨"BAS_CONT_HARD", 0x100110, 65536, 32, 0, 1, 0x0, 0x0, 0x0, 0x0, 0xFFFFFFFF, 0x0, 0x0, 0x0⟩,
  ⟨"BAS_CONT_REC", 0x100114, 65536, 32, 0, 1, 0x0, 0x0, 0x0, 0x0, 0x0, 0x0, 0x0, 0xFFFC07FF⟩,
  ⟨"BAS_CONT_REC_F", 0x100118, 65536, 32, 0, 1, 0x0, 0x0, 0x0, 0x0, 0x0, 0x0, 0x0, 0xFFFFFFFF⟩,
  ⟨"BAS_IMP_OVF", 0x10011C, 65536, 32, 0, 1, 0x0, 0x0, 0x0, 0x0, 0xFFFF, 0x0, 0x0, 0x0⟩,
  ⟨"BAS_RW_ECC", 0x100120, 65536, 32, 0, 1, 0x0, 0x0, 0x0, 0x0, 0xFFFFFFFF, 0x0, 0x0, 0x0⟩]

/-- Cards of SEQ registers. -/
def cardsSeq : List Card := [
  ⟨"SEQ_CFG", 0x90000, 0, 1, 0, 1, 0x8, 0x7FF, 0x0, 0x0, 0x0, 0x0, 0x0, 0x0⟩,
  ⟨"SEQ_FLIGHT", 0x90004, 0, 1, 0, 1, 0x1000, 0x1FFF, 0x0, 0x0, 0x0, 0x0, 0x0, 0x0⟩,
  ⟨"SEQ_LOCK", 0x90008, 0, 1, 0, 1, 0x10040, 0x11FFF, 0x0, 0x0, 0x0, 0x0, 0x0, 0x0⟩,
  ⟨"SEQ_THROTTLE", 0x9000C, 0, 1, 0, 1, 0x0, 0xFFFFF, 0x0, 0x0, 0x0, 0x0, 0x0, 0x0⟩,
  ⟨"SEQ_THR_STS", 0x90010, 0, 1, 0, 1, 0x0, 0x0, 0x0, 0x0, 0x0, 0x0, 0x0, 0xFFFFFF⟩,
  ⟨"SEQ_STS", 0x90014, 0, 1, 0, 1, 0x0, 0x0, 0x7A00, 0x0, 0x0, 0x0, 0x0, 0x1FFF84EF⟩,
  ⟨"SEQ_FRAME_LO", 0x90018, 0, 1, 0, 1, 0x0, 0x0, 0x0, 0x0, 0x0, 0x0, 0x0, 0xFFFFFFFF⟩,
  ⟨"SEQ_FRAME_HI", 0x9001C, 0, 1, 0, 1, 0x0, 0x0, 0x0, 0x0, 0x0, 0x0, 0x0, 0xFFFF⟩,
  ⟨"SEQ_GSC_LO", 0x90020, 0, 1, 0, 1, 0x0, 0x0, 0x0, 0x0, 0x0, 0x0, 0x0, 0xFFFFFFFF⟩,
  ⟨"SEQ_GSC_HI", 0x90024, 0, 1, 0, 1, 0x0, 0x0, 0x0, 0x0, 0x0, 0x0, 0x0, 0xFFFFFFFF⟩,
  ⟨"SEQ_FLT_NUM", 0x90028, 0, 1, 0, 1, 0x0, 0x0, 0x0, 0x0, 0x0, 0x0, 0x0, 0xFFFFFFFF⟩,
  ⟨"SEQ_STEPF", 0x9002C, 0, 1, 0, 1, 0x0, 0x0, 0x0, 0x0, 0x0, 0x0, 0x0, 0xFFFFFFFF⟩,
  ⟨"SEQ_OVR", 0x90030, 0, 1, 0, 1, 0x0, 0xFFFFFF, 0x0, 0x0, 0x0, 0x0, 0x0, 0x0⟩,
  ⟨"SEQ_OVR_MAX", 0x90034, 0, 1, 0, 1, 0x0, 0x0, 0x0, 0x0, 0xFFFFFF, 0x0, 0x0, 0x0⟩,
  ⟨"SEQ_STALL_CNT", 0x90038, 0, 1, 0, 1, 0x0, 0x0, 0x0, 0x0, 0xFFFFFFFF, 0x0, 0x0, 0x0⟩,
  ⟨"SEQ_STALL_CYC", 0x9003C, 0, 1, 0, 1, 0x0, 0x0, 0x0, 0x0, 0xFFFFFFFF, 0x0, 0x0, 0x0⟩,
  ⟨"SEQ_STALL_TMO", 0x90040, 0, 1, 0, 1, 0x1000, 0xFFFFFF, 0x0, 0x0, 0x0, 0x0, 0x0, 0x0⟩,
  ⟨"SEQ_LAST_EVT", 0x90044, 0, 1, 0, 1, 0x0, 0x0, 0x0, 0x0, 0x0, 0x0, 0x0, 0xFFFFFFFF⟩,
  ⟨"SEQ_HALT", 0x90048, 0, 1, 0, 1, 0x0, 0x0, 0x0, 0x1, 0x0, 0x0, 0x0, 0x0⟩,
  ⟨"SEQ_HORIZON", 0x9004C, 0, 1, 0, 1, 0x100, 0x0, 0x0, 0x0, 0x0, 0x0, 0x0, 0xFFFFFF⟩,
  ⟨"SEQ_INT", 0x90050, 0, 1, 0, 1, 0x0, 0xF, 0xF0000, 0x0, 0x0, 0x0, 0x0, 0x0⟩]

/-- Cards of DMC registers. -/
def cardsDmc : List Card := [
  ⟨"DMC_STS", 0x300000, 0, 1, 0, 1, 0x0, 0x0, 0x1F, 0x0, 0x0, 0x0, 0x0, 0x0⟩,
  ⟨"DMC_EQ", 0x300004, 0, 1, 0, 1, 0x50, 0x3, 0x0, 0x0, 0x0, 0x0, 0x0, 0xF0⟩,
  ⟨"DMC_PATROL", 0x300008, 0, 1, 0, 1, 0x3E8, 0xFFFF, 0x0, 0x0, 0x0, 0x0, 0x0, 0x0⟩,
  ⟨"DMC_ECC_CNT", 0x300010, 0, 1, 0, 1, 0x0, 0x0, 0x0, 0x0, 0xFFFFFFFF, 0x0, 0x0, 0x0⟩,
  ⟨"DMC_UE_REC", 0x300014, 0, 1, 0, 1, 0x0, 0x0, 0x0, 0x0, 0x0, 0x0, 0x0, 0xE0FFFFFF⟩,
  ⟨"DMC_HSTS", 0x300018, 0, 1, 0, 1, 0x0, 0x0, 0x3F, 0x0, 0x0, 0x0, 0x0, 0x0⟩,
  ⟨"DMC_HADDR", 0x30001C, 0, 1, 0, 1, 0x0, 0x0, 0x0, 0x0, 0x0, 0x0, 0x0, 0x9FFFFFFF⟩,
  ⟨"DMC_MARCH_STS", 0x300020, 0, 1, 0, 1, 0x0, 0x0, 0x40000000, 0x0, 0x0, 0x0, 0x0, 0xBE00FFFF⟩,
  ⟨"DMC_CONF", 0x300040, 4, 16, 0, 1, 0x0, 0x0, 0x0, 0x0, 0xFFFFFFFF, 0x0, 0x0, 0x0⟩,
  ⟨"DMC_OWN", 0x301000, 4, 384, 0, 1, 0x0, 0x37007FF, 0x80000000, 0x0, 0x0, 0x0, 0x0, 0x700E0000⟩,
  ⟨"DMC_REPAIR", 0x302000, 4, 384, 0, 1, 0x0, 0x0, 0x0, 0x0, 0x0, 0x0, 0x0, 0x800000FF⟩]

/-- Cards of STD registers. -/
def cardsStd : List Card := [
  ⟨"STD_MARCH", 0x60010, 0, 1, 0, 1, 0x7, 0x0, 0x0, 0x0, 0x0, 0x17, 0x0, 0x0⟩,
  ⟨"STD_GAU_VIO", 0x60040, 0, 1, 0, 1, 0x0, 0x0, 0x0, 0x0, 0x0, 0x1FFFF, 0x0, 0x0⟩,
  ⟨"STD_GAU_DRV", 0x60044, 0, 1, 0, 1, 0x55555555, 0x0, 0x0, 0x0, 0x0, 0xFFFFFFFF, 0x0, 0x0⟩,
  ⟨"STD_PARK", 0x60048, 0, 1, 0, 1, 0x0, 0x0, 0x0, 0x0, 0x0, 0xFFFFFFFF, 0x0, 0x0⟩,
  ⟨"STD_SAFE", 0x6004C, 0, 1, 0, 1, 0x0, 0x0, 0x0, 0x0, 0x0, 0xFFFFFFFF, 0x0, 0x0⟩,
  ⟨"STD_SAF_REACT", 0x60050, 0, 1, 0, 1, 0x4B96554, 0x0, 0x0, 0x0, 0x0, 0xFFFFFFFC, 0x0, 0x0⟩,
  ⟨"STD_SAF_FNMASK", 0x60054, 0, 1, 0, 1, 0x0, 0x0, 0x0, 0x0, 0x0, 0xFFFF, 0x0, 0x0⟩,
  ⟨"STD_PINPARK", 0x60058, 0, 1, 0, 1, 0x0, 0x0, 0x0, 0x0, 0x0, 0x3, 0x0, 0x0⟩,
  ⟨"STD_XTAL_WAIT", 0x60014, 0, 1, 0, 1, 0xA, 0x0, 0x0, 0x0, 0x0, 0x1FF, 0x0, 0x0⟩,
  ⟨"STD_SERIAL_LO", 0x60000, 0, 1, 0, 1, 0x0, 0x0, 0x0, 0x0, 0x0, 0x0, 0x0, 0xFFFFFFFF⟩,
  ⟨"STD_SERIAL_HI", 0x60004, 0, 1, 0, 1, 0x0, 0x0, 0x0, 0x0, 0x0, 0x0, 0x0, 0xFFFFFFFF⟩,
  ⟨"STD_BOARD_ID", 0x60008, 0, 1, 0, 1, 0x0, 0x0, 0x0, 0x0, 0x0, 0xFFFFFFFF, 0x0, 0x0⟩,
  ⟨"STD_BOARD_POS", 0x6000C, 0, 1, 0, 1, 0x0, 0x0, 0x0, 0x0, 0x0, 0xFFFFFFFF, 0x0, 0x0⟩,
  ⟨"STD_LNK_TRIM", 0x60100, 8, 12, 4, 2, 0x0, 0x0, 0x0, 0x0, 0x0, 0xFFFFFFFF, 0x0, 0x0⟩,
  ⟨"STD_RING_TRIM", 0x60160, 0, 1, 0, 1, 0x0, 0x0, 0x0, 0x0, 0x0, 0xFFFF, 0x0, 0x0⟩,
  ⟨"STD_USER", 0x60200, 4, 64, 0, 1, 0x0, 0x0, 0x0, 0x0, 0x0, 0xFFFFFFFF, 0x0, 0x0⟩,
  ⟨"STD_CMP", 0x60400, 4, 256, 0, 1, 0x0, 0x0, 0x70000000, 0x0, 0x0, 0x0, 0x0, 0x8001FFFF⟩,
  ⟨"STD_STS", 0x60800, 0, 1, 0, 1, 0x0, 0x0, 0x6, 0x0, 0x0, 0x0, 0x0, 0x1⟩]

/-- Cards of HLD registers. -/
def cardsHld : List Card := [
  ⟨"HLD_STS", 0xE0000, 0, 1, 0, 1, 0x0, 0x0, 0x3FF, 0x0, 0x0, 0x0, 0x0, 0x0⟩,
  ⟨"HLD_SCRUB", 0xE0004, 0, 1, 0, 1, 0x18, 0xFF, 0x0, 0x0, 0x0, 0x0, 0x0, 0x0⟩,
  ⟨"HLD_ECC_CNT", 0xE0008, 0, 1, 0, 1, 0x0, 0x0, 0x0, 0x0, 0xFFFFFFFF, 0x0, 0x0, 0x0⟩,
  ⟨"HLD_UE_LINE", 0xE000C, 0, 1, 0, 1, 0x0, 0x0, 0x0, 0x0, 0x0, 0x0, 0x0, 0xFFFFFFFF⟩,
  ⟨"HLD_UE_SRC", 0xE0010, 0, 1, 0, 1, 0x0, 0x0, 0x0, 0x0, 0x0, 0x0, 0x0, 0x1F⟩,
  ⟨"HLD_HSTS", 0xE0014, 0, 1, 0, 1, 0x0, 0x0, 0x1F, 0x0, 0x0, 0x0, 0x0, 0x0⟩,
  ⟨"HLD_HADDR", 0xE0018, 0, 1, 0, 1, 0x0, 0x0, 0x0, 0x0, 0x0, 0x0, 0x0, 0xFFFFFFFF⟩,
  ⟨"HLD_BANKLOAD", 0xE001C, 0, 1, 0, 1, 0x0, 0x0, 0x0, 0x0, 0xFFFFFFFF, 0x0, 0x0, 0x0⟩,
  ⟨"HLD_MAXLAT", 0xE0020, 0, 1, 0, 1, 0x0, 0x0, 0x0, 0x0, 0xFFFF, 0x0, 0x0, 0x0⟩,
  ⟨"HLD_STACK_STS", 0xE0040, 4, 4, 0, 1, 0x0, 0x0, 0x0, 0x0, 0x0, 0x0, 0x0, 0xFF0F⟩,
  ⟨"HLD_SLU_STS", 0xE1000, 4, 128, 0, 1, 0x0, 0x0, 0x0, 0x0, 0x0, 0x0, 0x0, 0x1FFFFF⟩,
  ⟨"HLD_SLU_CNT", 0xE1200, 4, 128, 0, 1, 0x0, 0x0, 0x0, 0x0, 0xFFFFFFFF, 0x0, 0x0, 0x0⟩,
  ⟨"HLD_RGN_BASE", 0xE8000, 128, 128, 8, 16, 0x0, 0x1FFFFFF, 0x0, 0x0, 0x0, 0x0, 0x0, 0x0⟩,
  ⟨"HLD_RGN_SIZE", 0xE8004, 128, 128, 8, 16, 0x0, 0x1FFFFFF, 0x0, 0x0, 0x0, 0x0, 0x0, 0x0⟩]

/-- Cards of LNK registers. -/
def cardsLnk : List Card := [
  ⟨"LNK_CTL", 0xA0000, 64, 12, 0, 1, 0x0, 0x1, 0x0, 0x2, 0x0, 0x0, 0x0, 0x0⟩,
  ⟨"LNK_STS", 0xA0004, 64, 12, 0, 1, 0x0, 0x0, 0x7C0, 0x0, 0x0, 0x0, 0x0, 0xF00007⟩,
  ⟨"LNK_PEER", 0xA0008, 64, 12, 0, 1, 0x0, 0x0, 0x0, 0x0, 0x0, 0x0, 0x0, 0xBFF0FFFF⟩,
  ⟨"LNK_DLY", 0xA000C, 64, 12, 0, 1, 0x0, 0x0, 0x0, 0x0, 0x0, 0x0, 0x0, 0xFF0FFFFF⟩,
  ⟨"LNK_LAT", 0xA0010, 64, 12, 0, 1, 0x0, 0xFF, 0x0, 0x0, 0x0, 0x0, 0x0, 0x0⟩,
  ⟨"LNK_FEC", 0xA0014, 64, 12, 0, 1, 0x0, 0x0, 0x0, 0x0, 0xFFFFFFFF, 0x0, 0x0, 0x0⟩,
  ⟨"LNK_RETRY", 0xA0018, 64, 12, 0, 1, 0x0, 0x0, 0x0, 0x0, 0xFFFFFFFF, 0x0, 0x0, 0x0⟩,
  ⟨"RING_STS", 0xA0400, 0, 1, 0, 1, 0x0, 0x0, 0x4, 0x0, 0x0, 0x0, 0x0, 0xB⟩,
  ⟨"LKG_CFG", 0xA0800, 0, 1, 0, 1, 0x0, 0xFFFF0003, 0x0, 0x0, 0x0, 0x0, 0x0, 0xFC⟩,
  ⟨"LKG_MODE", 0xA0804, 0, 1, 0, 1, 0x0, 0x1, 0x0, 0x0, 0x0, 0x0, 0x0, 0x0⟩,
  ⟨"LKG_MEMBERS_LO", 0xA0808, 0, 1, 0, 1, 0x0, 0xFFFFFFFF, 0x0, 0x0, 0x0, 0x0, 0x0, 0x0⟩,
  ⟨"LKG_MEMBERS_HI", 0xA080C, 0, 1, 0, 1, 0x0, 0xFFFFFFFF, 0x0, 0x0, 0x0, 0x0, 0x0, 0x0⟩,
  ⟨"LKG_LINKMASK", 0xA0810, 0, 1, 0, 1, 0x0, 0xFFF, 0x0, 0x0, 0x0, 0x0, 0x0, 0x0⟩,
  ⟨"LKG_STS", 0xA0814, 0, 1, 0, 1, 0x0, 0x0, 0x38, 0x0, 0x0, 0x0, 0x0, 0xF0000007⟩,
  ⟨"LKG_LOCKREC", 0xA0818, 0, 1, 0, 1, 0x0, 0x0, 0x0, 0x0, 0x0, 0x0, 0x0, 0xFFFFFFFF⟩]

/-- Cards of XCH registers. -/
def cardsXch : List Card := [
  ⟨"XCH_STS", 0xC0000, 0, 1, 0, 1, 0x0, 0x0, 0x7FF, 0x0, 0x0, 0x0, 0x0, 0x0⟩,
  ⟨"XCH_DONE", 0xC0004, 0, 1, 0, 1, 0x0, 0x0, 0x0, 0x0, 0x0, 0x0, 0x3FFF, 0x0⟩,
  ⟨"XCH_FINAL_LO", 0xC0008, 0, 1, 0, 1, 0x0, 0x0, 0x0, 0x0, 0x0, 0x0, 0x0, 0xFFFFFFFF⟩,
  ⟨"XCH_CAPREC", 0xC000C, 0, 1, 0, 1, 0x0, 0x0, 0x0, 0x0, 0x0, 0x0, 0x0, 0xFFE3FFFF⟩,
  ⟨"XCH_FIRED", 0xC0010, 0, 1, 0, 1, 0x0, 0x0, 0x0, 0x0, 0xFFFFFFFF, 0x0, 0x0, 0x0⟩,
  ⟨"XCH_LOSS", 0xC0014, 0, 1, 0, 1, 0x0, 0x0, 0x0, 0x0, 0xFFFFFFFF, 0x0, 0x0, 0x0⟩,
  ⟨"XCH_RET_LO", 0xC0018, 0, 1, 0, 1, 0x0, 0xFFFFF11F, 0x0, 0x0, 0x0, 0x0, 0x0, 0x0⟩,
  ⟨"XCH_RET_HI", 0xC001C, 0, 1, 0, 1, 0x0, 0xFFFFFFFF, 0x0, 0x0, 0x0, 0x0, 0x0, 0x0⟩,
  ⟨"XCH_RET_PI", 0xC0020, 0, 1, 0, 1, 0x0, 0xFFFFFFFF, 0x0, 0x0, 0x0, 0x0, 0x0, 0x0⟩,
  ⟨"XCH_RET_CI", 0xC0024, 0, 1, 0, 1, 0x0, 0x0, 0x0, 0x0, 0x0, 0x0, 0x0, 0xFFFFFFFF⟩,
  ⟨"XCH_CTL", 0xC0028, 0, 1, 0, 1, 0x0, 0x3F, 0x0, 0x0, 0x0, 0x0, 0x0, 0x0⟩,
  ⟨"XCH_PART", 0xC0100, 4, 64, 0, 1, 0x0, 0x7FFFFFFF, 0x0, 0x0, 0x0, 0x0, 0x0, 0x0⟩,
  ⟨"XCH_PART_USE", 0xC0200, 4, 64, 0, 1, 0x0, 0x0, 0x0, 0x0, 0x3FFC0000, 0x0, 0x0, 0x3FFFF⟩,
  ⟨"XCH_GRP", 0xC0300, 4, 64, 0, 1, 0x0, 0x3FFF, 0x0, 0x0, 0x0, 0x0, 0x0, 0x0⟩,
  ⟨"XCH_RING_LO", 0xC1000, 16, 64, 0, 1, 0x0, 0xFFFFF11F, 0x0, 0x0, 0x0, 0x0, 0x0, 0x0⟩,
  ⟨"XCH_RING_HI", 0xC1004, 16, 64, 0, 1, 0x0, 0xFFFFFFFF, 0x0, 0x0, 0x0, 0x0, 0x0, 0x0⟩,
  ⟨"XCH_RING_PI", 0xC1008, 16, 64, 0, 1, 0x0, 0x0, 0x0, 0x0, 0x0, 0x0, 0x0, 0xFFFFFFFF⟩,
  ⟨"XCH_RING_CI", 0xC100C, 16, 64, 0, 1, 0x0, 0xFFFFFFFF, 0x0, 0x0, 0x0, 0x0, 0x0, 0x0⟩]

/-- Cards of GAU registers. -/
def cardsGau : List Card := [
  ⟨"GAU_STS", 0xD0000, 0, 1, 0, 1, 0x0, 0x0, 0x3F, 0x0, 0x0, 0x0, 0x0, 0x0⟩,
  ⟨"GAU_HOLDBACK", 0xD0004, 0, 1, 0, 1, 0x40, 0x0, 0x0, 0x0, 0x0, 0x0, 0x0, 0x7F⟩,
  ⟨"GAU_VER_F", 0xD0008, 0, 1, 0, 1, 0x0, 0x0, 0x0, 0x0, 0x0, 0x0, 0x0, 0xFFFFFFFF⟩,
  ⟨"GAU_FF_USE", 0xD000C, 0, 1, 0, 1, 0x0, 0x0, 0x0, 0x0, 0x0, 0x0, 0x0, 0x3FFFF⟩,
  ⟨"GAU_CNT", 0xD0010, 4, 4, 0, 1, 0x0, 0x0, 0x0, 0x0, 0xFFFFFFFF, 0x0, 0x0, 0x0⟩,
  ⟨"GAU_FF1_LANE", 0xD0020, 0, 1, 0, 1, 0x0, 0x0, 0x0, 0x0, 0x0, 0x0, 0x0, 0x800001FF⟩,
  ⟨"GAU_FF1_F_LO", 0xD0024, 0, 1, 0, 1, 0x0, 0x0, 0x0, 0x0, 0x0, 0x0, 0x0, 0xFFFFFFFF⟩,
  ⟨"GAU_FF1_F_HI", 0xD0028, 0, 1, 0, 1, 0x0, 0x0, 0x0, 0x0, 0x0, 0x0, 0x0, 0xFFFF⟩,
  ⟨"GAU_FF1_TSN", 0xD002C, 0, 1, 0, 1, 0x0, 0x0, 0x0, 0x0, 0x0, 0x0, 0x0, 0xFFFFFFFF⟩,
  ⟨"GAU_FF_LOST", 0xD0030, 0, 1, 0, 1, 0x0, 0x0, 0x0, 0x0, 0xFFFFFFFF, 0x0, 0x0, 0x0⟩,
  ⟨"GAU_INT", 0xD0034, 0, 1, 0, 1, 0x0, 0xF, 0xF0000, 0x0, 0x0, 0x0, 0x0, 0x0⟩,
  ⟨"GAU_BANK", 0xD0040, 4, 16, 0, 1, 0x0, 0xF, 0x0, 0x0, 0x0, 0x0, 0x0, 0x700⟩,
  ⟨"GAU_RING_LO", 0xD0080, 16, 2, 0, 1, 0x0, 0xFFFFF11F, 0x0, 0x0, 0x0, 0x0, 0x0, 0x0⟩,
  ⟨"GAU_RING_HI", 0xD0084, 16, 2, 0, 1, 0x0, 0xFFFFFFFF, 0x0, 0x0, 0x0, 0x0, 0x0, 0x0⟩,
  ⟨"GAU_RING_PI", 0xD0088, 16, 2, 0, 1, 0x0, 0x0, 0x0, 0x0, 0x0, 0x0, 0x0, 0xFFFFFFFF⟩,
  ⟨"GAU_RING_CI", 0xD008C, 16, 2, 0, 1, 0x0, 0xFFFFFFFF, 0x0, 0x0, 0x0, 0x0, 0x0, 0x0⟩,
  ⟨"GAU_EDGE_CTL", 0xD00A0, 0, 1, 0, 1, 0x0, 0xFFFFFFFF, 0x0, 0x0, 0x0, 0x0, 0x0, 0x0⟩,
  ⟨"GAU_EDGE_MERGED", 0xD0100, 4, 16, 0, 1, 0x0, 0x0, 0x0, 0x0, 0xFFFFFFFF, 0x0, 0x0, 0x0⟩,
  ⟨"GAU_EDGE_OVF", 0xD0140, 4, 16, 0, 1, 0x0, 0x0, 0x0, 0x0, 0xFFFFFFFF, 0x0, 0x0, 0x0⟩,
  ⟨"GAU_ZDMAP", 0xD0200, 4, 64, 0, 1, 0x0, 0x3FF, 0x0, 0x0, 0x0, 0x0, 0x0, 0x0⟩,
  ⟨"GAU_LANE", 0xD1000, 4, 512, 0, 1, 0x0, 0x1F, 0x0, 0x0, 0x0, 0x0, 0x0, 0x0⟩,
  ⟨"GAU_FCNT", 0xD2000, 4, 512, 0, 1, 0x0, 0x0, 0x0, 0x0, 0xFFFFFFFF, 0x0, 0x0, 0x0⟩]

/-- Cards of SAF registers. -/
def cardsSaf : List Card := [
  ⟨"SAF_STS", 0x50000, 0, 1, 0, 1, 0x0, 0x0, 0xFFFF, 0x0, 0x0, 0x0, 0x0, 0xC0010000⟩,
  ⟨"SAF_REACT", 0x50004, 0, 1, 0, 1, 0x4B96554, 0xFFFFFFFC, 0x0, 0x0, 0x0, 0x0, 0x0, 0x3⟩,
  ⟨"SAF_FNMASK", 0x50008, 0, 1, 0, 1, 0x0, 0xFFFF, 0x0, 0x0, 0x0, 0x0, 0x0, 0x0⟩,
  ⟨"SAF_CTL", 0x5000C, 0, 1, 0, 1, 0x0, 0x1, 0x0, 0x0, 0x0, 0x0, 0x0, 0x0⟩,
  ⟨"SAF_LOG_STS", 0x50010, 0, 1, 0, 1, 0x0, 0x0, 0x0, 0x0, 0xFFFF0000, 0x0, 0x0, 0x7FF⟩,
  ⟨"SAF_FIRST", 0x50020, 4, 4, 0, 1, 0x0, 0x0, 0x0, 0x0, 0x0, 0x0, 0x0, 0xFFFFFFFF⟩,
  ⟨"SAF_MON", 0x50030, 0, 1, 0, 1, 0x0, 0x0, 0xFF, 0x0, 0xFF0000, 0x0, 0x0, 0xFF000000⟩,
  ⟨"SAF_TLIM", 0x50034, 0, 1, 0, 1, 0x7369, 0xFF, 0x0, 0x0, 0x0, 0x0, 0x0, 0xFF00⟩,
  ⟨"SAF_INJECT", 0x50038, 0, 1, 0, 1, 0x0, 0x0, 0x0, 0x0, 0x0, 0x0, 0xFFFF, 0x0⟩,
  ⟨"SAF_INT", 0x5003C, 0, 1, 0, 1, 0x0, 0xF, 0xF0000, 0x0, 0x0, 0x0, 0x0, 0x0⟩]

/-- Cards of CFG registers. -/
def cardsCfg : List Card := [
  ⟨"CFG_BOOT", 0x40000, 0, 1, 0, 1, 0x0, 0x0, 0x0, 0x0, 0x0, 0x0, 0x0, 0xFFFF0F0F⟩,
  ⟨"CFG_STS", 0x40004, 0, 1, 0, 1, 0x0, 0x0, 0x8, 0x0, 0x0, 0x0, 0x0, 0xFF000016⟩,
  ⟨"CFG_CAUSE", 0x40008, 0, 1, 0, 1, 0x10000000, 0x0, 0x0, 0x0, 0x0, 0x0, 0x0, 0xFFC00000⟩,
  ⟨"CFG_RST", 0x4000C, 0, 1, 0, 1, 0x0, 0x0, 0x0, 0x3, 0x0, 0x0, 0xFFFF0000, 0x0⟩,
  ⟨"CFG_FENCED", 0x40010, 0, 1, 0, 1, 0xFFFFFFFF, 0x0, 0x0, 0x0, 0x0, 0x0, 0x0, 0xFFFFFFFF⟩,
  ⟨"CFG_PLACED", 0x40014, 0, 1, 0, 1, 0x0, 0x0, 0x0, 0x0, 0x0, 0x0, 0x0, 0xFFFFFFFF⟩,
  ⟨"CFG_LOADED", 0x40018, 0, 1, 0, 1, 0x0, 0x0, 0x0, 0x0, 0x0, 0x0, 0x0, 0xFFFFFFFF⟩,
  ⟨"CFG_LOAD", 0x4001C, 0, 1, 0, 1, 0x0, 0x0, 0x0, 0x0, 0x0, 0x0, 0x0, 0xC0FFFFFF⟩]

/-- Cards of CKG registers. -/
def cardsCkg : List Card := [
  ⟨"CKG_STS", 0x20000, 0, 1, 0, 1, 0x0, 0x0, 0x79, 0x0, 0x0, 0x0, 0x0, 0x180⟩,
  ⟨"CKG_EN0", 0x20004, 0, 1, 0, 1, 0xFFFF, 0xFFC0, 0x0, 0x0, 0x0, 0x0, 0x0, 0x3F⟩,
  ⟨"CKG_EN1", 0x20008, 0, 1, 0, 1, 0xFFFFFFFF, 0xFFFFFFFF, 0x0, 0x0, 0x0, 0x0, 0x0, 0x0⟩,
  ⟨"CKG_TOL", 0x2000C, 0, 1, 0, 1, 0x64, 0x3FF, 0x0, 0x0, 0x0, 0x0, 0x0, 0x0⟩,
  ⟨"CKG_STEP", 0x20010, 0, 1, 0, 1, 0x6400000, 0x7FF0000, 0x0, 0x200, 0x0, 0x0, 0x0, 0x11F⟩,
  ⟨"CKG_PLL", 0x20020, 4, 5, 0, 1, 0x0, 0x0, 0x10000000, 0x0, 0x0, 0x0, 0x0, 0xE000FFFF⟩]

/-- Cards of PWR registers. -/
def cardsPwr : List Card := [
  ⟨"PWR_STS", 0x30000, 0, 1, 0, 1, 0x0, 0x0, 0x7000, 0x0, 0x0, 0x0, 0x0, 0x77F⟩,
  ⟨"PWR_CTL", 0x30004, 0, 1, 0, 1, 0x71, 0x71, 0x0, 0x0, 0x0, 0x0, 0x0, 0x0⟩,
  ⟨"PWR_WAKE_TMR", 0x30008, 0, 1, 0, 1, 0x0, 0xFFFFFFFF, 0x0, 0x0, 0x0, 0x0, 0x0, 0x0⟩,
  ⟨"PWR_LASTWAKE", 0x3000C, 0, 1, 0, 1, 0x0, 0x0, 0x0, 0x0, 0x0, 0x0, 0x0, 0xC707FFFF⟩,
  ⟨"PWR_LASTWAKE_TSN", 0x30010, 0, 1, 0, 1, 0x0, 0x0, 0x0, 0x0, 0x0, 0x0, 0x0, 0xFFFFFFFF⟩,
  ⟨"PWR_SAVE", 0x30014, 0, 1, 0, 1, 0x0, 0x1FFFFFF, 0x0, 0x0, 0x0, 0x0, 0x0, 0x0⟩,
  ⟨"PWR_VIN", 0x30018, 0, 1, 0, 1, 0x0, 0x0, 0x0, 0x0, 0x0, 0x0, 0x0, 0xFFFFFFFF⟩,
  ⟨"PWR_THERM", 0x3001C, 0, 1, 0, 1, 0x4005C, 0xFFFFFFF, 0x0, 0x0, 0x0, 0x0, 0x0, 0x0⟩,
  ⟨"PWR_KEEPMASK", 0x30040, 4, 12, 0, 1, 0x0, 0xFFFFFFFF, 0x0, 0x0, 0x0, 0x0, 0x0, 0x0⟩]

/-- Cards of BNW registers. -/
def cardsBnw : List Card := [
  ⟨"BNW_TMO", 0xB0000, 0, 1, 0, 1, 0x64, 0x3FFF, 0x0, 0x0, 0x0, 0x0, 0x0, 0x0⟩,
  ⟨"BNW_STS", 0xB0004, 0, 1, 0, 1, 0x0, 0x0, 0x3F, 0x0, 0x0, 0x0, 0x0, 0x0⟩,
  ⟨"BNW_TMO_CNT", 0xB0008, 0, 1, 0, 1, 0x0, 0x0, 0x0, 0x0, 0xFFFFFFFF, 0x0, 0x0, 0x0⟩,
  ⟨"BNW_LATE", 0xB000C, 0, 1, 0, 1, 0x0, 0x0, 0x0, 0x0, 0xFFFFFFFF, 0x0, 0x0, 0x0⟩,
  ⟨"BNW_FENCED_CNT", 0xB0010, 0, 1, 0, 1, 0x0, 0x0, 0x0, 0x0, 0xFFFFFFFF, 0x0, 0x0, 0x0⟩,
  ⟨"BNW_TMOREC", 0xB0014, 0, 1, 0, 1, 0x0, 0x0, 0x0, 0x0, 0x0, 0x0, 0x0, 0xFFFFCFFF⟩,
  ⟨"BNW_BAD", 0xB0018, 0, 1, 0, 1, 0x0, 0x0, 0x0, 0x0, 0xFFFF, 0x0, 0x0, 0x0⟩,
  ⟨"BNW_UFENCED", 0xB001C, 0, 1, 0, 1, 0x0, 0x0, 0x0, 0x0, 0x0, 0x0, 0x0, 0xFFFF⟩]

/-- Cards of TIM registers. -/
def cardsTim : List Card := [
  ⟨"TIM_CTL", 0x70000, 0, 1, 0, 1, 0x4, 0xF, 0x0, 0x0, 0x0, 0x0, 0x0, 0x0⟩,
  ⟨"TIM_STS", 0x70004, 0, 1, 0, 1, 0x0, 0x0, 0x38, 0x0, 0x0, 0x0, 0x0, 0x3FFC107⟩,
  ⟨"TIM_NS", 0x70008, 0, 1, 0, 1, 0x0, 0x0, 0x0, 0x0, 0x0, 0x0, 0x0, 0x3FFFFFFF⟩,
  ⟨"TIM_SEC_LO", 0x7000C, 0, 1, 0, 1, 0x0, 0x0, 0x0, 0x0, 0x0, 0x0, 0x0, 0xFFFFFFFF⟩,
  ⟨"TIM_SEC_HI", 0x70010, 0, 1, 0, 1, 0x0, 0x0, 0x0, 0x0, 0x0, 0x0, 0x0, 0xFFFF⟩,
  ⟨"TIM_TSN", 0x70014, 0, 1, 0, 1, 0x0, 0x0, 0x0, 0x0, 0x0, 0x0, 0x0, 0xFFFFFFFF⟩,
  ⟨"TIM_OFFSET", 0x70018, 0, 1, 0, 1, 0x0, 0x0, 0x0, 0x0, 0x0, 0x0, 0x0, 0xFFFFFFFF⟩,
  ⟨"TIM_TRIM", 0x7001C, 0, 1, 0, 1, 0x0, 0xFFFFFFFF, 0x0, 0x0, 0x0, 0x0, 0x0, 0x0⟩,
  ⟨"TIM_SERVO", 0x70020, 0, 1, 0, 1, 0x10000080, 0xFFFF00FF, 0x0, 0x0, 0x0, 0x0, 0x0, 0x0⟩,
  ⟨"TIM_STEP_NS", 0x70024, 0, 1, 0, 1, 0x3E8, 0xFFFFFF, 0x0, 0x0, 0x0, 0x0, 0x0, 0x0⟩,
  ⟨"TIM_LASTSTEP", 0x70028, 0, 1, 0, 1, 0x0, 0x0, 0x0, 0x0, 0x0, 0x0, 0x0, 0xFFFFFFFF⟩,
  ⟨"TIM_ASYM", 0x7002C, 4, 3, 0, 1, 0x0, 0xFFFF, 0x0, 0x0, 0x0, 0x0, 0x0, 0x0⟩]

/-- Cards of TRC registers. -/
def cardsTrc : List Card := [
  ⟨"TRC_CTL", 0x80000, 0, 1, 0, 1, 0x0, 0xE1, 0x0, 0x0, 0x0, 0x0, 0x0, 0x0⟩,
  ⟨"TRC_STS", 0x80004, 0, 1, 0, 1, 0x0, 0x0, 0x3F, 0x0, 0x0, 0x0, 0x0, 0x70000⟩,
  ⟨"TRC_BASE", 0x80008, 0, 1, 0, 1, 0x0, 0x1FFFFFF, 0x0, 0x0, 0x0, 0x0, 0x0, 0x0⟩,
  ⟨"TRC_SIZE", 0x8000C, 0, 1, 0, 1, 0x0, 0xFFFFFF, 0x0, 0x0, 0x0, 0x0, 0x0, 0x0⟩,
  ⟨"TRC_WP", 0x80010, 0, 1, 0, 1, 0x0, 0x0, 0x0, 0x0, 0x0, 0x0, 0x0, 0xBFFFFFFF⟩,
  ⟨"TRC_RP", 0x80014, 0, 1, 0, 1, 0x0, 0xBFFFFFFF, 0x0, 0x0, 0x0, 0x0, 0x0, 0x0⟩,
  ⟨"TRC_GRP_LO", 0x80018, 0, 1, 0, 1, 0x0, 0xFFFFFFFF, 0x0, 0x0, 0x0, 0x0, 0x0, 0x0⟩,
  ⟨"TRC_GRP_HI", 0x8001C, 0, 1, 0, 1, 0x0, 0xFFFFFFFF, 0x0, 0x0, 0x0, 0x0, 0x0, 0x0⟩,
  ⟨"TRC_START", 0x80020, 0, 1, 0, 1, 0x0, 0xFFFFF, 0x0, 0x0, 0x0, 0x0, 0x0, 0x0⟩,
  ⟨"TRC_STOP", 0x80024, 0, 1, 0, 1, 0x0, 0xFFFFF, 0x0, 0x0, 0x0, 0x0, 0x0, 0x0⟩,
  ⟨"TRC_POST", 0x80028, 0, 1, 0, 1, 0x0, 0xFFFFFFFF, 0x0, 0x0, 0x0, 0x0, 0x0, 0x0⟩,
  ⟨"TRC_LOST", 0x8002C, 0, 1, 0, 1, 0x0, 0x0, 0x0, 0x0, 0xFFFFFFFF, 0x0, 0x0, 0x0⟩,
  ⟨"TRC_FINAL_LO", 0x80030, 0, 1, 0, 1, 0x0, 0x0, 0x0, 0x0, 0x0, 0x0, 0x0, 0xFFFFFFFF⟩,
  ⟨"TRC_UNSEAL", 0x80034, 0, 1, 0, 1, 0x0, 0x0, 0x0, 0x0, 0x0, 0x0, 0x0, 0xFFFFF⟩,
  ⟨"TRC_INT", 0x80038, 0, 1, 0, 1, 0x0, 0xF, 0xF0000, 0x0, 0x0, 0x0, 0x0, 0x0⟩,
  ⟨"TRC_FRC_LO", 0x80040, 16, 8, 0, 1, 0x0, 0xFFFFFFFF, 0x0, 0x0, 0x0, 0x0, 0x0, 0x0⟩,
  ⟨"TRC_FRC_HI", 0x80044, 16, 8, 0, 1, 0x0, 0xFFFFFFFF, 0x0, 0x0, 0x0, 0x0, 0x0, 0x0⟩,
  ⟨"TRC_FRC_X", 0x80048, 16, 8, 0, 1, 0x0, 0xFFFFFFFF, 0x0, 0x0, 0x0, 0x0, 0x0, 0x0⟩,
  ⟨"TRC_DAC_P", 0x800C0, 8, 8, 0, 1, 0x0, 0x71FFFF, 0x0, 0x0, 0x0, 0x0, 0x0, 0x0⟩,
  ⟨"TRC_DAC_R", 0x800C4, 8, 8, 0, 1, 0x0, 0x7FF07FF, 0x0, 0x0, 0x0, 0x0, 0x0, 0x0⟩,
  ⟨"TRC_SEAL", 0x80200, 8, 32, 4, 2, 0x0, 0x0, 0x0, 0x0, 0x0, 0x0, 0x0, 0xFFFFFFFF⟩]

/-- Cards of LKP registers. -/
def cardsLkp : List Card := [
  ⟨"LKP_STS", 0x10000, 0, 1, 0, 1, 0x0, 0x0, 0xFFFF, 0x0, 0x0, 0x0, 0x0, 0x80000000⟩,
  ⟨"LKP_FW", 0x10004, 0, 1, 0, 1, 0x0, 0x0, 0x0, 0x0, 0x0, 0x0, 0x0, 0xFFFFFFFF⟩,
  ⟨"LKP_OWN_SEL", 0x10008, 0, 1, 0, 1, 0x0, 0x3FFFF80, 0x0, 0x0, 0x0, 0x0, 0x0, 0x0⟩,
  ⟨"LKP_OWN", 0x1000C, 0, 1, 0, 1, 0x0, 0x0, 0x0, 0x0, 0x0, 0x0, 0x0, 0xFFFFFFFF⟩,
  ⟨"LKP_HOST_WR_LOST", 0x10010, 0, 1, 0, 1, 0x0, 0x0, 0x0, 0x0, 0xFFFFFFFF, 0x0, 0x0, 0x0⟩,
  ⟨"LKP_HOST_WR_REC", 0x10014, 0, 1, 0, 1, 0x0, 0x0, 0x0, 0x0, 0xC0FFFFFF, 0x0, 0x0, 0x0⟩,
  ⟨"LKP_MBOX_CMD", 0x10100, 4, 16, 0, 1, 0x0, 0xFFFFFFFF, 0x0, 0x0, 0x0, 0x0, 0x0, 0x0⟩,
  ⟨"LKP_MBOX_RPL", 0x10140, 4, 8, 0, 1, 0x0, 0x0, 0x0, 0x0, 0x0, 0x0, 0x0, 0xFFFFFFFF⟩,
  ⟨"LKP_MBOX_CTL", 0x10160, 0, 1, 0, 1, 0x0, 0x0, 0x2, 0x1, 0x0, 0x0, 0x0, 0x0⟩,
  ⟨"LKP_CR_LO", 0x11000, 32, 16, 0, 1, 0x0, 0xFFFFF11F, 0x0, 0x0, 0x0, 0x0, 0x0, 0x0⟩,
  ⟨"LKP_CR_HI", 0x11004, 32, 16, 0, 1, 0x0, 0xFFFFFFFF, 0x0, 0x0, 0x0, 0x0, 0x0, 0x0⟩,
  ⟨"LKP_CR_PI", 0x11008, 32, 16, 0, 1, 0x0, 0xFFFFFFFF, 0x0, 0x0, 0x0, 0x0, 0x0, 0x0⟩,
  ⟨"LKP_CR_CI", 0x1100C, 32, 16, 0, 1, 0x0, 0x0, 0x0, 0x0, 0x0, 0x0, 0x0, 0xFFFFFFFF⟩,
  ⟨"LKP_RR_LO", 0x11010, 32, 16, 0, 1, 0x0, 0xFFFFF11F, 0x0, 0x0, 0x0, 0x0, 0x0, 0x0⟩,
  ⟨"LKP_RR_HI", 0x11014, 32, 16, 0, 1, 0x0, 0xFFFFFFFF, 0x0, 0x0, 0x0, 0x0, 0x0, 0x0⟩,
  ⟨"LKP_RR_PI", 0x11018, 32, 16, 0, 1, 0x0, 0x0, 0x0, 0x0, 0x0, 0x0, 0x0, 0xFFFFFFFF⟩,
  ⟨"LKP_RR_CI", 0x1101C, 32, 16, 0, 1, 0x0, 0xFFFFFFFF, 0x0, 0x0, 0x0, 0x0, 0x0, 0x0⟩]

/-- Every register card. -/
def cards : List Card :=
  cardsCap ++ cardsBas ++ cardsSeq ++ cardsDmc ++ cardsStd ++ cardsHld ++ cardsLnk ++
  cardsXch ++ cardsGau ++ cardsSaf ++ cardsCfg ++ cardsCkg ++ cardsPwr ++ cardsBnw ++ cardsTim ++ cardsTrc ++
  cardsLkp

/-- `off` is an element of the card's array. -/
def cardHas (c : Card) (off : Nat) : Bool :=
  c.base ≤ off &&
    (let d := off - c.base
     if c.s1 = 0 then d == 0
     else if c.s2 = 0 then d % c.s1 == 0 && d / c.s1 < c.n1
     else d / c.s1 < c.n1 && (d % c.s1) % c.s2 == 0 && (d % c.s1) / c.s2 < c.n2)

/-- The card of the register at a BAR0 offset; none at a reserved offset. -/
def cardAt (off : Nat) : Option Card := cards.find? fun c => cardHas c off

/-- What the register at an offset reads as after reset; 0 at a reserved offset. -/
def cardReset (off : Nat) : Word :=
  match cardAt off with
  | some c => BitVec.ofNat 32 c.reset
  | none => 0#32

end Sys2Proof.Machine
end

