-- ==== Sys2Proof/Machine/Maps.lean ====
section
/-!
DEFINITION. Sparse maps in one canonical form: a list of (key, value) pairs with strictly rising keys and no entry equal
to what an unlisted key reads as.  Every memory, store, table and register file of the State is one of these; the value
of an unlisted key is given by the caller of `mget` and `mset`.
-/
namespace Sys2Proof.Machine

/-- What key `k` holds; `d` where the map does not list it. -/
def mget {α : Type} (d : α) : List (Nat × α) → Nat → α
  | [], _ => d
  | (k', v) :: t, k => if k' = k then v else mget d t k

/-- The map without key `k`. -/
def mdel {α : Type} : List (Nat × α) → Nat → List (Nat × α)
  | [], _ => []
  | (k', v) :: t, k => if k' = k then mdel t k else (k', v) :: mdel t k

/-- The pair put before the first larger key. -/
def mins {α : Type} : List (Nat × α) → Nat → α → List (Nat × α)
  | [], k, v => [(k, v)]
  | (k', v') :: t, k, v => if k < k' then (k, v) :: (k', v') :: t else (k', v') :: mins t k v

/-- Key `k` made to hold `v`; the value of an unlisted key takes the entry away. -/
def mset {α : Type} [DecidableEq α] (d : α) (m : List (Nat × α)) (k : Nat) (v : α) : List (Nat × α) :=
  if v = d then mdel m k else mins (mdel m k) k v

/-- The map with what key `k` holds changed by `f`. -/
def mmod {α : Type} [DecidableEq α] (d : α) (m : List (Nat × α)) (k : Nat) (f : α → α) : List (Nat × α) :=
  mset d m k (f (mget d m k))

/-- The keys the map lists that `p` accepts, and their values. -/
def mkeep {α : Type} (p : Nat → Bool) (m : List (Nat × α)) : List (Nat × α) := m.filter fun kv => p kv.1

/-- Every pair of a list written in turn. -/
def msetAll {α : Type} [DecidableEq α] (d : α) (m : List (Nat × α)) (kvs : List (Nat × α)) : List (Nat × α) :=
  kvs.foldl (fun m kv => mset d m kv.1 kv.2) m

/-- Every value of the map changed by `f`; entries that become the unlisted value go. -/
def mmapv {α : Type} [DecidableEq α] (d : α) (f : α → α) (m : List (Nat × α)) : List (Nat × α) :=
  (m.map fun kv => (kv.1, f kv.2)).filter fun kv => decide (kv.2 ≠ d)

/-- The `n` keys from `lo` on made to hold `v`. -/
def mfill {α : Type} [DecidableEq α] (d : α) (m : List (Nat × α)) (lo n : Nat) (v : α) : List (Nat × α) :=
  mkeep (fun k => decide (k < lo)) m ++ (if v = d then [] else (List.range n).map fun i => (lo + i, v)) ++
    mkeep (fun k => decide (lo + n ≤ k)) m

/-- Every key of the list rises strictly above `lo` and holds something other than `d` (the canonical form's tail). -/
def mwfFrom {α : Type} [DecidableEq α] (d : α) : Nat → List (Nat × α) → Bool
  | _, [] => true
  | lo, (k, v) :: t => decide (lo ≤ k) && decide (v ≠ d) && mwfFrom d (k + 1) t

/-- The canonical form holds. -/
def mwf {α : Type} [DecidableEq α] (d : α) (m : List (Nat × α)) : Bool := mwfFrom d 0 m

/-- The same where the value of an unlisted key depends on the key (the register file): keys rise strictly from `lo` on. -/
def mwfBy {α : Type} [DecidableEq α] (d : Nat → α) : Nat → List (Nat × α) → Bool
  | _, [] => true
  | lo, (k, v) :: t => decide (lo ≤ k) && decide (v ≠ d k) && mwfBy d (k + 1) t

end Sys2Proof.Machine
end

