-- ==== Sys2Proof/Machine/State.lean ====
section
/-!
DEFINITION. The state of an FX-820: the queue of commands and events, the register file, and what the units hold beyond their
registers; the reasons a step can stop; the state after a power-on reset.  A list of pairs is a map in the canonical form of
Maps.lean: keys strictly rising, no entry equal to what an unlisted key reads as.
-/
namespace Sys2Proof.Machine

/-- Members of the family (00_scope). -/
inductive Member where
  | fx820 | fx820e | fx410 | fx205 | fx051
  deriving DecidableEq, Repr

/-- What the silicon and the board fix: the member, the stepping, the straps (R1, R22, R287). -/
structure DevCfg where
  member : Member       -- the family member
  stepB  : Bool         -- stepping B0 (else A0)
  devid  : Nat          -- straps DEVID[5:0] as sampled at power-on reset
  pins   : Nat          -- straps DEVID[5:0] as they stand on the board
  deriving DecidableEq, Repr

/-- The error state of one ECC-protected word (R34, R100, R137, R150): the spec gives no code matrix, so a stored word
carries what its check would answer. -/
inductive Ecc where
  | clean     -- the check passes
  | single    -- one bit of the word is wrong: reads deliver the word corrected
  | double    -- an uncorrectable error
  | poison    -- the poison check pattern (R123, R149)
  deriving DecidableEq, Repr

/-- What a design-memory port operation does (R49, R50). -/
inductive MemKind where
  | read        -- RD, enable 1: MRD receives the word
  | readMerge   -- RD, enable X or Z: each MRD bit keeps its value where old and new agree, else X
  | readX       -- no access: MRD receives X in the access width (unknown address; bank not owned)
  | write       -- WR of MWD as it stood, lanes with unknown bits poisoned
  | writePoison -- WR with unknown enable: every lane poisoned
  deriving DecidableEq, Repr

/-- One operation of a cluster's memory port on its way to its bank and back (R47, R69, R129). -/
structure MemOp where
  kind   : MemKind
  issued : Nat            -- schedule position of its issue, counted from the start of the run
  bank   : Nat            -- first bank of the access
  width  : Nat            -- banks in the access
  addr   : Nat            -- word address
  data   : BitVec 1024    -- WR: MWD at issue; RD: once the bank cycle is past, the 512 four-state bits read
  done   : Bool           -- the bank cycle has been performed
  deriving DecidableEq, Repr

/-- One cluster: the stores of its 66 positions, staging and port registers (R25-R58, R99). -/
structure Cluster where
  ds     : List (Nat × V4)            -- data stores: 2,048·position + entry; unlisted X (R27, R28)
  badPar : List (Nat × Bool)          -- entries whose parity bit is bad, same key (R31)
  staged : List (Nat × Option V4)     -- staged state values, 2,048·logical processor + entry (R39)
  instr  : List (Nat × BitVec 64)     -- instruction stores: 1,024·position + step (R25); unlisted 0
  iEcc   : List (Nat × Ecc)           -- error state of instruction words, same key (R34)
  rw     : List (Nat × BitVec 256)    -- routing words 0 to 1,023, tick words 1,024 and 1,025 (R99); unlisted 0
  rwEcc  : List (Nat × Ecc)           -- error state of a 64-bit quarter: 4·word + quarter (R100)
  ma     : BitVec 30                  -- MA, 15 four-state bits (R45)
  mwd    : BitVec 1024                -- MWD, 512 four-state bits
  mrd    : BitVec 1024                -- MRD, 512 four-state bits
  ho     : BitVec 68                  -- HO, 34 four-state bits (R51)
  hwd    : BitVec 128                 -- HWD, 64 four-state bits
  xfd    : BitVec 64                  -- XFD, 32 four-state bits
  xsent  : Bool                       -- an XSEND of this frame has been sent (R43)
  expo   : List (Nat × Option V4)     -- what logical processor p drives on its reach output in the next position (R41)
  memOps : List MemOp                 -- memory port operations under way, oldest first
  shd    : List (Nat × Nat)           -- shadow mismatches of the last 64 frames: logical processor, frame (R260)
  deriving DecidableEq, Repr

/-- State of a sluice tag (R54, R157, R165). -/
inductive TagSt where
  | free
  | waiting              -- request in flight, reply absent
  | data (d : BitVec 64) -- reply in the reply queue, without error
  | dataX                -- reply in the queue: poisoned, uncorrectable or of a read with unknown enable
  | dataUe (line : Nat)  -- reply in the queue, uncorrectable: the fault is reported at the WAIT (R150)
  | written              -- a write's reply
  | null | unknownAddr | refused
  deriving DecidableEq, Repr

/-- One sluice request holding a slot (R157). -/
structure SluReq where
  q      : Nat
  tag    : Nat
  gsc    : Nat           -- GSC of its issuing step (line order, R155)
  frame  : Nat
  write  : Bool
  addr   : Nat           -- hold byte address (R160)
  data   : BitVec 64
  poison : Bool          -- the write stores the word poisoned (R56)
  xen    : Bool          -- HRD with unknown enable: the reply is X
  ns     : Nat           -- network time of its issue, in ns (HLD_MAXLAT)
  seen   : Bool          -- it has reached its DRAM bank (R163)
  live   : Bool          -- the tag still takes this request's reply (else it is discarded, R54, R159, R167)
  served : Bool          -- the access is performed, the reply on its way
  reply  : TagSt         -- what the reply brings, once served
  deriving DecidableEq, Repr

/-- One sluice: tags, collect buffers, WAIT map (R157, R164). -/
structure Sluice where
  tags    : List (Nat × TagSt)         -- tag t; unlisted free
  tagF    : List (Nat × Nat)           -- frame of the request that made tag t outstanding
  collect : List (Nat × BitVec 128)    -- collect buffer of tag t, 64 four-state bits; unlisted X
  waitMap : List (Nat × BitVec 16)     -- tag mask of evaluation position s (R164)
  modeAt  : List (Nat × Option Bool)   -- mode in force at the pre-check of tag t's WAIT: some true for Stall (R96)
  deriving DecidableEq, Repr

/-- Whose access of the last class of R155 it is: the host aperture's, a request barge's, the trace drain's, or one whose requester
waits no longer (R343). -/
inductive HoldFor where
  | host | barge | trace | late
  deriving DecidableEq, Repr

/-- An access of the last class of R155 that waits for its lines. -/
structure HoldJob where
  id      : Nat                        -- tells the accesses under way apart
  b       : Barge
  why     : HoldFor
  lines   : List Nat                   -- its lines that are not yet performed
  ahead   : List (Nat × Nat)           -- GSC and sluice of the requests that came to its lines before it
  cells   : List (Nat × Byte)          -- the bytes it writes, or those it reads, by address
  poison  : Bool                       -- a word read was poisoned
  ue      : Bool                       -- a word read was uncorrectable
  refused : Bool                       -- a partial word was not written (R153)
  deriving DecidableEq, Repr

/-- Hold memory beyond its registers (R147-R155). -/
structure HoldState where
  cells  : List (Nat × Byte)           -- hold bytes; unlisted 0
  ecc    : List (Nat × Ecc)            -- word n = address div 8; unlisted poisoned (R149)
  writeback : List (Nat × Bool)        -- words with an ECC write-back waiting
  scrubPtr : List (Nat × Nat)          -- scrub pointer of stack i (R152)
  refDue : List (Nat × Nat)            -- refreshes due at a DRAM bank (R151)
  ready  : List Nat                    -- stacks that a reset keeps ready, until HLD_STACK_STS shows it again (R168, R281)
  jobs   : List HoldJob                -- accesses of trace, hold DMA and the host aperture under way, oldest first (R155)
  turn   : List (Nat × Nat)            -- whose turn it is at a DRAM bank: 0 trace, 1 hold DMA, 2 host aperture (R155)
  deriving DecidableEq, Repr

/-- A service reply: its completion code by R132 and its data. -/
structure SvcReply where
  master : Nat
  tag    : Nat
  addr   : Nat
  code   : Nat
  data   : BitVec 64
  deriving DecidableEq, Repr

/-- Design memory beyond its registers. -/
structure DmcState where
  cells    : List (Nat × Byte)       -- data bytes at 0x4_0000·k + 8·w + i (R130); unlisted 0
  ecc      : List (Nat × Ecc)        -- word 32,768·k + w
  waiting  : List SvcReq             -- service accesses in the receive buffers, oldest first (R134)
  deferred : List SvcReq             -- writes deferred by R135 from the cycle before
  writeback : List (Nat × Bool)      -- words awaiting an ECC write-back (R137)
  replies  : List SvcReply           -- the replies given, oldest first
  patrolPtr : List (Nat × Nat)       -- patrol pointer of bank k (R139)
  marching : List (Nat × Bool)       -- bank k is under march (R143)
  cycle    : Nat                     -- bank cycles counted: accesses that arrive in one cycle carry one number (R134)
  time     : Nat                     -- nanoseconds in which the memory clock has run (R139)
  patrolAt : List (Nat × Nat)        -- that time at the start of bank k's patrol pass (R139)
  patrolMs : List (Nat × Nat)        -- period of that pass in ms (DMC_PATROL card); unlisted 1,000
  used     : List (Nat × Nat)        -- 1 + the bank cycle of bank k's last unscheduled access in a run (R134)
  deriving DecidableEq, Repr

/-- One position held by a link's elastic buffer (R175). -/
structure LinkSlot where
  v   : Nat              -- sender's schedule position, counted from the start of the run
  val : BitVec 896       -- 448 four-state values
  ue  : Bool             -- some bit of its group lay in an uncorrectable codeword (R177)
  deriving DecidableEq, Repr

/-- One fabric link beyond its registers (R170-R181). -/
structure Link where
  retry   : Bool                -- the retry interval has passed
  buf     : List LinkSlot       -- elastic buffer
  rxV     : Nat                 -- sender position, from the start of the run, expected next
  txPos   : Nat                 -- schedule position of the out-slots last sent
  tx      : BitVec 956          -- the group last sent (R172)
  sbSeq   : Nat                 -- SBSEQ of the superblock under way, 16 bits
  sbGrp   : Nat                 -- groups of that superblock sent
  frags   : Nat                 -- barge fragments that wait for a control lane (R181)
  bufs    : List (Nat × Nat)    -- receive buffers that the peer holds free for master m (R341)
  ident   : Option (Nat × Nat × Nat) -- device ID, link number and group ID sent in IDENT (R171)
  txMark  : Option (Nat × Bool × Bool) -- done-marker last sent: F_LO, TAINT, LAST (R178)
  ueTimes : List Nat            -- times (ns) of the uncorrectable codewords of the last 1 ms (R173)
  rxSeq   : Nat                 -- next flit sequence number expected (R181)
  txSeq   : Nat                 -- next flit sequence number to send
  unacked : List Nat            -- sequence numbers in the replay buffer
  txWait  : Nat                 -- flits that wait for room in the replay buffer
  replays : Nat                 -- consecutive replays of one flit
  ack     : Option (Bool × Nat) -- acknowledgment last sent: negative, next expected number (R181)
  early   : List Nat            -- F[31:0] of markers that came before this device's own second tick step
  marks   : List Nat            -- frames whose verification window is still open or to come (R179)
  deriving DecidableEq, Repr

/-- One express word (R182). -/
structure Express where
  kind : Nat
  src  : Nat
  seq  : Nat
  arg  : Nat                    -- 34 bits
  deriving DecidableEq, Repr

/-- The lock group beyond its registers (R182-R191). -/
structure GroupState where
  seen    : List (Nat × List Nat)  -- sequence numbers of the last words of each originator (R183)
  taints  : List Nat               -- frames for which a taint word was sent or relayed
  seqNo   : Nat                    -- own sequence number
  sent    : List Express           -- express words sent or relayed, newest first (the links carry them out)
  ringOut : List (Nat × Nat × RingMsg) -- ring messages sent: group ID, addressee and message, newest first (R185)
  topo    : List GLink             -- UP links of the group, as formation and the members' reports give them (R184, R188)
  pathPs  : Nat                    -- worst path time between two members, in ps (R184)
  lost    : Nat                    -- 1: a member is lost or the group split, re-formation is due; 2: an IMG_LOAD is due (R191)
  releases : List (Nat × Option Nat) -- stall cycle at which device d reported release (R87)
  deriving DecidableEq, Repr

/-- State of a matching-store entry (R199). -/
inductive XSt where
  | opened | complete | waiting | queued | ret
  deriving DecidableEq, Repr

/-- One entry of the matching store that is not FREE (R196-R199). -/
structure XEntry where
  id    : Nat               -- entry number within the store's bookkeeping: the order in which it was opened
  part  : Nat
  site  : Nat
  frame : Nat
  pass  : Nat               -- which execution of that frame it is of, as its fragments (R198)
  mask  : Nat               -- fragment indices received
  pay   : BitVec 256        -- 128 four-state values
  unk   : Bool
  incomplete : Bool
  void  : Bool
  st    : XSt
  order : Nat               -- order in which the call entered its berth
  handle : Nat              -- return handle, blocking calls
  tsn   : Nat               -- TSN at the close point
  first : Nat               -- GSC of the issue of its first fragment (R209)
  resolved : Bool           -- a deadline or the run's end has resolved it (R213, R428)
  mark  : Option Bool       -- its frame's taint mark, once the end of the run has made it final (R74)
  value : Option (BitVec 128) -- return consumed: 64 four-state values
  deriving DecidableEq, Repr

/-- A fragment on its way from an exchange port to the matching store (R194). -/
structure Fragment where
  site  : Nat
  frame : Nat
  idx   : Nat
  src   : Nat               -- 64·b + c
  data  : BitVec 64
  xen   : Bool
  gsc   : Nat               -- GSC of its issue
  pass  : Nat               -- frames voided before its issue: tells a voided frame's executions apart (R198)
  void  : Bool              -- of a frame voided since (R198)
  ended : Bool              -- its run has ended since (R428)
  deriving DecidableEq, Repr

/-- A flow's service state (R204). -/
inductive FlowSt where
  | idle | service | blocking
  deriving DecidableEq, Repr

/-- One return to be written in a return window (R212). -/
structure RetWrite where
  step  : Nat               -- return-window step
  id    : Nat               -- its matching-store entry
  site  : Nat
  value : BitVec 128
  deriving DecidableEq, Repr

/-- The wharf beyond its registers. -/
structure XchState where
  sites   : List (Nat × BitVec 64)    -- call-site table (R193)
  rets    : List (Nat × BitVec 64)    -- return descriptors (R210)
  berths  : List (Nat × BitVec 32)    -- berth table (R203)
  flowTab : List (Nat × BitVec 16)    -- flow table (R203)
  entries : List XEntry               -- oldest first
  nextId  : Nat
  voids   : Nat                       -- frames voided so far (R198)
  nextOrd : Nat                       -- next berth-entry order number
  frags   : List Fragment             -- fragments in the exchange ports, oldest first
  flows   : List (Nat × FlowSt)       -- flow states
  deficit : List (Nat × Nat)          -- per group (R205)
  lastFlow : List (Nat × Nat)         -- last flow served by a group, plus 1; 0 for none
  grp     : Nat                       -- group the engine stands at
  visit   : Option (Nat × Nat)        -- ring and weight of the visit of that group that is under way (XCH_GRP card)
  losses  : List (Nat × Nat × Nat)    -- loss queue: site, frame, index (R201)
  notices : List Nat                  -- taint notices waiting (R208)
  handle  : Nat                       -- next return handle (R211)
  written : List Nat                  -- frames of call records written with FINAL = 0 and TAINT = 0 (R208)
  lateH   : List Nat                  -- handles resolved before their return came (R211)
  retWin  : List RetWrite             -- returns to be written in the return window that stands (R212)
  dmRets  : List Nat                  -- tags of design-memory returns not yet at their banks (R212)
  deriving DecidableEq, Repr

/-- A lane's pin as the part leaves it. -/
inductive PinOut where
  | low | high | released | keeper
  deriving DecidableEq, Repr

/-- One gauge lane beyond its registers (R218-R223). -/
structure Lane where
  sdrv  : Option V4     -- drive staged by GDRV in this frame
  sexp  : Option V4     -- expected value staged
  drv   : V4            -- committed drive; Z after a load
  exp   : V4            -- committed expected value; X after a load
  smp   : V4            -- last sample; X before the first
  pin   : PinOut        -- state last driven by the design
  off   : Bool          -- the mode in force on the pin is OFF (R217)
  level : Option Bool   -- the pin's last level, where one is known (R220)
  deriving DecidableEq, Repr

/-- One held verdict (R224). -/
structure Verdict where
  frame  : Nat
  unconf : Bool
  fails  : List Nat     -- lanes that failed, ascending
  tsn    : Nat
  deriving DecidableEq, Repr

/-- One record of the fail FIFO (R227, R229). -/
structure FailRec where
  loss  : Bool
  frame : Nat
  lane  : Nat
  exp   : V4
  smp   : V4
  drv   : V4
  kind  : Nat
  tsn   : Nat
  count : Nat
  code  : Option Nat    -- verdict code, once released
  deriving DecidableEq, Repr

/-- One edge record waiting in the staging buffer (R233). -/
structure EdgeRec where
  input : Nat
  pol   : Bool
  ovf   : Bool
  mrg   : Bool
  tsn   : Nat
  sec   : Nat
  flo   : Nat
  deriving DecidableEq, Repr

/-- One edge input (R232). -/
structure EdgeIn where
  last   : Option Nat   -- time of the last recorded edge, in ns
  budget : Nat          -- edges left
  refill : Nat          -- time up to which the budget has been refilled
  ovf    : Bool         -- edges discarded since the last record
  mrg    : Bool         -- edges merged since the last record
  deriving DecidableEq, Repr

/-- The gauge unit beyond its registers. -/
structure GauState where
  lanes    : List (Nat × Lane)
  held     : List Verdict        -- oldest first
  fifo     : List FailRec        -- fail FIFO, oldest first
  lost     : Option (Nat × Nat × Option Nat × Nat)    -- records lost since the last loss record: count, first frame, its verdict code once
                                                      -- released, TSN of its first tick step
  edges    : List (Nat × EdgeIn)
  edgeBuf  : List EdgeRec        -- edge staging buffer, oldest first
  tickTsn  : Nat                 -- TSN of the last first tick step (R229)
  live     : Bool                -- a second tick step has come since the last load (R219)
  deriving DecidableEq, Repr

/-- One record of the fault log (R273). -/
structure LogRec where
  code  : Nat
  react : Nat
  frame : Option Nat     -- F of the frame to which the fault belongs
  inj   : Bool
  rep   : Nat
  lkind : Nat
  locv  : Nat
  tsn   : Nat
  deriving DecidableEq, Repr

/-- The safety unit beyond its registers. -/
structure SafState where
  log   : List LogRec          -- oldest first (R273)
  first : Option LogRec        -- SAF_FIRST (R275)
  safe  : Bool                 -- SAF_STS.SAFE
  arm   : Bool                 -- no record of class 0x1 to 0xF has been made since SAF_STS.CLS[15:1] was last all zero
  deriving DecidableEq, Repr

/-- Sequencer states (R84); the codes of SEQ_STS.STATE are in this order. -/
inductive SeqSt where
  | idle | ready | flight | lock | stall | paused | clkHalt | safe
  deriving DecidableEq, Repr

/-- Where a stall takes effect (R86). -/
inductive EvAt where
  | wait (frame step : Nat)    -- the WAIT step
  | lock (flight : Nat)        -- step 0 of the lock phase of this flight
  | gsc (g : Nat)              -- this sequencer step
  deriving DecidableEq, Repr

/-- A group-wide stall, emergency halving or clock-loss halt agreed and not yet effective (R86). -/
structure GEvent where
  kind : Nat                   -- codes of SEQ_LAST_EVT.KIND
  src  : Nat
  at_  : EvAt
  deriving DecidableEq, Repr

/-- A RUN or STEP_FRAMES taken and pending until its start instant (R81). -/
structure RunPend where
  cont  : Bool
  steps : Nat                  -- STEP_FRAMES count; 0 for RUN
  sec   : Nat
  ns    : Nat
  deriving DecidableEq, Repr

/-- A change of SEQ_FLIGHT or SEQ_LOCK that waits: the GSC from which a lock phase may apply it, and the values (R79). -/
structure SeqChange where
  e0     : Nat
  frames : Nat
  len    : Nat
  svc    : Bool
  deriving DecidableEq, Repr

/-- A change of one device's stretch request agreed: its horizon-aligned step, the stretch, and that device (R86, R93). -/
structure ThrChange where
  e0      : Nat
  stretch : Nat
  src     : Nat
  deriving DecidableEq, Repr

/-- The flight record that the barrier closes (R77, R78): the frames of the flight, whether one of them is tainted, and for each UP
group link the frames of the flight whose marker is still to be verified. -/
structure FlightRec where
  flight : Word
  frames : Nat
  taint  : Bool
  open_  : List (Nat × Nat)
  deriving DecidableEq, Repr

/-- The frame sequencer beyond its registers. -/
structure SeqState where
  st       : SeqSt             -- SEQ_STS.STATE
  ret      : SeqSt             -- the state in which the stall began; in PAUSED, the state a continued run enters
  F        : BitVec 48         -- frame number (R7)
  gsc      : BitVec 64         -- group step count (R68)
  pos      : Nat               -- next schedule position of the frame, 0 to L+1
  lockPos  : Nat               -- next lock-phase step
  lam      : Nat               -- length of the lock phase in progress (R76)
  lockGsc  : Nat               -- GSC of its step 0
  fltPos   : Nat               -- frames completed in the flight
  fltNum   : Word              -- flights completed
  spos     : Nat               -- schedule positions since the start of the run
  frames   : Nat               -- SEQ_FLIGHT in effect (R79)
  len      : Nat               -- SEQ_LOCK.LEN in effect
  svc      : Bool              -- SEQ_LOCK.SVC in effect
  cfgPend  : List SeqChange    -- changes of SEQ_FLIGHT and SEQ_LOCK that wait for a lock phase (R79), oldest first
  eff      : Nat               -- stretch in effect (R93)
  reqs     : List (Nat × Nat)  -- stretch each device requests, as agreed and in effect (R93)
  therm    : Nat               -- thermal stretch requested
  pcap     : Nat               -- power-cap stretch requested
  thrPend  : List ThrChange    -- changes of a device's request agreed (R93), oldest first
  thrGsc   : Nat               -- GSC of step 0 of the last lock phase in which throttle changes took effect (R90)
  emerg    : Bool              -- SEQ_THR_STS.EMERG
  restore  : Bool              -- a return to full rate is under way (R312)
  ratio    : Nat               -- gust ratio in sixteenths
  halt     : Option Nat        -- E0 of the halt that is placed (R82)
  haltSrc  : Nat
  haltReq  : Bool              -- SEQ_HALT.REQ
  stepf    : Bool              -- SEQ_STS.STEPF
  left     : Word              -- SEQ_STEPF.LEFT
  events   : List GEvent
  stallCyc : Nat               -- stall cycles so far
  ownRel   : Option Nat        -- cycle at which this device reported release
  resume   : Option Nat        -- R, once the group release is known
  stallEvs : List GEvent       -- events of the stall that stands
  frameStall : Nat             -- stall cycles within the frame
  diverged : Bool
  markHold : Bool              -- PAUSED waits for the markers of the ended flight (R78)
  lastTaint : Bool             -- SEQ_STS.TAINT_LAST
  taint    : List (Nat × Bool) -- frames marked tainted
  mode     : Bool              -- group mode the flight runs in: Stall (R190)
  runPend  : Option RunPend
  preRet   : List (Nat × Nat × Bool) -- return pre-checks made: flight, GSC, Stall mode (R209, R213)
  tickPend : Bool              -- stands between the two tick steps after a clock loss (R97)
  stood    : SeqSt             -- the state in which CLK_HALT or SAFE was entered
  voided   : Bool              -- the frame F was voided and none of its steps has been run again (R18)
  carry    : Option Nat        -- first frame of the taint that a halt reaction carries on (R75)
  finalTo  : Option Nat        -- newest frame whose taint mark is final (R74)
  fltRec   : Option FlightRec  -- the last flight record closed (R77)
  deriving DecidableEq, Repr

/-- One basin of the reach network: the values under way in its crossbar and on its mesh lanes (R114). -/
structure Basin where
  virt    : Nat                           -- virtual basin placed on it (R249)
  lanes   : List (Nat × List (Nat × V4))  -- basin lanes driven, by schedule position since the start of the run
  egress  : List (Nat × List (Nat × V4))  -- egress lanes 128·D + m driven, by schedule position
  deriving DecidableEq, Repr
/-- Network time (R347). -/
structure TimeState where
  sec   : Nat                   -- seconds, 48 bits
  ns    : Nat                   -- nanoseconds, 0 to 999,999,999
  frac  : Nat                   -- fraction of a nanosecond, in units of 2^-32 ns
  mono  : Nat                   -- nanoseconds counted on the device's own clock since power-on: no step of network time moves it
  trim  : Int                   -- rate correction in force, in units of 1/65,536,000 ppb (R355)
  integ : Int                   -- integral term of the servo, in the same units
  good  : Nat                   -- consecutive samples of at most 100 ps (R357)
  bad   : Nat                   -- consecutive samples above 500 ps
  ports : List (Nat × (Nat × Nat)) -- master and hop count heard on ring port p (R352)
  delay : List (Nat × Int)      -- delay in ps that ring port p's last exchange gave (R352)
  pps   : Option Nat            -- time (ps) of the last accepted edge on 1PPS_IN (R353)
  fresh : Bool                  -- no sample has come since an exit from Frost or Still (R362)
  high  : Option Nat            -- time (ns) at which 1PPS_OUT last went high (R358)
  deriving DecidableEq, Repr

/-- A record in trace staging (R366). -/
structure TrcRec where
  bytes : List Byte
  frame : Nat
  deriving DecidableEq, Repr

/-- The capture of a recorded frame, closed in its first tick step (R364). -/
structure TrcCap where
  tsn    : Nat
  blocks : List Byte       -- the enabled groups' values
  sealed_ : Bool           -- some value was replaced because its cluster is sealed
  trig   : Nat             -- design trigger bits that were 1
  deriving DecidableEq, Repr

/-- One seal group of the loaded image (R377). -/
structure SealGrp where
  verifier : List Byte
  clusters : List Nat      -- physical clusters 64·b + c
  deriving DecidableEq, Repr

/-- Trace beyond its registers. -/
structure TrcState where
  probe   : List (Nat × Option V4) -- PROBE values of the frame (R60)
  probeBy : List (Nat × Nat)       -- the processor g whose PROBE offered the value
  trig    : List (Nat × V4)        -- design trigger bits of the frame
  dac     : Nat                    -- data-store comparators that have fired in the frame (R375)
  dacRet  : Nat                    -- those that had fired in the return window before it
  cap     : Option TrcCap          -- the frame's closed capture, until its second tick step
  last    : Option (List Byte)     -- blocks of the last frame record since arming (R365)
  lastF   : Nat                    -- F of the previous record of any type (DELTA)
  post    : Nat                    -- frames left in POST (R373)
  staging : List TrcRec            -- oldest first (R370)
  sent    : Nat                    -- bytes of the oldest staged record already in the region
  region  : List Nat               -- sizes, in 32-byte units, of the whole records from RP to WP (R368)
  lost    : Option (Nat × Nat)     -- records lost since the last loss record, and the first lost frame (R371)
  given   : List Nat               -- frames recorded with TAINT = 0 whose mark is not final (R367)
  flushed : Bool                   -- DONE is set once staging is empty (R373)
  waived  : Bool                   -- a stall timeout has resolved the trace stall's condition as STALL = 0 does (R371)
  seals   : List (Nat × SealGrp)   -- seal groups of the image (R377)
  opens   : List Nat               -- seal groups to be unsealed in the next first tick step (R378)
  deriving DecidableEq, Repr

/-- How a host read completes (R10, R21, R344). -/
inductive CplSt where
  | ok | unsupported | abort
  deriving DecidableEq, Repr

/-- A completion given to a host read. -/
structure HostCpl where
  st   : CplSt
  ep   : Bool           -- the poisoned bit (R154)
  bar  : Nat
  addr : Nat
  data : List Byte
  deriving DecidableEq, Repr

/-- Step, unit and PLL clocks beyond the CKG registers. -/
structure ClkState where
  stepXtal : Bool             -- the step domain runs from the crystal (R308, R313)
  unitXtal : Bool             -- the unit domain runs from the crystal
  unitDiv  : Nat              -- the unit divider, in sixteenths
  ramp     : Bool             -- a ramp from standstill is in progress (R310)
  relock   : Bool             -- a change of CKG_STEP.MHZ is under way, to the end of its ramp (R313)
  resume   : Bool             -- a CLK_RESUME is under way (R316)
  judged   : List (Nat × Bool) -- PLL i is judged over the short windows of an exit from Calm or Mist (R306)
  pass     : List (Nat × Nat) -- consecutive passing windows of PLL i
  fails    : List (Nat × Nat) -- consecutive failing windows of PLL i
  tol      : List (Nat × Nat) -- tolerance in ppm of PLL i's window in progress (CKG_TOL card); unlisted 100
  deriving DecidableEq, Repr

/-- Why a node drains (R345). -/
inductive DrainFor where
  | fence     -- the FENCE command
  | power     -- power-state entry
  | gate      -- a cleared clock enable of the node's own
  | gateBas   -- the cleared clock enable of the basins (CKG_EN0 bit 14)
  deriving DecidableEq, Repr

/-- The barge network beyond its registers (R334-R345). -/
structure BnwState where
  draining : List (Nat × DrainFor) -- nodes that drain, and what for
  forced   : Bool               -- some drain of the FENCE command in progress was forced (R395)
  taken    : List Barge         -- requests accepted and not yet replied to
  sent     : List Barge         -- requests whose requester still waits
  dead     : List Barge         -- requests that ended in TIMEOUT: their tags and credits stay out of use (R343)
  held     : List (Nat × Barge) -- remote requests on link n (R341)
  replies  : List Barge         -- replies sent, newest first
  inbound  : List (Nat × Barge) -- requests of master 6 and the link each came over (R341)
  queue    : List Barge         -- words of BAR2 accesses that wait for a credit or a reply buffer, oldest first (R339)
  control  : List (Nat × Nat × Nat) -- control barges sent: kind, from, to, oldest first; of one pair the first is on its way (R340)
  sink     : List (Nat × Nat × Nat) -- the control sinks: kind, from, to; one entry for each pair (R340)
  deriving DecidableEq, Repr

/-- The host's side of the link (R381, R385): what it has received, its memory as the device accesses it, the MSI-X structures. -/
structure HostState where
  link : Bool                  -- the endpoint's link is trained (R281, R286)
  conf : List (Nat × Word)     -- the function's configuration space, dword k as the host has set it (R281); no row of the table is a
                               -- configuration request
  cpl  : List HostCpl          -- completions of its reads, newest first
  mem  : List (Nat × Byte)     -- host memory; unlisted 0 (log entry 11)
  msix : List Nat              -- MSI-X messages sent, newest first
  msixTab : List (Nat × Word)  -- MSI-X table, 4 words an entry; vector control words read 1 where unlisted
  pba  : BitVec 64             -- pending-bit array
  deriving DecidableEq, Repr

/-- A load in progress (R245): its command, whether it has passed its check phase, and the placement: physical basin of each
virtual basin. -/
structure LoadSt where
  cmd   : Cmd
  write : Bool
  place : List Nat
  deriving DecidableEq, Repr

/-- What a member of the group has reported to the lead over the ring (R81, R253, R316, R327, R360). -/
structure MemberRep where
  st     : SeqSt
  lock   : Bool
  digest : List Byte
  power  : Nat               -- PWR_STS.STATE (R327)
  hold   : Bool              -- TIM_STS.HOLD (R360)
  fenced : Bool              -- a placed basin is fenced (R293)
  apart  : Bool              -- SEQ_STS.DIVERGED (R81)
  deriving DecidableEq, Repr

/-- A STATE_READ or STATE_WRITE of design memory under way (R394): each word is a service access of its own, the next one sent once
the last is answered. -/
structure AccessRun where
  cmd    : Cmd
  write  : Bool
  bank   : Nat
  first  : Nat
  count  : Nat
  buf    : Nat
  status : Nat                       -- status of the reply once every word is done
  got    : List (Nat × BitVec 64)    -- completion code and word of each item answered
  out    : Bool                      -- the access of the next item is on its way
  deriving DecidableEq, Repr

/-- The lockkeeper beyond its registers. -/
structure LkpState where
  turn    : Nat                    -- port served last (R388)
  run     : List Cmd               -- commands in progress, oldest first
  load    : Option LoadSt          -- the IMG_LOAD in progress
  digest  : List Byte              -- DIGEST of the loaded image; empty without one
  maxMhz  : Nat                    -- step-clock limit of the loaded image (R116); 0 without one
  repairs : List (Nat × Nat)       -- the repair list: cluster, logical processor (R248)
  marked  : List Nat               -- clusters whose shadow or spare has been nominated (R248)
  badSpare : List Nat              -- clusters whose spare has failed a march (R248)
  reports : List (Nat × MemberRep) -- what the members have reported, by device
  told    : Option MemberRep       -- what this member has reported last
  march   : Option Cmd             -- the MARCH command whose march is under way (R143)
  access  : List AccessRun         -- the accesses to design memory under way (R394)
  acks    : List (Nat × Nat)       -- members that have acknowledged the message of a command: opcode, device
  deriving DecidableEq, Repr

/-- Power states and the power cap beyond the PWR registers (R319-R331). -/
structure PwrState where
  fences  : List Nat               -- basins fenced by power-state entry (R323)
  off     : Bool                   -- the hold stacks are powered off (R320)
  exit    : Option (Nat × Nat × Bool) -- an exit under way: SRC of its wake, TSN of the wake event, counted on the oscillator
  stopped : Bool                   -- that exit has stopped an entry (R327)
  wakes   : List (Nat × Nat)       -- source and time (ns) of the wakes of the last second, newest first (R329)
  safeDue : Bool                   -- safe state waits for the exit to Run (R327)
  warmDue : Bool                   -- a warm reset waits for the exit to Run (R327)
  deriving DecidableEq, Repr

/-- Resets and the boot beyond the CFG registers (R280-R299, R414). -/
structure RstState where
  warm   : Option Nat              -- a warm reset is requested: KIND of CFG_CAUSE
  group  : Option (Nat × Nat × Nat) -- a group reset is agreed: lead, seconds, nanoseconds
  basins : List Nat                -- basin resets requested
  recov  : Nat                     -- recovery restart: 0 none, 1 it waits for PAUSED, 2 the lockkeeper reboots in Keep
  perst  : Bool                    -- PERST_N is low
  held   : Bool                    -- a PERST_N reset waits for PERST_N to rise before its stage FW (R284)
  ovp    : Bool                    -- an overvoltage has removed the rails
  testEn : Bool                    -- TEST_EN was high at power-on: the endpoint is disabled (R285)
  missed : Bool                    -- a watchdog miss belongs to the recovery restart under way (R299)
  test   : Bool                    -- the boot march and hold initialization of the last power-on reset are not complete
  cause  : Nat                     -- KIND and SRC_DEV of the reset under way, as CFG_CAUSE takes them: 64·KIND + SRC_DEV
  deriving DecidableEq, Repr

/-- Standing registers beyond the STD block (R402-R407). -/
structure StdState where
  busy : Option (Nat × Word)       -- standing register being written, and the value
  ecc  : List (Nat × Ecc)          -- error state of standing register i
  park : Word                      -- STD_PARK in force (R219)
  safe : Word                      -- STD_SAFE in force
  pps  : Word                      -- STD_PINPARK in force (R287)
  xtal : Word                      -- STD_XTAL_WAIT in force (R302, R303)
  edge : Bool                      -- STD_GAU_VIO.EDGE in force (R216)
  deriving DecidableEq, Repr

/-- Reasons for which the machine stops.  The block has none: every command and event of the spec has an effect. -/
inductive Fault where
  deriving DecidableEq, Repr

/-- Reasons for which a command is not run.  Safe: a refused command changes nothing. -/
inductive Refusal where
  /-- Raised by an arm of `exec` whose command has no meaning in the model.  Safe. -/
  | notModelled (mnemonic : String)
  deriving DecidableEq, Repr

/-- The machine. -/
structure State where
  pending : List Instr
  dev  : DevCfg
  regs : List (Nat × Word)
  seq  : SeqState
  fab  : List (Nat × Cluster)
  bas  : List (Nat × Basin)
  slu  : List (Nat × Sluice)
  req  : List SluReq
  hold : HoldState
  dmc  : DmcState
  lnk  : List (Nat × Link)
  grp  : GroupState
  xch  : XchState
  gau  : GauState
  saf  : SafState
  tim  : TimeState
  trc  : TrcState
  host : HostState
  clk  : ClkState
  bnw  : BnwState
  lkp  : LkpState
  pwr  : PwrState
  rst  : RstState
  std  : StdState
  freeCtr : Nat
  deriving DecidableEq, Repr

/-- The frame sequencer after reset (R84, R98): IDLE, nothing run, flights of 4,096 frames and lock phases as the cards of
SEQ_FLIGHT and SEQ_LOCK give them. -/
def SeqState.init : SeqState :=
  { st := .idle, ret := .flight, F := 0, gsc := 0, pos := 0, lockPos := 0, lam := 0, lockGsc := 0, fltPos := 0, fltNum := 0,
    spos := 0, frames := 4096, len := 64, svc := true, cfgPend := [], eff := 0, reqs := [], therm := 0, pcap := 0,
    thrPend := [], thrGsc := 0, emerg := false, restore := false, ratio := 0, halt := none, haltSrc := 0, haltReq := false,
    stepf := false, left := 0, events := [], stallCyc := 0, ownRel := none, resume := none, stallEvs := [],
    frameStall := 0, diverged := false, markHold := false, lastTaint := false, taint := [], mode := false,
    runPend := none, preRet := [], tickPend := false, stood := .idle, voided := false, carry := none, finalTo := none,
    fltRec := none }

/-- The other units after a power-on reset. -/
def XchState.init : XchState :=
  { sites := [], rets := [], berths := [], flowTab := [], entries := [], nextId := 0, voids := 0, nextOrd := 0, frags := [], flows := [],
    deficit := [], lastFlow := [], grp := 0, visit := none, losses := [], notices := [], handle := 1, written := [],
    lateH := [], retWin := [], dmRets := [] }
def GauState.init : GauState :=
  { lanes := [], held := [], fifo := [], lost := none, edges := [], edgeBuf := [], tickTsn := 0, live := false }
def TrcState.init : TrcState :=
  { probe := [], probeBy := [], trig := [], dac := 0, dacRet := 0, cap := none, last := none, lastF := 0, post := 0, staging := [],
    sent := 0, region := [], lost := none, given := [], flushed := false, waived := false, seals := [], opens := [] }
def GroupState.init : GroupState :=
  { seen := [], taints := [], seqNo := 0, sent := [], ringOut := [], topo := [], pathPs := 0, lost := 0, releases := [] }
def BnwState.init : BnwState :=
  { draining := [], forced := false, taken := [], sent := [], dead := [], held := [], replies := [], inbound := [], queue := [],
    control := [], sink := [] }
def LkpState.init : LkpState :=
  { turn := 0, run := [], load := none, digest := [], maxMhz := 0, repairs := [], marked := [], badSpare := [], reports := [], told := none, march := none,
    access := [], acks := [] }
def TimeState.init : TimeState :=
  { sec := 0, ns := 0, frac := 0, mono := 0, trim := 0, integ := 0, good := 0, bad := 0, ports := [], delay := [], pps := none, fresh := false, high := none }
def PwrState.init : PwrState :=
  { fences := [], off := false, exit := none, stopped := false, wakes := [], safeDue := false, warmDue := false }
def RstState.init : RstState :=
  { warm := none, group := none, basins := [], recov := 0, perst := false, held := false, ovp := false, testEn := false, missed := false, test := true,
    cause := 64 }
def ClkState.init : ClkState :=
  { stepXtal := false, unitXtal := true, unitDiv := 16, ramp := false, relock := false, resume := false, judged := [],
    pass := [], fails := [], tol := [] }

/-- The machine right after a power-on reset of an FX-820 of stepping B0 with device ID 0 (R280, R281, R284): stage RAMP, every
register at the value of its card, nothing loaded, every memory without an entry. -/
def State.reset : State :=
  { pending := [], dev := ⟨.fx820, true, 0, 0⟩, regs := [], seq := SeqState.init, fab := [], bas := [], slu := [], req := [],
    hold := { cells := [], ecc := [], writeback := [], scrubPtr := [], refDue := [], ready := [], jobs := [], turn := [] },
    dmc := { cells := [], ecc := [], waiting := [], deferred := [], writeback := [], replies := [], patrolPtr := [],
             marching := [], cycle := 0, time := 0, patrolAt := [], patrolMs := [], used := [] },
    lnk := [], grp := GroupState.init, xch := XchState.init, gau := GauState.init,
    saf := { log := [], first := none, safe := false, arm := true },
    tim := TimeState.init, trc := TrcState.init,
    host := { link := false, conf := [], cpl := [], mem := [], msix := [], msixTab := [], pba := 0 },
    clk := ClkState.init, bnw := BnwState.init, lkp := LkpState.init, pwr := PwrState.init, rst := RstState.init,
    std := { busy := none, ecc := [], park := 0, safe := 0, pps := 0, xtal := 0x0A#32, edge := false }, freeCtr := 0 }

end Sys2Proof.Machine
end

