-- ==== Sys2Proof/Machine/Regs.lean ====
section
/-!
DEFINITION. Raw access to the register file, and what the member and the stepping decide (R1, R2, R22, R23).
-/
namespace Sys2Proof.Machine

/-- Basins of a member (00_scope). -/
def memBasins : Member → Nat
  | .fx820 | .fx820e => 32 | .fx410 => 16 | .fx205 => 8 | .fx051 => 2

/-- Hold stacks of a member. -/
def memStacks : Member → Nat
  | .fx820 | .fx820e => 4 | .fx410 => 2 | .fx205 | .fx051 => 1

/-- Gauge lanes of a member. -/
def memLanes : Member → Nat
  | .fx820e => 0 | .fx051 => 128 | _ => 512

/-- CAP_ID.PART of a member (R22). -/
def memPart : Member → Nat
  | .fx820 => 0x0820 | .fx820e => 0x082E | .fx410 => 0x0410 | .fx205 => 0x0205 | .fx051 => 0x0051

/-- CAP_UNITS of a member (R23). -/
def memUnits : Member → Nat
  | .fx820e => 0xEFFF | .fx051 => 0xF77F | _ => 0xFFFF

def nBasins (s : State) : Nat := memBasins s.dev.member
def nBanks (s : State) : Nat := 12 * nBasins s
def nSluices (s : State) : Nat := 4 * nBasins s
def nStacks (s : State) : Nat := memStacks s.dev.member
def nLanes (s : State) : Nat := memLanes s.dev.member
/-- Rows of the mesh: basins stand in rows of 8, the two of the FX-051 in one (R109). -/
def nRows (s : State) : Nat := (nBasins s + 7) / 8
def nCols (s : State) : Nat := min 8 (nBasins s)
/-- The unit with CAP_UNITS bit `u` is present. -/
def unitPresent (s : State) (u : Nat) : Bool := nbit (memUnits s.dev.member) u
/-- The member has an exchange unit. -/
def hasWharf (s : State) : Bool := unitPresent s 11
/-- Native design-memory latency of the stepping (R129). -/
def nativeD (s : State) : Nat := if s.dev.stepB then 5 else 6
/-- Bytes of hold memory (R147). -/
def holdBytes (s : State) : Nat := nStacks s * 0x600000000

/-- What the register at `off` holds. -/
def rget (s : State) (off : Nat) : Word := mget (cardReset off) s.regs off

/-- The register at `off` made `w`. -/
def rset (off : Nat) (w : Word) (s : State) : State := { s with regs := mset (cardReset off) s.regs off w }

/-- The register at `off` changed by `f`. -/
def rmod (off : Nat) (f : Word → Word) (s : State) : State := rset off (f (rget s off)) s

/-- Field [hi:lo] of the register at `off`. -/
def rfld (s : State) (off hi lo : Nat) : Nat := fld (rget s off) hi lo

/-- Bit `i` of the register at `off`. -/
def rbit (s : State) (off i : Nat) : Bool := bit (rget s off) i

/-- The placed basins. -/
def placedBasins (s : State) : List Nat := (List.range (nBasins s)).filter (rbit s oCfgPlaced)

/-- Field [hi:lo] of the register at `off` made `v`. -/
def rput (off hi lo v : Nat) (s : State) : State := rmod off (setFld · hi lo v) s

/-- Bit `i` of the register at `off` set, or made `b`. -/
def rflag (off i : Nat) (s : State) : State := rmod off (setBit · i) s
def rputb (off i : Nat) (b : Bool) (s : State) : State := rmod off (putBit · i b) s

/-- An entry into a deeper power state is under way from Lull or Calm: PWR_STS.BUSY, and TARGET deeper than STATE. -/
def entryDeeper (s : State) : Bool :=
  decide (0 < rfld s oPwrSts 2 0) && rbit s oPwrSts 3 && decide (rfld s oPwrSts 2 0 < rfld s oPwrSts 6 4)

/-- The clocks of unit `u` run in the power state that stands, and outside Keep (R298, R301, R319, R321): the barge network's
always; those of the lockkeeper, CFG, SAF, STD and TIM in Keep too; those of CKG and PWR in every ladder state; those of LNK,
which the link PLLs give, in Lull; every other unit's in Run only.  In an entry from Lull or Calm trace, the gauge unit and hold
memory run for the steps R323 gives them: DEDUCED (log entry 56). -/
def unitClocked (s : State) (u : Nat) : Bool :=
  let st := rfld s oPwrSts 2 0
  let keep := rbit s oCfgSts 4
  u = 10 || u = 0 || (decide (3 ≤ u) && decide (u ≤ 6)) ||
    (!keep && (decide (u ≤ 2) || st = 0 || (u = 9 && st = 1) || (entryDeeper s && (u = 7 || u = 12 || u = 13))))

/-- The unit is present and its clock runs (CAP_UNITS bit `u`, CKG_EN0 bit `u`; R23, R314, R321). -/
def unitOn (s : State) (u : Nat) : Bool := unitPresent s u && rbit s oCkgEn0 u && unitClocked s u

/-- The counter [hi:lo] of the register at `off` raised by `k`, saturating. -/
def rcount (off hi lo k : Nat) (s : State) : State := rmod off (satFld · hi lo k) s

/-- Every register from `lo` up to, not including, `hi` back at its reset value. -/
def rclear (lo hi : Nat) (s : State) : State :=
  { s with regs := mkeep (fun k => k < lo || k ≥ hi) s.regs }

/-- The stored state of basin `b` and cluster `cl` = 64·b + c, and of the other arrays. -/
def Cluster.fresh : Cluster :=
  { ds := [], badPar := [], staged := [], instr := [], iEcc := [], rw := [], rwEcc := [],
    ma := BitVec.allOnes _, mwd := BitVec.allOnes _, mrd := BitVec.allOnes _, ho := BitVec.allOnes _,
    hwd := BitVec.allOnes _, xfd := BitVec.allOnes _, xsent := false, expo := [], memOps := [], shd := [] }
def Basin.fresh : Basin := { virt := 0, lanes := [], egress := [] }
def Sluice.fresh : Sluice := { tags := [], tagF := [], collect := [], waitMap := [], modeAt := [] }
def Link.fresh : Link :=
  { retry := true, buf := [], rxV := 0, txPos := 0, tx := 0, sbSeq := 0, sbGrp := 0, frags := 0, bufs := [], ident := none, txMark := none, ueTimes := [], rxSeq := 0, txSeq := 0,
    unacked := [], txWait := 0, replays := 0, ack := none, early := [], marks := [] }
def Lane.fresh : Lane :=
  { sdrv := none, sexp := none, drv := .z, exp := .x, smp := .x, pin := .keeper, off := true,
    level := none }
def EdgeIn.fresh : EdgeIn := { last := none, budget := 64, refill := 0, ovf := false, mrg := false }

def getCl (s : State) (cl : Nat) : Cluster := mget Cluster.fresh s.fab cl
def setCl (cl : Nat) (c : Cluster) (s : State) : State := { s with fab := mset Cluster.fresh s.fab cl c }
def getBas (s : State) (b : Nat) : Basin := mget Basin.fresh s.bas b
def setBas (b : Nat) (x : Basin) (s : State) : State := { s with bas := mset Basin.fresh s.bas b x }
def getSlu (s : State) (q : Nat) : Sluice := mget Sluice.fresh s.slu q
def setSlu (q : Nat) (x : Sluice) (s : State) : State := { s with slu := mset Sluice.fresh s.slu q x }
def getLnk (s : State) (n : Nat) : Link := mget Link.fresh s.lnk n
def setLnk (n : Nat) (x : Link) (s : State) : State := { s with lnk := mset Link.fresh s.lnk n x }
def getLane (s : State) (n : Nat) : Lane := mget Lane.fresh s.gau.lanes n
def setLane (n : Nat) (x : Lane) (s : State) : State :=
  { s with gau := { s.gau with lanes := mset Lane.fresh s.gau.lanes n x } }
/-- A sluice tag; a collect buffer (all X until something is moved into it). -/
def getTag (s : State) (q t : Nat) : TagSt := mget .free (getSlu s q).tags t
def setTag (q t : Nat) (x : TagSt) (s : State) : State :=
  let u := getSlu s q
  setSlu q { u with tags := mset .free u.tags t x } s
def getCollect (s : State) (q t : Nat) : BitVec 128 := mget (BitVec.allOnes 128) (getSlu s q).collect t
def setCollect (q t : Nat) (v : BitVec 128) (s : State) : State :=
  let u := getSlu s q
  setSlu q { u with collect := mset (BitVec.allOnes 128) u.collect t v } s

/-- A data-store entry: position `phys`, entry `e` (R27). -/
def dsGet (c : Cluster) (phys e : Nat) : V4 := mget .x c.ds (2048 * phys + e)
/-- A data-store write, which also restores good parity (R31). -/
def dsPut (phys e : Nat) (v : V4) (c : Cluster) : Cluster :=
  { c with ds := mset .x c.ds (2048 * phys + e) v, badPar := mset false c.badPar (2048 * phys + e) false }

/-- The schedule position, since the start of the run, of step 0 of the frame in progress or of the next one. -/
def frameStart (s : State) : Nat := s.seq.spos - s.seq.pos

end Sys2Proof.Machine
end

