-- ==== Sys2Proof/Machine/Operands.lean ====
section
/-!
DEFINITION. Four-state values, the instruction word of a Boolean processor, its operand fields and the exact evaluation
rule (R9, R33-R38, R46, R52, R59-R62, R101-R103).
-/
namespace Sys2Proof.Machine

/-- The two-bit code of a four-state value (R9). -/
def v4code : V4 → Nat
  | .zero => 0 | .one => 1 | .z => 2 | .x => 3

/-- The four-state value of a two-bit code (R9). -/
def v4of (n : Nat) : V4 :=
  match n % 4 with
  | 0 => .zero | 1 => .one | 2 => .z | _ => .x

/-- A known value: 0 or 1. -/
def v4known : V4 → Bool
  | .zero | .one => true
  | _ => false

/-- Z read as X (R9). -/
def v4zx : V4 → V4
  | .z => .x
  | v => v

/-- 0 or 1. -/
def v4bool (b : Bool) : V4 := if b then .one else .zero

/-- Value `i` of a packed field: bits [2i+1:2i] (R9). -/
def pget {n : Nat} (p : BitVec n) (i : Nat) : V4 := v4of (p.toNat >>> (2 * i))

/-- The packed field with value `i` made `v`. -/
def pset {n : Nat} (p : BitVec n) (i : Nat) (v : V4) : BitVec n :=
  (p &&& ~~~(BitVec.ofNat n (3 <<< (2 * i)))) ||| BitVec.ofNat n (v4code v <<< (2 * i))

/-- The packed values as a list, lowest index first. -/
def plist {n : Nat} (p : BitVec n) (c : Nat) : List V4 := (List.range c).map (pget p)

/-- A packed field of `n` bits from its values, lowest index first. -/
def ppack (n : Nat) (vs : List V4) : BitVec n :=
  BitVec.ofNat n (vs.foldr (fun v acc => v4code v + 4 * acc) 0)

/-- The number the values spell, lowest index first, where all are known. -/
def v4nat? : List V4 → Option Nat
  | [] => some 0
  | .zero :: t => (v4nat? t).map (2 * ·)
  | .one :: t => (v4nat? t).map (2 * · + 1)
  | _ :: _ => none

/-- The values of the low `c` bits of a number. -/
def v4bits (c n : Nat) : List V4 := (List.range c).map fun i => v4bool (nbit n i)

/-- Two drivers of one segment (R117): what it carries, and whether the contention is benign (some false) or hard (some
true). -/
def resolve2 : V4 → V4 → V4 × Option Bool
  | .z, v => (v, none)
  | v, .z => (v, none)
  | a, b => if a = b then (a, some false) else (.x, some true)

/-- WIRE's resolution of its drivers with a pull (R62). -/
def wireOf (pull : Nat) (vs : List V4) : V4 :=
  let d := vs.filter (· ≠ .z)
  if d.isEmpty then (if pull = 0 then .z else if pull = 1 then .zero else .one)
  else if d.all (· = .zero) then .zero
  else if d.all (· = .one) then .one
  else .x

/-- ZBUF (R61). -/
def zbufOf (pol : Bool) (a b : V4) : V4 :=
  match b with
  | .zero => if pol then v4zx a else .z
  | .one => if pol then .z else v4zx a
  | _ => .x

/-- The exact evaluation rule (R36, R37): the result over every completion of the unknown operands. -/
def evalTT (tt : Nat) (a b c d : V4) : V4 :=
  let fits (v : V4) (bitv : Bool) : Bool := !v4known v || (v = .one) == bitv
  let outs := ((List.range 16).filter fun i =>
    fits a (nbit i 0) && fits b (nbit i 1) && fits c (nbit i 2) && fits d (nbit i 3)).map (nbit tt)
  if outs.all (!·) then .zero else if outs.all id then .one else .x

/-- The four-state OR of a design trigger bit (R60). -/
def v4or : V4 → V4 → V4
  | .one, _ => .one
  | _, .one => .one
  | .zero, .zero => .zero
  | _, _ => .x

/-- An instruction of a Boolean processor (R33-R62). -/
inductive POp where
  | eval (tt : Nat) (stateful : Bool)
  | ashl (n : Nat) (clr : Bool) | wset (n i : Nat) | rd (k : Nat) | wr (k : Nat) | rcol (i : Nat)
  | hshl (n : Nat) (clr : Bool) | hset (n i : Nat) | hrd (r t : Nat) | hwr (r t : Nat) | hcol (i t : Nat)
  | xset (n i : Nat) | xsend (idx site : Nat) | gdrv (l : Nat) | gsmp (l : Nat)
  | nop | wait (t : Nat) | probe (id : Nat) | trig (n : Nat) | zbuf (pol : Bool) | wire (n pull : Nat)
  | illegal
  deriving DecidableEq, Repr

/-- The fields of an instruction word (R33). -/
def wTT (w : BitVec 64) : Nat := nfld w.toNat 63 48
def wA (w : BitVec 64) : Nat := nfld w.toNat 47 37
def wB (w : BitVec 64) : Nat := nfld w.toNat 36 26
def wC (w : BitVec 64) : Nat := nfld w.toNat 25 15
def wD (w : BitVec 64) : Nat := nfld w.toNat 14 4
def wKind (w : BitVec 64) : Nat := nfld w.toNat 3 2
def wExp (w : BitVec 64) : Bool := nbit w.toNat 1
def wState (w : BitVec 64) : Bool := nbit w.toNat 0

/-- A MEM word (R46). -/
def decodeMem (tt banks : Nat) : POp :=
  let n := nfld tt 11 10 + 1
  match tt / 4096 with
  | 1 => if nbit tt 9 || nfld tt 7 0 ≠ 0 then .illegal else .ashl n (nbit tt 8)
  | 2 => if nbit tt 9 || nfld tt 8 0 + n > 512 then .illegal else .wset n (nfld tt 8 0)
  | 3 => if nfld tt 11 9 ≠ 0 || nfld tt 8 0 ≥ banks then .illegal else .rd (nfld tt 8 0)
  | 4 => if nfld tt 11 9 ≠ 0 || nfld tt 8 0 ≥ banks then .illegal else .wr (nfld tt 8 0)
  | 5 => if nfld tt 11 9 ≠ 0 then .illegal else .rcol (nfld tt 8 0)
  | _ => .illegal

/-- A PORT word (R52); `wharf` says whether the member has an exchange unit (R35). -/
def decodePort (tt b c : Nat) (wharf : Bool) : POp :=
  let n := nfld tt 11 10 + 1
  match tt / 4096 with
  | 1 => if nbit tt 9 || nfld tt 7 0 ≠ 0 then .illegal else .hshl n (nbit tt 8)
  | 2 => if nfld tt 9 6 ≠ 0 || nfld tt 5 0 + n > 64 then .illegal else .hset n (nfld tt 5 0)
  | 3 => if nfld tt 11 8 ≠ 0 then .illegal else .hrd (nfld tt 7 4) (nfld tt 3 0)
  | 4 => if nfld tt 11 8 ≠ 0 then .illegal else .hwr (nfld tt 7 4) (nfld tt 3 0)
  | 5 => if nfld tt 11 10 ≠ 0 then .illegal else .hcol (nfld tt 9 4) (nfld tt 3 0)
  | 8 => if nfld tt 9 5 ≠ 0 || nfld tt 4 0 + n > 32 then .illegal else .xset n (nfld tt 4 0)
  | 9 => if nfld tt 11 4 ≠ 0 || !wharf then .illegal else .xsend (nfld tt 3 0) (nfld c 6 0 * 2048 + b)
  | 12 => if nfld tt 11 6 ≠ 0 then .illegal else .gdrv (nfld tt 5 0)
  | 13 => if nfld tt 11 6 ≠ 0 then .illegal else .gsmp (nfld tt 5 0)
  | _ => .illegal

/-- A CTRL word (R59). -/
def decodeCtrl (tt b : Nat) : POp :=
  match tt / 4096 with
  | 0 => if nfld tt 11 0 ≠ 0 then .illegal else .nop
  | 1 => if nfld tt 11 4 ≠ 0 then .illegal else .wait (nfld tt 3 0)
  | 2 => if nfld tt 11 5 ≠ 0 then .illegal else .probe (nfld tt 4 0 * 2048 + b)
  | 3 => if nfld tt 11 2 ≠ 0 then .illegal else .trig (nfld tt 1 0)
  | 4 => if nfld tt 11 1 ≠ 0 then .illegal else .zbuf (nbit tt 0)
  | 5 => if nfld tt 7 0 ≠ 0 || nfld tt 9 8 = 3 then .illegal else .wire (nfld tt 11 10 + 1) (nfld tt 9 8)
  | _ => .illegal

/-- The instruction a word spells on a member with `banks` banks and, or without, a wharf; `illegal` for every form the
loader refuses word by word (R35). -/
def decodeWord (banks : Nat) (wharf : Bool) (w : BitVec 64) : POp :=
  match wKind w with
  | 0 => if wState w && decide (wD w < 1792) then .illegal else .eval (wTT w) (wState w)
  | 1 => if wState w then .illegal else decodeMem (wTT w) banks
  | 2 => if wState w then .illegal else decodePort (wTT w) (wB w) (wC w) wharf
  | _ => if wState w then .illegal else decodeCtrl (wTT w) (wB w)

/-- How many of the operand fields a, b, c, d an instruction reads, from the first (R31). -/
def opReads : POp → Nat
  | .eval _ st => if st then 3 else 4
  | .ashl n _ | .wset n _ | .hshl n _ | .hset n _ | .xset n _ | .wire n _ => n
  | .rd _ | .wr _ | .hrd _ _ | .hwr _ _ | .xsend _ _ | .probe _ | .trig _ => 1
  | .gdrv _ | .zbuf _ => 2
  | .rcol _ | .hcol _ _ | .gsmp _ | .nop | .wait _ | .illegal => 0

/-- A register of `n` four-state values shifted left by the operands, a most significant (R46, R52). -/
def shiftIn (n w : Nat) (p : BitVec w) (clr : Bool) (vs : List V4) : BitVec w :=
  let old := if clr then List.replicate n V4.zero else plist p n
  ppack w ((vs.reverse ++ old).take n)

/-- A register with values `i`, `i+1`, … made the operands (R46, R52). -/
def setRange {w : Nat} (p : BitVec w) (i : Nat) : List V4 → BitVec w
  | [] => p
  | v :: t => setRange (pset p i v) (i + 1) t

/-- The fields of a routing word (R101). -/
def rOutp (w : BitVec 256) (p : Nat) : Bool := nbit w.toNat (192 + p)
def rLocen (w : BitVec 256) (p : Nat) : Bool := nbit w.toNat (128 + p)
def rRot (w : BitVec 256) : Nat := nfld w.toNat 127 122
def rEgr (w : BitVec 256) (j : Nat) : Nat := nfld w.toNat (107 + 2 * j) (106 + 2 * j)
def rLand (w : BitVec 256) (k : Nat) : Bool := nbit w.toNat (29 + 19 * k)
def rSrc (w : BitVec 256) (k : Nat) : Nat := nfld w.toNat (28 + 19 * k) (17 + 19 * k)
def rDest (w : BitVec 256) (k : Nat) : Nat := nfld w.toNat (16 + 19 * k) (11 + 19 * k)
def rReserved (w : BitVec 256) : Nat := nfld w.toNat 10 0
/-- A slot relays when one of its two egress codes is 0b01 (R102). -/
def rRelays (w : BitVec 256) (k : Nat) : Bool := k < 4 && (rEgr w (2 * k) = 1 || rEgr w (2 * k + 1) = 1)

end Sys2Proof.Machine
end

