-- ==== Sys2Proof/Machine/TraceOps.lean ====
section
/-!
DEFINITION. Network time stamps, and the staging of trace records that any unit may cause (R348, R364-R371, R377).
-/
namespace Sys2Proof.Machine

/-- Network time in nanoseconds. -/
def nowNs (s : State) : Nat := s.tim.sec * 1000000000 + s.tim.ns

/-- Units of the trim and the integral term in one ppb. -/
def trimUnit : Int := 65536000

/-- The clock in units of 2^-32 ns. -/
def clockFrac (s : State) : Nat := nowNs s * 2 ^ 32 + s.tim.frac

/-- The clock counts: the TIM unit's clock is not gated (R314). -/
def clockRuns (s : State) : Bool := rbit s oCkgEn0 6

/-- The clock `sub` ps after the last crystal cycle, in units of 2^-32 ns (R347): it goes 40 ns · (1 + trim) a cycle. -/
def clockAt (s : State) (sub : Nat) : Nat :=
  ((clockFrac s : Int) + (sub * 2 ^ 32 : Nat) / 1000 + (sub * 2 ^ 32 : Nat) / 1000 * s.tim.trim / (trimUnit * 1000000000)).toNat

/-- TSN: the low 32 bits of the clock's whole nanosecond count (R348). -/
def tsnOf (s : State) : Nat := (s.tim.sec * 1000000000 + s.tim.ns) % 2 ^ 32

/-- Cluster `cl` is sealed (R377). -/
def sealed (s : State) (cl : Nat) : Bool := rbit s (oTrcSeal (cl / 64) (cl % 64 / 32)) (cl % 32)

/-- The trace unit is armed (R161, R372). -/
def trcArmed (s : State) : Bool := rfld s oTrcSts 18 16 ≠ 0

/-- The 32-byte header of a record (R366). -/
def trcHeader (w0 delta f tsn count arg : Nat) : List Byte :=
  leBytes 4 w0 ++ leBytes 4 (min delta 0xFFFFFFFF) ++ leBytes 8 (f % 2 ^ 48) ++ leBytes 4 tsn ++ leBytes 4 count
    ++ leBytes 4 arg ++ leBytes 4 0

/-- DELTA of a record of frame `f` (R366). -/
def trcDelta (s : State) (f : Nat) : Nat := (f + 2 ^ 48 - s.trc.lastF % 2 ^ 48) % 2 ^ 48

/-- A record put into staging. -/
def stagePut (bytes : List Byte) (f : Nat) (s : State) : State :=
  { s with trc := { s.trc with staging := s.trc.staging ++ [⟨bytes, f⟩], lastF := f } }

/-- Bytes in staging, and the space left for records beside the place kept for a loss record (R370). -/
def stageUsed (s : State) : Nat := (s.trc.staging.map fun r => r.bytes.length).sum - s.trc.sent
def stageFree (s : State) : Nat := 2 ^ 20 - 32 - stageUsed s

/-- The loss record that is due goes ahead of the next record (R371). -/
def stageLoss (s : State) : State :=
  match s.trc.lost with
  | some (n, f) => stagePut (trcHeader (2 ^ 28) (trcDelta s f) f (tsnOf s) n 0) f { s with trc := { s.trc with lost := none } }
  | none => s

/-- A marker staged: markers are never dropped (R371).  Types 2 to 6 of R366. -/
def stageMarker (rtype f arg count : Nat) (s : State) : State :=
  let s1 := stageLoss s
  let delta := if rtype = 5 then 0 else trcDelta s1 f
  stagePut (trcHeader (rtype * 2 ^ 28) delta f (tsnOf s1) count arg) f s1

end Sys2Proof.Machine
end

