-- ==== Sys2Proof/Machine/Ops.lean ====
section
/-!
DEFINITION. Operations every unit shares: free values, network time stamps, interrupts, the lock group's express words,
taint marks, the fault log, and the frame to which a fault belongs (R74, R183, R262-R275, R348, R385).
-/
namespace Sys2Proof.Machine

/-- The result type of every command's meaning. -/
abbrev Res := Host.Outcome State Fault Refusal

/-- The next free value, and the State that has used it (log entry 1). -/
def takeFree (s : State) : BitVec 64 × State := (Config.freeValue s.freeCtr, { s with freeCtr := s.freeCtr + 1 })

/-- A free bit. -/
def takeFreeBit (s : State) : Bool × State := let (v, s') := takeFree s; (v.getLsbD 0, s')

/-- The MSI-X table entry of vector `v` is masked: bit 0 of its vector control word (R385). -/
def msixMasked (s : State) (v : Nat) : Bool := nbit (mget 1#32 s.host.msixTab (4 * v + 3)).toNat 0

/-- Vector `v` signalled: a message, or its pending bit while it is masked (R385).  A vector whose unit is absent or gated is
never signalled. -/
def signal (v : Nat) (s : State) : State :=
  let silent := (v = 16 && !unitOn s 8) || (v = 18 && !unitOn s 7) || (19 ≤ v && v ≤ 21 && !unitOn s 12) || (24 ≤ v && !unitOn s 11)
  if silent || v = 23 then s
  else if msixMasked s v then { s with host := { s.host with pba := s.host.pba ||| BitVec.ofNat 64 (1 <<< v) } }
  else { s with host := { s.host with msix := v :: s.host.msix } }

/-- ST bit `n` of an interrupt register set, and vector `v` signalled when the bit becomes 1 while its EN bit is 1 (the
SEQ_INT, SAF_INT, TRC_INT and GAU_INT cards). -/
def setInt (off n v : Nat) (s : State) : State :=
  let w := rget s off
  let s1 := rset off (setBit w (16 + n)) s
  if !bit w (16 + n) && bit w n then signal v s1 else s1

def seqInt (n : Nat) : State → State := setInt oSeqInt n 16
def safInt (n : Nat) : State → State := setInt oSafInt n 17
def trcInt (n : Nat) : State → State := setInt oTrcInt n 18
def gauInt (n : Nat) : State → State := setInt oGauInt n 19

/-- The group is formed (LKG_STS.FORMED). -/
def grpFormed (s : State) : Bool := rbit s oLkgSts 0

/-- The members named in LKG_MEMBERS_LO and LKG_MEMBERS_HI, ascending. -/
def members (s : State) : List Nat :=
  (List.range 64).filter fun d => if d < 32 then rbit s oLkgMembersLo d else rbit s oLkgMembersHi (d - 32)

/-- The device runs alone: not a member of a formed group, and LKG_MEMBERS 0 or naming itself alone (R188). -/
def runsAlone (s : State) : Bool := !grpFormed s && (members s = [] || members s = [s.dev.devid])

/-- Devices of the group that runs: the members of a formed group, or this device alone (R188). -/
def groupDevs (s : State) : List Nat := if grpFormed s then members s else [s.dev.devid]

/-- Members of the formed group other than this device. -/
def otherDevs (s : State) : List Nat := (groupDevs s).filter (· ≠ s.dev.devid)

/-- The lead device of the group (R188). -/
def leadDev (s : State) : Nat := (groupDevs s).headD s.dev.devid

/-- The link is UP. -/
def lnkUp (s : State) (n : Nat) : Bool := rfld s (oLnkSts n) 2 0 = 6
/-- The link belongs to the group (LKG_LINKMASK). -/
def lnkGroup (s : State) (n : Nat) : Bool := rbit s oLkgLinkmask n

/-- An express word of this device's own, flooded on every UP group link (R182, R183); a device without other members has
no one to send to. -/
def sendExpress (kind arg : Nat) (s : State) : State :=
  if otherDevs s = [] then s
  else { s with grp := { s.grp with seqNo := (s.grp.seqNo + 1) % 16,
                                    sent := ⟨kind, s.dev.devid, s.grp.seqNo, arg % 2 ^ 34⟩ :: s.grp.sent } }

/-- The group runs: FLIGHT, LOCK or STALL. -/
def seqRuns (s : State) : Bool := s.seq.st = .flight || s.seq.st = .lock || s.seq.st = .stall
/-- PAUSED, with the indication held back for the markers of the ended flight: SEQ_STS.STATE still reads LOCK (R78). -/
def pauseHeld (s : State) : Bool := s.seq.st = .paused && s.seq.markHold
/-- SEQ_STS.STATE reads FLIGHT, LOCK or STALL. -/
def seqActive (s : State) : Bool := seqRuns s || pauseHeld s
/-- SEQ_STS.STATE reads IDLE, READY or PAUSED. -/
def seqRests (s : State) : Bool :=
  s.seq.st = .idle || s.seq.st = .ready || (s.seq.st = .paused && !s.seq.markHold)

/-- The frame a fault detected now belongs to (R74, R265): none in IDLE and READY; in a lock phase, a stall in one, or
PAUSED the first frame of the following flight, whose number F already is. -/
def frameNow (s : State) : Option Nat :=
  if s.seq.st = .idle || s.seq.st = .ready then none else some s.seq.F.toNat

/-- The taint mark of frame `f` is final (R74). -/
def taintFinal (s : State) (f : Nat) : Bool :=
  match s.seq.finalTo with
  | some g => frLe f g
  | none => false

/-- Frame `f` is marked tainted. -/
def isTainted (s : State) (f : Nat) : Bool := mget false s.seq.taint f

/-- Frame `f` marked tainted: a taint word unless one was sent or relayed (R183), and taint notices where a call
record (R208) or a frame record (R367) of the frame has left unmarked. -/
def taintOne (f : Nat) (s : State) : State :=
  if isTainted s f then s
  else
    let s1 := { s with seq := { s.seq with taint := mset false s.seq.taint f true } }
    let s1 := if s1.trc.given.contains f then
        stageMarker 4 f 0 0 { s1 with trc := { s1.trc with given := s1.trc.given.erase f } } else s1
    let s2 := if s1.xch.written.contains f then
        { s1 with xch := { s1.xch with notices := s1.xch.notices ++ [f], written := s1.xch.written.erase f } } else s1
    if s2.grp.taints.contains f then s2
    else { sendExpress 10 f s2 with grp := { (sendExpress 10 f s2).grp with taints := f :: s2.grp.taints } }

/-- Frame `f` tainted; where its mark is final, the frame that is current at detection (R74, R265); a voided frame is not
tainted (R18). -/
def taintFrame (f : Nat) (s : State) : State :=
  if s.seq.voided && decide (f = s.seq.F.toNat) then s
  else if taintFinal s f then
    (match frameNow s with
     | some g => taintOne g s
     | none => s)
  else taintOne f s

/-- Frames `a` to `b` tainted, of which those more than 64 frames before `b` are final (R74). -/
def taintSpan (a b : Nat) (s : State) : State :=
  if frLt b a then s
  else
    let n := min (frDist a b) 64
    (List.range (n + 1)).foldl (fun s i => taintFrame (frBack b (n - i)) s) (taintFrame a s)

/-- The code list of R263: each code and its floor. -/
def faultCodes : List (Nat × Nat) :=
  [(0x0001, 0), (0x0002, 0), (0x0003, 0), (0x0004, 0), (0x0005, 0), (0x0006, 0), (0x0007, 0), (0x0008, 0), (0x0009, 0),
   (0x1001, 1), (0x1002, 2), (0x1003, 1), (0x1004, 1), (0x1005, 1), (0x1006, 1), (0x1007, 0),
   (0x2001, 0), (0x2002, 1), (0x2003, 1), (0x2004, 1),
   (0x3001, 0), (0x3002, 1), (0x3003, 0), (0x3004, 0)] ++
  [(0x4001, 0), (0x4002, 1), (0x4003, 1), (0x4004, 1), (0x4005, 1), (0x4006, 0),
   (0x5001, 1), (0x5002, 0), (0x5003, 2), (0x5004, 0),
   (0x6001, 1), (0x6002, 1), (0x6003, 2), (0x6004, 1), (0x6005, 2), (0x6006, 2), (0x6007, 1),
   (0x7001, 1), (0x7002, 0),
   (0x8001, 1), (0x8002, 1), (0x8003, 1), (0x8004, 1)] ++
  [(0x9001, 2), (0x9002, 2), (0x9003, 1), (0x9004, 0),
   (0xA001, 1), (0xA002, 3), (0xB001, 0), (0xB002, 2), (0xD001, 0)]

/-- The code is one the device raises (R263). -/
def faultListed (code : Nat) : Bool := faultCodes.any (·.1 = code)
/-- Its floor (R262, R263). -/
def faultFloor (code : Nat) : Nat := match faultCodes.find? (·.1 = code) with | some e => e.2 | none => 0

/-- The configured reaction of a code: the stronger of class reaction and floor (R262); class 0 always logs (R261). -/
def reactOf (s : State) (code : Nat) : Nat :=
  let c := code / 4096
  max (if c = 0 then 0 else rfld s oSafReact (2 * c + 1) (2 * c)) (faultFloor code)

/-- One fault as a unit reports it. -/
structure Report where
  code  : Nat
  lk    : Nat := 0
  locv  : Nat := 0
  frame : Option Nat := none
  inj   : Bool := false
  deriving DecidableEq, Repr

/-- The reaction as it is carried out (R265, R266, R273). -/
def reactDone (s : State) (r : Report) : Nat :=
  if s.saf.safe then 0
  else if s.seq.st = .idle || s.seq.st = .ready then (if reactOf s r.code = 3 then 3 else 0)
  else reactOf s r.code

/-- The newest record of a code takes one more occurrence, where code, location and frame agree (R275). -/
def mergeLog (r : LogRec) : List LogRec → Option (List LogRec)
  | [] => none
  | x :: t =>
    if t.any (·.code = r.code) then (mergeLog r t).map (x :: ·)
    else if x.code = r.code then
      (if x.lkind = r.lkind && x.locv = r.locv && x.frame = r.frame then
        some ({ x with rep := satAdd 12 x.rep 1 } :: t) else none)
    else (mergeLog r t).map (x :: ·)

/-- A fault or event recorded with the reaction `react` (R273-R275): its class in SAF_STS.CLS, the log with merging and the
full-log rule, SAF_FIRST and the safety interrupts.  No reaction is taken here. -/
def logFaultAs (react : Nat) (r : Report) (s : State) : State :=
  let cls := r.code / 4096
  let rec_ : LogRec :=
    { code := r.code, react := react,
      frame := if s.seq.st = .idle || s.seq.st = .ready then none else r.frame,
      inj := r.inj, rep := 0, lkind := r.lk, locv := r.locv % 2 ^ 28, tsn := tsnOf s }
  let armed := s.saf.arm || decide (rfld s oSafSts 15 1 = 0)
  let s1 := rflag oSafSts cls { s with saf := { s.saf with arm := armed } }
  let told := if cls = 0 then s1 else safInt 0 s1
  match mergeLog rec_ s1.saf.log with
  | some l => { told with saf := { told.saf with log := l } }
  | none =>
    let free := 1024 - s1.saf.log.length
    if free = 0 || (free ≤ 16 && rec_.react < 2) then rcount oSafLogSts 31 16 1 s1
    else
      let s2 := told
      let s3 := { s2 with saf := { s2.saf with log := s2.saf.log ++ [rec_],
                                               first := if armed && cls ≠ 0 then some rec_ else s2.saf.first,
                                               arm := armed && cls = 0 } }
      if s3.saf.log.length = 1008 then safInt 3 s3 else s3

/-- The same with the reaction the fault has now. -/
def logFault (r : Report) (s : State) : State := logFaultAs (reactDone s r) r s

/-- An event of class 0, whose reaction is always to log it (R261). -/
def raiseEvent (code lk locv : Nat) (s : State) : State :=
  logFault { code := code, lk := lk, locv := locv, frame := frameNow s } s

/-- The bypass is closed (R186): unpowered, held in power-on or PERST_N reset, in Frost or Still, or isolated. -/
def bypassed (s : State) : Bool :=
  rbit s oRingSts 3 || decide (4 ≤ rfld s oPwrSts 2 0) || s.rst.perst || s.rst.test || s.rst.ovp

/-- A message this device's lockkeeper puts on the ring for device `dst`, with its group ID (R185); a bypassed module sends none
(R186). -/
def ringSend (dst : Nat) (m : RingMsg) (s : State) : State :=
  if bypassed s then s else { s with grp := { s.grp with ringOut := (rfld s oLkgCfg 31 16, dst, m) :: s.grp.ringOut } }

/-- The same message for every other member. -/
def ringSendAll (m : RingMsg) (s : State) : State := (otherDevs s).foldl (fun s d => ringSend d m s) s

/-- The event bound in steps at the current step clock (R184): the worst path time, rounded up. -/
def eventBound (s : State) : Nat :=
  let k := if s.seq.emerg then s.seq.ratio else 16
  (s.grp.pathPs * rfld s oCkgStep 26 16 * k + 15999999) / 16000000

/-- The lead writes the event bound on every member of its group (R184, SEQ_HORIZON). -/
def setBound (s : State) : State :=
  if grpFormed s && leadDev s = s.dev.devid then
    ringSendAll (.evtBound (min 255 (eventBound s))) (rput oSeqHorizon 23 16 (min 255 (eventBound s)) s)
  else s

/-- CKG_PLL[i].STATE: 0 off, 1 locking, 2 judging, 3 judged stable. -/
def pllSt (s : State) (i : Nat) : Nat := rfld s (oCkgPll i) 31 30
def setPllSt (i st : Nat) : State → State := rput (oCkgPll i) 31 30 st
def bootStage (s : State) : Nat := rfld s oCfgBoot 3 0
def setStage (n : Nat) : State → State := rput oCfgBoot 3 0 n

/-- A lock attempt of PLL `i` begins; `short`: its calibration is retained (R305, R306). -/
def pllStart (short : Bool) (i : Nat) (s : State) : State :=
  let s1 := setPllSt i 1 s
  let s2 := if i = 0 then rmod oCkgSts (clrBit · 8) s1 else s1
  { s2 with clk := { s2.clk with pass := mset 0 s2.clk.pass i 0, fails := mset 0 s2.clk.fails i 0,
                                 judged := mset false s2.clk.judged i short,
                                 tol := mset 100 s2.clk.tol i (rfld s oCkgTol 9 0) } }

/-- An exit to Run begins (R325-R328): `src` woke the device.  From Calm and Mist the PLLs relock with their calibration, from
Frost they lock anew, and from Still the boot begins at stage OSC.  A wake during an entry stops it (R327). -/
def wakeBegin (src : Nat) (s : State) : State :=
  let st := rfld s oPwrSts 2 0
  if s.pwr.exit.isSome then s
  else
    let stops := rbit s oPwrSts 3 && decide (st < rfld s oPwrSts 6 4)
    let s1 := rput oPwrSts 6 3 1 { s with pwr := { s.pwr with exit := some (src, tsnOf s, decide (4 ≤ st)), stopped := stops } }
    if st = 2 || st = 3 then (List.range 5).foldl (fun s i => pllStart true i s) s1
    else if st = 4 then (List.range 5).foldl (fun s i => pllStart false i s) (setStage 7 s1)
    else if st = 5 then setStage 1 s1
    else s1

end Sys2Proof.Machine
end

