-- ==== Sys2Proof/Machine/GaugeOps.lean ====
section
/-!
DEFINITION. The gauge unit's lanes, verdicts and fail FIFO: what every step and reset shares (R215-R230).
-/
namespace Sys2Proof.Machine

/-- The gauge unit is present and clocked. -/
def gauOn (s : State) : Bool := unitOn s 12

/-- MODE and XPOL of a lane (R217). -/
def laneMode (s : State) (n : Nat) : Nat := rfld s (oGauLane n) 1 0
def laneXpol (s : State) (n : Nat) : Nat := rfld s (oGauLane n) 3 2
def laneRec (s : State) (n : Nat) : Bool := rbit s (oGauLane n) 4

/-- The pin state a two-bit code of STD_PARK or STD_SAFE gives (R219). -/
def parkPin (code : Nat) : PinOut := if code = 1 then .low else if code = 2 then .high else .keeper

/-- What the part leaves on lane `n`'s pin: safe state over park state over design drive (R24, R219): in
Lull and Calm the pins hold, from Mist on they park (R321); before the rails are up they are released (R287; log entry 35). -/
def lanePin (s : State) (n : Nat) : PinOut :=
  let k := n / 32
  let l := getLane s n
  if rfld s oCfgBoot 3 0 = 0 && decide (rfld s oPwrSts 2 0 < 4) then .released
  else if s.saf.safe then parkPin (fld s.std.safe (2 * k + 1) (2 * k))
  else if !unitPresent s 12 || !rbit s oCkgEn0 12 || decide (3 ≤ rfld s oPwrSts 2 0) || s.seq.st = .idle || !s.gau.live || l.off then parkPin (fld s.std.park (2 * k + 1) (2 * k))
  else l.pin

/-- The lanes a frame can change: those in a mode other than OFF, and those that hold something from before. -/
def gauLanes (s : State) : List Nat :=
  (List.range (nLanes s)).filter fun n => laneMode s n ≠ 0 || s.gau.lanes.any (·.1 = n)

/-- The high-Z-detect input that serves lane `n`, if one is enabled (R222). -/
def laneZd (s : State) (n : Nat) : Option Nat :=
  (List.range 4).map (4 * (n / 32) + ·) |>.find? fun z => rbit s (oGauZdmap z) 9 && rfld s (oGauZdmap z) 8 0 = n

/-- The code of a verdict at its release (R224). -/
def verdictCode (s : State) (v : Verdict) : Nat :=
  if isTainted s v.frame then 2 else if v.unconf then 3 else if v.fails ≠ [] then 1 else 0

/-- A verdict released (R224, R230): its counts, the first-fail capture, its fail records. -/
def releaseVerdict (v : Verdict) (s : State) : State :=
  let c := verdictCode s v
  let s1 := rset oGauVerF (BitVec.ofNat 32 v.frame) (rcount (oGauCnt c) 31 0 1 s)
  let s2 :=
    if c = 1 then
      let a := v.fails.foldl (fun s n => rcount (oGauFcnt n) 31 0 1 s) s1
      let b := if rbit s1 oGauSts 0 then a else
        rset oGauFf1Lane (BitVec.ofNat 32 (2 ^ 31 + v.fails.headD 0))
          (rset oGauFf1FLo (BitVec.ofNat 32 v.frame)
            (rset oGauFf1FHi (BitVec.ofNat 32 (v.frame / 2 ^ 32)) (rset oGauFf1Tsn (BitVec.ofNat 32 v.tsn) a)))
      gauInt 0 (rflag oGauSts 0 b)
    else if c = 2 then gauInt 3 (rflag oGauSts 1 s1)
    else if c = 3 then gauInt 3 (rflag oGauSts 2 s1)
    else s1
  let mark (r : FailRec) : FailRec := if r.frame = v.frame && r.code = none then { r with code := some c } else r
  { s2 with gau := { s2.gau with
      fifo := s2.gau.fifo.map mark,
      lost := s2.gau.lost.map fun (n, f, k, t) => (n, f, if f = v.frame && k = none then some c else k, t) } }

/-- A run has ended: every held verdict is released at once as UNCONFIRMED (R226). -/
def gauRunEnd (s : State) : State :=
  let held := s.gau.held
  held.foldl (fun s v => releaseVerdict { v with unconf := true } s) { s with gau := { s.gau with held := [] } }

/-- Records the fail FIFO holds; one place is kept for a loss record (R227). -/
def fifoCap : Nat := 131072

/-- When space has returned, the one loss record is stored (R227). -/
def storeLoss (s : State) : State :=
  match s.gau.lost with
  | some (n, f, c, t) =>
    if s.gau.fifo.length + 1 < fifoCap then
      let r : FailRec := { loss := true, frame := f, lane := 0, exp := .zero, smp := .zero, drv := .zero, kind := 0,
                           tsn := t, count := n, code := c }
      { s with gau := { s.gau with lost := none, fifo := s.gau.fifo ++ [r] } }
    else s
  | none => s

/-- One fail record offered to the FIFO (R227). -/
def pushFail (r : FailRec) (s : State) : State :=
  if s.gau.fifo.length + 1 < fifoCap then
    let s1 := { s with gau := { s.gau with fifo := s.gau.fifo ++ [r] } }
    if s1.gau.fifo.length = fifoCap / 2 + 1 then gauInt 1 s1 else s1
  else
    let s1 := rflag oGauSts 3 (rcount oGauFfLost 31 0 1 s)
    { s1 with gau := { s1.gau with lost := match s1.gau.lost with
        | some (n, f, c, t) => some (n + 1, f, c, t)
        | none => some (1, r.frame, r.code, r.tsn) } }

/-- Frames `a` to `b` downgraded to UNCONFIRMED (R225). -/
def downgrade (a b : Nat) (s : State) : State :=
  let f (v : Verdict) : Verdict :=
    if decide (frDist a v.frame ≤ frDist a b) then { v with unconf := true } else v
  { s with gau := { s.gau with held := s.gau.held.map f } }

end Sys2Proof.Machine
end

