-- ==== Sys2Proof/Machine/Mem.lean ====
section
/-!
DEFINITION. The words of design memory and of hold memory: bytes, ECC state, and what a read that checks ECC reports (R123,
R130, R137, R138, R147-R150).
-/
namespace Sys2Proof.Machine

/-- Eight bytes at `a` of a byte map, as a word. -/
def cells8 (m : List (Nat × Byte)) (a : Nat) : BitVec 64 :=
  BitVec.ofNat 64 (leNat ((List.range 8).map fun i => mget 0#8 m (a + i)))

/-- The bytes of a list written from `a` on. -/
def putBytes (m : List (Nat × Byte)) (a : Nat) : List Byte → List (Nat × Byte)
  | [] => m
  | b :: t => putBytes (mset 0#8 m a b) (a + 1) t

/-- The data of word `w` of bank `k`, and its ECC state. -/
def dmWord (s : State) (k w : Nat) : BitVec 64 := cells8 s.dmc.cells (0x40000 * k + 8 * w)
def dmEcc (s : State) (k w : Nat) : Ecc := mget .clean s.dmc.ecc (32768 * k + w)

/-- A design-memory write with new check bits, or in the poisoned form (R123, R138); it cancels a write-back still due
(R137). -/
def dmWrite (k w : Nat) (v : BitVec 64) (poison : Bool) (s : State) : State :=
  { s with dmc := { s.dmc with cells := putBytes s.dmc.cells (0x40000 * k + 8 * w) (leBytes 8 v.toNat),
                               ecc := mset .clean s.dmc.ecc (32768 * k + w) (if poison then .poison else .clean),
                               writeback := mset false s.dmc.writeback (32768 * k + w) false } }

/-- What the check of a design-memory read does beside delivering the word (R137): counts, flags, records, the report.
`src` is DMC_UE_REC.SRC. -/
def dmCheck (src k w : Nat) (s : State) : State × List Report :=
  match dmEcc s k w with
  | .clean | .poison => (s, [])
  | .single =>
    let s1 := rflag oDmcSts 0 (rcount oDmcEccCnt 15 0 1 s)
    ({ s1 with dmc := { s1.dmc with writeback := mset false s1.dmc.writeback (32768 * k + w) true } },
     [{ code := 0x0003, lk := 4, locv := w * 512 + k, frame := frameNow s }])
  | .double =>
    let s1 := rcount oDmcEccCnt 31 16 1 s
    let s2 := if rbit s1 oDmcUeRec 31 then s1
              else rset oDmcUeRec (BitVec.ofNat 32 (2 ^ 31 + src * 2 ^ 29 + k * 2 ^ 15 + w)) s1
    (rflag oDmcSts 1 s2, [{ code := 0x3001, lk := 4, locv := w * 512 + k, frame := frameNow s }])

/-- The 64 four-state values a scheduled read delivers for one bank lane (R123, R137). -/
def dmLane (s : State) (k w : Nat) : List V4 :=
  match dmEcc s k w with
  | .clean | .single => v4bits 64 (dmWord s k w).toNat
  | .double | .poison => List.replicate 64 .x

/-- Hold word `n` (byte address div 8) and its ECC state (R149, R150). -/
def hdWord (s : State) (n : Nat) : BitVec 64 := cells8 s.hold.cells (8 * n)
def hdEcc (s : State) (n : Nat) : Ecc := mget .poison s.hold.ecc n

/-- A hold-memory word write (R149, R150). -/
def hdWrite (n : Nat) (v : BitVec 64) (poison : Bool) (s : State) : State :=
  { s with hold := { s.hold with cells := putBytes s.hold.cells (8 * n) (leBytes 8 v.toNat),
                                 ecc := mset .poison s.hold.ecc n (if poison then .poison else .clean),
                                 writeback := mset false s.hold.writeback n false } }

/-- The check of a hold-memory read by source `src` of HLD_UE_SRC (R150): counts, flags, the first record, the report.  The
report of an uncorrectable word read through a sluice waits for the WAIT that collects it. -/
def hdCheck (src n : Nat) (s : State) : State × List Report :=
  match hdEcc s n with
  | .clean | .poison => (s, [])
  | .single =>
    let s1 := rflag oHldSts 0 (rcount oHldEccCnt 15 0 1 s)
    ({ s1 with hold := { s1.hold with writeback := mset false s1.hold.writeback n true } },
     [{ code := 0x0004, lk := 7, locv := n / 64, frame := frameNow s }])
  | .double =>
    let s1 := rcount oHldEccCnt 31 16 1 s
    let s2 := if rbit s1 oHldUeLine 31 then s1
              else rset oHldUeSrc (BitVec.ofNat 32 (src * 8 + n % 8)) (rset oHldUeLine (BitVec.ofNat 32 (2 ^ 31 + n / 8)) s1)
    (rflag oHldSts 1 s2, [{ code := 0x4001, lk := 7, locv := n / 64, frame := frameNow s }])

/-- DMC_OWN[k] (R124, R125). -/
def ownMode (s : State) (k : Nat) : Nat := rfld s (oDmcOwn k) 25 24
def ownGw (s : State) (k : Nat) : Nat := rfld s (oDmcOwn k) 22 20 + 1
def ownLane (s : State) (k : Nat) : Nat := rfld s (oDmcOwn k) 19 17
/-- The port of cluster `cl` owns bank `k`, and `k` is the first of its gang (R50, R125). -/
def portOwns (s : State) (cl k : Nat) : Bool :=
  k < nBanks s && ownMode s k = 1 && ownLane s k = 0 && rfld s (oDmcOwn k) 10 0 = cl
/-- Bank `k` + `j` is lane `j` of a gang of the cluster's port (R125): a member that a failed march has made unowned is not
(R124). -/
def laneOwned (s : State) (cl k j : Nat) : Bool :=
  k + j < nBanks s && ownMode s (k + j) = 1 && ownLane s (k + j) = j && rfld s (oDmcOwn (k + j)) 10 0 = cl

/-- A write of cluster `cl`'s port reaches its bank, in the lanes the port owns (R49, R129). -/
def writeLands (s0 : State) (cl : Nat) (m : MemOp) (s : State) : State :=
  let s1 := ((List.range m.width).filter (laneOwned s0 cl m.bank)).foldl (fun s j =>
    let vs := (plist m.data (64 * m.width)).drop (64 * j) |>.take 64
    let v := BitVec.ofNat 64 (vs.foldr (fun v n => (if v = .one then 1 else 0) + 2 * n) 0)
    dmWrite (m.bank + j) m.addr v (m.kind = .writePoison || vs.any (!v4known ·)) s) s
  setCl cl { getCl s1 cl with memOps := (getCl s1 cl).memOps.filter (· ≠ m) } s1

/-- The writes issued from position `p` on that still wait for their bank cycle are carried out (R32). -/
def finishWrites (p : Nat) (s : State) : State :=
  let due (m : MemOp) : Bool := !m.done && decide (p ≤ m.issued) && (m.kind = .write || m.kind = .writePoison)
  s.fab.foldl (fun s kv => (kv.2.memOps.filter due).foldl (fun s m => writeLands s kv.1 m s) s) s

/-- The bank is under march or has failed (R142, R143). -/
def bankOff (s : State) (k : Nat) : Bool := mget false s.dmc.marching k || rbit s (oDmcRepair k) 31

end Sys2Proof.Machine
end

