-- ==== Sys2Proof/Machine/WharfOps.lean ====
section
/-!
DEFINITION. The matching store, berths and flows: looking up call sites, entering berths, closing a frame's calls, and what
the end of a run resolves (R193-R204, R211, R428).
-/
namespace Sys2Proof.Machine

/-- Fields of a call-site entry (R193). -/
def siteEntry (s : State) (site : Nat) : Nat := (mget 0#64 s.xch.sites site).toNat
def siteValid (e : Nat) : Bool := nbit e 63
def siteKind (e : Nat) : Nat := nfld e 62 61
def siteW (e : Nat) : Nat := nfld e 60 56 + 1
def siteReq (e : Nat) : Nat := nfld e 55 40
def sitePart (e : Nat) : Nat := nfld e 39 34
def siteBerth (e : Nat) : Nat := nfld e 33 19
def siteRet (e : Nat) : Nat := nfld e 18 0

/-- Payload values of a call of the site: (i_max + 1)·W (R193). -/
def siteNval (e : Nat) : Nat :=
  match ((List.range 16).filter (nbit (siteReq e))).getLast? with
  | some i => (i + 1) * siteW e
  | none => 0

/-- Fields of a berth entry and of a flow entry (R203). -/
def berthEntry (s : State) (b : Nat) : Nat := (mget 0#32 s.xch.berths b).toNat
def berthDepth (s : State) (b : Nat) : Nat := nfld (berthEntry s b) 11 0 + 1
def berthFlow (s : State) (b : Nat) : Nat := nfld (berthEntry s b) 29 16
def flowEntry (s : State) (f : Nat) : Nat := (mget 0#16 s.xch.flowTab f).toNat
def flowAuto (s : State) (f : Nat) : Bool := nbit (flowEntry s f) 15
def flowGroup (s : State) (f : Nat) : Nat := nfld (flowEntry s f) 5 0
def flowSt (s : State) (f : Nat) : FlowSt := mget .idle s.xch.flows f
def setFlow (f : Nat) (x : FlowSt) (s : State) : State :=
  { s with xch := { s.xch with flows := mset .idle s.xch.flows f x } }

/-- What a call's berth, flow and kind are. -/
def callBerth (s : State) (e : XEntry) : Nat := siteBerth (siteEntry s e.site)
def callFlow (s : State) (e : XEntry) : Nat := berthFlow s (callBerth s e)
def callKind (s : State) (e : XEntry) : Nat := siteKind (siteEntry s e.site)
/-- A blocking call that is not VOID (R199). -/
def callBlocks (s : State) (e : XEntry) : Bool := callKind s e = 2 && !e.void

/-- The entry replaced by its changed self, or taken away (FREE). -/
def putEntry (e : XEntry) (s : State) : State :=
  { s with xch := { s.xch with entries := s.xch.entries.map fun x => if x.id = e.id then e else x } }
def dropEntry (id : Nat) (s : State) : State :=
  { s with xch := { s.xch with entries := s.xch.entries.filter fun x => x.id ≠ id } }

/-- Entries of partition `j` that are not FREE, its size and its reserve (R196, R200). -/
def partUsed (s : State) (j : Nat) : Nat := (s.xch.entries.filter (·.part = j)).length
def partSize (s : State) (j : Nat) : Nat := 64 * rfld s (oXchPart j) 22 11
def partFree (s : State) (j : Nat) : Nat := partSize s j - partUsed s j
def partReserve (s : State) (j : Nat) : Nat := 64 * rfld s (oXchPart j) 30 23

/-- The next return handle taken: 1 to 0xFFFF_FFFF, then 1 again (R211). -/
def takeHandle (s : State) : Nat × State :=
  (s.xch.handle, { s with xch := { s.xch with handle := if s.xch.handle = 2 ^ 32 - 1 then 1 else s.xch.handle + 1 } })

/-- A call enters its berth: QUEUED, with its place in the order of berth entries and, for a blocking call, its handle
(R198, R204, R211). -/
def enterBerth (e : XEntry) (s : State) : State :=
  let (h, s1) := if callKind s e = 2 then takeHandle s else (0, s)
  let s2 := putEntry { e with st := .queued, order := s1.xch.nextOrd, handle := h } s1
  rcount oXchFired 31 0 1 { s2 with xch := { s2.xch with nextOrd := s2.xch.nextOrd + 1 } }

/-- The berth has room, and holds no WAITING call (R199). -/
def berthRoom (s : State) (b : Nat) : Bool :=
  decide ((s.xch.entries.filter fun x => x.st = .queued && callBerth s x = b).length < berthDepth s b)
def berthWaits (s : State) (b : Nat) : Bool := s.xch.entries.any fun x => x.st = .waiting && callBerth s x = b

/-- A call that leaves RETURN (R212, R213): its entry is FREE and its flow idle. -/
def leaveReturn (e : XEntry) (s : State) : State := setFlow (callFlow s e) .idle (dropEntry e.id s)

/-- A return is written at its bank (R212): its call leaves RETURN. -/
def returnWritten (id : Nat) (s : State) : State :=
  let s1 := { s with xch := { s.xch with dmRets := s.xch.dmRets.erase id } }
  match s1.xch.entries.find? fun e => e.id = id && e.st = .ret with
  | some e => leaveReturn e s1
  | none => s1

/-- No return pre-check made so far separates two calls: both are due in the same lock phase (R209). -/
def dueTogether (s : State) (e l : XEntry) : Bool := s.seq.preRet.all fun p => decide (e.first < p.2.1) = decide (l.first < p.2.1)
/-- A call in RETURN whose return is consumed is complete once a later call of its site, due in the same lock phase, is
closed (R212). -/
def superseded (s : State) (e : XEntry) : Bool :=
  e.st = .ret && e.value.isSome && !s.xch.dmRets.contains e.id && s.xch.entries.any fun l =>
    l.site = e.site && callBlocks s l && (l.st = .waiting || l.st = .queued || l.st = .ret) && decide (e.order < l.order) &&
      dueTogether s e l
def supersede (s : State) : State := (s.xch.entries.filter (superseded s)).foldl (fun s e => leaveReturn e s) s

/-- One call reaches its close point (R198, R199). -/
def closeCall (e : XEntry) (s : State) : State :=
  let inc := e.st = .opened && !e.void
  let s1 := if inc then raiseEvent 0x0006 8 e.site (rflag oXchSts 3 s) else s
  let e1 := { e with incomplete := e.incomplete || inc, tsn := tsnOf s }
  let b := callBerth s1 e1
  if berthRoom s1 b && !berthWaits s1 b then enterBerth e1 s1
  else
    let s2 := putEntry { e1 with st := .waiting, order := s1.xch.nextOrd } s1
    { s2 with xch := { s2.xch with nextOrd := s2.xch.nextOrd + 1 } }

/-- The close point of the calls `p` picks among those not yet closed: one after another in ascending order of call site
(R198); a call they supersede leaves RETURN (R212). -/
def closeCalls (p : XEntry → Bool) (s : State) : State :=
  supersede ((sortBy (fun e : XEntry => e.site) (s.xch.entries.filter fun e => (e.st = .opened || e.st = .complete) && p e)).foldl
    (fun s e => closeCall e s) s)

/-- WAITING calls move up, oldest first, while their berth has room (R199). -/
def promote (b : Nat) : Nat → State → State
  | 0, s => s
  | k + 1, s =>
    match sortBy (fun e : XEntry => e.order) (s.xch.entries.filter fun x => x.st = .waiting && callBerth s x = b) with
    | e :: _ => if berthRoom s b then promote b k (enterBerth e s) else s
    | [] => s

/-- The frame `f` is voided: every entry of it not yet closed becomes COMPLETE with VOID and enters its berth at once (R198,
R199); its fragments still in the exchange ports stay VOID. -/
def xchVoid (f : Nat) (s : State) : State :=
  let es := s.xch.entries.map fun e =>
    if (e.st = .opened || e.st = .complete) && e.frame = f then { e with void := true, st := .complete } else e
  let fs := s.xch.frags.map fun g => if g.frame = f then { g with void := true } else g
  closeCalls (fun e => e.void) { s with xch := { s.xch with entries := es, frags := fs, voids := s.xch.voids + 1 } }

/-- The taint marks of every frame become final (R74): each entry keeps the mark of its frame, and no record's frame is open to
a taint notice (R208). -/
def xchMarks (s : State) : State :=
  let keep (e : XEntry) : XEntry := { e with mark := some (e.mark.getD (isTainted s e.frame)) }
  { s with xch := { s.xch with entries := s.xch.entries.map keep, written := [] } }

/-- The fragments still in the exchange ports are of the run that ends: the calls they open are resolved as well (R428). -/
def fragsEnd (s : State) : State := { s with xch := { s.xch with frags := s.xch.frags.map fun f => { f with ended := true } } }

/-- The end of a run resolves every blocking call not yet resolved (R428): a call in RETURN becomes FREE and its flow idle,
every other is resolved and goes FREE at its dispatch. -/
def xchRunEnd (s : State) : State :=
  fragsEnd <| xchMarks <| s.xch.entries.foldl (fun s e =>
    if callBlocks s e && !e.resolved then
      (if e.st = .ret then
        setFlow (callFlow s e) .idle
          (dropEntry e.id { s with xch := { s.xch with lateH := e.handle :: s.xch.lateH } })
      else putEntry { e with resolved := true } s)
    else s) s

/-- The matching store, the berths and the flow states cleared (R214); handles start at 1 again (R211).  A return that names a
call the end of its run has resolved is still late (R428).  R214 lists no more: that the loss queue, the taint notices, the deficits
and the last-served flows go with them, whose calls and flows are gone, is a DESIGN CHOICE (log entry 59). -/
def xchClear (s : State) : State :=
  let hs := (s.xch.entries.filter fun e => e.resolved && e.handle ≠ 0).map (·.handle)
  { s with xch := { s.xch with entries := [], frags := [], flows := [], deficit := [], lastFlow := [], grp := 0,
                               visit := none, losses := [], notices := [], handle := 1, written := [],
                               lateH := hs ++ s.xch.lateH, retWin := [], dmRets := [] } }

end Sys2Proof.Machine
end

