-- ==== Sys2Proof/Machine/Faults.lean ====
section
/-!
DEFINITION. Taking a fault: the log, then the reaction (R262-R267), with the halt of R82, the clock-loss halt of R97 and the
safe state of R267, which reactions request.
-/
namespace Sys2Proof.Machine

/-- SEQ_LAST_EVT: the group-wide event that has just taken effect. -/
def lastEvt (kind src g : Nat) (s : State) : State :=
  rset oSeqLastEvt (BitVec.ofNat 32 (kind * 2 ^ 28 + (src % 64) * 2 ^ 22 + g % 2 ^ 22)) s

/-- The first horizon-aligned step at least 256 steps after this one (R82, R86). -/
def horizonStep (s : State) : Nat := alignUp (s.seq.gsc.toNat + 256) 256

/-- A halt placed at E0 (R82): of several votes the earliest E0 stands on every device, and the first of one E0.  One agreed before a
pause for a step after it keeps its coordinate (R83). -/
def placeHalt (e0 src : Nat) (s : State) : State :=
  if (seqRuns s || s.seq.st = .paused) && s.seq.halt.all (fun e => decide (e0 < e)) then { s with seq := { s.seq with halt := some e0, haltSrc := src } }
  else s

/-- A halt requested on this device: placed by R82 and voted to the group; none while one is placed (R266). -/
def requestHalt (s : State) : State :=
  if seqRuns s && s.seq.halt = none then
    sendExpress 7 (horizonStep s / 256) (placeHalt (horizonStep s) s.dev.devid s)
  else s

/-- What held a voided frame's staged values loses them; every other store keeps what was written (R32, R39). -/
def dropStaged (s : State) : State :=
  { s with fab := mmapv Cluster.fresh (fun c => { c with staged := [] }) s.fab }

/-- The frame in progress is voided (R18, R32, R198): its staged values are discarded, its calls become VOID, its taint is
taken back (a void prevails), F stays, and a design-memory write that it issued in its last step still reaches its bank. -/
def voidFrame (s : State) : State :=
  let f := s.seq.F.toNat
  xchVoid f (dropStaged (finishWrites (frameStart s)
    { s with seq := { s.seq with voided := true, taint := mset false s.seq.taint f false } }))

/-- A frame is in progress that has begun and not reached its first tick step; one is past it, its second tick step still to
come (R18). -/
def frameBegun (s : State) : Bool :=
  s.seq.st = .flight && decide (0 < s.seq.pos) && decide (s.seq.pos ≤ rfld s oSeqCfg 10 0)
def framePast (s : State) : Bool := decide (rfld s oSeqCfg 10 0 < s.seq.pos)

/-- The device halts for loss of step clock, its own or another's (R97): a frame not yet at its first tick step is voided,
unless it stands in a stall; between the tick steps the second tick step stays pending.  A taint that a halt reaction carries
on ends here (R75). -/
def clockLossHalt (src : Nat) (s : State) : State :=
  let g := s.seq.gsc.toNat
  let s1 := { s with seq := { s.seq with st := .clkHalt, stood := s.seq.st, carry := none,
                                         tickPend := s.seq.st = .flight && framePast s } }
  let s2 := if frameBegun s then voidFrame s1 else s1
  lastEvt 8 src g s2

/-- This device's own step clock fails (R97): the vote carries F of the frame in progress, and the device halts at once. -/
def clockLossOwn (s : State) : State :=
  if seqRuns s then clockLossHalt s.dev.devid (sendExpress 8 s.seq.F.toNat s) else s

/-- The last frame of the run that has passed its first tick step; none before the first. -/
def lastFrame (s : State) : Option Nat :=
  if framePast s then some s.seq.F.toNat else if frameStart s = 0 then none else some (frBack s.seq.F.toNat 1)

/-- The newest frame whose mark is final once the run has ended (R74): the later of the one that was and the last frame run. -/
def finalFrame (s : State) : Option Nat :=
  match s.seq.finalTo, lastFrame s with
  | some a, some b => some (frMax a b)
  | a, none => a
  | none, b => b

/-- The run has ended in one of the ways of R226: held verdicts go out UNCONFIRMED, blocking calls are resolved (R428), and the
taint mark of every frame run becomes final (R74), as what is still to be written for it carries it (R207, R208). -/
def runEnd (s : State) : State :=
  let s1 := xchRunEnd (gauRunEnd s)
  { s1 with trc := { s1.trc with given := [] },
            seq := { s1.seq with finalTo := finalFrame s1 } }

/-- Safe state (R267): the step gate closes, a frame before its first tick step is voided, one past it is tainted; the lanes,
FAULT_N and SAF_STS.SAFE follow `saf.safe`; a halt vote goes to the group; the run has ended (R226).  The taint word for the
fault's frame has gone out with the fault.  Below Run the device wakes first (R327). -/
def enterSafe (s : State) : State :=
  if s.saf.safe then s
  else if rfld s oPwrSts 2 0 ≠ 0 then wakeBegin 0 { s with pwr := { s.pwr with safeDue := true } }
  else
    let s1 := if frameBegun s then voidFrame s else if framePast s then taintFrame s.seq.F.toNat s else s
    let s2 := runEnd (sendExpress 7 (horizonStep s / 256) s1)
    safInt 2 { s2 with seq := { s2.seq with st := .safe, stood := s.seq.st, halt := none, carry := none },
                       saf := { s2.saf with safe := true } }

/-- The newest frame that has begun: in a lock phase, and in a stall in one, the last of the flight (R75). -/
def newestFrame (s : State) : Nat :=
  if s.seq.st = .lock || (s.seq.st = .stall && s.seq.ret = .lock) then frBack s.seq.F.toNat 1 else s.seq.F.toNat

/-- The halt reaction of a fault of frame `f` (R75, R82, R262): the frames from `f` on that have begun are tainted now, each
later one before the halt as it begins. -/
def haltReaction (f : Nat) (s : State) : State :=
  let s1 := safInt 1 s
  if seqRuns s1 then
    let s2 := taintSpan f (newestFrame s1) s1
    requestHalt { s2 with seq := { s2.seq with carry := some f } }
  else s1

/-- The taint of a report: the frame to which the fault belongs (R262, R265). -/
def taintReport (r : Report) (s : State) : State :=
  match r.frame with
  | some f => taintFrame f s
  | none => s

/-- HC_DESIGN reports hard contention in the design class (R264). -/
def designCode (s : State) (code : Nat) : Nat := if code = 0x2001 && rbit s oSafCtl 0 then 0xD001 else code

/-- The faults detected in one step in ascending order of code, each with the reaction it has now (R266). -/
def reportActs (s : State) (rs : List Report) : List (Report × Nat) :=
  let named := rs.map fun r => if r.inj then r else { r with code := designCode s r.code }
  (sortBy (fun r : Report => r.code) named).map fun r => (r, reactDone s r)

/-- The strongest of the reactions is safe state. -/
def toSafe (acts : List (Report × Nat)) : Bool := acts.any fun a => a.2 = 3

/-- The earliest frame of the faults that halt the group by R82 (a clock loss halts it by R97). -/
def haltFrame (s : State) (acts : List (Report × Nat)) : Option Nat :=
  (acts.filter fun a => a.2 = 2 && a.1.code ≠ 0x9001).foldl (fun o a =>
    let f := a.1.frame.getD s.seq.F.toNat
    some (match o with | some g => if frLt f g then f else g | none => f)) none

/-- What the faults do in the step that detects them (R262, R266): the log, in ascending order; the downgrade of R225; the taints;
and, unless a stronger reaction prevails, the clock-loss halt or the request of a halt. -/
def raiseFirst (acts : List (Report × Nat)) (s : State) : State :=
  let s1 := acts.foldl (fun s a => logFault a.1 s) s
  let lost := acts.any (fun a => a.2 = 2 && a.1.code = 0x9001) && !toSafe acts
  let s2 := if lost then clockLossOwn (safInt 1 s1) else s1
  let s2 := if acts.any fun a => a.1.code = 0x1001 then downgrade (frBack s2.seq.F.toNat 63) s2.seq.F.toNat s2 else s2
  let s3 := acts.foldl (fun s a => if 1 ≤ a.2 then taintReport a.1 s else s) s2
  match haltFrame s acts with
  | some f => if toSafe acts then s3 else haltReaction f s3
  | none => s3

/-- What they do in the step after detection: safe state (R267). -/
def raiseLast (acts : List (Report × Nat)) (s : State) : State := if toSafe acts then enterSafe s else s

/-- The faults detected between two steps of the sequencer: the log and the reactions combined, the strongest applied once
(R266). -/
def raiseAll (rs : List Report) (s : State) : State :=
  let acts := reportActs s rs
  raiseLast acts (raiseFirst acts s)

/-- One fault, belonging to the frame R74 gives for now unless the report names another. -/
def raise (code lk locv : Nat) (s : State) : State :=
  raiseAll [{ code := code, lk := lk, locv := locv, frame := frameNow s }] s

/-- One fault of a frame named by its rule (done-markers, calls, rails). -/
def raiseIn (code lk locv f : Nat) (s : State) : State :=
  raiseAll [{ code := code, lk := lk, locv := locv, frame := if frameNow s = none then none else some f }] s

end Sys2Proof.Machine
end

