-- ==== Sys2Proof/Machine/Fabric.lean ====
section
/-!
DEFINITION. One evaluation step of the Boolean processors: fetch, operand read, evaluation, port operations, the shadow
(R16, R25-R66).  Every read sees the State at the start of the step; writes take effect at its end (R30, R42).
-/
namespace Sys2Proof.Machine

/-- Basin `b` runs: the member has it, the image places it, its stores are loaded and its domain is not fenced (R246, R293). -/
def basinRuns (s : State) (b : Nat) : Bool :=
  b < nBasins s && rbit s oCfgPlaced b && rbit s oCfgLoaded b && !rbit s oCfgFenced b

/-- The running basins, and their clusters 64·b + c, ascending. -/
def runBasins (s : State) : List Nat := (List.range (nBasins s)).filter (basinRuns s)
def runClusters (s : State) : List Nat := (runBasins s).flatMap fun b => (List.range 64).map (64 * b + ·)

/-- Register offsets of cluster `cl` = 64·b + c. -/
def cStat (cl : Nat) : Nat := oCluStat (cl / 64) (cl % 64)
def cShd (cl : Nat) : Nat := oCluShd (cl / 64) (cl % 64)
def cRepair (cl : Nat) : Nat := oCluRepair (cl / 64) (cl % 64)
def cEcc (cl : Nat) : Nat := oCluEcc (cl / 64) (cl % 64)
def cXev (cl : Nat) : Nat := oCluXev (cl / 64) (cl % 64)

/-- The physical position that executes logical processor `p` (R26). -/
def physOf (s : State) (cl p : Nat) : Nat := if rbit s (cStat cl) 9 && rfld s (cStat cl) 15 10 = p then 65 else p

/-- The logical processor that a physical position serves (R5, R26, R64): the spare, position 65, the one of SPARE_LP; the shadow,
position 64, the one it replays in this frame (DESIGN CHOICE, log entry 12: R274 gives the shadow no index g of its own). -/
def lpOf (s : State) (cl ph : Nat) : Nat :=
  if ph = 65 then rfld s (cStat cl) 15 10 else if ph = 64 then s.seq.F.toNat % 64 else ph % 64

/-- Location of a processor (R274): physical position and global index. -/
def locProc (phys cl p : Nat) : Nat := phys * 2 ^ 17 + 64 * cl + p
/-- Location of a cluster: schedule position, index, cluster. -/
def locClu (pos idx cl : Nat) : Nat := pos * 2 ^ 17 + idx * 2 ^ 11 + cl
/-- Location of a sluice: tag and number. -/
def locSlu (q t : Nat) : Nat := t * 128 + q

/-- Cluster `cl` uses sluice 4·b + c div 16 (R51). -/
def sluiceOf (cl : Nat) : Nat := 4 * (cl / 64) + (cl % 64) / 16

/-- The lane `l` of the basin is bound to the cluster (R58, R113). -/
def laneBound (s : State) (cl l : Nat) : Bool :=
  cl / 64 < 8 && cl % 64 < 8 && l / 8 = cl % 64 && 64 * (cl / 64) + l < nLanes s

/-- What one processor does in a step. -/
structure ProcOut where
  lp    : Nat
  phys  : Nat
  op    : POp                -- nop where the word is not executed
  vs    : List V4            -- operands read
  res   : V4                 -- written to entry s
  expo  : Option V4          -- driven on the reach output in the next position
  stage : Option (Nat × V4)  -- state entry and value staged
  flags : List Nat           -- CLU_STAT bits set
  reps  : List Report
  fixed : Bool               -- a single-bit error of the word was corrected inline
  deriving Repr

/-- The operand fields an instruction reads, in order: entry addresses (R31, R33). -/
def opFields (w : BitVec 64) (op : POp) : List Nat := [wA w, wB w, wC w, wD w].take (opReads op)

/-- The value an operand read delivers, and whether its parity was bad (R31). -/
def readEntry (c : Cluster) (phys e : Nat) : V4 × Bool :=
  if mget false c.badPar (2048 * phys + e) then (.x, true) else (dsGet c phys e, false)

/-- Operand `i` of those read; 0 where the rule gives the missing operand d = 0 (R36). -/
def argAt (vs : List V4) (i : Nat) : V4 := vs.getD i .zero

/-- The value written to entry s by an instruction, by the State at the start of the step (R36-R38, R46, R52, R55, R59-R62).
A WAIT's value is put in by the sluice. -/
def resultOf (s : State) (cl : Nat) (op : POp) (vs : List V4) (waitVal : V4) : V4 :=
  let c := getCl s cl
  match op with
  | .eval tt _ => evalTT tt (argAt vs 0) (argAt vs 1) (argAt vs 2) (argAt vs 3)
  | .rcol i => pget c.mrd i
  | .hcol i t => pget (getCollect s (sluiceOf cl) t) i
  | .gsmp l => if laneBound s cl l then
      (if laneMode s (64 * (cl / 64) + l) = 0 then .x else (getLane s (64 * (cl / 64) + l)).smp) else .x
  | .wait _ => waitVal
  | .probe _ | .trig _ => argAt vs 0
  | .zbuf pol => zbufOf pol (argAt vs 0) (argAt vs 1)
  | .wire _ pull => wireOf pull vs
  | .illegal => .x
  | .ashl _ _ | .wset _ _ | .rd _ | .wr _ | .hshl _ _ | .hset _ _ | .hrd _ _ | .hwr _ _ | .xset _ _ | .xsend _ _
  | .gdrv _ | .nop => .z

/-- What a WAIT on tag `t` of sluice `q` writes to entry s (R55, R165). -/
def waitValue (s : State) (q t : Nat) : V4 :=
  match getTag s q t with
  | .data _ | .dataX | .dataUe _ | .written | .null => .one
  | .free | .waiting | .unknownAddr | .refused => .x

/-- What a processor with a failing port presents there in place of its own sub-operation and operands (R64): a MEM, PORT or CTRL
sub-operation; any other word makes no port action. -/
def presented (s : State) (w : BitVec 64) : POp :=
  match decodeWord (nBanks s) (hasWharf s) w with
  | .eval _ _ | .illegal => .nop
  | op => op

/-- What a processor's failing logic makes of a step: a wrong result, and a wrong word and operands at the port (R64). -/
structure ProcFault where
  res  : Option V4 := none
  port : Option (BitVec 64 × List V4) := none
  deriving Repr

/-- One processor's step `st` (R34-R41, R44, R58).  `fault` is what its own failing logic gives in place of the right result and
at the port, where it fails. -/
def procStep (s : State) (cl st p : Nat) (fault : ProcFault) : ProcOut :=
  let c := getCl s cl
  let phys := physOf s cl p
  let w := mget 0#64 c.instr (1024 * phys + st)
  let ecc := mget .clean c.iEcc (1024 * phys + st)
  let loc := locProc phys cl p
  let rep (code : Nat) : Report := { code := code, lk := 1, locv := loc, frame := frameNow s }
  if ecc = .double || ecc = .poison then
    { lp := p, phys := phys, op := .nop, vs := [], res := .x, expo := some .x, stage := none, flags := [2],
      reps := [rep 0x1003], fixed := false }
  else
    let fixed := ecc = .single
    let fl0 := if fixed then [1] else []
    let rp0 := if fixed then [rep 0x0002] else []
    let op := decodeWord (nBanks s) (hasWharf s) w
    match op with
    | .illegal =>
      { lp := p, phys := phys, op := .illegal, vs := [], res := .x, expo := if wExp w then some .x else none,
        stage := none, flags := fl0 ++ [5], reps := rp0 ++ [rep 0x1005], fixed := fixed }
    | op =>
      let rd := (opFields w op).map (readEntry c phys)
      let vs := rd.map (·.1)
      let bad := rd.any (·.2)
      let q := sluiceOf cl
      let wv := match op with | .wait t => waitValue s q t | _ => .x
      let res := fault.res.getD (resultOf s cl op vs wv)
      let atPort : POp × List V4 := match op, fault.port with
        | .eval _ _, _ | _, none => (op, vs)
        | _, some (w', vs') => (presented s w', vs')
      let unbound := match op with
        | .gdrv l | .gsmp l => !laneBound s cl l
        | _ => false
      let stage := match op with
        | .eval _ true => some (wD w, res)
        | _ => none
      let twice := match stage with
        | some (e, _) => (mget none c.staged (2048 * p + e)).isSome
        | none => false
      { lp := p, phys := phys, op := atPort.1, vs := atPort.2, res := res, expo := if wExp w then some res else none, stage := stage,
        flags := fl0 ++ (if bad then [3] else []) ++ (if unbound then [6] else []) ++ (if twice then [5] else []),
        reps := rp0 ++ (if bad then [rep 0x1004] else []) ++ (if unbound then [rep 0x1006] else [])
                ++ (if twice then [rep 0x1005] else []),
        fixed := fixed }

/-- A processor's own writes at the end of the step: entry s, its staged value, its export (R28, R39, R41). -/
def procWrite (st : Nat) (o : ProcOut) (c : Cluster) : Cluster :=
  let c1 := dsPut o.phys st o.res c
  let c2 := match o.stage with
    | some (e, v) => { c1 with staged := mset none c1.staged (2048 * o.lp + e) (some v) }
    | none => c1
  { c2 with expo := mset none c2.expo o.lp o.expo }

/-- The bits of a range that an earlier sub-operation of the step has not written take their operands (R44): the register,
the bits written so far, and whether some bit was already taken. -/
def rangeSet {w : Nat} (p : BitVec w) (done : List Nat) (i : Nat) : List V4 → BitVec w × List Nat × Bool
  | [] => (p, done, false)
  | v :: t =>
    if done.contains i then
      let (p', d', _) := rangeSet p done (i + 1) t
      (p', d', true)
    else rangeSet (pset p i v) (i :: done) (i + 1) t

/-- The port registers of a cluster as its sub-operations of one step change them, processors ascending. -/
structure PortAcc where
  c     : Cluster
  ashl  : Bool := false
  rdwr  : Bool := false
  hshl  : Bool := false
  mbits : List Nat := []
  hbits : List Nat := []
  xbits : List Nat := []
  clash : List Nat := []     -- logical processors whose sub-operation clashed (R44)
  mem   : Option ProcOut := none   -- the RD or WR that acts
  send  : Option ProcOut := none   -- the XSEND that acts

/-- One processor's sub-operation on its cluster's own port registers (R42-R46, R52), a Z operand taken as X (R9); `c0` is the
cluster at the start of the step. -/
def portReg (c0 : Cluster) (a : PortAcc) (o : ProcOut) : PortAcc :=
  let clash := { a with clash := a.clash ++ [o.lp] }
  let vs := o.vs.map v4zx
  match o.op with
  | .ashl _ clr =>
    if a.ashl then clash else { a with ashl := true, c := { a.c with ma := shiftIn 15 30 c0.ma clr vs } }
  | .hshl _ clr =>
    if a.hshl then clash else { a with hshl := true, c := { a.c with ho := shiftIn 34 68 c0.ho clr vs } }
  | .wset _ i =>
    let (p, d, b) := rangeSet a.c.mwd a.mbits i vs
    { a with c := { a.c with mwd := p }, mbits := d, clash := if b then a.clash ++ [o.lp] else a.clash }
  | .hset _ i =>
    let (p, d, b) := rangeSet a.c.hwd a.hbits i vs
    { a with c := { a.c with hwd := p }, hbits := d, clash := if b then a.clash ++ [o.lp] else a.clash }
  | .xset _ i =>
    let (p, d, b) := rangeSet a.c.xfd a.xbits i vs
    { a with c := { a.c with xfd := p }, xbits := d, clash := if b then a.clash ++ [o.lp] else a.clash }
  | .rd _ | .wr _ => if a.rdwr then clash else { a with rdwr := true, mem := some o }
  | .xsend _ _ =>
    if a.c.xsent then clash
    else if argAt o.vs 0 = .zero then { a with c := { a.c with xsent := true } }
    else { a with c := { a.c with xsent := true }, send := some o }
  | _ => a

/-- A cluster's memory sub-operation that acts, put into the port stage (R49, R50); its count, flag and report.  An RD of a bank
that the port does not own has no gang and so no width: all 512 MRD bits become X, DESIGN CHOICE (log entry 44), R50 and R125
give none.  A lane of a gang that is unowned is not accessed and reads X (R50, R124). -/
def memIssue (s0 : State) (cl : Nat) (o : ProcOut) (s : State) : State × List Report :=
  let c0 := getCl s0 cl
  let en := argAt o.vs 0
  let addr := v4nat? (plist c0.ma 15)
  let push (m : MemOp) (s : State) : State := setCl cl { getCl s cl with memOps := (getCl s cl).memOps ++ [m] } s
  let mk (kind : MemKind) (k w a : Nat) : MemOp :=
    { kind := kind, issued := s0.seq.spos, bank := k, width := w, addr := a, data := c0.mwd, done := false }
  let unowned : Report := { code := 0x3002, lk := 2, locv := locClu s0.seq.pos o.lp cl, frame := frameNow s0 }
  let xaddr : Report := { code := 0x0007, lk := 2, locv := locClu s0.seq.pos o.lp cl, frame := frameNow s0 }
  let lost (k : Nat) (x : State × List Report) : State × List Report :=
    if (List.range (ownGw s0 k)).all (laneOwned s0 cl k) then x else (rflag (cStat cl) 7 x.1, x.2 ++ [unowned])
  if en = .zero then (s, [])
  else match o.op with
    | .rd k =>
      if !portOwns s0 cl k then (push (mk .readX k 8 0) (rflag (cStat cl) 7 s), [unowned])
      else match addr with
        | none => (push (mk .readX k (ownGw s0 k) 0) (rcount (cXev cl) 31 16 1 s), [])
        | some a => lost k (push (mk (if en = .one then .read else .readMerge) k (ownGw s0 k) a) s, [])
    | .wr k =>
      if !portOwns s0 cl k then (rflag (cStat cl) 7 s, [unowned])
      else match addr with
        | none => (rcount (cXev cl) 31 16 1 s, [xaddr])
        | some a =>
          let unk := en ≠ .one || (plist c0.mwd (64 * ownGw s0 k)).any (!v4known ·)
          let s1 := if unk then rcount (cXev cl) 15 0 1 s else s
          lost k (push (mk (if en = .one then .write else .writePoison) k (ownGw s0 k) a) s1, [])
    | _ => (s, [])

/-- Fragments that basin `b` has sent in this step already; one step takes two (R194). -/
def sentHere (s0 : State) (b : Nat) (s : State) : Nat :=
  (s.xch.frags.filter fun g => !g.void && g.gsc = s0.seq.gsc.toNat && g.src / 64 = b).length

/-- A fragment leaves for the matching store (R57, R194). -/
def xsendIssue (s0 : State) (cl : Nat) (o : ProcOut) (s : State) : State :=
  match o.op with
  | .xsend idx site =>
    { s with xch := { s.xch with frags := s.xch.frags ++
        [{ site := site, frame := s0.seq.F.toNat, idx := idx, src := cl, data := (getCl s0 cl).xfd,
           xen := argAt o.vs 0 ≠ .one, gsc := s0.seq.gsc.toNat, pass := s.xch.voids, void := false, ended := false }] } }
  | _ => s

/-- Tag `t` has become outstanding in the frame in progress, which may be voided (R167). -/
def tagIssued (q t : Nat) (s : State) : State :=
  let u := getSlu s q
  setSlu q { u with tagF := mset 0 u.tagF t s.seq.F.toNat } s

/-- A refused request: its tag becomes outstanding and refused, an earlier request on it loses its reply, REFUSED counts
(R54, R157, R158). -/
def refuseReq (q t : Nat) (s : State) : State :=
  let s1 := tagIssued q t (setTag q t .refused (rcount (oHldSluCnt q) 31 16 1 s))
  { s1 with req := s1.req.map fun r => if r.q = q && r.tag = t then { r with live := false } else r }

/-- Region `r` of sluice `q`: base byte address and limit in words (R160). -/
def rgnBase (s : State) (q r : Nat) : Nat := 4096 * rfld s (oHldRgnBase q r) 24 0
def rgnLimit (s : State) (q r : Nat) : Nat := 512 * rfld s (oHldRgnSize q r) 24 0

/-- The key of the WAIT on tag `t` at position `p` of frame `f` among the pre-checks made (R96, R165). -/
def waitKey (f p t : Nat) : Nat := (f * 1024 + p) * 16 + t

/-- One HRD or HWR that the sluice takes up (R53, R54, R56, R158, R160).  A null request is issued without a region check: DESIGN
CHOICE (log entry 46), R53 and R54 do not say whether its offset is compared. -/
def sluIssue (s0 : State) (cl : Nat) (o : ProcOut) (s : State) : State × List Report :=
  let c0 := getCl s0 cl
  let q := sluiceOf cl
  let en := argAt o.vs 0
  let ho := v4nat? (plist c0.ho 34)
  let go (r t : Nat) (wr : Bool) : State × List Report :=
    let rep (code : Nat) : List Report := [{ code := code, lk := 5, locv := locSlu q t, frame := frameNow s0 }]
    let busy := getTag s0 q t ≠ .free
    let clash : State × List Report := (rflag oHldSts 6 (rflag (cStat cl) 6 (refuseReq q t s)), rep 0x4003)
    match ho with
    | none => if busy then clash else (tagIssued q t (setTag q t .unknownAddr s), [])
    | some off =>
      if en = .zero then (if busy then clash else (tagIssued q t (setTag q t .null s), []))
      else if off ≥ rgnLimit s0 q r then (rflag oHldSts 5 (rflag (cStat cl) 6 (refuseReq q t s)), rep 0x4002)
      else if busy then clash
      else if (s0.req.filter (·.q = q)).length ≥ 16 then (rflag oHldSts 4 (refuseReq q t s), rep 0x4004)
      else
        let unk := (plist c0.hwd 64).any (!v4known ·)
        let rq : SluReq :=
          { q := q, tag := t, gsc := s0.seq.gsc.toNat, frame := s0.seq.F.toNat, write := wr,
            addr := rgnBase s0 q r + 8 * off,
            data := BitVec.ofNat 64 ((plist c0.hwd 64).foldr (fun v n => (if v = .one then 1 else 0) + 2 * n) 0),
            poison := wr && (unk || en ≠ .one), xen := !wr && en ≠ .one, ns := s0.tim.mono, seen := false, live := true, served := false, reply := .waiting }
        let s1 := tagIssued q t (setTag q t .waiting s)
        ({ s1 with req := s1.req ++ [rq] }, [])
  match o.op with
  | .hrd r t => go r t false
  | .hwr r t => go r t true
  | _ => (s, [])

/-- A WAIT completes the request on its tag (R54, R55, R165, R166): the collect buffer, the tag, the reports. -/
def sluWait (s0 : State) (cl st : Nat) (t : Nat) (s : State) : State × List Report :=
  let q := sluiceOf cl
  let rep (code lk locv : Nat) : List Report := [{ code := code, lk := lk, locv := locv, frame := frameNow s0 }]
  let x : BitVec 128 := BitVec.allOnes 128
  let unmapped := !(mget 0#16 (getSlu s0 q).waitMap st).getLsbD t
  let s1 := if unmapped then rflag oHldSts 8 s else s
  let m := if unmapped then rep 0x4005 5 (locSlu q t) else []
  let free (s : State) : State :=
    let u := getSlu s q
    setTag q t .free (setSlu q { u with modeAt := mset none u.modeAt (waitKey s0.seq.F.toNat st t) none } s)
  match getTag s0 q t with
  | .data d => (free (setCollect q t (ppack 128 (v4bits 64 d.toNat)) s1), m)
  | .dataX => (free (setCollect q t x s1), m)
  | .dataUe line => (free (setCollect q t x s1), m ++ rep 0x4001 7 (line / 8))
  | .written | .null => (free s1, m)
  | .unknownAddr | .refused | .free => (free (setCollect q t x s1), m)
  | .waiting =>
    let s2 := rflag oHldSts 3 (free (setCollect q t x s1))
    ({ s2 with req := s2.req.map fun r => if r.q = q && r.tag = t then { r with live := false } else r },
     m ++ rep 0x5001 5 (locSlu q t))

/-- A port conflict of logical processor `lp` (R44). -/
def portClash (s0 : State) (cl lp : Nat) (s : State) : State × List Report :=
  (rflag (cStat cl) 6 s,
   [{ code := 0x1006, lk := 1, locv := locProc (physOf s0 cl lp) cl lp, frame := frameNow s0 }])

/-- Two folds' reports joined. -/
def andThen (f : State → State × List Report) (x : State × List Report) : State × List Report :=
  let (s, rs) := f x.1
  (s, x.2 ++ rs)

/-- The shadow's compare of the replayed processor (R64, R65, R259, R260): a mismatch leaves the result as it is.  While another
nomination is pending the first one stands: DESIGN CHOICE (log entry 45), R66 does not say which. -/
def shadowMiss (s0 : State) (cl st : Nat) (s : State) : State × List Report :=
  let f := s0.seq.F.toNat
  let lp := f % 64
  let phys := physOf s0 cl lp
  let s1 := rflag (cStat cl) 0 s
  let s2 := if rbit s1 (cShd cl) 31 then s1 else
    rset (cShd cl) (BitVec.ofNat 32 (2 ^ 31 + phys * 2 ^ 24 + st * 2 ^ 14 + f % 2 ^ 14)) s1
  let s3 := if rbit s2 (cRepair cl) 31 then s2 else rset (cRepair cl) (BitVec.ofNat 32 (2 ^ 31 + 128 + phys)) s2
  let c := getCl s3 cl
  let recent := c.shd.filter fun e => decide (frDist e.2 f < 64)
  let s4 := setCl cl { c with shd := (lp, f) :: recent } s3
  let rep (code : Nat) : Report := { code := code, lk := 1, locv := locProc phys cl lp, frame := frameNow s0 }
  if recent.any (·.1 ≠ lp) then
    (rset (cRepair cl) (BitVec.ofNat 32 (2 ^ 31 + 128 + 64)) s4, [rep 0x1001, rep 0x1002])
  else (s4, [rep 0x1001])

/-- The failing processors and failing shadows among the happenings of a step. -/
def procFaultOf (hs : List Happening) (cl p : Nat) : ProcFault :=
  { res := hs.findSome? fun h => match h with
      | .logicFault c lp v => if c = cl && lp = p then some v else none
      | _ => none
    port := hs.findSome? fun h => match h with
      | .portFault c lp w vs => if c = cl && lp = p then some (w, vs) else none
      | _ => none }
def shadowFaultOf (hs : List Happening) (cl : Nat) : Bool := hs.any (· = .shadowFault cl)

/-- The 64 processors of a cluster in step `st` (R16). -/
def clusterOuts (s0 : State) (hs : List Happening) (cl st : Nat) : List ProcOut :=
  (List.range 64).map fun p => procStep s0 cl st p (procFaultOf hs cl p)

/-- A cluster's step apart from the sluice port and the device-wide ports: stores, port registers, memory and exchange
ports, shadow, flags. -/
def clusterApply (s0 : State) (hs : List Happening) (cl st : Nat) (outs : List ProcOut) (x : State × List Report) :
    State × List Report :=
  let c0 := getCl s0 cl
  let acc := outs.foldl (portReg c0) { c := outs.foldl (fun c o => procWrite st o c) (getCl x.1 cl) }
  let s1 := outs.foldl (fun s o => o.flags.foldl (fun s b => rflag (cStat cl) b s) s) (setCl cl acc.c x.1)
  let s2 := rcount (cEcc cl) 15 0 (outs.filter (·.fixed)).length s1
  let y := (s2, x.2 ++ outs.flatMap (·.reps))
  let y1 := acc.clash.foldl (fun y lp => andThen (portClash s0 cl lp) y) y
  let y2 := match acc.mem with | some o => andThen (memIssue s0 cl o) y1 | none => y1
  let y3 := match acc.send with
    | some o => if 2 ≤ sentHere s0 (cl / 64) y2.1 then andThen (portClash s0 cl o.lp) y2 else (xsendIssue s0 cl o y2.1, y2.2)
    | none => y2
  let lp := s0.seq.F.toNat % 64
  let right := procStep s0 cl st lp {}
  let missed := shadowFaultOf hs cl || outs.any fun o => o.lp = lp && (o.res ≠ right.res || o.op ≠ right.op || o.vs ≠ right.vs)
  if missed then andThen (shadowMiss s0 cl st) y3 else y3

/-- The sluice port of a step over all clusters, ascending: WAITs, then the first HRD or HWR of each sluice; a second one in
the step is refused (R43, R44, R54, R55). -/
def sluicePort (s0 : State) (st : Nat) (outs : List (Nat × ProcOut)) (x : State × List Report) : State × List Report :=
  let waits := outs.filterMap fun (cl, o) => match o.op with | .wait t => some (cl, t) | _ => none
  let x1 := waits.foldl (fun x ct => andThen (sluWait s0 ct.1 st ct.2) x) x
  let reqs := outs.filter fun (_, o) => match o.op with | .hrd _ _ | .hwr _ _ => true | _ => false
  (reqs.foldl (fun (acc : List Nat × (State × List Report)) co =>
    let q := sluiceOf co.1
    if acc.1.contains q then
      let t := match co.2.op with | .hrd _ t | .hwr _ t => t | _ => 0
      (acc.1, andThen (fun s => portClash s0 co.1 co.2.lp (refuseReq q t s)) acc.2)
    else (q :: acc.1, andThen (sluIssue s0 co.1 co.2) acc.2)) ([], x1)).2

/-- The gauge port: GDRV stages drive and expected values, one for a lane in a step (R43, R58).  It takes Z as Z: DEDUCED (log
entry 54) from the worked example of 09_gauge_unit, which stages drive Z from an entry that holds Z. -/
def gaugePort (s0 : State) (outs : List (Nat × ProcOut)) (x : State × List Report) : State × List Report :=
  (outs.foldl (fun (acc : List Nat × (State × List Report)) co =>
    match co.2.op with
    | .gdrv l =>
      let n := 64 * (co.1 / 64) + l
      if !laneBound s0 co.1 l then acc
      else if acc.1.contains n then (acc.1, andThen (portClash s0 co.1 co.2.lp) acc.2)
      else (n :: acc.1, (setLane n { getLane acc.2.1 n with
                                       sdrv := some (argAt co.2.vs 0), sexp := some (argAt co.2.vs 1) } acc.2.1, acc.2.2))
    | _ => acc) ([], x)).2

/-- The trace probe path: PROBE offers its operand, once for a probe ID in a frame, of several the lowest-numbered cluster's and
processor's (R44); TRIG contributes to its bit, as 0 from a sealed cluster (R43, R60, R377). -/
def tracePort (s0 : State) (outs : List (Nat × ProcOut)) (x : State × List Report) : State × List Report :=
  outs.foldl (fun x co =>
    match co.2.op with
    | .probe id =>
      let g := 64 * co.1 + co.2.lp
      let offer (s : State) : State :=
        { s with trc := { s.trc with probe := mset none s.trc.probe id (some (argAt co.2.vs 0)),
                                     probeBy := mset 0 s.trc.probeBy id g } }
      let by_ := mget 0 x.1.trc.probeBy id
      if (mget none x.1.trc.probe id).isNone then (offer x.1, x.2)
      else if g < by_ then andThen (portClash s0 (by_ / 64) (by_ % 64)) (offer x.1, x.2)
      else andThen (portClash s0 co.1 co.2.lp) x
    | .trig n => if sealed s0 co.1 then x else
      ({ x.1 with trc := { x.1.trc with
          trig := mset .zero x.1.trc.trig n (v4or (mget .zero x.1.trc.trig n) (argAt co.2.vs 0)) } }, x.2)
    | _ => x) x

/-- Evaluation step `st` of every running basin: fetch, evaluate, write, ports (R16, R71). -/
def fabricStep (s0 : State) (hs : List Happening) (st : Nat) (s : State) : State × List Report :=
  let cls := runClusters s0
  let all := cls.map fun cl => (cl, clusterOuts s0 hs cl st)
  let x1 := all.foldl (fun x co => clusterApply s0 hs co.1 st co.2 x) (s, [])
  let outs := all.flatMap fun co => co.2.map fun o => (co.1, o)
  tracePort s0 outs (gaugePort s0 outs (sluicePort s0 st outs x1))

/-- The bank cycle of the memory operations issued one position ago (R129), in the lanes the port owns. -/
def bankCycle (s0 : State) (cl : Nat) (m : MemOp) (x : State × List Report) : State × List Report :=
  let setOp (m' : MemOp) (s : State) : State :=
    setCl cl { getCl s cl with memOps := (getCl s cl).memOps.map fun y => if y = m then m' else y } s
  let lanes := (List.range m.width).filter (laneOwned s0 cl m.bank)
  match m.kind with
  | .readX => x
  | .read | .readMerge =>
    let vals := ppack 1024 ((List.range m.width).flatMap fun j =>
      if laneOwned s0 cl m.bank j then dmLane s0 (m.bank + j) m.addr else List.replicate 64 .x)
    let y := lanes.foldl (fun x j => andThen (dmCheck 0 (m.bank + j) m.addr) x) x
    (setOp { m with done := true, data := vals } y.1, y.2)
  | .write | .writePoison => (writeLands s0 cl m x.1, x.2)

/-- The design-memory latency in force (R129, R250). -/
def dmLatency (s : State) : Nat := nativeD s + rfld s oDmcEq 1 0

/-- Read data due at the end of this position enters MRD (R47, R49); a read issued before the frame's step 0 `fs` stays, to
arrive again if the frame is voided and run again (R427). -/
def mrdArrive (fs spos d : Nat) (c : Cluster) : Cluster :=
  let due := c.memOps.filter fun m => m.issued + d = spos + 1 && m.kind ≠ .write && m.kind ≠ .writePoison
  let keep (m : MemOp) : Bool := decide (spos + 1 < m.issued + d) || (decide (m.issued < fs) && decide (fs < m.issued + d))
  let c1 := due.foldl (fun c m =>
    let upd (old : V4) (i : Nat) : V4 :=
      match m.kind with
      | .readX => .x
      | .readMerge => if pget m.data i = old then old else .x
      | _ => pget m.data i
    { c with mrd := ppack 1024 ((List.range 512).map fun i =>
        if i < 64 * m.width then upd (pget c.mrd i) i else pget c.mrd i) }) c
  { c1 with memOps := c1.memOps.filter keep }

/-- The memory ports in one schedule position: bank cycles by the words at the start of the step, then arrivals (R71). -/
def memPorts (s0 : State) (s : State) : State × List Report :=
  let cls := runClusters s0
  let ops := cls.flatMap fun cl => ((getCl s0 cl).memOps.filter fun m => !m.done && m.issued + 1 = s0.seq.spos).map (cl, ·)
  let x := ops.foldl (fun x cm => bankCycle s0 cm.1 cm.2 x) (s, [])
  let d := dmLatency s0
  let s2 := cls.foldl (fun s cl => setCl cl (mrdArrive (frameStart s0) s0.seq.spos d (getCl s cl)) s) x.1
  (s2, x.2)

end Sys2Proof.Machine
end

