-- ==== Sys2Proof/Machine/Reach.lean ====
section
/-!
DEFINITION. The reach network in one schedule position: basin lanes, mesh lanes, link slots, landings, contention and faulty
routing words (R99-R121, R174-R177, R427).
-/
namespace Sys2Proof.Machine

/-- The neighbour of basin `b` in direction `d`: 0 N, 1 E, 2 S, 3 W (R109). -/
def neighbour (s : State) (b d : Nat) : Option Nat :=
  let r := b / 8
  let c := b % 8
  match d with
  | 0 => if r + 1 < nRows s && b + 8 < nBasins s then some (b + 8) else none
  | 1 => if c + 1 < nCols s then some (b + 1) else none
  | 2 => if 1 ≤ r then some (b - 8) else none
  | _ => if 1 ≤ c then some (b - 1) else none

/-- What a history of driven values holds for lane `k` at `lag` positions before `p`; Z where nothing was driven, or where the
position lies before the first step of the run (R427). -/
def histAt (h : List (Nat × List (Nat × V4))) (p lag k : Nat) : V4 :=
  if p < lag then .z else mget .z (mget [] h (p - lag)) k

/-- Basin lane `n` as it is presented in this position (R114). -/
def lanePresent (s : State) (b n : Nat) : V4 :=
  histAt (getBas s b).lanes s.seq.spos (2 + min 2 (rfld s (oBasReachCfg b) 1 0)) n

/-- Ingress lane `m` from direction `d` as it is presented in this position (R114); none without a neighbour there. -/
def ingress (s : State) (b d m : Nat) : Option V4 :=
  (neighbour s b d).map fun nb =>
    let dd := (d + 2) % 4
    histAt (getBas s nb).egress s.seq.spos (2 + b2n (rbit s (oBasReachCfg nb) (4 + dd))) (128 * dd + m)

/-- The fabric link bound to basin `b`, if it has one (R112). -/
def linkOf (s : State) (b : Nat) : Option Nat :=
  if nBasins s ≤ b + 12 && b < nBasins s then some (nBasins s - 1 - b) else none

/-- The fixed latency of link `n`, in schedule positions (R176). -/
def linkLat (s : State) (n : Nat) : Nat := 96 + rfld s (oLnkLat n) 7 0

/-- What the in-slots of link `n` present in this position (R177): the 448 values, and whether the position underruns or holds
a damaged group. -/
inductive InSlots where
  | vals (v : BitVec 896) (ue : Bool)
  | allX | allZ
  | underrun
  deriving DecidableEq, Repr

def inSlots (s : State) (n : Nat) : InSlots :=
  if !lnkUp s n || !lnkGroup s n then .allX
  else
    let t := linkLat s n
    if s.seq.spos < t then .allZ
    else match (getLnk s n).buf.find? (·.v = s.seq.spos - t) with
      | some e => .vals e.val e.ue
      | none => .underrun

/-- One in-slot's value. -/
def inSlotVal (i : InSlots) (j : Nat) : V4 :=
  match i with
  | .vals v ue => if ue then .x else pget v j
  | .allX | .underrun => .x
  | .allZ => .z

/-- A source code names a source that exists in the basin (R103, R111). -/
def srcExists (s : State) (b src : Nat) : Bool :=
  if src < 0x800 then true
  else if src < 0xA00 then (neighbour s b ((src - 0x800) / 128)).isSome
  else if src < 0xBC0 then (linkOf s b).isSome
  else src = 0xFFF

/-- The value a source code selects (R103, R120). -/
def srcVal (s : State) (b src : Nat) : V4 :=
  if !srcExists s b src then .x
  else if src < 0x800 then lanePresent s b src
  else if src < 0xA00 then (ingress s b ((src - 0x800) / 128) (src % 128)).getD .x
  else if src < 0xBC0 then (match linkOf s b with | some n => inSlotVal (inSlots s n) (src - 0xA00) | none => .x)
  else .z

/-- The routing word applied in this position: its number, 1,024 and 1,025 the tick words (R99). -/
def routeWordNo (s : State) : Nat :=
  let l := rfld s oSeqCfg 10 0
  if s.seq.pos < l then s.seq.pos else 1024 + (s.seq.pos - l)

/-- Some quarter of the routing word is uncorrectable (R100). -/
def routeBad (c : Cluster) (w : Nat) : Bool :=
  (List.range 4).any fun i => mget .clean c.rwEcc (4 * w + i) = .double || mget .clean c.rwEcc (4 * w + i) = .poison

/-- The quarters of a routing word with a single-bit error: each is corrected and counted by itself (R100, BAS_RW_ECC). -/
def routeSingles (c : Cluster) (w : Nat) : Nat :=
  ((List.range 4).filter fun i => mget .clean c.rwEcc (4 * w + i) = .single).length

/-- The value processor `p` drives on its reach output in this position (R41, R104): Z where it does not export. -/
def expoVal (c : Cluster) (p : Nat) : V4 := (mget none c.expo p).getD .z

/-- A hard contention on a segment (R118). -/
def hardContention (s0 : State) (kind cl idx : Nat) (s : State) : State × List Report :=
  let b := cl / 64
  let s1 := rflag (oBasReachSts b) 0 (rcount (oBasContHard b) 31 0 1 s)
  let s2 := if rbit s1 (oBasContRec b) 31 then s1 else
    rset (oBasContRecF b) (BitVec.ofNat 32 s0.seq.F.toNat)
      (rset (oBasContRec b)
        (BitVec.ofNat 32 (2 ^ 31 + kind * 2 ^ 30 + cl % 64 * 2 ^ 24 + idx * 2 ^ 18 + s0.seq.pos)) s1)
  (s2, [{ code := 0x2001, lk := 2, locv := locClu s0.seq.pos idx cl, frame := frameNow s0 }])

/-- What two drivers of one segment record (R117, R118). -/
def recordContention (s0 : State) (kind cl idx : Nat) (k : Option Bool) (s : State) : State × List Report :=
  match k with
  | none => (s, [])
  | some false =>
    (rcount (oBasContBen (cl / 64)) 31 0 1 s,
     if rbit s0 (oBasContCtl (cl / 64)) 0 then
       [{ code := 0x0001, lk := 2, locv := locClu s0.seq.pos idx cl, frame := frameNow s0 }] else [])
  | some true => hardContention s0 kind cl idx s

/-- Writes to a cluster's import entries at the end of the position. -/
def landAt (phys port pos : Nat) (v : V4) (c : Cluster) : Cluster := dsPut phys (1024 + 384 * port + pos % 384) v c

/-- The slots of a word that land on processor `p` (R108). -/
def landSlots (w : BitVec 256) (p : Nat) : List Nat := (List.range 5).filter fun k => rLand w k && rDest w k = p

/-- The landings of processor `p` (R105-R108): its import writes, with overflow and contention. -/
def landProc (s0 : State) (cl : Nat) (w : BitVec 256) (p : Nat) (x : State × List Report) : State × List Report :=
  let c0 := getCl s0 cl
  let phys := physOf s0 cl p
  let slots := landSlots w p
  let loc := rLocen w p
  let n := b2n loc + slots.length
  let kept := slots.take (2 - b2n loc)
  let x0 : State × List Report := if n ≤ 2 then x else
    (rflag (cStat cl) 4 (rflag (oBasReachSts (cl / 64)) 1 (rcount (oBasImpOvf (cl / 64)) 15 0 1 x.1)),
     x.2 ++ [{ code := 0x2002, lk := 2, locv := locClu s0.seq.pos p cl, frame := frameNow s0 }])
  let x1 : State × List Report := if loc then
      (setCl cl (landAt phys 0 s0.seq.pos (expoVal c0 ((p + 64 - rRot w) % 64)) (getCl x0.1 cl)) x0.1, x0.2) else x0
  match kept with
  | [] => x1
  | [k] => (setCl cl (landAt phys 1 s0.seq.pos (srcVal s0 (cl / 64) (rSrc w k)) (getCl x1.1 cl)) x1.1, x1.2)
  | k :: k2 :: _ =>
    let (v, kind) := resolve2 (srcVal s0 (cl / 64) (rSrc w k)) (srcVal s0 (cl / 64) (rSrc w k2))
    andThen (recordContention s0 1 cl p kind)
      (setCl cl (landAt phys 1 s0.seq.pos v (getCl x1.1 cl)) x1.1, x1.2)

/-- Direction and lane of local egress index `j` of cluster `c` (R110). -/
def egrLane (c j : Nat) : Nat × Nat := (c / 16, 8 * (c % 16) + j)

/-- A routing word uses a field in a form the loader would refuse (R111, R120): a reserved or absent source, a reserved EGR code, an
egress lane or a straight code without its neighbour, reserved bits.  More than two import writes are R108's own fault and a
lane outside the image's footprint runs as any lane: DESIGN CHOICE (log entry 42), R120 does not say whether these count. -/
def routeIllegal (s : State) (cl : Nat) (w : BitVec 256) : Bool :=
  let b := cl / 64
  rReserved w ≠ 0 ||
    (List.range 5).any (fun k => (rLand w k || rRelays w k) && !srcExists s b (rSrc w k)) ||
    (List.range 8).any (fun j =>
      let d := (egrLane (cl % 64) j).1
      rEgr w j = 3 || (rEgr w j ≠ 0 && (neighbour s b d).isNone) ||
        (rEgr w j = 2 && (neighbour s b ((d + 2) % 4)).isNone))

/-- What egress lane `j` of the cluster carries; none: nothing (R110, R111, R120).  A straight code with no neighbour on the far
side carries X: DESIGN CHOICE (log entry 42), the spec names no value. -/
def egrVal (s : State) (cl : Nat) (w : BitVec 256) (j : Nat) : Option V4 :=
  let b := cl / 64
  let (d, m) := egrLane (cl % 64) j
  if (neighbour s b d).isNone then none
  else match rEgr w j with
    | 0 => none
    | 1 => some (srcVal s b (rSrc w (j / 2)))
    | 2 => some ((ingress s b ((d + 2) % 4) m).getD .x)
    | _ => some .x

/-- Values driven in this position, put into a basin's history; positions too old to be presented again fall out, those driven
just before the frame's step 0 `fs` only with the frame: they land again if it is voided and run again (R427). -/
def drive (fs spos : Nat) (h : List (Nat × List (Nat × V4))) (vs : List (Nat × V4)) : List (Nat × List (Nat × V4)) :=
  let live := mkeep (fun p => decide (spos < p + 8) || (decide (p < fs) && decide (fs < p + 8))) h
  if vs = [] then live else mset [] live spos (msetAll .z (mget [] live spos) vs)

/-- One cluster of the reach network in a position (R99-R111, R117-R120). -/
def reachCluster (s0 : State) (cl : Nat) (x : State × List Report) : State × List Report :=
  let b := cl / 64
  let c := cl % 64
  let c0 := getCl s0 cl
  let wn := routeWordNo s0
  let w := mget 0#256 c0.rw wn
  let rep (code : Nat) : Report := { code := code, lk := 2, locv := locClu s0.seq.pos 0 cl, frame := frameNow s0 }
  let put (lanes egr : List (Nat × V4)) (s : State) : State :=
    let bs := getBas s b
    setBas b { bs with lanes := drive (frameStart s0) s0.seq.spos bs.lanes lanes,
                       egress := drive (frameStart s0) s0.seq.spos bs.egress egr } s
  let x1 : State × List Report :=
    if routeSingles c0 wn = 0 then x
    else (rcount (oBasRwEcc b) 15 0 (routeSingles c0 wn) x.1, x.2 ++ [rep 0x0002])
  if routeBad c0 wn then
    let lanes := (List.range 32).map fun i => (32 * c + i, V4.x)
    let egr := (List.range 8).map fun j => let (d, m) := egrLane c j; (128 * d + m, V4.x)
    let cX := (List.range 64).foldl (fun k p =>
      landAt (physOf s0 cl p) 1 s0.seq.pos .x (landAt (physOf s0 cl p) 0 s0.seq.pos .x k)) (getCl x1.1 cl)
    (rflag (oBasReachSts b) 3 (rcount (oBasRwEcc b) 31 16 1 (put lanes egr (setCl cl cX x1.1))), x1.2 ++ [rep 0x2003])
  else
    let x2 : State × List Report :=
      if routeIllegal s0 cl w then (rflag (oBasReachSts b) 2 x1.1, x1.2 ++ [rep 0x2004]) else x1
    let drv (p : Nat) : V4 := if rOutp w p then expoVal c0 p else .z
    let lanes := (List.range 32).map fun i => (i, resolve2 (drv (2 * i)) (drv (2 * i + 1)))
    let x3 := lanes.foldl (fun x l => andThen (recordContention s0 0 cl l.1 l.2.2) x) x2
    let egr := (List.range 8).filterMap fun j => (egrVal s0 cl w j).map fun v =>
      let (d, m) := egrLane c j; (128 * d + m, v)
    let x4 : State × List Report :=
      (put ((lanes.map fun l => (32 * c + l.1, l.2.1)).filter (·.2 ≠ .z)) (egr.filter (·.2 ≠ .z)) x3.1, x3.2)
    (List.range 64).foldl (fun x p => landProc s0 cl w p x) x4

/-- First lock fault since LKG_STS.LOCKF was last cleared (R179, LKG_LOCKREC). -/
def lockRec (kind link f : Nat) (s : State) : State :=
  let s1 := if rbit s oLkgLockrec 31 then s else
    rset oLkgLockrec (BitVec.ofNat 32 (2 ^ 31 + kind * 2 ^ 28 + link * 2 ^ 24 + f % 2 ^ 24)) s
  rflag oLkgSts 3 s1

/-- The presentation of link `n`'s in-slots in this position: underruns reported, damaged positions taint, the position leaves
the buffer (R177), one driven before the frame's step 0 only with the frame (R427). -/
def linkPresent (s0 : State) (n : Nat) (x : State × List Report) : State × List Report :=
  match inSlots s0 n with
  | .vals _ ue =>
    let l := getLnk x.1 n
    let t := linkLat s0 n
    let keep (e : LinkSlot) : Bool := decide (s0.seq.spos < e.v + t) || (decide (e.v < frameStart s0) && decide (frameStart s0 ≤ e.v + t))
    let s1 := setLnk n { l with buf := l.buf.filter keep } x.1
    (if ue then (match frameNow s0 with | some f => taintFrame f s1 | none => s1) else s1, x.2)
  | .underrun =>
    (rflag (oLnkSts n) 9 (lockRec 3 n s0.seq.F.toNat x.1),
     x.2 ++ [{ code := 0x6004, lk := 6, locv := n, frame := frameNow s0 }])
  | .allX | .allZ => x

/-- The control lane of a group (R172): PF, POS, CK and payload. -/
def controlLane (pf pos ck payload : Nat) : Nat := pf % 4 * 2 ^ 58 + pos % 2048 * 2 ^ 47 + ck % 8 * 2 ^ 44 + payload % 2 ^ 44

/-- A group's 956 bits: the position field, then the control lane (R172). -/
def groupBits (field : BitVec 896) (ctl : Nat) : BitVec 956 := BitVec.ofNat 956 (field.toNat + ctl * 2 ^ 896)

/-- A group leaves on a link (R172): it takes the next place of the superblock under way, and after 129 groups the next superblock
begins with its count SBSEQ.  Idle groups that carry nothing are not counted: DESIGN CHOICE (log entry 55). -/
def groupSend (field : BitVec 896) (pf pos ck payload : Nat) (l : Link) : Link :=
  { l with tx := groupBits field (controlLane pf pos ck payload), sbGrp := (l.sbGrp + 1) % 129,
           sbSeq := if l.sbGrp = 128 then (l.sbSeq + 1) % 65536 else l.sbSeq }

/-- The group a link sends in this position: out-slot 7·c + k is bound basin lane 32·c + 25 + k (R112, R172, R174).  Its control lane
takes the next barge fragment that waits (R181), but for position L+1, which carries the done-marker (R178).  A fragment's payload
is a free value (log entry 55): the spec gives no layout of a flit. -/
def linkSend (s0 : State) (b n : Nat) (s : State) : State :=
  let now := mget [] (getBas s b).lanes s0.seq.spos
  let slots := (List.range 448).map fun j => mget .z now (32 * (j / 7) + 25 + j % 7)
  let l := { getLnk s n with txPos := s0.seq.spos }
  if l.frags = 0 || s0.seq.pos = rfld s0 oSeqCfg 10 0 + 1 then setLnk n (groupSend (ppack 896 slots) 1 s0.seq.pos 0 0 l) s
  else
    let (v, s1) := takeFree s
    setLnk n (groupSend (ppack 896 slots) 1 s0.seq.pos 1 v.toNat { l with frags := l.frags - 1 }) s1

/-- The reach network in one schedule position, over every running basin, and the links bound to them (R71, R114).  Clusters go in
ascending order, and in a cluster its lanes before its import entries: that names the first of several contentions of one
basin in one position, DESIGN CHOICE (log entry 42), R118 gives no order. -/
def reachStep (s0 : State) (s : State) : State × List Report :=
  let x := (runClusters s0).foldl (fun x cl => reachCluster s0 cl x) (s, [])
  let links := (List.range 12).filter fun n => n < nBasins s0
  let x1 := links.foldl (fun x n => linkPresent s0 n x) x
  (links.foldl (fun s n => if lnkUp s n && lnkGroup s n then linkSend s0 (nBasins s0 - 1 - n) n s else s) x1.1, x1.2)

/-- Nothing is exported in the next position: after the first tick step, and in a lock phase (R41, R77). -/
def clearExports (s : State) : State := { s with fab := mmapv Cluster.fresh (fun c => { c with expo := [] }) s.fab }

/-- A void takes back what positions from `p` on drove or issued and has not yet landed, here and in the elastic buffers
(R427); what lay before is kept.  Its design-memory writes are not withdrawn (R32): they have reached their banks
(`voidFrame`). -/
def discardFrom (p : Nat) (s : State) : State :=
  let fb (b : Basin) : Basin := { b with lanes := mkeep (· < p) b.lanes, egress := mkeep (· < p) b.egress }
  let fc (c : Cluster) : Cluster := { c with memOps := c.memOps.filter fun m => decide (m.issued < p), expo := [] }
  let fl (l : Link) : Link := { l with buf := l.buf.filter (fun e => decide (e.v < p)), rxV := min l.rxV p }
  { s with bas := mmapv Basin.fresh fb s.bas, fab := mmapv Cluster.fresh fc s.fab, lnk := mmapv Link.fresh fl s.lnk }

end Sys2Proof.Machine
end

