-- ==== Sys2Proof/Machine/SeqOps.lean ====
section
/-!
DEFINITION. The frame sequencer's operations: happenings inside the part, group-wide events, stalls, the look-ahead of the
pre-checks, throttle, flights and the lock phase (R68-R97, R164-R166, R209-R213).
-/
namespace Sys2Proof.Machine

/-- L, the evaluation steps of a frame (SEQ_CFG.L). -/
def frameL (s : State) : Nat := rfld s oSeqCfg 10 0

/-- The sequencer stands in a frame, or in a stall in one; in a lock phase, or in a stall in one. -/
def inFrame (s : State) : Bool := s.seq.st = .flight || (s.seq.st = .stall && s.seq.ret = .flight)
def inLock (s : State) : Bool := s.seq.st = .lock || (s.seq.st = .stall && s.seq.ret = .lock)

/-- One more wrong bit, or two, in a word of ECC state `e`.  A poisoned word stays poisoned: DESIGN CHOICE (log entry 12), the spec
gives no code matrix (R123, R149). -/
def upsetEcc (double : Bool) : Ecc → Ecc
  | .clean => if double then .double else .single
  | .single => .double
  | e => e

/-- The data bits that read wrong after an upset: `flip` where the word is uncorrectable (R132, R154, R394). -/
def upsetBits {n : Nat} (e : Ecc) (flip : BitVec n) : BitVec n := if e = .double then flip else 0

/-- An upset strikes a stored word or entry (R31, R34, R100, R137, R150). -/
def strike (h : Happening) (s : State) : State :=
  match h with
  | .instrUpset cl ph w d flip =>
    let c := getCl s cl
    let k := 1024 * ph + w
    let e := upsetEcc d (mget .clean c.iEcc k)
    setCl cl { c with iEcc := mset .clean c.iEcc k e, instr := mmod 0#64 c.instr k (· ^^^ upsetBits e flip) } s
  | .routeUpset cl w q d flip =>
    let c := getCl s cl
    let e := upsetEcc d (mget .clean c.rwEcc (4 * w + q % 4))
    let bits : BitVec 256 := (upsetBits e flip).setWidth 256 <<< (64 * (q % 4))
    setCl cl { c with rwEcc := mset .clean c.rwEcc (4 * w + q % 4) e, rw := mmod 0#256 c.rw w (· ^^^ bits) } s
  | .parityUpset cl ph e =>
    let c := getCl s cl
    setCl cl { c with badPar := mset false c.badPar (2048 * ph + e) true } s
  | .dmUpset k w d flip =>
    let e := upsetEcc d (dmEcc s k w)
    let v := dmWord s k w ^^^ upsetBits e flip
    { s with dmc := { s.dmc with ecc := mset .clean s.dmc.ecc (32768 * k + w) e,
                                 cells := putBytes s.dmc.cells (8 * (32768 * k + w)) (leBytes 8 v.toNat) } }
  | .holdUpset n d flip =>
    let e := upsetEcc d (hdEcc s n)
    let v := hdWord s n ^^^ upsetBits e flip
    { s with hold := { s.hold with ecc := mset .poison s.hold.ecc n e,
                                   cells := putBytes s.hold.cells (8 * n) (leBytes 8 v.toNat) } }
  | .stdUpset i d => { s with std := { s.std with ecc := mmod .clean s.std.ecc i (upsetEcc d) } }
  | _ => s
def strikes (hs : List Happening) (s : State) : State := hs.foldl (fun s h => strike h s) s

/-- The quarters of routing word `w` with a single-bit error rewritten right (R100). -/
def fixQuarters (w : Nat) (m : List (Nat × Ecc)) : List (Nat × Ecc) :=
  (List.range 4).foldl (fun m i => if mget .clean m (4 * w + i) = .single then mset .clean m (4 * w + i) .clean else m) m

/-- The scrub reads a word in a tick step or a lock-phase step outside the stretch: a single-bit error is corrected and
counted, an uncorrectable one reported (R34, R100, R257); each quarter of a routing word by itself. -/
def scrubOne (h : Happening) (s : State) : State × List Report :=
  match h with
  | .scrubInstr cl ph w =>
    let c := getCl s cl
    let rep (code : Nat) : List Report := [{ code := code, lk := 1, locv := locProc ph cl (lpOf s cl ph), frame := frameNow s }]
    if !basinRuns s (cl / 64) then (s, [])
    else match mget .clean c.iEcc (1024 * ph + w) with
      | .single => (rflag (cStat cl) 1 (rcount (cEcc cl) 31 16 1
          (setCl cl { c with iEcc := mset .clean c.iEcc (1024 * ph + w) .clean } s)), rep 0x0002)
      | .double | .poison => (rflag (cStat cl) 2 s, rep 0x1003)
      | .clean => (s, [])
  | .scrubRoute cl w =>
    let c := getCl s cl
    let b := cl / 64
    let rep (code : Nat) : List Report := [{ code := code, lk := 2, locv := locClu (min w 1025) 0 cl, frame := frameNow s }]
    if !basinRuns s b then (s, [])
    else
      let s1 := rcount (oBasRwEcc b) 15 0 (routeSingles c w) (setCl cl { c with rwEcc := fixQuarters w c.rwEcc } s)
      let fixed : List Report := if routeSingles c w = 0 then [] else rep 0x0002
      if routeBad c w then (rflag (oBasReachSts b) 3 (rcount (oBasRwEcc b) 31 16 1 s1), fixed ++ rep 0x2003) else (s1, fixed)
  | _ => (s, [])
def scrubs (hs : List Happening) (x : State × List Report) : State × List Report :=
  hs.foldl (fun x h => andThen (scrubOne h) x) x

/-- The coordinate of a sequencer step: a schedule position of a frame, or a lock-phase step of a flight. -/
inductive Coord where
  | sched (frame pos : Nat)
  | lock (flight step : Nat)
  deriving DecidableEq, Repr

/-- What the look-ahead carries from one sequencer step to the next (R164). -/
structure Ahead where
  inLock : Bool
  frame  : Nat
  pos    : Nat
  flt    : Nat
  fltPos : Nat
  lockPos : Nat
  lam    : Nat
  start  : Nat
  frames : Nat
  len    : Nat
  eff    : Nat
  halt   : Option Nat
  gsc    : Nat
  left   : Nat
  stepf  : Bool
  deriving DecidableEq, Repr

/-- The change in force once a lock phase that starts at `g` has passed its barrier: the one with the latest step, of those
that may apply (R79). -/
def changeBy (g : Nat) (cs : List SeqChange) : Option SeqChange :=
  cs.foldl (fun o c => if c.e0 ≤ g && o.all (fun d => decide (d.e0 ≤ c.e0)) then some c else o) none
/-- What each device requests once the changes due in a lock phase that starts at `g` are in effect (R86, R93). -/
def reqsBy (g : Nat) (s : State) : List (Nat × Nat) :=
  s.seq.thrPend.foldl (fun m c => if c.e0 ≤ g then mset 0 m c.src c.stretch else m) s.seq.reqs
/-- The largest stretch that a device of the group requests (R93). -/
def reqMax (s : State) (m : List (Nat × Nat)) : Nat :=
  let ds := groupDevs s
  m.foldl (fun x r => if ds.contains r.1 then max x r.2 else x) 0
/-- The stretch in effect in a lock phase that starts at `g` (R93). -/
def effBy (g : Nat) (s : State) : Nat := reqMax s (reqsBy g s)

/-- One sequencer step further (R73, R84), in frames of `l` evaluation steps: the frame's end, the lock phase of a placed halt,
which displaces the throttle changes due in it (R91), the agreed stretch; past the pause of a halt or of STEP_FRAMES the run is
taken to continue (log entry 18). -/
def aheadStep (s : State) (l : Nat) (a : Ahead) : Ahead :=
  let g := a.gsc + 1
  if a.inLock then
    if a.lockPos + 1 < a.lam then { a with lockPos := a.lockPos + 1, gsc := g }
    else
      let c := changeBy a.start s.seq.cfgPend
      { a with inLock := false, pos := 0, fltPos := 0, lockPos := 0, flt := (a.flt + 1) % 2 ^ 32, gsc := g,
               frames := (c.map SeqChange.frames).getD a.frames, len := (c.map SeqChange.len).getD a.len,
               halt := a.halt.filter fun e => decide (g < e), stepf := a.stepf && a.left ≠ 0 }
  else if a.pos < l + 1 then { a with pos := a.pos + 1, gsc := g }
  else
    let left := a.left - 1
    let halted := a.halt.any fun e => decide (e ≤ g)
    let ends := decide (a.fltPos + 1 ≥ a.frames) || halted || (a.stepf && left = 0)
    let eff := if ends && !halted then effBy g s else a.eff
    if ends then { a with inLock := true, frame := (a.frame + 1) % 2 ^ 48, lockPos := 0, lam := a.len + eff, eff := eff,
                          start := g, fltPos := a.fltPos + 1, gsc := g, left := left }
    else { a with frame := (a.frame + 1) % 2 ^ 48, pos := 0, fltPos := a.fltPos + 1, gsc := g, left := left }

/-- `n` sequencer steps further. -/
def aheadBy (s : State) (l : Nat) : Nat → Ahead → Ahead
  | 0, a => a
  | n + 1, a => aheadBy s l n (aheadStep s l a)

/-- Where the sequencer stands now. -/
def aheadNow (s : State) : Ahead :=
  { inLock := s.seq.st = .lock, frame := s.seq.F.toNat, pos := s.seq.pos, flt := s.seq.fltNum.toNat, fltPos := s.seq.fltPos,
    lockPos := s.seq.lockPos, lam := s.seq.lam, start := s.seq.lockGsc, frames := s.seq.frames, len := s.seq.len,
    eff := s.seq.eff, halt := s.seq.halt, gsc := s.seq.gsc.toNat, left := s.seq.left.toNat, stepf := s.seq.stepf }

/-- The step that lies 256 sequencer steps ahead of the step that executes (R70, R164). -/
def stepAhead (s : State) : Coord :=
  let a := aheadBy s (frameL s) 256 (aheadNow s)
  if a.inLock then .lock a.flt a.lockPos else .sched a.frame a.pos

/-- A group-wide event agreed: kept until its step, once (R86). -/
def addEvent (e : GEvent) (s : State) : State :=
  if s.seq.events.contains e then s else { s with seq := { s.seq with events := s.seq.events ++ [e] } }

/-- The sluice pre-check of the WAITs at position `p` of frame `f` (R165): absent replies count, and vote a sluice stall in
Stall mode. -/
def sluicePrecheck (f p : Nat) (s : State) : State :=
  let qs := (runBasins s).flatMap fun b => (List.range 4).map (4 * b + ·)
  qs.foldl (fun s q =>
    let mask := mget 0#16 (getSlu s q).waitMap p
    (List.range 16).foldl (fun s t =>
      if !mask.getLsbD t || (mget none (getSlu s q).modeAt (waitKey f p t)).isSome then s
      else
        let u := getSlu s q
        let s1 := setSlu q { u with modeAt := mset none u.modeAt (waitKey f p t) (some s.seq.mode) } s
        if getTag s q t ≠ .waiting then s1
        else
          let s2 := rcount (oHldSluCnt q) 15 0 1 s1
          if !s.seq.mode then s2
          else sendExpress 1 (f % 2 ^ 24 * 1024 + p) (addEvent ⟨1, s.dev.devid, .wait f p⟩ s2)) s) s

/-- A blocking call of the site, by the call-site table. -/
def siteBlocks (s : State) (site : Nat) : Bool := siteValid (siteEntry s site) && siteKind (siteEntry s site) = 2

/-- The blocking calls due in a lock phase whose return pre-check stood at `g`: their first fragment was issued before
(R209). -/
def dueCalls (g : Nat) (s : State) : List XEntry :=
  s.xch.entries.filter fun e => callBlocks s e && !e.resolved && !s.xch.dmRets.contains e.id && decide (e.first < g)

/-- A call due at `g` has no consumed return; a call of which only fragments under way exist counts too (R213). -/
def dueMissing (g : Nat) (s : State) : Bool :=
  (dueCalls g s).any (·.value.isNone) ||
    s.xch.frags.any fun f => siteBlocks s f.site && decide (f.gsc < g) && !f.void

/-- The return pre-check of flight `n`'s lock phase (R209, R213), as of step `g`. -/
def returnPrecheck (n g : Nat) (s : State) : State :=
  if s.seq.preRet.any (·.1 = n) then s
  else
    let s1 := { s with seq := { s.seq with preRet := s.seq.preRet ++ [(n, g, s.seq.mode)] } }
    if s.seq.mode && hasWharf s && dueMissing g s then sendExpress 2 n (addEvent ⟨2, s.dev.devid, .lock n⟩ s1) else s1

/-- The lock phase whose step 0 is the first to come in the next `n` sequencer steps: its flight, and the steps until then. -/
def lockAhead (s : State) (l : Nat) : Nat → Nat → Ahead → Option (Nat × Nat)
  | 0, _, _ => none
  | n + 1, k, a =>
    let a' := aheadStep s l a
    if a'.inLock && a'.lockPos = 0 then some (a'.flt, k + 1) else lockAhead s l n (k + 1) a'

/-- The return pre-check of a lock phase that has become known later than 256 steps before its step 0, by a halt or a short
STEP_FRAMES: made now, while a vote can still reach the group in time (R184); the calls due are those of the step it should have
stood at (R209). -/
def lateReturn (s0 s : State) : State :=
  match lockAhead s0 (frameL s0) 255 0 (aheadNow s0) with
  | some (n, d) =>
    let g := s0.seq.gsc.toNat + d
    if eventBound s0 ≤ d && decide (256 ≤ g) then returnPrecheck n (g - 256) s else s
  | none => s

/-- The pre-checks of a sequencer step (R165, R213), made for the step 256 further on. -/
def prechecks (s0 : State) (s : State) : State :=
  let a := aheadBy s0 (frameL s0) 256 (aheadNow s0)
  let s1 := if a.inLock || a.flt ≠ s0.seq.fltNum.toNat then lateReturn s0 s else s
  match stepAhead s0 with
  | .sched f p => if p < frameL s0 then sluicePrecheck f p s1 else s1
  | .lock n k => if k = 0 then returnPrecheck n s0.seq.gsc.toNat s1 else s1

/-- A stall of this kind is agreed, or stands. -/
def stallVoted (s : State) (kind : Nat) : Bool :=
  s.seq.events.any (fun e => e.kind = kind) || s.seq.stallEvs.any (fun e => e.kind = kind)

/-- A request for a stall at a horizon-aligned step: capacity (3) or trace (4), once until it takes effect (R86). -/
def horizonStall (kind : Nat) (s : State) : State :=
  if stallVoted s kind || !seqRuns s then s
  else sendExpress kind (horizonStep s / 256) (addEvent ⟨kind, s.dev.devid, .gsc (horizonStep s)⟩ s)

/-- The event's effective step is the step that would execute next (R86). -/
def evDue (s : State) (e : GEvent) : Bool :=
  match e.at_ with
  | .gsc g => s.seq.gsc.toNat = g
  | .wait f p => s.seq.st = .flight && s.seq.F.toNat = f && s.seq.pos = p
  | .lock n => s.seq.st = .lock && s.seq.fltNum.toNat = n && s.seq.lockPos = 0

/-- The restore raises the ratio by one sixteenth; at 16/16 it is complete (R312). -/
def restoreStep (s : State) : State :=
  let s1 := { s with seq := { s.seq with restore := decide (s.seq.ratio + 1 < 16), ratio := min 16 (s.seq.ratio + 1) } }
  setBound (if s1.seq.restore then s1 else rput oCkgStep 9 9 0 { s1 with seq := { s1.seq with emerg := false } })

/-- An emergency-halving event takes effect: the clock halves (R94), or, while it is halved, the restore starts (R312). -/
def applyHalving (src : Nat) (s : State) : State :=
  let s1 := lastEvt 6 src s.seq.gsc.toNat s
  if s.seq.emerg then (if s.seq.restore then s1 else restoreStep s1)
  else setBound { s1 with seq := { s1.seq with emerg := true, restore := false, ratio := 8 } }

/-- A stall takes effect before its effective step executes (R87, R88).  Of stalls that merge SEQ_LAST_EVT records the one agreed
first: DESIGN CHOICE (log entry 40), R88 and R98 do not say which. -/
def beginStall (es : List GEvent) (s : State) : State :=
  let e := es.headD ⟨0, 0, .gsc 0⟩
  let s1 := { s with seq := { s.seq with st := .stall, ret := s.seq.st, stallCyc := 0, ownRel := none, resume := none,
                                         stallEvs := es },
                     grp := { s.grp with releases := [] } }
  lastEvt e.kind e.src s.seq.gsc.toNat (seqInt 2 (rcount oSeqStallCnt 31 0 1 s1))

/-- The group-wide events due at the step that would execute next (R86, R88): halving, clock-loss halt, stalls. -/
def applyEvents (s : State) : State :=
  let due := s.seq.events.filter (evDue s)
  if due = [] then s
  else
    let s1 := { s with seq := { s.seq with events := s.seq.events.filter fun e => !evDue s e } }
    let s2 := (due.filter (·.kind = 6)).foldl (fun s e => applyHalving e.src s) s1
    match due.filter (·.kind = 8) with
    | e :: _ => clockLossHalt e.src s2
    | [] =>
      let st := due.filter fun e => 1 ≤ e.kind && e.kind ≤ 4
      if st = [] then s2 else beginStall st s2

/-- The step clock runs: its PLL is judged stable, and no ramp from standstill is under way, in which warm-up frames run in place of
sequencer steps (R311, R316). -/
def stepClock (s : State) : Bool := rbit s oCkgSts 8 && !s.clk.ramp

/-- A step of the sequencer executes: after the due events, unless one of them stalls or halts the device. -/
def seqStep (ready : State → Bool) (body : State → State) (s : State) : State :=
  if !ready s then s
  else
    let s1 := applyEvents s
    if ready s1 then body s1 else s1

/-- A bank cycle passes (R134). -/
def bankCycles (s : State) : State := { s with dmc := { s.dmc with cycle := s.dmc.cycle + 1 } }

/-- GSC advances at the end of a sequencer step (R68, R71), with the bank cycles; a restore under way rises at each multiple of
4,096 (R312). -/
def bumpGsc (s : State) : State :=
  let s0 := bankCycles s
  let s1 := { s0 with seq := { s0.seq with gsc := s0.seq.gsc + 1 } }
  if s.seq.restore && s1.seq.gsc.toNat % 4096 = 0 then restoreStep s1 else s1

/-- The largest stretch this device's own sources request (R93). -/
def hostStretch (s : State) : Nat := rfld s oSeqThrottle 19 0
def stretchWanted (s : State) : Nat := max (hostStretch s) (max s.seq.therm s.seq.pcap)

/-- What each device requests once every agreed change is in effect. -/
def reqsLast (s : State) : List (Nat × Nat) := s.seq.thrPend.foldl (fun m c => mset 0 m c.src c.stretch) s.seq.reqs

/-- This device's request agreed anew, by a throttle event (R86, R182). -/
def throttleVote (s : State) : State :=
  let e0 := horizonStep s
  let s1 := { s with seq := { s.seq with thrPend := s.seq.thrPend ++ [⟨e0, stretchWanted s, s.dev.devid⟩] } }
  sendExpress 5 (e0 / 256 % 2 ^ 14 * 2 ^ 20 + stretchWanted s) s1

/-- Every change of this device's own request is voted, so that each device knows the largest of them (R93, R331; log
entry 41). -/
def throttleEvent (s : State) : State :=
  if stretchWanted s = mget 0 (reqsLast s) s.dev.devid then s else throttleVote s

/-- The lock phase begins (R73, R76, R82, R91) at the step `g`: a halt's lock phase displaces the capacity and trace stalls, the
throttle changes and the halvings whose effective step it is. -/
def beginLock (g : Nat) (s : State) : State :=
  let byHalt := s.seq.halt.any fun e => decide (e ≤ g)
  let keep (e : GEvent) : Option GEvent :=
    if !byHalt then some e
    else match e.at_ with
      | .gsc h => if h = g then (if e.kind = 6 then some { e with at_ := .gsc (g + 1) }
                                 else if e.kind = 3 || e.kind = 4 then none else some e) else some e
      | _ => some e
  let thr := s.seq.thrPend.map fun t => if byHalt && decide (t.e0 ≤ g) then { t with e0 := g + 1 } else t
  let s1 := if byHalt then lastEvt 7 s.seq.haltSrc g s else s
  { s1 with seq := { s1.seq with st := .lock, lockPos := 0, lockGsc := g, thrPend := thr,
                                 lam := s1.seq.len + s1.seq.eff, events := s1.seq.events.filterMap keep } }

/-- A throttle change takes effect at lock-phase step 0 of the first lock phase at or after its horizon-aligned step (R93);
the length of the lock phase follows (R76). -/
def applyThrottle (s : State) : State :=
  let g := s.seq.lockGsc
  let eff := effBy g s
  match (s.seq.thrPend.filter fun t => decide (t.e0 ≤ g)).getLast? with
  | some c =>
    let s1 := { s with seq := { s.seq with eff := eff, lam := s.seq.len + eff, reqs := reqsBy g s, thrGsc := g,
                                           thrPend := s.seq.thrPend.filter fun t => decide (g < t.e0) } }
    if eff = s.seq.eff then s1 else lastEvt 5 c.src s.seq.gsc.toNat s1
  | none => { s with seq := { s.seq with thrGsc := if s.seq.halt.any fun e => decide (e ≤ g) then s.seq.thrGsc else g } }

/-- Agreed changes of SEQ_FLIGHT and SEQ_LOCK are applied in the barrier (R77, R79), and the group's mode runs from the next
flight (R190). -/
def applyConfig (s : State) : State :=
  match changeBy s.seq.lockGsc s.seq.cfgPend with
  | some c =>
    { s with seq := { s.seq with frames := c.frames, len := c.len, svc := c.svc,
                                 cfgPend := s.seq.cfgPend.filter fun d => decide (s.seq.lockGsc < d.e0) } }
  | none => s

/-- SEQ_FLIGHT and SEQ_LOCK as they stand, in effect at once: in a run from F = 0 (log entry 18). -/
def configNow (s : State) : State :=
  { s with seq := { s.seq with frames := rfld s oSeqFlight 12 0, len := rfld s oSeqLock 12 0, svc := rbit s oSeqLock 16,
                               cfgPend := [] } }

/-- A change of SEQ_FLIGHT or SEQ_LOCK made at GSC `g`, for the barrier of a lock phase (R79); with no run to continue (IDLE,
READY) it is in effect at once (log entry 18). -/
def configChange (g : Nat) (s : State) : State :=
  if s.seq.st = .idle || s.seq.st = .ready then configNow s
  else
    { s with seq := { s.seq with cfgPend := s.seq.cfgPend ++
        [⟨alignUp (g + 256) 256, rfld s oSeqFlight 12 0, rfld s oSeqLock 12 0, rbit s oSeqLock 16⟩] } }

/-- Some verification window of an ended flight is still open (R78). -/
def marksOpen (s : State) : Bool := (List.range 12).any fun n => lnkUp s n && lnkGroup s n && (getLnk s n).marks ≠ []

/-- PAUSED is shown and its interrupt given once every marker of the ended flight is verified (R78). -/
def settlePause (s : State) : State :=
  if s.seq.st = .paused && s.seq.markHold && !marksOpen s then
    seqInt 1 { s with seq := { s.seq with markHold := false } }
  else s

/-- A frame begins: it is tainted where a halt reaction stands whose halt has not taken effect (R75). -/
def carryTaint (s : State) : State := if s.seq.carry.isSome then taintFrame s.seq.F.toNat s else s

/-- A taint that a halt reaction carries on ends with the last frame run (R75). -/
def dropCarry (s : State) : State := { s with seq := { s.seq with carry := none } }

/-- The flight record closes, in the first steps of the barrier (R77, R78). -/
def closeRecord (s : State) : State :=
  let n := s.seq.fltPos
  let fs := (List.range n).map fun i => frBack s.seq.F.toNat (n - i)
  let open_ := (List.range 12).filterMap fun l =>
    if lnkUp s l && lnkGroup s l then some (l, ((getLnk s l).marks.filter fs.contains).length) else none
  { s with seq := { s.seq with fltRec := some ⟨s.seq.fltNum, n, fs.any (isTainted s), open_⟩ } }

/-- The group enters PAUSED at barrier step Λ−1 (R82, R84), where a halt placed inside the lock phase takes effect; a carried taint ends with the last frame (R75), an emergency
halving due at the step that does not come takes effect now (R91), and a halt agreed for a later step keeps its coordinate (R83). -/
def enterPaused (s : State) : State :=
  let g := s.seq.gsc.toNat + 1
  let atHalt := match s.seq.halt with | some e => decide (e = g) | none => false
  let s0 := dropCarry s
  let gone (e : GEvent) : Bool := atHalt && e.at_ = .gsc g && (e.kind = 3 || e.kind = 4 || e.kind = 6)
  let halve := s0.seq.events.filter fun e => gone e && e.kind = 6
  let s1 := if s.seq.halt.any (fun e => decide (s.seq.lockGsc < e) && decide (e ≤ g)) then lastEvt 7 s.seq.haltSrc g s0 else s0
  let s2 := { s1 with seq := { s1.seq with st := .paused, ret := .flight, pos := 0, fltPos := 0, lockPos := 0,
                                           halt := s.seq.halt.filter fun e => decide (g < e), haltReq := false, stepf := false, markHold := true,
                                           events := s1.seq.events.filter fun e => !gone e } }
  settlePause (halve.foldl (fun s e => applyHalving e.src s) s2)

/-- Barrier step Λ−1 decides the next state (R84). -/
def barrierDecision (s : State) : State :=
  let s1 := seqInt 0 { s with seq := { s.seq with fltNum := s.seq.fltNum + 1,
                                                  preRet := s.seq.preRet.filter (·.1 ≠ s.seq.fltNum.toNat) } }
  let haltNow := match s.seq.halt with | some e => decide (e ≤ s.seq.gsc.toNat + 1) | none => false
  if haltNow || (s.seq.stepf && s.seq.left = 0) then enterPaused s1
  else carryTaint { s1 with seq := { s1.seq with st := .flight, pos := 0, fltPos := 0, frameStall := 0, mode := rbit s1 oLkgMode 0 } }

end Sys2Proof.Machine
end

