-- ==== Sys2Proof/Machine/Dmc.lean ====
section
/-!
DEFINITION. The bank controllers of design memory: service accesses and their meeting with the schedule, write-backs, patrol,
ownership, march (R122-R146).
-/
namespace Sys2Proof.Machine

/-- The memory clock runs (R128, R313, R314): with DMC clocked, in Run and outside Keep, with the step PLL judged stable or the step
domain on the crystal. -/
def memClockOn (s : State) : Bool :=
  unitOn s 15 && rfld s oPwrSts 2 0 = 0 && (rbit s oCkgSts 8 || s.clk.stepXtal)

/-- The sequencer executes a schedule step in this bank cycle (R128, R134): it stands in a flight and no event due stops it. -/
def cycleIsStep (s : State) : Bool := (applyEvents s).seq.st = .flight

/-- The scheduled access that uses bank `k` in this bank cycle (R129): an operation issued one position ago, in a lane its port owns;
a bank made unowned since has none (R124). -/
def schedAt (s : State) (k : Nat) : Option MemOp :=
  if !cycleIsStep s || ownMode s k ≠ 1 then none
  else (getCl s (rfld s (oDmcOwn k) 10 0)).memOps.find? fun m =>
    !m.done && m.kind ≠ .readX && m.issued + 1 = s.seq.spos && decide (m.bank ≤ k) && decide (k < m.bank + m.width) && ownLane s k = k - m.bank

/-- A scheduled read, as opposed to a write. -/
def memReads (m : MemOp) : Bool := m.kind = .read || m.kind = .readMerge

/-- The step of this cycle issues an access to bank `k`, which will use it in the next cycle (R134). -/
def issuesNext (s : State) (k : Nat) : Bool :=
  let cl := rfld s (oDmcOwn k) 10 0
  let gang := k - ownLane s k
  let hits (o : ProcOut) : Bool :=
    match o.op with
    | .rd n | .wr n => n = gang && portOwns s cl n && argAt o.vs 0 ≠ .zero && (v4nat? (plist (getCl s cl).ma 15)).isSome
    | _ => false
  if !cycleIsStep s || ownMode s k ≠ 1 || s.seq.pos ≥ frameL s || !basinRuns s (cl / 64) then false
  else
    match ((clusterOuts s [] cl s.seq.pos).filter fun o => match o.op with | .rd _ | .wr _ => true | _ => false).head? with
    | some o => hits o
    | none => false

/-- An access that reads before it writes, in two cycles (R131). -/
def svcRmw (op : SvcOp) : Bool := op = .setBits || op = .clearBits || op = .partialW
def svcWrites (op : SvcOp) : Bool := op ≠ .read && op ≠ .readHalf

/-- DMC_HSTS flag of a completion code; DMC_HADDR takes the offset of the first (R133). -/
def hostCode (code addr : Nat) (s : State) : State :=
  if code = 0 || 7 ≤ code then s
  else
    let s1 := if rget s oDmcHsts = 0#32 then rset oDmcHaddr (BitVec.ofNat 32 (2 ^ 31 + addr % 2 ^ 29)) s else s
    rflag oDmcHsts (code - 1) s1

/-- A completion handed to the host. -/
def hostCpl (st : CplSt) (ep : Bool) (bar addr : Nat) (data : List Byte) (s : State) : State :=
  { s with host := { s.host with cpl := ⟨st, ep, bar, addr, data⟩ :: s.host.cpl } }

/-- The reply of a service access (R132): to the host as a completion and in DMC_HSTS, to every other master as a service
reply; a wharf return is no longer on its way (R212).  A reply that its sender no longer waits for is counted (R343). -/
def svcReply (r : SvcReq) (code : Nat) (data : BitVec 64) (s : State) : State :=
  if r.answer = .late then
    let s1 := rcount oBnwLate 31 0 1 s
    if r.master = 2 then returnWritten r.tag s1 else s1
  else if r.answer = .barge then
    { s with dmc := { s.dmc with replies := s.dmc.replies ++ [⟨r.master, r.tag, r.addr, code, data⟩] } }
  else if r.master = 0 then
    let s1 := hostCode code r.addr s
    let d := if code = 5 || code = 6 then 0 else data.toNat
    let bs := match r.half with
      | some up => leBytes 4 (if up then d / 2 ^ 32 else d)
      | none => leBytes 8 d
    if svcWrites r.op then s1 else hostCpl .ok false 2 r.addr bs s1
  else if r.master = 2 then returnWritten r.tag s
  else { s with dmc := { s.dmc with replies := s.dmc.replies ++ [⟨r.master, r.tag, r.addr, code, data⟩] } }

/-- What a service access to a bank meets before any access (R124, R132, R143): UNOWNED, OFFLINE, or none. -/
def svcRefused (s : State) (k : Nat) : Option Nat :=
  if bankOff s k then some 6 else if ownMode s k = 0 then some 5 else none

/-- The service access performed (R131, R132, R137, R138).  `shared`: a scheduled read of the same word is served by the same
bank access, and reports the word's error (R137). -/
def svcPerform (r : SvcReq) (shared : Bool) (s : State) : State × List Report :=
  let k := r.bank
  let w := r.word
  let d := dmWord s k w
  match svcRefused s k with
  | some c => (svcReply r c 0#64 s, [])
  | none =>
    match r.op with
    | .write => (svcReply r 0 0#64 (dmWrite k w r.data r.poison s), [])
    | .read | .readHalf =>
      let (s1, rs) := if shared then (s, []) else dmCheck 1 k w s
      (match dmEcc s k w with
       | .clean | .single => svcReply r 0 d s1
       | .poison => svcReply r 3 0#64 s1
       | .double => svcReply r 4 d s1, rs)
    | .setBits | .clearBits | .partialW =>
      let (s1, rs) := dmCheck 3 k w s
      let v := match r.op with
        | .setBits => d ||| (r.data &&& r.mask)
        | .clearBits => d &&& ~~~(r.data &&& r.mask)
        | _ => (d &&& ~~~r.mask) ||| (r.data &&& r.mask)
      (match dmEcc s k w with
       | .clean | .single => svcReply r 0 0#64 (dmWrite k w v false s1)
       | .poison => svcReply r 3 0#64 s1
       | .double => svcReply r 4 0#64 s1, rs)

/-- The access waits in its receive buffer; one that waits for the schedule is counted once (R135). -/
def svcWait (r : SvcReq) (forSched : Bool) (s : State) : State :=
  let s1 := { s with dmc := { s.dmc with waiting := s.dmc.waiting ++ [{ r with counted := r.counted || forSched }] } }
  if forSched && !r.counted then rcount (oDmcConf r.master) 31 0 1 s1 else s1

/-- A service access resolved against the schedule of this cycle (R135). -/
def svcResolve (r : SvcReq) (s : State) : State × List Report :=
  match schedAt s r.bank with
  | none => (svcWait r false s, [])
  | some m =>
    if m.addr ≠ r.word || svcRmw r.op then (svcWait r true s, [])
    else
      let write := r.op = .write
      if memReads m then
        (if write then ({ s with dmc := { s.dmc with deferred := s.dmc.deferred ++ [r] } }, []) else svcPerform r true s)
      else if write then (svcReply r 1 0#64 s, [])
      else
        let (v, s1) := takeFree s
        (svcReply r 2 v s1, [])

/-- A bank's turn is taken by something ahead of the waiting accesses (R134): a deferred write, a write-back. -/
def bankBusy (s : State) (k : Nat) : Bool :=
  s.dmc.deferred.any (·.bank = k) || s.dmc.writeback.any fun e => e.1 / 32768 = k

/-- Bank `k` has made its access of this bank cycle, which a step of the sequencer or a stall cycle will end (R134). -/
def bankTaken (s : State) (k : Nat) : Bool := seqRuns s && mget 0 s.dmc.used k = s.dmc.cycle + 1

/-- Bank `k` makes its access of this bank cycle (R134); where no step of the sequencer counts the cycle, it passes. -/
def bankAccess (k : Nat) (s : State) : State :=
  if seqRuns s then { s with dmc := { s.dmc with used := mset 0 s.dmc.used k (s.dmc.cycle + 1) } } else bankCycles s

/-- The bank's patrol is more than 256 words behind its pace of 32,768 words a period (R139). -/
def patrolBehind (s : State) (k : Nat) : Bool :=
  ownMode s k ≠ 0 && !bankOff s k &&
    decide ((mget 0 s.dmc.patrolPtr k + 256) * (mget 1000 s.dmc.patrolMs k * 1000000) < (s.dmc.time - mget 0 s.dmc.patrolAt k) * 32768)

/-- Bank `k` begins a patrol pass (R139), with the period that stands now (DMC_PATROL card). -/
def patrolBegins (k : Nat) (s : State) : State :=
  { s with dmc := { s.dmc with patrolPtr := mset 0 s.dmc.patrolPtr k 0, patrolAt := mset 0 s.dmc.patrolAt k s.dmc.time,
                               patrolMs := mset 1000 s.dmc.patrolMs k (rfld s oDmcPatrol 15 0) } }

/-- The waiting access the bank takes next (R134): a wharf return in the return window first, else the oldest; of those of one
cycle the one of the lowest master. -/
def svcNext (s : State) (k : Nat) : Option SvcReq :=
  let q := sortBy (fun r : SvcReq => r.cycle * 16 + r.master) (s.dmc.waiting.filter (·.bank = k))
  let win := s.seq.st = .lock && decide (s.seq.lockPos < 16)
  match (if win then q.find? (·.master = 2) else none) with
  | some r => some r
  | none => q.head?

/-- The bank has a waiting access that can start in this cycle: a read-modify-write needs the next one as well (R134). -/
def svcReady (s : State) (k : Nat) : Option SvcReq := (svcNext s k).filter fun r => !(svcRmw r.op && issuesNext s k)

/-- The bank's waiting access is performed in this cycle, if the cycle is free and no patrol read is behind its pace (R134,
R136). -/
def svcServe (k : Nat) (s : State) : State × List Report :=
  if !memClockOn s || bankBusy s k || bankTaken s k || (schedAt s k).isSome || patrolBehind s k then (s, [])
  else match svcReady s k with
    | none => (s, [])
    | some r => svcPerform r false (bankAccess k { s with dmc := { s.dmc with waiting := s.dmc.waiting.erase r } })

/-- The reports of an operation raised. -/
def settle (x : State × List Report) : State := raiseAll x.2 x.1

/-- DMC_SERVICE_REQUEST (R135). -/
def serviceRequest (r : SvcReq) (s : State) : State :=
  if r.bank < nBanks s then settle (svcResolve { r with cycle := s.dmc.cycle } s) else s

/-- DMC_SERVICE_ACCESS (R134). -/
def serviceAccess (k : Nat) (s : State) : State := settle (svcServe k s)

/-- DMC_DEFERRED_WRITE (R134, R135): the deferred write of the bank is performed, or resolved again. -/
def deferredWrite (k : Nat) (s : State) : State :=
  match s.dmc.deferred.find? (·.bank = k) with
  | none => s
  | some r =>
    let s1 := { s with dmc := { s.dmc with deferred := s.dmc.deferred.erase r } }
    if (schedAt s k).isSome then settle (svcResolve r s1)
    else if memClockOn s && !bankTaken s k then settle (svcPerform r false (bankAccess k s1))
    else s

/-- DMC_ECC_WRITEBACK (R134, R137). -/
def eccWriteback (k w : Nat) (s : State) : State :=
  let key := 32768 * k + w
  if !mget false s.dmc.writeback key || bankTaken s k || (schedAt s k).isSome || s.dmc.deferred.any (·.bank = k) || !memClockOn s then s
  else
    let e := mget .clean s.dmc.ecc key
    let s1 := bankAccess k s
    { s1 with dmc := { s1.dmc with writeback := mset false s1.dmc.writeback key false,
                                   ecc := mset .clean s1.dmc.ecc key (if e = .single then .clean else e) } }

/-- A waiting service access, in its turn, keeps bank `k` from a patrol read at its pace (R134). -/
def patrolYields (s : State) (k : Nat) : Bool := !patrolBehind s k && (svcReady s k).isSome

/-- DMC_PATROL_READ (R134, R139): the next word of a bank in port or service-only mode. -/
def patrolRead (k : Nat) (s : State) : State :=
  if nBanks s ≤ k || ownMode s k = 0 || bankOff s k || bankBusy s k || bankTaken s k || (schedAt s k).isSome || !memClockOn s || patrolYields s k
  then s
  else
    let p := mget 0 s.dmc.patrolPtr k
    let (s1, rs) := dmCheck 2 k p (bankAccess k s)
    settle (if p = 32767 then patrolBegins k s1
            else { s1 with dmc := { s1.dmc with patrolPtr := mset 0 s1.dmc.patrolPtr k (p + 1) } }, rs)

/-- PATROL_LATE (R139); a gated DMC unit raises no fault (R314). -/
def patrolLate (s : State) : State := if unitOn s 15 then raise 0x3003 0 0 (rflag oDmcSts 3 s) else s

/-- The first bank of the gang bank `k` belongs to, by its register (R125). -/
def gangFirst (s : State) (k : Nat) : Nat := k - ownLane s k

/-- The banks from `k` on that the gang starting at `k` holds now. -/
def oldGang (s : State) (k : Nat) : List Nat := if ownLane s k = 0 then (List.range (ownGw s k)).map (k + ·) else [k]

/-- A basin may lose or gain a bank now (R126): it is fenced, or the sequencer rests. -/
def basinStill (s : State) (b : Nat) : Bool := rbit s oCfgFenced b || seqRests s

/-- The cluster whose port owns bank `j`; none outside port mode. -/
def portOwner (s : State) (j : Nat) : Option Nat := if ownMode s j = 1 then some (rfld s (oDmcOwn j) 10 0) else none

/-- The first condition of R126 that a handover write fails; 0 for none. -/
def ownCause (k : Nat) (v : Word) (s : State) : Nat :=
  let mode := fld v 25 24
  let n := fld v 22 20 + 1
  let new := (List.range n).map (k + ·)
  let owner (j : Nat) : Option Nat := if mode = 1 && j < k + n then some (fld v 10 0) else none
  let moved := (new ++ oldGang s k).filter fun j => j < nBanks s && portOwner s j ≠ owner j
  let basins := (moved.filterMap (portOwner s) ++ moved.filterMap owner).map (· / 64)
  if basins.any fun b => b < nBasins s && !basinStill s b then 1
  else if mode = 3 || (mode = 1 && fld v 10 6 ≥ nBasins s) || k + n > nBanks s then 2
  else if new.any fun j => ownGw s j ≠ 1 && gangFirst s j ≠ k then 3
  else if new.any fun j => rbit s (oDmcRepair j) 31 then 4
  else 0

/-- Bank `j` made unowned, its refusal record kept. -/
def unown (j : Nat) (s : State) : State := rset (oDmcOwn j) (rget s (oDmcOwn j) &&& 0xF0000000#32) s

/-- What an accepted handover leaves in the banks (R125, R126, DMC_OWN card). -/
def ownPut (k : Nat) (v : Word) (s : State) : State :=
  let mode := fld v 25 24
  let n := fld v 22 20 + 1
  let s1 := ((oldGang s k).filter fun j => decide (k + n ≤ j)).foldl (fun s j => unown j s) s
  (List.range n).foldl (fun s j =>
    let s := if ownMode s (k + j) = 0 then patrolBegins (k + j) s else s
    let w := mode * 2 ^ 24 + (n - 1) * 2 ^ 20 + j * 2 ^ 17 + (if mode = 1 then fld v 10 0 else 0)
    let keep := if j = 0 then 0#32 else rget s (oDmcOwn (k + j)) &&& 0xF0000000#32
    rset (oDmcOwn (k + j)) (keep ||| BitVec.ofNat 32 w) s) s1

/-- A handover write to DMC_OWN[k] (R126, R127), and whether it was accepted. -/
def ownWrite (k : Nat) (v : Word) (s : State) : State × Bool :=
  let c := ownCause k v s
  if c = 0 then (ownPut k v s, true)
  else (rflag oDmcSts 2 (rmod (oDmcOwn k) (fun w => setBit (setFld w 30 28 c) 31) s), false)

/-- DMC_OWN_REFUSAL_CLEAR (R127, DMC_OWN card). -/
def ownClear (k : Nat) (s : State) : State := rmod (oDmcOwn k) (· &&& 0x0FFFFFFF#32) s

/-- The word of a bank after a preserving march (R141). -/
def marchKeep (k : Nat) (s : State) : State :=
  let keys := (s.dmc.ecc.filter fun e => e.1 / 32768 = k).map (·.1)
  keys.foldl (fun s key =>
    let e := mget .clean s.dmc.ecc key
    { s with dmc := { s.dmc with ecc := mset .clean s.dmc.ecc key (if e = .single then .clean else .poison) } }) s

/-- The words of a bank after a destructive march (R141): zero with correct check bits. -/
def bankZero (k : Nat) (s : State) : State :=
  { s with dmc := { s.dmc with cells := mkeep (fun a => a / 0x40000 ≠ k) s.dmc.cells,
                               ecc := mkeep (fun a => a / 32768 ≠ k) s.dmc.ecc,
                               writeback := mkeep (fun a => a / 32768 ≠ k) s.dmc.writeback } }

/-- Every word of a bank poisoned, its data bits zero (R123, R321). -/
def bankPoison (k : Nat) (s : State) : State :=
  let s1 := bankZero k s
  { s1 with dmc := { s1.dmc with ecc := mfill .clean s1.dmc.ecc (32768 * k) 32768 .poison } }

/-- What a march has found so far: the State, the rows repaired, the faults to report. -/
structure MarchSum where
  st   : State
  done : Nat
  rs   : List Report
  deriving DecidableEq, Repr

/-- One failing row of bank `k` (R142): onto a spare row, or, with no spare row left, the bank has failed. -/
def rowFails (k : Nat) (x : MarchSum) : MarchSum :=
  let used := (Config.factoryRepairs k).val + rfld x.st (oDmcRepair k) 3 0
  if !rbit x.st (oDmcRepair k) 31 && decide (used < 8) then
    { x with st := rmod (oDmcRepair k) (fun w => setFld w 3 0 (fld w 3 0 + 1)) x.st, done := x.done + 1 }
  else
    let fault : Report := { code := 0x3004, lk := 4, locv := k, frame := frameNow x.st }
    { x with st := unown k (rflag oDmcSts 4 (rflag (oDmcRepair k) 31 x.st)),
             rs := if x.rs.contains fault then x.rs else x.rs ++ [fault] }

end Sys2Proof.Machine
end

