-- ==== Sys2Proof/Machine/Hold.lean ====
section
/-!
DEFINITION. Hold memory and the sluices outside the schedule: the DRAM banks' arbitration, replies, refresh, scrub, stacks,
the region table and the host aperture (R147-R168).
-/
namespace Sys2Proof.Machine

/-- Line `n`'s stack, and its DRAM bank: lines share one exactly where their numbers agree modulo 512·S (R148). -/
def lineStack (s : State) (n : Nat) : Nat := n % nStacks s
def lineBank (s : State) (n : Nat) : Nat := n % (512 * nStacks s)
/-- Hold memory is clocked and the stack available: READY and not in self-refresh (R149, R153). -/
def stackOn (s : State) (i : Nat) : Bool := rbit s (oHldStackSts i) 0 && !rbit s (oHldStackSts i) 3

/-- The requests waiting at DRAM bank `d`, in line order (R155): ascending GSC, then sluice. -/
def bankQueue (s : State) (d : Nat) : List SluReq :=
  sortBy (fun r : SluReq => r.gsc * 128 + r.q) (s.req.filter fun r => !r.served && lineBank s (r.addr / 64) = d)

/-- One request reaches its DRAM bank behind `ahead` others (R163). -/
def reachBank (ahead : Nat) (r : SluReq) (s : State) : State :=
  let s1 := { s with req := s.req.map fun x => if x = r then { r with seen := true } else x }
  if ahead < 4 then s1
  else raiseEvent 0x0005 5 (locSlu r.q r.tag) (rflag oHldSts 7 (rcount oHldBankload 31 0 1 s1))

/-- The requests not yet seen at the bank reach it, in line order (R155, R163). -/
def reachAll (d : Nat) (s : State) : State :=
  let q := bankQueue s d
  (List.range q.length).foldl (fun s i =>
    match q[i]? with
    | some r => if r.seen then s else reachBank i r s
    | none => s) s

/-- The access of one sluice request (R54, R56, R150, R160): what its reply brings, and what the check reports.  Of an uncorrectable
word the reply names the line, and the WAIT that collects it reports the fault; where no WAIT collects it, nothing reports it (DESIGN
CHOICE, log entry 58: R150 attributes the fault to that WAIT's frame and is silent on a reply without one). -/
def sluAccess (r : SluReq) (s : State) : State × List Report :=
  let n := r.addr / 8
  let done (x : TagSt) (s : State) : State :=
    { s with req := s.req.map fun y => if y = r then { r with served := true, reply := x } else y }
  if r.write then (done .written (hdWrite n r.data r.poison s), [])
  else
    let v := hdWord s n
    let (s1, rs) := hdCheck 0 n s
    match hdEcc s n with
    | .clean | .single => (done (if r.xen then .dataX else .data v) s1, rs)
    | .poison => (done .dataX s1, rs)
    | .double => (done (.dataUe (n / 8)) s1, [])

/-- Request `r` stands in line order behind an access of the last class that came to its line first (R155). -/
def behindJob (s : State) (r : SluReq) : Bool :=
  s.hold.jobs.any fun j => j.lines.contains (r.addr / 64) && !j.ahead.contains (r.gsc, r.q)

/-- The sluice request that DRAM bank `d` takes next (R155). -/
def nextSlu (s : State) (d : Nat) : Option SluReq := (bankQueue s d).find? (!behindJob s ·)

/-- Line `n` of the access `j` is the next of its line (R155): no sluice request that came before it waits there, and no older access
of the last class. -/
def jobNext (s : State) (j : HoldJob) (n : Nat) : Bool :=
  !(s.req.any fun r => !r.served && r.addr / 64 = n && j.ahead.contains (r.gsc, r.q)) &&
    !((s.hold.jobs.takeWhile (· ≠ j)).any (·.lines.contains n))

/-- The lines of the accesses of the last class that DRAM bank `d` could take now, oldest first. -/
def jobsAt (s : State) (d : Nat) : List (HoldJob × Nat) :=
  s.hold.jobs.flatMap fun j => (j.lines.filter fun n => lineBank s n = d && jobNext s j n).map (j, ·)

/-- The party of the last class of R155 that an access is of. -/
def jobParty (j : HoldJob) : Nat := match j.why with | .trace => 0 | _ => if j.b.master = 0 then 2 else 1

/-- The access of the last class that DRAM bank `d` takes next: the parties in round-robin order, of one the oldest (R24, R155). -/
def nextJob (s : State) (d : Nat) : Option (HoldJob × Nat) :=
  [0, 1, 2].findSome? fun i => (jobsAt s d).find? fun x => jobParty x.1 = (mget 0 s.hold.turn d + i) % 3

/-- DRAM bank `d` has business of the third class: a due refresh or a write-back (R155). -/
def bankDue (s : State) (d : Nat) : Bool :=
  mget 0 s.hold.refDue d ≠ 0 || s.hold.writeback.any fun e => lineBank s (e.1 / 8) = d

/-- The line of a hold address is a DRAM bank's next business of class 3: its due refresh, then a write-back (R155). -/
def bankIdle (d : Nat) (s : State) : State :=
  if mget 0 s.hold.refDue d ≠ 0 then { s with hold := { s.hold with refDue := mset 0 s.hold.refDue d 0 } }
  else match s.hold.writeback.find? fun e => lineBank s (e.1 / 8) = d with
    | some e =>
      let c := mget .poison s.hold.ecc e.1
      { s with hold := { s.hold with writeback := mset false s.hold.writeback e.1 false,
                                     ecc := mset .poison s.hold.ecc e.1 (if c = .single then .clean else c) } }
    | none => s

/-- A refresh of DRAM bank `d` has been postponed to its limit (R151). -/
def refreshForced (s : State) (d : Nat) : Bool :=
  decide (Config.refreshLimit ≤ mget 0 s.hold.refDue d) && mget 0 s.hold.refDue d ≠ 0

/-- One refresh of DRAM bank `d` is issued. -/
def refreshOne (d : Nat) (s : State) : State := { s with hold := { s.hold with refDue := mmod 0 s.hold.refDue d (· - 1) } }

/-- One word's part of a write of hold bytes: whole, or a read-modify-write (R153); whether it was performed. -/
def holdWordWrite (n : Nat) (bs : List (Nat × Byte)) (x : State × List Report × Bool) : State × List Report × Bool :=
  let mine := bs.filter fun e => e.1 / 8 = n
  let v := BitVec.ofNat 64 (leNat ((List.range 8).map fun i => mget (mget 0#8 x.1.hold.cells (8 * n + i)) mine (8 * n + i)))
  if mine.length = 8 then (hdWrite n v false x.1, x.2)
  else
    let (s1, rs) := hdCheck 2 n x.1
    match hdEcc x.1 n with
    | .clean | .single => (hdWrite n v false s1, x.2.1 ++ rs, x.2.2)
    | .poison | .double => (s1, x.2.1 ++ rs, false)

/-- The access `j` becomes `j'`. -/
def putJob (j j' : HoldJob) (s : State) : State :=
  { s with hold := { s.hold with jobs := s.hold.jobs.map fun x => if x = j then j' else x } }

/-- Line `n` of the access `j` is performed (R150, R153, R154). -/
def jobLine (j : HoldJob) (n : Nat) (s : State) : State × List Report :=
  let mine := j.cells.filter fun e => e.1 / 64 = n
  let words := (mine.map fun e => e.1 / 8).eraseDups
  let left := j.lines.erase n
  if j.b.op = 0 then
    let (s1, rs) := words.foldl (fun x w => andThen (hdCheck 2 w) x) (s, [])
    let byte (a : Nat) : Byte := if hdEcc s (a / 8) = .poison then 0#8 else mget 0#8 s.hold.cells a
    (putJob j { j with lines := left, cells := j.cells.map (fun e => if e.1 / 64 = n then (e.1, byte e.1) else e),
                       poison := j.poison || words.any fun w => hdEcc s w = .poison,
                       ue := j.ue || words.any fun w => hdEcc s w = .double } s1, rs)
  else
    let (s1, rs, ok) := words.foldl (fun x w => holdWordWrite w mine x) (s, [], true)
    (putJob j { j with lines := left, refused := j.refused || !ok } s1, rs)

/-- What a scrub read of line `n` at DRAM bank `d` waits for: a forced refresh, a sluice request, an older access to its line
(R155). -/
def bankFirst (d n : Nat) (s : State) : Option (State × List Report) :=
  if refreshForced s d then some (refreshOne d s, [])
  else match nextSlu (reachAll d s) d with
    | some r => some (sluAccess r (reachAll d s))
    | none => ((jobsAt s d).find? fun x => x.2 = n).map fun x => jobLine x.1 n s

/-- All of it, one access after the other; a refresh still at its limit goes before each (R151). -/
def bankAhead (d n : Nat) : Nat → State × List Report → State × List Report
  | 0, x => x
  | k + 1, x =>
    match bankFirst d n x.1 with
    | some y => bankAhead d n k (y.1, x.2 ++ y.2)
    | none => x

/-- How many accesses can stand before that one at most. -/
def bankLoad (d : Nat) (s : State) : Nat := mget 0 s.hold.refDue d + (bankQueue s d).length + s.hold.jobs.length

/-- HOLD_ACCESS_COMPLETE (R155): DRAM bank `d` completes the access its order chooses. -/
def holdAccess (d : Nat) (s : State) : State × List Report :=
  if !stackOn s (d % nStacks s) then (s, [])
  else if refreshForced s d then (refreshOne d s, [])
  else
    let s1 := reachAll d s
    match nextSlu s1 d with
    | some r => sluAccess r s1
    | none =>
      if bankDue s1 d then (bankIdle d s1, [])
      else match nextJob s1 d with
        | some (j, n) =>
          jobLine j n { s1 with hold := { s1.hold with turn := mset 0 s1.hold.turn d ((jobParty j + 1) % 3) } }
        | none => (s1, [])

/-- Line `n` of the access `j` that arrives now is performed at once where nothing waits at its DRAM bank; a turn is taken only by an
access that waited (DESIGN CHOICE, log entry 57). -/
def jobAtOnce (n : Nat) (s : State) : State × List Report :=
  let d := lineBank s n
  match s.hold.jobs.getLast? with
  | some j =>
    if bankQueue s d = [] && !bankDue s d && (jobsAt s d).all (fun x => x.1 = j) && jobNext s j n then jobLine j n s else (s, [])
  | none => (s, [])

/-- The access of barge `b` to the bytes `cells`, as it arrives (R155). -/
def jobNew (b : Barge) (why : HoldFor) (cells : List (Nat × Byte)) (s : State) : HoldJob :=
  let ls := (cells.map fun e => e.1 / 64).eraseDups
  { id := (s.hold.jobs.map (·.id)).foldl max 0 + 1, b := b, why := why, lines := ls,
    ahead := (s.req.filter fun r => !r.served && ls.contains (r.addr / 64)).map fun r => (r.gsc, r.q),
    cells := cells, poison := false, ue := false, refused := false }

/-- An access of the last class arrives at the line-order point (R155). -/
def jobArrives (b : Barge) (why : HoldFor) (cells : List (Nat × Byte)) (s : State) : State × List Report :=
  let j := jobNew b why cells s
  j.lines.foldl (fun x n => andThen (jobAtOnce n) x) ({ s with hold := { s.hold with jobs := s.hold.jobs ++ [j] } }, [])

/-- The accesses that are over leave. -/
def jobsDone (s : State) : List HoldJob := s.hold.jobs.filter (·.lines = [])
def jobsLeave (s : State) : State := { s with hold := { s.hold with jobs := s.hold.jobs.filter (·.lines ≠ []) } }

/-- The host's accesses under way, as barges. -/
def jobSent (s : State) : List Barge := (s.hold.jobs.filter (·.why = .host)).map (·.b)

/-- HOLD_REFRESH_DUE (R151): a refresh of DRAM bank `d` waits behind sluice requests, or is issued at once. -/
def refreshDue (d : Nat) (s : State) : State :=
  if !stackOn s (d % nStacks s) || bankQueue s d = [] then s
  else { s with hold := { s.hold with refDue := mmod 0 s.hold.refDue d (· + 1) } }

/-- Words of one stack: the scrub's round (R152), and its `p`-th word. -/
def stackWords : Nat := 0xC0000000
def stackWord (s : State) (i p : Nat) : Nat := ((p / 8) * nStacks s + i) * 8 + p % 8

/-- HOLD_SCRUB_READ (R150, R152), behind what its bank does first (R155). -/
def scrubRead (i : Nat) (s : State) : State × List Report :=
  if nStacks s ≤ i || !stackOn s i then (s, [])
  else
    let p := mget 0 s.hold.scrubPtr i
    let n := stackWord s i p
    let d := lineBank s (n / 8)
    let (s0, rs0) := bankAhead d (n / 8) (bankLoad d s) (s, [])
    let (s1, rs1) := hdCheck 1 n s0
    let rs := rs0 ++ rs1
    let fixed := if hdEcc s0 n = .single then mset .poison s1.hold.ecc n .clean else s1.hold.ecc
    ({ s1 with hold := { s1.hold with scrubPtr := mset 0 s1.hold.scrubPtr i ((p + 1) % stackWords), ecc := fixed,
                                      writeback := mset false s1.hold.writeback n false } }, rs)

/-- HOLD_SCRUB_LATE (R152); a gated HLD unit raises no fault (R314). -/
def scrubLate (s : State) : State := if unitOn s 13 then raise 0x4006 0 0 (rflag oHldSts 2 s) else s

/-- Every word of stack `i` poisoned (R149). -/
def stackPoison (i : Nat) (s : State) : State :=
  let other (n : Nat) : Bool := (n / 8) % nStacks s ≠ i
  { s with hold := { s.hold with cells := mkeep (fun a => other (a / 8)) s.hold.cells, ecc := mkeep other s.hold.ecc,
                                 writeback := mkeep other s.hold.writeback } }

/-- HOLD_STACK_READY (R149): the initialization that runs at stack `i` ends. -/
def stackReady (i : Nat) (s : State) : State :=
  if nStacks s ≤ i || !rbit s (oHldStackSts i) 1 then s
  else rmod (oHldStackSts i) (fun w => setBit (clrBit w 1) 0) (stackPoison i s)

/-- HOLD_REFRESH_DOUBLING (R151): stack `i`'s temperature is `temp` °C, above 85 °C or not. -/
def refreshDoubling (i temp : Nat) (s : State) : State :=
  if nStacks s ≤ i then s
  else rmod (oHldStackSts i) (fun w => putBit (setFld w 15 8 (min temp 255)) 2 (decide (85 < temp))) s

/-- The request whose reply comes to tag `t` of sluice `q`: the oldest that the controller has served. -/
def servedReq (s : State) (q t : Nat) : Option SluReq := s.req.find? fun r => r.q = q && r.tag = t && r.served

/-- SLUICE_REPLY_ARRIVAL (R54, R157, R159): the slot is free, and the tag takes the reply unless it was freed.  No reply arrives
while the stack is in self-refresh (R309). -/
def replyArrival (q t : Nat) (s : State) : State :=
  match (servedReq s q t).filter fun r => !rbit s (oHldStackSts (lineStack s (r.addr / 64))) 3 with
  | none => s
  | some r =>
    let s1 := { s with req := s.req.erase r }
    let ns := min (s.tim.mono - r.ns) 0xFFFF
    let s2 := if rfld s1 oHldMaxlat 15 0 < ns then rput oHldMaxlat 15 0 ns s1 else s1
    if r.live && getTag s2 q t = .waiting then setTag q t r.reply s2 else s2

/-- The region of base and size in units of 4 KiB overlaps the trace region while the trace unit is armed (R161). -/
def overlapsTrace (s : State) (base size : Nat) : Bool :=
  let b := rfld s oTrcBase 24 0
  let n := rfld s oTrcSize 23 0
  trcArmed s && decide (base < b + n) && decide (b < base + size) && size ≠ 0

/-- HLD_REGION_WRITE (R161): `size` names HLD_RGN_SIZE, else HLD_RGN_BASE. -/
def regionWrite (q r : Nat) (size : Bool) (v : Word) (s : State) : State :=
  let w := v &&& 0x1FFFFFF#32
  let base := if size then rfld s (oHldRgnBase q r) 24 0 else w.toNat
  let n := if size then w.toNat else rfld s (oHldRgnSize q r) 24 0
  let bad := !basinStill s (q / 4) || (n ≠ 0 && decide (holdBytes s < 4096 * (base + n))) || overlapsTrace s base n
  if nSluices s ≤ q || 16 ≤ r then s
  else if bad then rflag oHldSts 9 s
  else rset (if size then oHldRgnSize q r else oHldRgnBase q r) w s

/-- One case of HLD_HSTS; HLD_HADDR takes the line of the first (R154). -/
def hostHold (flag addr : Nat) (s : State) : State :=
  let s1 := if rget s oHldHsts = 0#32 then rset oHldHaddr (BitVec.ofNat 32 (2 ^ 31 + addr / 64)) s else s
  rflag oHldHsts flag s1

/-- The completion code of a read (R342). -/
def holdCode (j : HoldJob) : Nat := if j.ue then 4 else if j.poison then 3 else 0

/-- The bytes of a read from `a`, still to be filled; those of a write. -/
def readCells (a len : Nat) : List (Nat × Byte) := (List.range len).map fun i => (a + i, 0#8)
def writeCells (a : Nat) (data : List Byte) : List (Nat × Byte) := data.zipIdx.map fun x => (a + x.2, x.1)

/-- Of `len` bytes at `a`, those within populated hold memory (R153). -/
def holdInside (s : State) (a len : Nat) : Nat := min len (holdBytes s - a)

/-- The stacks an access of `len` bytes at `a` touches that are not available (R153). -/
def holdOffline (s : State) (a len : Nat) : Bool :=
  (List.range ((a + len - 1) / 64 + 1 - a / 64)).any fun i => !stackOn s (lineStack s (a / 64 + i))

/-- The hold unit is reached by the host: Run, outside Keep, clocked (R298, R314, R321). -/
def hostWindow (s : State) : Bool := rfld s oPwrSts 2 0 = 0 && !rbit s oCfgSts 4

end Sys2Proof.Machine
end

