-- ==== Sys2Proof/Machine/Rings.lean ====
section
/-!
DEFINITION. Rings in host memory: indices, fullness, phase, the record written and then the index advanced (R206, R211,
R228, R386), and the register writes that set a ring up.
-/
namespace Sys2Proof.Machine

/-- Host memory bytes written, or read. -/
def hostPut (a : Nat) (bs : List Byte) (s : State) : State :=
  let rec go (m : List (Nat × Byte)) (a : Nat) : List Byte → List (Nat × Byte)
    | [] => m
    | b :: t => go (mset 0#8 m a b) (a + 1) t
  { s with host := { s.host with mem := go s.host.mem a bs } }
def hostGet (s : State) (a n : Nat) : List Byte := (List.range n).map fun i => mget 0#8 s.host.mem (a + i)

/-- A ring's four registers: LO (base, EN, LOG2N), HI, producer index, consumer index. -/
structure RingRegs where
  lo : Nat
  hi : Nat
  pi : Nat
  ci : Nat

def ringEn (s : State) (r : RingRegs) : Bool := rbit s r.lo 8
def ringN (s : State) (r : RingRegs) : Nat := 2 ^ rfld s r.lo 4 0
def ringBase (s : State) (r : RingRegs) : Nat := (rget s r.hi).toNat * 2 ^ 32 + rfld s r.lo 31 12 * 2 ^ 12
/-- PI − CI modulo 2^32. -/
def ringUsed (s : State) (r : RingRegs) : Nat := (rget s r.pi - rget s r.ci).toNat
/-- The ring takes a record: enabled and not full (R206). -/
def ringRoom (s : State) (r : RingRegs) : Bool := ringEn s r && decide (ringUsed s r < ringN s r)
/-- PHASE of the record at the producer index (R206). -/
def ringPhase (s : State) (r : RingRegs) : Nat := 1 - (rget s r.pi).toNat / ringN s r % 2

/-- A record of `size` bytes written at the producer index, which then advances and signals its vector (R206). -/
def ringPush (r : RingRegs) (size vec : Nat) (bs : List Byte) (s : State) : State :=
  let a := ringBase s r + size * ((rget s r.pi).toNat % ringN s r)
  signal vec (rmod r.pi (· + 1) (hostPut a (bs.take size) s))

/-- A write of a LO register of a ring (R206): ignored where it changes ADDR_LO or LOG2N while EN is 1 or gives LOG2N outside
`lmin` to `lmax`; setting EN sets both indices to 0.  `none`: ignored. -/
def ringLoWrite (r : RingRegs) (lmin lmax : Nat) (v : Word) (s : State) : Option State :=
  let old := rget s r.lo
  let log := fld v 4 0
  let changes := fld v 31 12 ≠ fld old 31 12 || log ≠ fld old 4 0
  if (bit old 8 && changes) || log < lmin || lmax < log then none
  else
    let w := BitVec.ofNat 32 (fld v 31 12 * 2 ^ 12 + b2n (bit v 8) * 2 ^ 8 + log)
    let s1 := rset r.lo w s
    some (if bit v 8 && !bit old 8 then rset r.pi 0#32 (rset r.ci 0#32 s1) else s1)

/-- A write of a HI register: ignored while EN is 1. -/
def ringHiWrite (r : RingRegs) (v : Word) (s : State) : State := if ringEn s r then s else rset r.hi v s

/-- A write of the index the host owns: ignored where PI − CI would exceed the record count (R206, R211).  `none`: ignored. -/
def ringIdxWrite (r : RingRegs) (producer : Bool) (v : Word) (s : State) : Option State :=
  let used := if producer then (v - rget s r.ci).toNat else (rget s r.pi - v).toNat
  if used ≤ ringN s r then some (rset (if producer then r.pi else r.ci) v s) else none

end Sys2Proof.Machine
end

