-- ==== Sys2Proof/Machine/Gauge.lean ====
section
/-!
DEFINITION. The gauge unit: sampling and committing in the first tick step, driving, compare and release in the second, fail
and edge records, lane and pairing writes (R215-R234).
-/
namespace Sys2Proof.Machine

/-- What the outside does to lane `n`, and to high-Z-detect input `z`, at the sample point. -/
def pinAt (hs : List Happening) (n : Nat) : PinIn :=
  (hs.findSome? fun h => match h with
    | .lanePin k v => if k = n then some v else none
    | _ => none).getD .none
def zdAt (hs : List Happening) (z : Nat) : PinIn :=
  (hs.findSome? fun h => match h with
    | .zdPin k v => if k = z then some v else none
    | _ => none).getD .low

/-- The level at a pin (R220): none where it is undefined, because drivers fight, nothing holds the pin, or it changes inside the setup
and hold window (R418). -/
def pinLevel (out : PinOut) (inp : PinIn) (last : Option Bool) : Option Bool :=
  match out, inp with
  | .low, .none | .low, .low => some false
  | .high, .none | .high, .high => some true
  | .low, .high | .high, .low => none
  | _, .changing => none
  | .released, .low | .keeper, .low => some false
  | .released, .high | .keeper, .high => some true
  | .released, .none => none
  | .keeper, .none => last

/-- The level at which the outside has left lane `n` since the part last drove or sampled it (R220). -/
def leftAt (hs : List Happening) (n : Nat) : Option Bool :=
  hs.findSome? fun h => match h with
    | .laneLeft k v => if k = n then some v else none
    | _ => none

/-- The pin in the first tick step, where the lane's mode takes it (R217): an IN lane is released, and a lane that leaves OFF still
holds its park state until its drive. -/
def tickPin (s0 : State) (n : Nat) : PinOut :=
  if laneMode s0 n = 2 then .released else if (getLane s0 n).off then lanePin s0 n else (getLane s0 n).pin

/-- The sample of a high-Z-detect input (R222, R418): a level nobody drives, or that changes inside the window, is a free value. -/
def zdSample (p : PinIn) (s : State) : Bool × State :=
  match p with
  | .high => (true, s)
  | .low => (false, s)
  | .none | .changing => takeFreeBit s

/-- One lane in the first tick step: the frame's staging is committed, the mode takes the pin, the lane is sampled (R58,
R217, R220).  An undefined level is a free value. -/
def laneFirstTick (hs : List Happening) (s0 : State) (n : Nat) (s : State) : State :=
  let l := getLane s n
  let mode := laneMode s0 n
  let last := match leftAt hs n with | some b => some b | none => l.level
  let l1 : Lane := { l with drv := l.sdrv.getD l.drv, exp := l.sexp.getD l.exp, sdrv := none, sexp := none, off := mode = 0,
                            pin := tickPin s0 n }
  let s1 := setLane n l1 s
  let level := pinLevel (lanePin s1 n) (pinAt hs n) last
  if mode = 0 then setLane n { l1 with level := level } s
  else
    let (z, s2) := match laneZd s0 n with | some z => zdSample (zdAt hs z) s | none => (false, s)
    match level with
    | some b => setLane n { l1 with smp := if z then .z else v4bool b, level := some b } s2
    | none =>
      let (b, s3) := takeFreeBit s2
      setLane n { l1 with smp := if z then .z else v4bool b, level := none } s3

/-- The lanes of a first tick step: those a frame can change, and those at which the outside acts. -/
def tickLanes (hs : List Happening) (s : State) : List Nat :=
  (List.range (nLanes s)).filter fun n => (gauLanes s).contains n || pinAt hs n ≠ .none || (leftAt hs n).isSome

/-- The gauge unit in the first tick step (R72, R220). -/
def gaugeFirstTick (hs : List Happening) (s0 : State) (s : State) : State :=
  if !gauOn s0 then s
  else
    let s1 := (tickLanes hs s0).foldl (fun s n => laneFirstTick hs s0 n s) s
    { s1 with gau := { s1.gau with tickTsn := tsnOf s0 } }

/-- The compare of one lane (R223): the fail kind, if it fails. -/
def laneCompare (exp smp : V4) (paired : Bool) : Option Nat :=
  match exp, smp with
  | .x, _ => none
  | .zero, .one | .one, .zero => some 0
  | .zero, .z | .one, .z => if paired then some 2 else none
  | .z, .zero | .z, .one => if paired then some 1 else none
  | _, _ => none

/-- The pin a committed drive value gives (R218). -/
def drivePin (drv : V4) (xpol : Nat) (prev : PinOut) : PinOut :=
  match drv with
  | .zero => .low
  | .one => .high
  | .z => .released
  | .x => match xpol with
    | 0 => prev
    | 1 => .low
    | 2 => .high
    | _ => .released

/-- The level a pin is left at, for the keeper; a released pin has none of its own (R218). -/
def pinKeeps (p : PinOut) (last : Option Bool) : Option Bool :=
  match p with | .low => some false | .high => some true | .released => none | .keeper => last

/-- One lane in the second tick step: its pin (R218). -/
def laneDrive (s0 : State) (n : Nat) (s : State) : State :=
  let l := getLane s n
  let drive (p : PinOut) : State := setLane n { l with pin := p, level := pinKeeps p l.level } s
  match laneMode s0 n with
  | 1 | 3 => drive (drivePin l.drv (laneXpol s0 n) (lanePin s0 n))
  | 2 => drive .released
  | _ => s

/-- The lanes that fail in this frame's compare, with their fail kinds (R223). -/
def laneFails (s : State) : List (Nat × Nat) :=
  (gauLanes s).filterMap fun n =>
    if laneMode s n = 2 || laneMode s n = 3 then
      (laneCompare (getLane s n).exp (getLane s n).smp (laneZd s n).isSome).map (n, ·)
    else none

/-- The compare of frame `f` (R223, R227): its verdict is held, its fail records enter the FIFO. -/
def gaugeCompare (s0 : State) (f : Nat) (s : State) : State :=
  let fails := laneFails s0
  let s1 := { s with gau := { s.gau with held := s.gau.held ++ [⟨f, false, fails.map (·.1), s0.gau.tickTsn⟩] } }
  fails.foldl (fun s nk =>
    if laneRec s0 nk.1 then
      let l := getLane s0 nk.1
      pushFail { loss := false, frame := f, lane := nk.1, exp := l.exp, smp := l.smp, drv := l.drv, kind := nk.2,
                 tsn := s0.gau.tickTsn, count := 0, code := none } (storeLoss s)
    else s) s1

/-- The verdicts whose hold-back ends in the second tick step of frame `f` (R224). -/
def releaseDue (f : Nat) (s : State) : State :=
  let due := s.gau.held.filter fun v => decide (64 ≤ frDist v.frame f)
  due.foldl (fun s v => releaseVerdict v s)
    { s with gau := { s.gau with held := s.gau.held.filter fun v => decide (frDist v.frame f < 64) } }

/-- The gauge unit in the second tick step of frame `f` (R73, R218, R223, R224). -/
def gaugeSecondTick (s0 : State) (f : Nat) (s : State) : State :=
  if !gauOn s0 then s
  else
    let s1 := (gauLanes s0).foldl (fun s n => laneDrive s0 n s) s
    releaseDue f (gaugeCompare s0 f { s1 with gau := { s1.gau with live := true } })

/-- Registers of the fail ring (0) and the edge ring (1). -/
def gauRing (r : Nat) : RingRegs := ⟨oGauRingLo r, oGauRingHi r, oGauRingPi r, oGauRingCi r⟩

/-- A fail or loss record's 32 bytes (R229). -/
def failBytes (phase : Nat) (r : FailRec) : List Byte :=
  let w0 := phase * 2 ^ 31 + b2n r.loss * 2 ^ 28 + (r.code.getD 0) * 2 ^ 26 + v4code r.exp * 2 ^ 24 + v4code r.smp * 2 ^ 22
    + v4code r.drv * 2 ^ 20 + r.kind * 2 ^ 18 + r.lane
  leBytes 4 w0 ++ leBytes 4 r.tsn ++ leBytes 8 (r.frame % 2 ^ 48) ++ leBytes 4 r.count ++ leBytes 12 0

/-- GAU_FAIL_RECORD_WRITE (R227, R228): the FIFO's oldest record, once released and while the ring has room. -/
def failRecordWrite (s : State) : State :=
  match s.gau.fifo with
  | r :: t =>
    if r.code.isSome && gauOn s && ringRoom s (gauRing 0) then
      let s1 := ringPush (gauRing 0) 32 20 (failBytes (ringPhase s (gauRing 0)) r) s
      storeLoss { s1 with gau := { s1.gau with fifo := t } }
    else s
  | [] => s

/-- F_LO of an edge record (R233): the frame in progress, which a void ends, else the last frame run; 0 where none has run (log
entry 33). -/
def edgeFrame (s : State) : Nat :=
  if s.seq.voided || !(inFrame s || decide (0 < s.seq.pos)) then (lastFrame s).getD 0 else s.seq.F.toNat

/-- EDGE_CAPTURE (R231, R232, R347): an edge on EDGE_IN[i], rising or falling, `sub` ns after the last crystal cycle.  Its time is
interpolated; the limits are measured on the device's own time, which no step of network time moves.  Edges come in their order. -/
def edgeCapture (i : Nat) (rising : Bool) (sub : Nat) (s : State) : State :=
  let e := mget EdgeIn.fresh s.gau.edges i
  let t := s.tim.mono + sub
  if !gauOn s || !clockRuns s || 16 ≤ i || !rbit s oGauEdgeCtl (2 * i + b2n (!rising)) || e.last.any (decide <| t < ·) then s
  else
    let put (e : EdgeIn) (s : State) : State :=
      { s with gau := { s.gau with edges := mset EdgeIn.fresh s.gau.edges i e } }
    let close := match e.last with | some l => decide (t < l + 2) | none => false
    if close then put { e with mrg := true } (rcount (oGauEdgeMerged i) 31 0 1 s)
    else
      let n := (t - e.refill) / 20
      let e1 := { e with budget := min 64 (e.budget + n), refill := e.refill + 20 * n }
      if e1.budget = 0 || 4096 ≤ s.gau.edgeBuf.length then
        gauInt 2 (rflag oGauSts 4 (put { e1 with ovf := true } (rcount (oGauEdgeOvf i) 31 0 1 s)))
      else
        let at_ := clockAt s (1000 * sub) / 2 ^ 32
        let r : EdgeRec := { input := i, pol := rising, ovf := e1.ovf, mrg := e1.mrg, tsn := at_ % 2 ^ 32, sec := at_ / 1000000000,
                             flo := edgeFrame s }
        let s1 := put { e1 with last := some t, budget := e1.budget - 1, ovf := false, mrg := false } s
        { s1 with gau := { s1.gau with edgeBuf := s1.gau.edgeBuf ++ [r] } }

/-- GAU_EDGE_RECORD_WRITE (R228, R233): the oldest staged edge record, while the ring has room. -/
def edgeRecordWrite (s : State) : State :=
  match s.gau.edgeBuf with
  | r :: t =>
    if gauOn s && ringRoom s (gauRing 1) then
      let w0 := ringPhase s (gauRing 1) * 2 ^ 31 + b2n r.ovf * 2 ^ 30 + b2n r.mrg * 2 ^ 29 + b2n r.pol * 2 ^ 28 + r.input
      let s1 := ringPush (gauRing 1) 16 21 (leBytes 4 w0 ++ leBytes 4 r.tsn ++ leBytes 4 r.sec ++ leBytes 4 r.flo) s
      { s1 with gau := { s1.gau with edgeBuf := t } }
    else s
  | [] => s

/-- A write of GAU_LANE[n] (R217): REC always; MODE and XPOL only in IDLE, READY and PAUSED. -/
def wGauLane (n : Nat) (v : Word) (s : State) : State :=
  let old := rget s (oGauLane n)
  if seqRests s then rset (oGauLane n) (v &&& 0x1F#32) s
  else
    let s1 := rset (oGauLane n) (putBit old 4 (bit v 4)) s
    if fld v 3 0 ≠ fld old 3 0 then rflag oGauSts 5 s1 else s1

/-- A write of GAU_ZDMAP[z] (R222). -/
def wGauZdmap (z : Nat) (v : Word) (s : State) : State :=
  let lane := fld v 8 0
  let served := (List.range 64).any fun y =>
    y ≠ z && rbit s (oGauZdmap y) 9 && rfld s (oGauZdmap y) 8 0 = lane
  if !seqRests s || lane / 32 ≠ z / 4 || served then rflag oGauSts 5 s
  else rset (oGauZdmap z) (v &&& 0x3FF#32) s

/-- Writes of the gauge rings' registers (R228): an ignored LO or CI write sets GAU_STS.CFG_ERR. -/
def wGauRingLo (r : Nat) (v : Word) (s : State) : State :=
  (ringLoWrite (gauRing r) 6 20 v s).getD (rflag oGauSts 5 s)
def wGauRingCi (r : Nat) (v : Word) (s : State) : State :=
  (ringIdxWrite (gauRing r) false v s).getD (rflag oGauSts 5 s)

end Sys2Proof.Machine
end

