-- ==== Sys2Proof/Machine/Trace.lean ====
section
/-!
DEFINITION. The trace unit: capture, start and stop conditions, records, the drain into hold memory, arming and seals
(R364-R380).
-/
namespace Sys2Proof.Machine

/-- TRC_STS.STATE: 0 DISARMED, 1 ARMED, 2 ON, 3 POST, 4 DONE. -/
def trcSt (s : State) : Nat := rfld s oTrcSts 18 16
def setTrcSt (n : Nat) : State → State := rput oTrcSts 18 16 n

/-- The next frame to run: the one after the frame in progress, a stalled or stopped one too, else F; before a new run 0 (R81, R366;
DEDUCED, log entry 22).  A voided frame is run again. -/
def nextFrame (s : State) : Nat :=
  if s.seq.st = .idle || s.seq.st = .ready then 0
  else if decide (0 < s.seq.pos) && !s.seq.voided then (s.seq.F + 1).toNat else s.seq.F.toNat

/-- The enabled probe groups, ascending, their number, and S of R370. -/
def trcGroups (s : State) : List Nat :=
  (List.range 64).filter fun j => if j < 32 then rbit s oTrcGrpLo j else rbit s oTrcGrpHi (j - 32)
def trcSize (s : State) : Nat := 32 + 256 * (trcGroups s).length
/-- The stall reserve K·S (R370). -/
def trcReserve (s : State) : Nat := ((511 + frameL s + 1) / (frameL s + 2) + 1) * trcSize s

/-- What a probe records (R364, R377). -/
def probeVal (s : State) (id : Nat) : V4 :=
  match mget none s.trc.probe id with
  | some v => if sealed s (mget 0 s.trc.probeBy id / 64) then .x else v
  | none => .x

/-- The 256 bytes of probe group `j` (R366). -/
def groupBytes (s : State) (j : Nat) : List Byte :=
  (List.range 256).map fun m =>
    BitVec.ofNat 8 (((List.range 4).map fun i => v4code (probeVal s (1024 * j + 4 * m + i)) * 4 ^ i).sum)

/-- Some value of an enabled group was replaced because its cluster is sealed. -/
def capSealed (s : State) : Bool :=
  s.trc.probe.any fun e => e.2.isSome && (trcGroups s).contains (e.1 / 1024) && sealed s (mget 0 s.trc.probeBy e.1 / 64)

/-- The sources of a set (TRC_START or TRC_STOP at `off`) that fired in this frame (R374-R376). -/
def trcFires (s : State) (off : Nat) : Bool :=
  let set := (rget s off).toNat
  let f := s.seq.F.toNat
  let frc (i : Nat) : Bool :=
    let lo := (rget s (oTrcFrcLo i)).toNat + rfld s (oTrcFrcX i) 15 0 * 2 ^ 32
    let hi := (rget s (oTrcFrcHi i)).toNat + rfld s (oTrcFrcX i) 31 16 * 2 ^ 32
    decide ((f + 2 ^ 48 - lo) % 2 ^ 48 ≤ (hi + 2 ^ 48 - lo) % 2 ^ 48)
  (List.range 8).any (fun i => nbit set i && frc i) || (List.range 8).any (fun i => nbit set (8 + i) && nbit s.trc.dac i)
    || (List.range 4).any (fun n => nbit set (16 + n) && mget .zero s.trc.trig n = .one)

/-- The frame is recorded: its capture is closed (R364, R373). -/
def capture (s : State) : State :=
  let trig := ((List.range 4).map fun n => if mget .zero s.trc.trig n = .one then 2 ^ n else 0).sum
  { s with trc := { s.trc with cap := some ⟨tsnOf s, (trcGroups s).flatMap (groupBytes s), capSealed s, trig⟩ } }

/-- POST of R373 at a first tick step. -/
def postStep (s : State) : State :=
  if s.trc.post = 0 then
    let s1 := setTrcSt 4 (stageMarker 6 (nextFrame s) 0 0 s)
    { s1 with trc := { s1.trc with flushed := true } }
  else capture { s with trc := { s.trc with post := s.trc.post - 1 } }

/-- ON of R373 at a first tick step: TRC_STOP may fire in the frame that started the trace. -/
def onStep (s : State) : State :=
  let s1 := setTrcSt 2 s
  if trcFires s oTrcStop then
    let s2 := setTrcSt 3 s1
    capture { s2 with trc := { s2.trc with post := (rget s oTrcPost).toNat } }
  else capture s1

/-- The seal groups whose UNSEAL has matched lose their seal (R378). -/
def applyUnseal (s : State) : State :=
  let s1 := s.trc.opens.foldl (fun s k =>
    match s.trc.seals.find? (·.1 = k) with
    | some (_, g) => g.clusters.foldl (fun s cl => rmod (oTrcSeal (cl / 64) (cl % 64 / 32)) (clrBit · (cl % 32)) s) s
    | none => s) s
  { s1 with trc := { s1.trc with opens := [] } }

/-- Trace in the first tick step (R72, R364, R373, R376). -/
def traceFirstTick (s : State) : State :=
  if !unitOn s 7 then s
  else
    let s1 := applyUnseal s
    let s2 := if (List.range 4).any fun n => mget .zero s1.trc.trig n = .x then rflag oTrcSts 5 s1 else s1
    match trcSt s2 with
    | 1 => if rget s2 oTrcStart = 0#32 || trcFires s2 oTrcStart then onStep s2 else s2
    | 2 => onStep s2
    | 3 => postStep s2
    | _ => s2

/-- Free space has fallen to the reserve in a unit that stalls for it (R371), and no stall timeout has resolved that. -/
def trcHolds (s : State) : Bool :=
  unitOn s 7 && trcArmed s && rbit s oTrcCtl 5 && decide (stageFree s ≤ trcReserve s) && !s.trc.waived

/-- The unit votes a trace stall where none is voted or stands (R371); a reserve that a stall timeout has resolved votes again once it
has been free. -/
def traceVote (s : State) : State :=
  if trcReserve s < stageFree s then { s with trc := { s.trc with waived := false } }
  else if trcHolds s && seqRuns s && !stallVoted s 4 then trcInt 2 (rflag oTrcSts 3 (horizonStall 4 s)) else s

/-- One frame record staged, or dropped and counted (R365, R366, R371). -/
def stageFrame (f : Nat) (c : TrcCap) (s : State) : State :=
  if rbit s oTrcCtl 7 && s.trc.last = some c.blocks then s
  else if stageFree s < 32 + c.blocks.length + (if s.trc.lost.isSome then 32 else 0) then
    let s1 := trcInt 1 (rflag oTrcSts 2 (rcount oTrcLost 31 0 1 s))
    { s1 with trc := { s1.trc with lost := match s1.trc.lost with
        | some (n, g) => some (n + 1, g)
        | none => some (1, f) } }
  else
    let s1 := stageLoss s
    let taint := isTainted s f
    let w0 := b2n taint * 2 ^ 27 + b2n c.sealed_ * 2 ^ 26 + c.trig * 2 ^ 22 + c.blocks.length / 256
    let s2 := stagePut (trcHeader w0 (trcDelta s1 f) f c.tsn 0 0 ++ c.blocks) f s1
    { s2 with trc := { s2.trc with last := some c.blocks, given := if taint then s2.trc.given else f :: s2.trc.given } }

/-- Trace in the second tick step of frame `f` (R73, R364, R371). -/
def traceSecondTick (f : Nat) (s : State) : State :=
  let s1 := match s.trc.cap with
    | some c => if unitOn s 7 && trcArmed s then traceVote (stageFrame f c s) else s
    | none => s
  { s1 with trc := { s1.trc with cap := none, probe := [], probeBy := [], trig := [], dac := 0, dacRet := 0,
                                 given := s1.trc.given.filter fun g => decide (frDist g f < 64) } }

/-- The processor comparator `i` names, as cluster and logical processor (R375). -/
def dacProc (s : State) (i : Nat) : Nat × Nat := (rfld s (oTrcDacP i) 16 0 / 64, rfld s (oTrcDacP i) 16 0 % 64)

/-- Entry `e` of the processor was written with value `v`: comparator `i` fires (R375, R377). -/
def dacMatch (s : State) (i e : Nat) (v : V4) : Bool :=
  let m := rfld s (oTrcDacP i) 22 20
  !sealed s (dacProc s i).1 && decide (rfld s (oTrcDacR i) 10 0 ≤ e) && decide (e ≤ rfld s (oTrcDacR i) 26 16)
    && (m = 4 || m = v4code v)

/-- The entries of a processor that this position wrote: the step result, the landings, the commits (R106, R375). -/
def dacEntries (s0 : State) (cl p : Nat) : List Nat :=
  let c0 := getCl s0 cl
  let pos := s0.seq.pos
  let bad := routeBad c0 (routeWordNo s0)
  let w := mget 0#256 c0.rw (routeWordNo s0)
  let land (port : Nat) : List Nat := [1024 + 384 * port + pos % 384]
  (if pos < frameL s0 then [pos] else [])
    ++ (if bad || rLocen w p then land 0 else [])
    ++ (if bad || landSlots w p ≠ [] then land 1 else [])
    ++ (if pos = frameL s0 then
          (c0.staged.filter fun e => e.1 / 2048 = p && e.2.isSome).map (·.1 % 2048) else [])

/-- The data-store comparators over the writes of a step: `s0` before it, `s` after it (R375). -/
def dacScan (s0 s : State) : State :=
  let hit (i : Nat) : Bool :=
    let (cl, p) := dacProc s0 i
    basinRuns s0 (cl / 64) && (dacEntries s0 cl p).any fun e =>
      dacMatch s0 i e (dsGet (getCl s cl) (physOf s0 cl p) e)
  let fired := ((List.range 8).map fun i => if nbit s.trc.dac i || hit i then 2 ^ i else 0).sum
  { s with trc := { s.trc with dac := fired } }

/-- A return write of entry `e` of processor `g` in the return window counts toward the next frame (R375), also where that frame is
voided and run again. -/
def dacReturn (g e : Nat) (v : V4) (s : State) : State :=
  let hit (i : Nat) : Bool := rfld s (oTrcDacP i) 16 0 = g && dacMatch s i e v
  let fired := ((List.range 8).map fun i => if nbit s.trc.dac i || hit i then 2 ^ i else 0).sum
  { s with trc := { s.trc with dac := fired, dacRet := fired } }

/-- The trace region: first hold byte, size in 32-byte units. -/
def regionBase (s : State) : Nat := 4096 * rfld s oTrcBase 24 0
def regionUnits (s : State) : Nat := 128 * rfld s oTrcSize 23 0

/-- Units from TRC_RP up to TRC_WP (R368); none where RP lies beyond WP. -/
def regionDist (s : State) : Option Nat :=
  let wp := rget s oTrcWp
  let rp := rget s oTrcRp
  let ahead := if bit wp 31 = bit rp 31 then fld wp 29 0 else regionUnits s + fld wp 29 0
  if fld rp 29 0 ≤ ahead && decide (ahead - fld rp 29 0 ≤ regionUnits s) then some (ahead - fld rp 29 0) else none
def regionUsed (s : State) : Nat := (regionDist s).getD 0

/-- An offset with its LAP bit moved on by `n` units (R368). -/
def regionMove (size n : Nat) (w : Word) : Word :=
  let o := fld w 29 0 + n
  let lap := if size ≤ o then !bit w 31 else bit w 31
  BitVec.ofNat 32 (b2n lap * 2 ^ 31 + (if size ≤ o then o - size else o) % 2 ^ 30)

/-- In wrap mode the oldest whole records give way to `n` more units (R368). -/
def overwrite (n : Nat) : Nat → State → State
  | 0, s => s
  | k + 1, s =>
    match s.trc.region with
    | r :: t =>
      if (s.trc.region.sum + s.trc.sent / 32 + n) ≤ regionUnits s then s
      else overwrite n k (rmod oTrcRp (regionMove (regionUnits s) r)
             (rflag oTrcSts 4 { s with trc := { s.trc with region := t } }))
    | [] => s

/-- One write barge into the region (R368, R369): up to 256 bytes of the staged stream; nothing where the region is full or
a stack it meets is offline. -/
def drainBytes (s : State) : List Byte :=
  let stream := ((s.trc.staging.flatMap (·.bytes)).drop s.trc.sent).take 256
  if rbit s oTrcCtl 6 then stream
  else stream.take (32 * (regionUnits s - regionUsed s - s.trc.sent / 32))

/-- Whole records at the head of staging are in the region: WP passes them (R368). -/
def drainDone : Nat → State → State
  | 0, s => s
  | k + 1, s =>
    match s.trc.staging with
    | r :: t =>
      if s.trc.sent < r.bytes.length then s
      else
        let n := r.bytes.length / 32
        let half := regionUsed s
        let s1 := rmod oTrcWp (regionMove (regionUnits s) n)
          { s with trc := { s.trc with staging := t, sent := s.trc.sent - r.bytes.length, region := s.trc.region ++ [n] } }
        let s2 := if !rbit s oTrcCtl 6 && decide (half ≤ regionUnits s / 2) && decide (regionUnits s / 2 < half + n)
          then trcInt 3 s1 else s1
        drainDone k s2
    | [] => s

/-- Staging is empty after DONE: the flush is complete (R373). -/
def flushDone (s : State) : State :=
  if s.trc.flushed && s.trc.staging = [] then
    trcInt 0 (rflag oTrcSts 0 { s with trc := { s.trc with flushed := false } })
  else s

/-- A write of `n` bytes to the region is done (R368): WP passes the records it completes. -/
def drainWritten (n : Nat) (s : State) : State :=
  let s0 := if rbit s oTrcCtl 6 then overwrite (n / 32) s.trc.region.length s else s
  traceVote (flushDone (drainDone s0.trc.staging.length { s0 with trc := { s0.trc with sent := s0.trc.sent + n } }))

/-- The write barge of the drain (R338, R369). -/
def drainBarge (a : Nat) (bs : List Byte) : Barge :=
  { pri := 3, cls := 0, master := 3, dst := 45, src := 39, remote := false, dev := 0, tag := 0, op := 1, status := 0, code := 0,
    ndata := (bs.length + 31) / 32, len := bs.length, addr := a, data := bs }

/-- The accesses of the trace drain that are over have their effect, and leave. -/
def traceEnds (s : State) : State :=
  let past := (jobsDone s).filter (·.why = .trace)
  past.foldl (fun s j => drainWritten j.cells.length s)
    { s with hold := { s.hold with jobs := s.hold.jobs.filter fun j => !past.contains j } }

/-- TRC_DRAIN_WRITE (R368, R369, R371), and TRC_DRAIN_RETRY: the next write goes to its banks, and waits there in its class (R155);
one at a time. -/
def drainWrite (s : State) : State :=
  let bs := drainBytes s
  let n := bs.length
  let off := (fld (rget s oTrcWp) 29 0 * 32 + s.trc.sent) % (32 * regionUnits s)
  if n = 0 || !unitOn s 7 || regionUnits s = 0 || s.hold.jobs.any (·.why = .trace) then s
  else
    let addr (i : Nat) : Nat := regionBase s + (off + i) % (32 * regionUnits s)
    if (List.range (n / 8)).any fun i => !stackOn s (lineStack s (addr (8 * i) / 64)) then s
    else
      let (s1, rs) := jobArrives (drainBarge (addr 0) bs) .trace (bs.zipIdx.map fun x => (addr x.2, x.1)) s
      settle (traceEnds s1, rs)

/-- The trace region overlaps an enabled region of some sluice (R161, R372). -/
def regionClash (s : State) (base size : Nat) : Bool :=
  s.regs.any fun kv =>
    decide (0xE8000 ≤ kv.1) && decide (kv.1 < 0xEC000) && kv.1 % 8 = 4 && fld kv.2 24 0 ≠ 0 &&
      decide (rfld s (kv.1 - 4) 24 0 < base + size) && decide (base < rfld s (kv.1 - 4) 24 0 + fld kv.2 24 0)

/-- Why arming is refused (R372), as a command status of R390: 5 DENIED, 7 CAPACITY, 2 BAD_PARAM; 0 where it is not.  `ctl`:
the TRC_CTL value that would stand. -/
def armRefusal (ctl : Word) (s : State) : Nat :=
  let base := rfld s oTrcBase 24 0
  let size := rfld s oTrcSize 23 0
  let named := (rget s oTrcStart ||| rget s oTrcStop).toNat
  if !seqRests s || s.seq.st = .idle then 5
  else if size = 0 || decide (holdBytes s < 4096 * (base + size)) || regionClash s base size then 7
  else if bit ctl 5 && decide (512 * 1024 < trcReserve s) then 2
  else if (List.range 8).any fun i => nbit named (8 + i) && decide (4 < rfld s (oTrcDacP i) 22 20) then 2
  else 0

/-- Arming, once accepted (R372); a record of the time before that is still draining is written whole, from the region's new
start. -/
def arm (s : State) : State :=
  let s1 := setTrcSt 1 (rflag oTrcCtl 0 (rset oTrcWp 0#32 (rset oTrcRp 0#32 s)))
  stageMarker 5 (nextFrame s1) (rget s1 oTrcGrpLo).toNat 0
    { s1 with trc := { s1.trc with last := none, sent := 0, region := [], lost := none, given := [], flushed := false, waived := false },
              hold := { s1.hold with jobs := s1.hold.jobs.filter (·.why ≠ .trace) } }

/-- Disarming, through a stop record and a flush (R373); `why`: 1 disarmed, 2 IMG_LOAD. -/
def disarm (why : Nat) (s : State) : State :=
  if !trcArmed s then rput oTrcCtl 0 0 0 s
  else
    let s1 := setTrcSt 0 (rput oTrcCtl 0 0 0 s)
    { stageMarker 6 (nextFrame s) why 0 s1 with trc := { (stageMarker 6 (nextFrame s) why 0 s1).trc with cap := none } }

/-- A write of TRC_CTL with ARM at 1 (R372): TRC_ARM_WRITE.  While armed it is ignored. -/
def trcArmWrite (v : Word) (s : State) : State :=
  if !unitOn s 7 then s
  else if trcArmed s then rflag oTrcSts 1 s
  else
    let ctl := v &&& 0xE0#32
    let s1 := rset oTrcCtl ctl s
    if armRefusal ctl s1 = 0 then arm s1 else rflag oTrcSts 1 s1

/-- A write of TRC_CTL with ARM at 0 (R372, R373): TRC_DISARM_WRITE. -/
def trcDisarmWrite (v : Word) (s : State) : State :=
  if !unitOn s 7 then s
  else if trcArmed s then disarm 1 s
  else rset oTrcCtl (v &&& 0xE0#32) s

/-- TRC_RP_WRITE (R368): ignored in wrap mode and beyond WP. -/
def trcRpWrite (v : Word) (s : State) : State :=
  let s1 := rset oTrcRp (v &&& 0xBFFFFFFF#32) s
  let drop (dist : Nat) (l : List Nat) : List Nat :=
    (l.foldr (fun n (acc : List Nat × Nat) => if acc.2 < dist then (n :: acc.1, acc.2 + n) else acc) ([], 0)).1
  match regionDist s1 with
  | none => s
  | some dist =>
    if !unitOn s 7 || rbit s oTrcCtl 6 || decide (regionUsed s < dist) || decide (regionUnits s ≤ fld v 29 0) then s
    else { s1 with trc := { s1.trc with region := drop dist s1.trc.region } }

end Sys2Proof.Machine
end

