-- ==== Sys2Proof/Machine/Links.lean ====
section
/-!
DEFINITION. Fabric links, done-markers, the express channel, the ring ports and the lock group (R169-R192, R85-R91, R97).
-/
namespace Sys2Proof.Machine

/-- LNK_STS[n].STATE: 0 DOWN, 1 DETECT, 2 TRAIN, 3 ALIGN, 4 IDENT, 5 MEASURE, 6 UP. -/
def lnkSt (s : State) (n : Nat) : Nat := rfld s (oLnkSts n) 2 0
def setLnkSt (n st : Nat) : State → State := rput (oLnkSts n) 2 0 st
/-- The LNK unit is clocked and link `n` exists. -/
def lnkOn (s : State) (n : Nat) : Bool := unitOn s 9 && decide (n < 12)
/-- Link `n`'s PLL, one for four links, is judged stable: until then the link stays DOWN (R305, R317). -/
def lnkPll (s : State) (n : Nat) : Bool := pllSt s (n / 4 + 1) = 3

/-- The UP group links of this device. -/
def upLinks (s : State) : List Nat := (List.range 12).filter fun n => lnkUp s n && lnkGroup s n

/-- One link of the group seen from either end (R184): its hop takes its delay less 48 ns, an intermediate device 3 ns. -/
def linkEnds (e : GLink) : List (Nat × Nat × Nat) := [(e.a, e.b, e.ps - 48000), (e.b, e.a, e.ps - 48000)]

/-- The best path times from `src` after one more hop. -/
def relaxPaths (es : List GLink) (src : Nat) (d : List (Nat × Option Nat)) : List (Nat × Option Nat) :=
  (es.flatMap linkEnds).foldl (fun d h =>
    match mget none d h.1 with
    | none => d
    | some x =>
      let y := x + h.2.2 + (if h.1 = src then 0 else 3000)
      if (mget none d h.2.1).all (fun z => decide (y < z)) then mset none d h.2.1 (some y) else d) d

/-- The fastest paths from `src` over at most `n` hops. -/
def pathsFrom (es : List GLink) (src : Nat) : Nat → List (Nat × Option Nat)
  | 0 => [(src, some 0)]
  | n + 1 => relaxPaths es src (pathsFrom es src n)

/-- The largest of the fastest path times between two members (R184, steps 1 and 2). -/
def worstPath (ms : List Nat) (es : List GLink) : Nat :=
  ms.foldl (fun w a => (pathsFrom es a ms.length).foldl (fun w kv => max w (kv.2.getD 0)) w) 0

/-- Some UP group link ends at device `d`. -/
def hasLink (es : List GLink) (d : Nat) : Bool := es.any fun e => e.a = d || e.b = d

/-- The UP group links no longer connect every remaining member (R191): this device has none, or a member that has one is not
reached.  A member without any UP group link counts as lost: DESIGN CHOICE (log entry 34). -/
def cutOff (s : State) : Bool :=
  let ms := members s
  let seen := pathsFrom s.grp.topo s.dev.devid ms.length
  otherDevs s ≠ [] && (!hasLink s.grp.topo s.dev.devid ||
    ms.any fun d => hasLink s.grp.topo d && (mget none seen d).isNone)

/-- The group's links as they now stand: the worst path, and on the lead the event bound, computed again (R184). -/
def setTopo (es : List GLink) (s : State) : State :=
  setBound { s with grp := { s.grp with topo := es, pathPs := worstPath (members s) es } }

/-- A group link has reached UP in a formed group. -/
def linkAdded (e : GLink) (s : State) : State :=
  let same (x : GLink) : Bool := (x.a = e.a && x.la = e.la) || (x.b = e.a && x.lb = e.la)
  if s.grp.topo.any same then s else { s with grp := { s.grp with topo := s.grp.topo ++ [e] } }

/-- Link `n` of device `d` no longer belongs to the UP links of the formed group (R184, R191): the bound anew, a lost member, a
split. -/
def linkGone (d n : Nat) (s : State) : State × List Report :=
  let s1 := setTopo (s.grp.topo.filter fun e => !((e.a = d && e.la = n) || (e.b = d && e.lb = n))) s
  let split := cutOff s1 && !cutOff s
  let gone := (members s1).any fun m => !hasLink s1.grp.topo m
  let s2 := if split || gone then { s1 with grp := { s1.grp with lost := 1 } } else s1
  if split then (rflag oLkgSts 4 (lockRec 5 0 s2.seq.F.toNat s2), [{ code := 0x6006, frame := frameNow s2 }]) else (s2, [])

/-- The remote requests held at a link that leaves UP are answered FENCED, by the link node and not by a stub (R341, R346); the peer
answers those that came over the link, and their replies have no way back. -/
def heldFenced (n : Nat) (s : State) : State :=
  let mine := (s.bnw.held.filter (·.1 = n)).map (·.2)
  let rep (b : Barge) : Barge := { b with cls := 1, status := 1, dst := b.src, src := 41, data := [], ndata := 0 }
  { s with bnw := { s.bnw with held := s.bnw.held.filter (·.1 ≠ n), inbound := s.bnw.inbound.filter (·.1 ≠ n),
                               replies := mine.map rep ++ s.bnw.replies } }

/-- A link returns to DOWN from any state (R170); `fail` 0 keeps LNK_STS.FAIL.  The retry interval starts where the attempt
failed. -/
def lnkToDown (n fail : Nat) (s : State) : State :=
  let s1 := setLnkSt n 0 (rput (oLnkCtl n) 1 1 0 s)
  let s2 := if fail = 0 then s1 else rput (oLnkSts n) 23 20 fail s1
  setLnk n { Link.fresh with retry := false, ueTimes := [] } (heldFenced n s2)

/-- A link leaves UP (R170, R191); `report`: the link-down fault is due for a group link.  In a formed group the other members hear
of it over the ring (R185). -/
def lnkDrop (n fail : Nat) (report : Bool) (s : State) : State × List Report :=
  let grp := lnkGroup s n
  let s1 := lnkToDown n fail (if grp then rflag (oLnkSts n) 6 s else s)
  let down : List Report := if grp && report then [{ code := 0x6007, lk := 6, locv := n, frame := frameNow s }] else []
  if grp && grpFormed s then
    let x := linkGone s.dev.devid n (ringSendAll (.linkLost n) s1)
    (x.1, down ++ x.2)
  else (s1, down)

/-- The same, with its faults taken. -/
def lnkLeavesUp (n fail : Nat) (report : Bool) (s : State) : State :=
  let x := lnkDrop n fail report s
  settlePause (raiseAll x.2 x.1)

/-- LINK_DOWN (R170): an UP link lost for its peer, a lane, or its error rate. -/
def linkDown (n fail : Nat) (s : State) : State :=
  if lnkOn s n && lnkUp s n then lnkLeavesUp n fail true s else s

/-- The link tries: DOWN to DETECT (R170), once its PLL is stable (R317). -/
def lnkDetect (n : Nat) (s : State) : State :=
  if rbit s (oLnkCtl n) 0 && lnkSt s n = 0 && lnkPll s n then setLnkSt n 1 s else s

/-- A write of LNK_CTL[n] (R170, LNK_CTL card): EN, and RETRAIN where it is written 1. -/
def lnkCtlWrite (n : Nat) (v : Word) (s : State) : State :=
  if !lnkOn s n then s
  else
    let down (s : State) : State := if lnkUp s n then lnkLeavesUp n 0 (seqActive s) s else lnkToDown n 0 s
    let was := rbit s (oLnkCtl n) 0
    let s1 := rputb (oLnkCtl n) 0 (bit v 0) s
    let s2 := if was && !bit v 0 then down s1 else s1
    if bit v 1 && bit v 0 then
      let s3 := rflag (oLnkCtl n) 1 (down s2)
      lnkDetect n s3
    else if !was && bit v 0 then lnkDetect n (setLnk n { getLnk s2 n with retry := true } s2)
    else s2

/-- A training event moves link `n` from state `st` to `next`, or to DOWN with a failure (R170). -/
def lnkMove (n st next : Nat) (s : State) : State := if lnkOn s n && lnkSt s n = st then setLnkSt n next s else s
def lnkFail (n st fail : Nat) (s : State) : State := if lnkOn s n && lnkSt s n = st then lnkToDown n fail s else s

/-- LINK_ALIGN_DONE (R170, R171): in IDENT this side sends its device ID, its link number and its group ID. -/
def lnkAligned (n : Nat) (s : State) : State :=
  if lnkOn s n && lnkSt s n = 3 then
    setLnk n { getLnk s n with ident := some (s.dev.devid, n, rfld s oLkgCfg 31 16) } (setLnkSt n 4 s)
  else s

/-- LINK_RETRY_TIMER (R170). -/
def lnkRetry (n : Nat) (s : State) : State :=
  if lnkOn s n && lnkSt s n = 0 then lnkDetect n (setLnk n { getLnk s n with retry := true } s) else s

/-- Formation fails with a cause (R189). -/
def formFail (ferr : Nat) (s : State) : State :=
  rmod oLkgSts (fun w => setBit (clrBit (setFld w 31 28 ferr) 1) 2) s

/-- LINK_IDENT_RECEIVED (R171): the peer's device ID, link number and group ID.  A group link that fails ends a formation in
progress (R189). -/
def linkIdent (n dev link group : Nat) (s : State) : State :=
  if !lnkOn s n || lnkSt s n ≠ 4 then s
  else
    let s1 := rset (oLnkPeer n)
      (BitVec.ofNat 32 (2 ^ 31 + dev % 64 * 2 ^ 24 + link % 16 * 2 ^ 20 + group % 2 ^ 16)) s
    let pass := !lnkGroup s n ||
      (group = rfld s oLkgCfg 31 16 && (members s).contains dev && dev ≠ s.dev.devid)
    if pass then setLnkSt n 5 s1
    else lnkToDown n 4 (if rbit s oLkgSts 1 then formFail 2 s1 else s1)

/-- The cable term of a delay in ps (R176). -/
def cableTerm (dlyPs : Nat) : Nat := (dlyPs - 55000 + 624) / 625 + 1

/-- This end of link `n` as a link of the group, with what IDENT and MEASURE have recorded (R171, R176). -/
def ownLink (s : State) (n : Nat) : GLink :=
  ⟨s.dev.devid, n, rfld s (oLnkPeer n) 29 24, rfld s (oLnkPeer n) 23 20, rfld s (oLnkDly n) 19 0⟩

/-- A delay in steps of the present step clock, rounded up. -/
def delaySteps (s : State) (ps : Nat) : Nat :=
  (ps * rfld s oCkgStep 26 16 * (if s.seq.emerg then s.seq.ratio else 16) + 15999999) / 16000000

/-- The credits the two sides exchange when a link reaches UP (R341): 16 receive buffers for each master ID. -/
def peerBufs : List (Nat × Nat) := (List.range 8).map (·, 16)

/-- LINK_MEASURE_DONE (R176): the largest one-way delay of the probes.  A term above 255 has no place in LNK_DLY.C, which keeps its
value (log entry 34).  The first position that arrives is one the peer has sent the delay ago: in mid-run it may lie before the
position of this device (R175). -/
def linkMeasured (n dlyPs : Nat) (s : State) : State :=
  if !lnkOn s n || lnkSt s n ≠ 5 then s
  else
    let c := cableTerm dlyPs
    let s1 := rput (oLnkDly n) 19 0 dlyPs s
    if 255 < c then lnkToDown n 5 s1
    else
      let s2 := rput (oLnkDly n) 31 24 c s1
      let l : Link := { Link.fresh with rxV := s.seq.spos - (delaySteps s dlyPs + 1), bufs := peerBufs, ident := (getLnk s n).ident }
      let s3 := setLnk n l (setLnkSt n 6 (rput (oLnkCtl n) 1 1 0 s2))
      if lnkGroup s n && grpFormed s then
        let e := ownLink s3 n
        ringSendAll (.linkUp n e.b e.lb e.ps) (linkAdded e s3)
      else s3

/-- The run position a received POS stands for: the first at or after the one expected next (R175). -/
def rxPosition (s : State) (n pos : Nat) : Nat :=
  let p := frameL s + 2
  let e := (getLnk s n).rxV
  e + (pos + p - e % p) % p

/-- A received position enters the elastic buffer, or is discarded where it is full (R175, R177). -/
def rxStore (n pos : Nat) (val : BitVec 896) (ue : Bool) (s : State) : State :=
  let l := getLnk s n
  let v := rxPosition s n pos
  if 384 ≤ (l.buf.filter fun e => decide (s.seq.spos ≤ e.v + linkLat s n)).length then rflag (oLnkSts n) 9 (setLnk n { l with rxV := v + 1 } s)
  else setLnk n { l with rxV := v + 1, buf := l.buf ++ [⟨v, val, ue⟩] } s

/-- LINK_GROUP_RECEIVED (R172, R175): a group with PF 0b01 carries schedule position POS; one with PF 0b00 carries no position, and
the other codes are reserved.  What its control lane carries beside comes as a command of its own: DONE_MARKER_RECEIVED (CK 2),
LINK_ACK_RECEIVED (CK 3), LINK_FLIT_RECEIVED for the flit that seven fragments make up (CK 1). -/
def groupReceived (n ctl : Nat) (vals : List V4) (s : State) : State :=
  let pos := nfld ctl 57 47
  if lnkOn s n && lnkUp s n && nfld ctl 59 58 = 1 && decide (pos < frameL s + 2) then
    rxStore n pos (ppack 896 (vals ++ List.replicate (448 - vals.length) .z)) false s
  else s

/-- A position of which some bit lay in an uncorrectable codeword (R177); one that lay in two of them is stored once. -/
def rxDamaged (n pos : Nat) (s : State) : State :=
  let l := getLnk s n
  let p := frameL s + 2
  if l.buf.any (fun e => e.ue && e.v % p = pos && decide (l.rxV ≤ e.v + 7)) then s
  else rxStore n pos (BitVec.allOnes 896) true s

/-- An acknowledgment leaves, in the control lane of an idle group (R172, R181): bit [43] 1 where negative, the next expected sequence
number in [42:31]. -/
def ackSend (n : Nat) (neg : Bool) (next : Nat) (s : State) : State :=
  setLnk n (groupSend 0 0 0 3 (b2n neg * 2 ^ 43 + next % 4096 * 2 ^ 31) { getLnk s n with ack := some (neg, next) }) s

/-- LINK_CODEWORD_RECEIVED (R173, R177, R181): damaged positions present X, and a flit that lay in the codeword is asked for again. -/
def codewordReceived (n : Nat) (c : Codeword) (s : State) : State :=
  if !lnkOn s n || lnkSt s n < 4 then s
  else match c with
    | .clean => s
    | .corrected => rcount (oLnkFec n) 15 0 1 s
    | .uncorrectable ps flit =>
      let s1 := rflag (oLnkSts n) 7 (rcount (oLnkFec n) 31 16 1 s)
      let now := s.tim.mono
      let l := getLnk s1 n
      let ts := now :: l.ueTimes.filter fun t => decide (now < t + 1000000)
      let s2 := setLnk n { l with ueTimes := ts } s1
      let s3 := if lnkUp s n then
          (ps.filter (· < frameL s + 2)).foldl (fun s p => rxDamaged n p s)
            (if flit then ackSend n true (getLnk s2 n).rxSeq s2 else s2)
        else s2
      let bad : List Report := [{ code := 0x7001, lk := 6, locv := n, frame := frameNow s }]
      if ts.length ≤ 8 then raiseAll bad s3
      else if lnkUp s3 n then
        let x := lnkDrop n 6 true s3
        settlePause (raiseAll (bad ++ x.2) x.1)
      else raiseAll bad (lnkToDown n 6 s3)

/-- A lock fault of a marker (R179), attributed to frame `f`. -/
def markerFault (n kind code f : Nat) (s : State) : State :=
  raiseIn code 6 n f (rflag (oLnkSts n) 8 (lockRec kind n f s))

/-- The first verification window of link `n` is settled. -/
def popMark (n : Nat) (s : State) : State :=
  let l := getLnk s n
  settlePause (setLnk n { l with marks := l.marks.drop 1 } s)

/-- DONE_MARKER_RECEIVED (R179, R180); `early`: before the window of the oldest frame not yet verified opens.  A marker that
comes before this device's own second tick step of its frame is early. -/
def markerReceived (n fLo : Nat) (taint early : Bool) (s : State) : State :=
  if !lnkOn s n || !lnkUp s n || !lnkGroup s n then s
  else
    let l := getLnk s n
    let spread (f : Nat) (s : State) : State := if taint && !rbit s oLkgCfg 1 then taintFrame f s else s
    match l.marks with
    | [] => spread s.seq.F.toNat (markerFault n 1 0x6002 s.seq.F.toNat (setLnk n { l with early := l.early ++ [fLo % 2 ^ 32] } s))
    | f :: _ =>
      if early then spread f (markerFault n 1 0x6002 f (popMark n s))
      else if fLo % 2 ^ 32 = f % 2 ^ 32 then spread f (popMark n s)
      else
        let s1 := popMark n s
        markerFault n 2 0x6003 f { s1 with seq := { s1.seq with diverged := true } }

/-- MARKER_WINDOW_CLOSE (R179): the oldest window closes without its marker. -/
def markerWindowClose (n : Nat) (s : State) : State :=
  if !lnkOn s n || !lnkUp s n || !lnkGroup s n then s
  else match (getLnk s n).marks with
    | [] => s
    | f :: _ => markerFault n 0 0x6001 f (popMark n s)

/-- `k` flits leave on the wire (R181): while schedule positions are sent each as seven fragments in control lanes, else three to an
idle position field; DESIGN CHOICE (log entry 55), R181 does not say which form a flit takes. -/
def flitsWire (lanes : Bool) (k : Nat) (l : Link) : Link :=
  if lanes then { l with frags := l.frags + 7 * k } else (List.range ((k + 2) / 3)).foldl (fun l _ => groupSend 0 0 0 0 0 l) l

/-- Flits that wait are sent while the replay buffer has room, each with the next sequence number (R181). -/
def flitsOut (lanes : Bool) (l : Link) : Link :=
  let k := min l.txWait (128 - l.unacked.length)
  flitsWire lanes k { l with txWait := l.txWait - k, txSeq := (l.txSeq + k) % 4096,
                             unacked := l.unacked ++ (List.range k).map fun i => (l.txSeq + i) % 4096 }

/-- A barge leaves on link `n`: its header flit and its data flits (R181, R337, R341). -/
def flitsSend (n : Nat) (b : Barge) (s : State) : State :=
  let l := getLnk s n
  setLnk n (flitsOut (s.seq.st = .flight) { l with txWait := l.txWait + 1 + b.ndata }) s

/-- LINK_FLIT_RECEIVED (R181): acknowledged in order, else negatively acknowledged. -/
def flitReceived (n seq : Nat) (crcOk : Bool) (s : State) : State :=
  if !lnkOn s n || !lnkUp s n then s
  else
    let l := getLnk s n
    if crcOk && seq % 4096 = l.rxSeq then
      let next := (l.rxSeq + 1) % 4096
      ackSend n false next (setLnk n { l with rxSeq := next } s)
    else ackSend n true l.rxSeq s

/-- LINK_ACK_RECEIVED (R181): the flits before `seq` leave the replay buffer; a negative one replays the others, where any is left. -/
def ackReceived (n : Nat) (nak : Bool) (seq : Nat) (s : State) : State :=
  if !lnkOn s n || !lnkUp s n then s
  else
    let l := getLnk s n
    let keep := l.unacked.dropWhile fun x => decide (0 < (seq + 4096 - x) % 4096) && decide ((seq + 4096 - x) % 4096 ≤ 128)
    let lanes : Bool := s.seq.st = .flight
    if !nak || keep = [] then setLnk n (flitsOut lanes { l with unacked := keep, replays := 0 }) s
    else
      let r := if keep.length < l.unacked.length then 1 else l.replays + 1
      let s1 := rcount (oLnkRetry n) 15 0 keep.length
        (setLnk n (flitsOut lanes (flitsWire lanes keep.length { l with unacked := keep, replays := r })) s)
      if 16 ≤ r then lnkLeavesUp n 6 true s1 else s1

/-- The number nearest `cur` whose low `bits` bits are `low`. -/
def nearest (bits low cur : Nat) : Nat :=
  let m := 2 ^ bits
  let c := cur - cur % m + low % m
  if cur + m / 2 < c && m ≤ c then c - m else if c + m / 2 < cur then c + m else c

/-- A vote that comes after its effective step (R90). -/
def lateVote (src : Nat) (s : State) : State :=
  let s1 := rflag oSeqSts 14 { s with seq := { s.seq with diverged := true } }
  raise 0x6005 9 src (lockRec 4 0 s.seq.F.toNat s1)

/-- The frame number nearest the current one whose low `bits` bits are `low`, modulo 2^48 (R7). -/
def nearFrame (s : State) (bits low : Nat) : Nat := nearest bits low (s.seq.F.toNat + 2 ^ 48) % 2 ^ 48

/-- Position `p` of frame `f` has executed here. -/
def posDone (s : State) (f p : Nat) : Bool :=
  frLt f s.seq.F.toNat || (f = s.seq.F.toNat && inFrame s && decide (p < s.seq.pos))
/-- Lock-phase step 0 of flight `n` has executed here; flights are counted modulo 2^32. -/
def lockDone (s : State) (n : Nat) : Bool :=
  let d := (s.seq.fltNum.toNat + 2 ^ 32 - n % 2 ^ 32) % 2 ^ 32
  if d = 0 then inLock s && decide (0 < s.seq.lockPos) else decide (d < 2 ^ 31)
/-- The step at which a halt at E0 takes effect has executed here (R82, R90): before a frame that is not the flight's first, E0 may be
that frame's start; before a flight's first frame the pause of E0 has been passed over; in a frame the frame that follows E0 has
begun; in a lock phase its own step 0, where E0 lies before it; PAUSED lies behind every step up to E0. -/
def haltDone (s : State) (e0 : Nat) : Bool :=
  let g := s.seq.gsc.toNat
  if inFrame s then
    (if s.seq.pos = 0 then (if s.seq.fltPos = 0 then decide (e0 ≤ g) else decide (e0 < g)) else decide (e0 + s.seq.pos ≤ g))
  else if inLock s then
    decide (e0 + frameL s + 2 ≤ s.seq.lockGsc) || (decide (0 < s.seq.lockPos) && decide (e0 ≤ s.seq.lockGsc))
  else decide (e0 ≤ g)

/-- Another device's halt vote (R82): at the frame start E0 itself the lock phase begins in place of the frame. -/
def haltVote (e0 src : Nat) (s : State) : State :=
  if haltDone s e0 then lateVote src s
  else
    let s1 := placeHalt e0 src s
    if s.seq.st = .flight && s.seq.pos = 0 && decide (0 < s.seq.fltPos) && e0 = s.seq.gsc.toNat then beginLock e0 s1 else s1

/-- The clock-loss vote of another device (R97); `f`: F of the frame in progress there.  The device halts at the next
horizon-aligned step where the schedule reaches it before its own first tick step of frame `f`, else at once.  One that has
committed `f` counts as diverged: the vote does not say whether its sender voided `f` (log entry 17). -/
def clockLossVote (src f : Nat) (s : State) : State :=
  let h := alignUp s.seq.gsc.toNat 256
  let a := aheadBy s (frameL s) (h - s.seq.gsc.toNat) (aheadNow s)
  let committed := frLt f s.seq.F.toNat || (f = s.seq.F.toNat && framePast s)
  let before := frLt a.frame f || (a.frame = f && (a.inLock || decide (a.pos < frameL s)))
  let s1 := if committed then { s with seq := { s.seq with diverged := true } } else s
  if s.seq.st = .idle || s.seq.st = .ready then s
  else if !seqRuns s then s1
  else if s.seq.st ≠ .stall && before && !committed then addEvent ⟨8, src, .gsc h⟩ s1
  else clockLossHalt src s1

/-- Another device's throttle vote (R86, R93): late once a lock phase at or after its step has applied the changes due (R90). -/
def throttleVoted (e v src : Nat) (s : State) : State :=
  if (seqRuns s || s.seq.st = .paused) && decide (e ≤ s.seq.thrGsc) then lateVote src s
  else { s with seq := { s.seq with thrPend := s.seq.thrPend ++ [⟨e, v, src⟩] } }

/-- An accepted express word acted on (R86, R90, R182, R183). -/
def expressAct (kind src arg : Nat) (s : State) : State :=
  let g := s.seq.gsc.toNat
  let live := seqRuns s || s.seq.st = .paused
  match kind with
  | 1 =>
    let f := nearFrame s 24 (nfld arg 33 10)
    let p := nfld arg 9 0
    if !live then s else if posDone s f p then lateVote src s else addEvent ⟨1, src, .wait f p⟩ s
  | 2 =>
    let n := nfld arg 31 0
    if !live then s else if lockDone s n then lateVote src s else addEvent ⟨2, src, .lock n⟩ s
  | 3 | 4 | 6 =>
    let e := 256 * nearest 34 arg (g / 256)
    if !live then s else if e < g then lateVote src s else addEvent ⟨kind, src, .gsc e⟩ s
  | 5 => throttleVoted (256 * nearest 14 (nfld arg 33 20) (g / 256)) (nfld arg 19 0) src s
  | 7 => if live then haltVote (256 * nearest 34 arg (g / 256)) src s else s
  | 8 => clockLossVote src (nearFrame s 34 arg) s
  | 9 => if s.seq.st = .stall then { s with grp := { s.grp with releases := (src, some arg) :: s.grp.releases } } else s
  | 10 => if rbit s oLkgCfg 1 then s else taintFrame (nearFrame s 34 arg) s
  | _ => s

/-- A word is a duplicate (R183): a taint by its frame, any other by originator and sequence number.  Of an originator's last 16
words the 15 before this one are held: its sixteenth has the number that the next word carries anew (log entry 43). -/
def expressDup (kind src seq arg : Nat) (s : State) : Bool :=
  if kind = 10 then s.grp.taints.contains (nearFrame s 34 arg)
  else src = s.dev.devid || (mget [] s.grp.seen src).contains seq

/-- Word `seq` of `src` noted among the last ones of its originator, taint words with the others (R183). -/
def seqNote (src seq : Nat) (s : State) : State :=
  let l := mget [] s.grp.seen src
  if src = s.dev.devid || l.contains seq then s else { s with grp := { s.grp with seen := mset [] s.grp.seen src ((seq :: l).take 15) } }

/-- A word noted and relayed on every other UP group link (R183). -/
def expressNote (n kind src seq arg : Nat) (s0 : State) : State :=
  let relay := (upLinks s0).any (· ≠ n)
  let s := seqNote src seq s0
  { s with grp := { s.grp with
      taints := if kind = 10 then nearFrame s 34 arg :: s.grp.taints else s.grp.taints
      sent := if relay then ⟨kind, src, seq, arg⟩ :: s.grp.sent else s.grp.sent } }

/-- EXPRESS_WORD_RECEIVED (R182, R183); `ok`: at least one of the two copies checks. -/
def expressReceived (n kind src seq arg : Nat) (ok : Bool) (s : State) : State :=
  if !lnkOn s n || !lnkUp s n || !lnkGroup s n then s
  else if !ok then raise 0x7002 6 n (rflag (oLnkSts n) 10 (rcount (oLnkRetry n) 31 16 1 s))
  else if kind = 0 || 11 ≤ kind then s
  else if expressDup kind src seq arg s then seqNote src seq s
  else expressAct kind src arg (expressNote n kind src seq arg s)

/-- The configuration of the group breaks a rule this device can see (R189, R351). -/
def formMismatch (s : State) : Bool :=
  let lead := (members s).headD s.dev.devid = s.dev.devid
  let src := rfld s oTimCtl 1 0
  !(members s).contains s.dev.devid || (lead && src = 1) || (!lead && src ≠ 1)

/-- A write of LKG_CFG (R189, LKG_CFG card): LKG_FORM and LKG_DISSOLVE. -/
def lkgCfgWrite (v : Word) (s : State) : State :=
  if !unitOn s 9 then s
  else if !rbit s oLkgCfg 0 then
    let w := v &&& 0xFFFF0003#32
    let s1 := rset oLkgCfg w s
    if bit v 0 then rmod oLkgSts (fun w => setBit (setFld (clrBit w 2) 31 28 0) 1) s1 else s1
  else
    let fixed := (v &&& 0xFFFF0002#32) ≠ (rget s oLkgCfg &&& 0xFFFF0002#32)
    let s1 := if fixed then rflag oLkgSts 5 s else s
    if bit v 0 then s1
    else if s.seq.st = .idle then
      let s2 := rput oSeqHorizon 23 16 0 (rmod oLkgSts (fun w => clrBit (clrBit w 1) 0) (rput oLkgCfg 0 0 0 s1))
      { s2 with grp := { s2.grp with topo := [], pathPs := 0, lost := if s2.grp.lost = 0 then 0 else 2 } }
    else rflag oLkgSts 5 s1

/-- TIM_STS.LOCK: always 1 with SRC 0b00 (R351, TIM_STS). -/
def timLocked (s : State) : Bool := rfld s oTimCtl 1 0 = 0 || rbit s oTimSts 0

/-- The UP links of the group as this device knows them at formation: its own, and those the other members report. -/
def groupLinks (s : State) (links : List GLink) : List GLink :=
  links.foldl (fun t e => if e.a = s.dev.devid || e.b = s.dev.devid then t else t ++ [e]) ((upLinks s).map (ownLink s))

/-- GROUP_FORMATION_COMPLETE (R184, R188, R189, R191); `ferr`: the first cause a member's lockkeeper finds, 0 for none; `links`: the UP
group links between the other members.  A stretch that this device requests is voted to its new group (R93).  UP links that do not
connect every member (R188) give FERR 4, configuration mismatch: DESIGN CHOICE (log entry 34), R189's causes do not name this one. -/
def formComplete (ferr : Nat) (links : List GLink) (s : State) : State :=
  let alone := members s = [s.dev.devid]
  let linksUp := (List.range 12).all fun n => !lnkGroup s n || lnkUp s n
  let es := if alone then [] else groupLinks s links
  let seen := pathsFrom es s.dev.devid (members s).length
  if !unitOn s 9 || !rbit s oLkgSts 1 then s
  else if formMismatch s then formFail 4 s
  else if ferr ≠ 0 then formFail (min ferr 5) s
  else if (!alone && !linksUp) || !timLocked s then s
  else if (members s).any (fun d => (mget none seen d).isNone) then formFail 4 s
  else
    let s1 := rmod oLkgSts (fun w => setBit (clrBit (clrBit w 1) 2) 0) s
    let s2 := setTopo es { s1 with grp := { s1.grp with lost := if s1.grp.lost = 0 then 0 else 2 } }
    if stretchWanted s2 = 0 then s2 else throttleVote s2

/-- GROUP_FORMATION_TIMEOUT (R189). -/
def formTimeout (s : State) : State := if unitOn s 9 && rbit s oLkgSts 1 then formFail 5 s else s

/-- A write of LKG_MEMBERS_LO, LKG_MEMBERS_HI or LKG_LINKMASK (their cards). -/
def lkgTableWrite (off : Nat) (v : Word) (s : State) : State :=
  if !unitOn s 9 then s
  else if !rbit s oLkgCfg 0 && s.seq.st = .idle then rset off (if off = oLkgLinkmask then v &&& 0xFFF#32 else v) s
  else rflag oLkgSts 5 s

/-- Ring port `p` trains, or fails to (R186), as without link PLL 0 (R317). -/
def ringTrain (p : Nat) (up : Bool) (s : State) : State := if p ≤ 1 then rputb oRingSts p (up && pllSt s 1 = 3) s else s

/-- RING_PORT_RETRAIN (R186): a neighbour has entered or left bypass; over more than 4 bypassed modules training fails.  The `lost`
messages sent last are sent again. -/
def ringRetrain (port : Nat) (up : Bool) (lost : Nat) (s : State) : State :=
  if bypassed s || 1 < port then s
  else
    let s1 := rflag oRingSts 2 (ringTrain port up s)
    { s1 with grp := { s1.grp with ringOut := s1.grp.ringOut.take lost ++ s1.grp.ringOut } }

/-- A write of LKG_MODE on the lead, or on a device that runs alone (R190). -/
def lkgModeWrite (v : Word) (s : State) : State :=
  if !unitOn s 9 then s
  else if seqRests s then ringSendAll (.mode (bit v 0)) (rset oLkgMode (v &&& 1#32) s)
  else rflag oLkgSts 5 s

end Sys2Proof.Machine
end

