-- ==== Sys2Proof/Machine/Wharf.lean ====
section
/-!
DEFINITION. The exchange unit: fragments, close points, dispatch by deficit round robin, loss records, taint notices, returns
and the return window (R194-R214, R428).
-/
namespace Sys2Proof.Machine

/-- XCH_PART_USE[j].HWM_64 follows the occupancy. -/
def markHwm (j : Nat) (s : State) : State :=
  let u := (partUsed s j + 63) / 64
  if rfld s (oXchPartUse j) 29 18 < u then rput (oXchPartUse j) 29 18 u s else s

/-- The fragment's values in their places of the payload (R197). -/
def payPut (p : BitVec 256) (w i : Nat) (data : BitVec 64) : BitVec 256 :=
  (List.range w).foldl (fun p j => pset p (i * w + j) (pget data j)) p

/-- A new entry's payload: X up to NVAL, zero beyond (R197). -/
def payInit (nval : Nat) : BitVec 256 := ppack 256 (List.replicate nval .x)

/-- Discarding a fragment for want of an entry (R201). -/
def discardFragment (f : Fragment) (part : Nat) (s : State) : State :=
  let s1 := rflag oXchSts 0 (rcount oXchLoss 31 0 1 s)
  let s2 := if rbit s1 oXchCaprec 31 then s1 else
    rset oXchCaprec (BitVec.ofNat 32 (2 ^ 31 + part * 2 ^ 25 + f.idx * 2 ^ 21 + f.site)) s1
  let s3 := if s2.xch.losses.length < 256 then
      { s2 with xch := { s2.xch with losses := s2.xch.losses ++ [(f.site, f.frame, f.idx)] } }
    else rflag oXchSts 9 s2
  raiseIn 0x8003 8 f.site f.frame s3

/-- The entry that takes the fragment: of its key, and of the execution of the frame that the fragment is of (R197, R198). -/
def entryFor (s : State) (f : Fragment) : Option XEntry :=
  s.xch.entries.find? fun e => e.site = f.site && e.frame = f.frame && e.pass = f.pass && e.void = f.void &&
    (f.void || e.st = .opened || e.st = .complete) && e.st ≠ .ret

/-- A VOID entry opened or completed after the close point of its frame enters its berth with the last fragment of the voided
frame (R198). -/
def voidArrived (frame pass : Nat) (s : State) : State :=
  if s.xch.frags.any (fun g => g.void && g.frame = frame && g.pass = pass) then s
  else closeCalls (fun e => e.void && e.frame = frame && e.pass = pass) s

/-- XCH_FRAGMENT_ARRIVAL (R195-R201): the oldest fragment reaches the matching store. -/
def fragmentArrival (s : State) : State :=
  match s.xch.frags with
  | [] => s
  | f :: rest =>
    let s0 := { s with xch := { s.xch with frags := rest } }
    let e := siteEntry s0 f.site
    let fin (s : State) : State := if f.void then voidArrived f.frame f.pass s else s
    if !siteValid e || !nbit (siteReq e) f.idx then fin (raiseIn 0x8001 8 f.site f.frame (rflag oXchSts 1 s0))
    else match entryFor s0 f with
      | some x =>
        if nbit x.mask f.idx then fin (raiseIn 0x8002 8 f.site f.frame (rflag oXchSts 2 s0))
        else
          let m := x.mask + 2 ^ f.idx
          fin (putEntry { x with mask := m, pay := payPut x.pay (siteW e) f.idx f.data, unk := x.unk || f.xen,
                                 st := if x.st = .opened && m = siteReq e then .complete else x.st } s0)
      | none =>
        let j := sitePart e
        if partFree s0 j = 0 then fin (discardFragment f j s0)
        else
          let x : XEntry :=
            { id := s0.xch.nextId, part := j, site := f.site, frame := f.frame, pass := f.pass, mask := 2 ^ f.idx,
              pay := payPut (payInit (siteNval e)) (siteW e) f.idx f.data, unk := f.xen, incomplete := false, void := f.void,
              st := if f.void || 2 ^ f.idx = siteReq e then .complete else .opened, order := 0, handle := 0, tsn := 0,
              first := f.gsc, resolved := f.ended,
              mark := if f.ended then some (isTainted s0 f.frame) else none, value := none }
          let s1 := markHwm j { s0 with xch := { s0.xch with entries := s0.xch.entries ++ [x], nextId := s0.xch.nextId + 1 } }
          fin (if s1.seq.mode && partFree s1 j ≤ partReserve s1 j then horizonStall 3 s1 else s1)

/-- XCH_CLOSE_POINT of frame `f` (R198, R199): its second tick step has passed, and no fragment of it is under way. -/
def closePoint (f : Nat) (s : State) : State :=
  if frLt f s.seq.F.toNat && !s.xch.frags.any (fun g => g.frame = f && !g.void) then closeCalls (fun e => e.frame = f && !e.void) s else s

/-- Registers of delivery ring `r`. -/
def xchRing (r : Nat) : RingRegs := ⟨oXchRingLo r, oXchRingHi r, oXchRingPi r, oXchRingCi r⟩
def xchVec (r : Nat) : Nat := 24 + r % 40

/-- The first word of a record (R207). -/
def recWord0 (phase rtype kind : Nat) (unk inc void taint fin : Bool) (site : Nat) : Nat :=
  phase * 2 ^ 31 + rtype * 2 ^ 28 + kind * 2 ^ 26 + b2n unk * 2 ^ 25 + b2n inc * 2 ^ 24 + b2n void * 2 ^ 23 + b2n taint * 2 ^ 22
    + b2n fin * 2 ^ 21 + site

/-- The frame of the call is tainted; its mark is final (R74, R207). -/
def callTainted (s : State) (e : XEntry) : Bool := e.mark.getD (isTainted s e.frame)
def callFinal (s : State) (e : XEntry) : Bool := e.mark.isSome || taintFinal s e.frame

/-- A call's record (R207). -/
def callBytes (s : State) (phase : Nat) (e : XEntry) : List Byte :=
  let se := siteEntry s e.site
  let nval := siteNval se
  let pay := ppack 256 ((List.range 128).map fun i => if i < nval then pget e.pay i else .zero)
  leBytes 4 (recWord0 phase 0 (siteKind se) e.unk e.incomplete e.void (callTainted s e) (callFinal s e) e.site)
    ++ leBytes 4 (callFlow s e * 2 ^ 16 + callBerth s e) ++ leBytes 8 (e.frame % 2 ^ 48 + nval * 2 ^ 48)
    ++ leBytes 4 e.tsn ++ leBytes 4 e.handle ++ leBytes 8 0 ++ leBytes 32 pay.toNat

/-- The head of flow `f`: its QUEUED call that entered a berth first (R204). -/
def flowHead (s : State) (f : Nat) : Option XEntry :=
  (sortBy (fun e : XEntry => e.order) (s.xch.entries.filter fun e => e.st = .queued && callFlow s e = f)).head?

/-- The flows with queued calls, ascending. -/
def queuedFlows (s : State) : List Nat :=
  sortBy id ((s.xch.entries.filter fun e => e.st = .queued).map (callFlow s)).eraseDups

/-- Ring of group `g`, and its weight (R205). -/
def grpRing (s : State) (g : Nat) : Nat := rfld s (oXchGrp g) 13 8
def grpWeight (s : State) (g : Nat) : Nat := rfld s (oXchGrp g) 7 0

/-- The eligible flows of group `g`, ascending (R204): idle, with a head, the group's ring `r` with room. -/
def eligible (s : State) (g r : Nat) : List Nat :=
  (queuedFlows s).filter fun f => flowGroup s f = g && flowSt s f = .idle && ringRoom s (xchRing r)

/-- The first eligible flow after the last one served, wrapping (R205). -/
def nextFlow (s : State) (g r : Nat) : Option Nat :=
  let el := eligible s g r
  match el.find? fun f => mget 0 s.xch.lastFlow g ≤ f with
  | some f => some f
  | none => el.head?

/-- The flow and the entry after the dispatch of a call (R199, R204, R213, R428). -/
def dispatched (f : Nat) (e : XEntry) (s : State) : State :=
  if callBlocks s e && !e.resolved then setFlow f .blocking (putEntry { e with st := .ret } s)
  else
    let s1 := dropEntry e.id s
    if callBlocks s e then { s1 with xch := { s1.xch with lateH := e.handle :: s1.xch.lateH } }
    else if flowAuto s f then s1 else setFlow f .service s1

/-- The record of flow `f`'s head written into the ring `r` of the group's visit (R204-R207). -/
def dispatch (g r f : Nat) (e : XEntry) (s : State) : State :=
  let b := callBerth s e
  let s1 := ringPush (xchRing r) 64 (xchVec r) (callBytes s (ringPhase s (xchRing r)) e) s
  let s2 := dispatched f e s1
  let open_ := !callTainted s e && !callFinal s e && !s2.xch.written.contains e.frame
  let s3 := { s2 with xch := { s2.xch with lastFlow := mset 0 s2.xch.lastFlow g (f + 1),
                                           deficit := mset 0 s2.xch.deficit g (mget 0 s2.xch.deficit g - 1),
                                           written := if open_ then e.frame :: s2.xch.written else s2.xch.written } }
  promote b (s3.xch.entries.length) s3

/-- The delivery engine moves on to the next group (R205). -/
def nextGroup (s : State) : State := { s with xch := { s.xch with grp := (s.xch.grp + 1) % 64, visit := none } }
def setDeficit (g n : Nat) (s : State) : State := { s with xch := { s.xch with deficit := mset 0 s.xch.deficit g n } }

/-- The delivery engine's loop of R205 up to and with the next record written; `fuel` visits of a group without one. -/
def deliver : Nat → State → State
  | 0, s => s
  | n + 1, s =>
    let g := s.xch.grp
    let v := s.xch.visit.getD (grpRing s g, grpWeight s g)
    if v.2 = 0 then deliver n (nextGroup (setDeficit g 0 s))
    else
      let s1 := if s.xch.visit.isSome then s else
        setDeficit g (mget 0 s.xch.deficit g + v.2) { s with xch := { s.xch with visit := some v } }
      match nextFlow s1 g v.1 with
      | none => deliver n (nextGroup (setDeficit g 0 s1))
      | some f =>
        if mget 0 s1.xch.deficit g = 0 then deliver n (nextGroup s1)
        else match flowHead s1 f with
          | some e => dispatch g v.1 f e s1
          | none => s1

/-- A taint notice waiting for room in its ring (R208). -/
def noticeWrite (s : State) : Option State :=
  match s.xch.notices with
  | f :: t =>
    let r := rfld s oXchCtl 5 0
    if ringRoom s (xchRing r) then
      let bs := leBytes 4 (ringPhase s (xchRing r) * 2 ^ 31 + 2 * 2 ^ 28) ++ leBytes 4 0 ++ leBytes 8 (f % 2 ^ 48) ++ leBytes 48 0
      some { ringPush (xchRing r) 64 (xchVec r) bs s with xch := { s.xch with notices := t } }
    else none
  | [] => none

/-- XCH_DELIVERY_WRITE (R205, R206): one record of the delivery engine, a taint notice first. -/
def deliveryWrite (s : State) : State :=
  if !unitOn s 11 then s
  else match noticeWrite s with
    | some s1 => s1
    | none => deliver 130 s

/-- XCH_LOSS_RECORD_WRITE (R201): the oldest loss record whose ring has room goes out, past the dispatch order. -/
def lossWrite (s : State) : State :=
  if !unitOn s 11 then s
  else
    let ringOf (x : Nat × Nat × Nat) : Nat := grpRing s (flowGroup s (berthFlow s (siteBerth (siteEntry s x.1))))
    match s.xch.losses.find? fun x => ringRoom s (xchRing (ringOf x)) with
    | none => s
    | some x =>
      let (site, frame, idx) := x
      let e := siteEntry s site
      let r := ringOf x
      let b := siteBerth e
      let bs := leBytes 4 (recWord0 (ringPhase s (xchRing r)) 1 (siteKind e) false false false false false site)
        ++ leBytes 4 (berthFlow s b * 2 ^ 16 + b) ++ leBytes 8 (frame % 2 ^ 48) ++ leBytes 8 0 ++ leBytes 8 idx ++ leBytes 32 0
      { ringPush (xchRing r) 64 (xchVec r) bs s with xch := { s.xch with losses := s.xch.losses.erase x } }

/-- Registers of the return ring. -/
def retRing : RingRegs := ⟨oXchRetLo, oXchRetHi, oXchRetPi, oXchRetCi⟩

/-- The handle names a call that a deadline or the end of its run has resolved (R211, R428): gone, or still QUEUED. -/
def returnLate (s : State) (h : Nat) : Bool :=
  s.xch.lateH.contains h || s.xch.entries.any fun e => e.st = .queued && e.resolved && e.handle = h

/-- XCH_RETURN_RECORD_READ (R211): one record of the return ring is consumed and matched by its handle; of several records for
one call in RETURN each is stored.  `err`: the read ends
in a host-memory read error. -/
def returnRead (err : Bool) (s : State) : State :=
  if !unitOn s 11 || !ringEn s retRing || ringUsed s retRing = 0 then s
  else if err then rflag oXchSts 10 (rputb oXchRetLo 8 false s)
  else
    let a := ringBase s retRing + 32 * ((rget s oXchRetCi).toNat % ringN s retRing)
    let h := leNat (hostGet s a 4)
    let v : BitVec 128 := BitVec.ofNat 128 (leNat (hostGet s (a + 16) 16))
    let s1 := rmod oXchRetCi (· + 1) s
    match s1.xch.entries.find? fun e => e.st = .ret && e.handle = h with
    | some e => supersede (putEntry { e with value := some v } s1)
    | none => rflag oXchSts (if returnLate s1 h then 5 else 6) s1

/-- A write of XCH_DONE (R204). -/
def wXchDone (v : Word) (s : State) : State :=
  let f := fld v 13 0
  if flowSt s f = .service then setFlow f .idle s else rflag oXchSts 7 s

/-- Writes of the wharf's ring registers (R206, R211). -/
def wXchRingLo (r : Nat) (v : Word) (s : State) : State := (ringLoWrite (xchRing r) 6 20 v s).getD s
def wXchRingCi (r : Nat) (v : Word) (s : State) : State := (ringIdxWrite (xchRing r) false v s).getD s
def wXchRetLo (v : Word) (s : State) : State := (ringLoWrite retRing 6 20 v s).getD s
def wXchRetPi (v : Word) (s : State) : State := (ringIdxWrite retRing true v s).getD s

/-- Fields of a return descriptor (R210). -/
def retDesc (s : State) (site : Nat) : Nat := (mget 0#64 s.xch.rets (siteRet (siteEntry s site))).toNat
def retToDm (d : Nat) : Bool := nbit d 63
def retBasin (d : Nat) : Nat := nfld d 62 46 / 4096

/-- The place of a blocking site among those whose import ranges lie in the same basin, ascending (R212). -/
def retStep (s : State) (site : Nat) : Nat :=
  let d := retDesc s site
  (s.xch.sites.filter fun kv => kv.1 < site && siteBlocks s kv.1 && !retToDm (retDesc s kv.1)
    && retBasin (retDesc s kv.1) = retBasin d).length

/-- The sequencer step of the return pre-check of the lock phase in progress (R209): the one made, else the step 256 before
step 0.  Where the lock phase became known so late that no vote could reach the group in time, none was made: in Stall mode too its
missing returns are then resolved as X with the deadline fault (DESIGN CHOICE, log entry 60: R96 and R213 do not speak of it). -/
def preCheckStep (s : State) : Option Nat :=
  match s.seq.preRet.find? fun p => p.1 = s.seq.fltNum.toNat with
  | some (_, g, _) => some g
  | none => if 256 ≤ s.seq.lockGsc then some (s.seq.lockGsc - 256) else none

/-- The service write of a return into design memory (R212). -/
def returnSvc (s : State) (e : XEntry) : SvcReq :=
  let d := retDesc s e.site
  let vs := plist (e.value.getD (BitVec.allOnes 128)) 64
  { master := 2, tag := e.id, addr := 0, half := none, op := .write, bank := nfld d 62 54, word := nfld d 53 39,
    data := BitVec.ofNat 64 (vs.foldr (fun v n => (if v = .one then 1 else 0) + 2 * n) 0),
    mask := BitVec.allOnes 64, poison := vs.any (!v4known ·), counted := false, answer := .direct, cycle := s.dmc.cycle }

/-- Lock-phase step 0 (R212, R213): missing returns of the calls due are resolved as X with the deadline fault; of the calls of
one site only the latest is written; the window's writes are laid out, those into design memory sent to their banks. -/
def returnDeadline (s : State) : State × List Report :=
  match preCheckStep s with
  | none => (s, [])
  | some g =>
    let due := sortBy (fun e : XEntry => if e.order = 0 && e.st ≠ .queued && e.st ≠ .ret then 2 ^ 64 else e.order) (dueCalls g s)
    let x : BitVec 128 := BitVec.allOnes 128
    let late := due.filter (·.value.isNone)
    let reps : List Report := late.map fun e => { code := 0x5001, lk := 8, locv := e.site, frame := frameNow s }
    let s1 := late.foldl (fun s e =>
        let s' := rflag oXchSts 4 s
        if e.st = .ret then leaveReturn e { s' with xch := { s'.xch with lateH := e.handle :: s'.xch.lateH } }
        else putEntry { e with resolved := true } s') s
    let last (e : XEntry) : Bool := match (due.filter (·.site = e.site)).getLast? with | some l => l.id = e.id | none => false
    let s2 := (due.filter fun e => !last e && e.value.isSome).foldl (fun s e => leaveReturn e s) s1
    let wr := due.filter last
    let imp := (wr.filter fun e => !retToDm (retDesc s e.site)).map fun e =>
      ({ step := retStep s e.site, id := e.id, site := e.site, value := e.value.getD x } : RetWrite)
    let dm := wr.filter fun e => retToDm (retDesc s e.site)
    let s3 := { s2 with xch := { s2.xch with retWin := imp } }
    (dm.foldl (fun s e =>
      { s with dmc := { s.dmc with waiting := s.dmc.waiting ++ [returnSvc s e] },
               xch := { s.xch with dmRets := s.xch.dmRets ++ [e.id] } }) s3, reps)

/-- One step of the return window (R212): the import returns of this step are written to their processors. -/
def returnWindow (k : Nat) (s : State) : State :=
  let now := s.xch.retWin.filter (·.step = k)
  let s1 := now.foldl (fun s r =>
    let d := retDesc s r.site
    let g := nfld d 62 46
    let cl := g / 64
    let n := nfld d 34 29 + 1
    let ph := physOf s cl (g % 64)
    let c := (List.range n).foldl (fun c i => dsPut ph (nfld d 45 35 + i) (pget r.value i) c) (getCl s cl)
    let s' := setCl cl c s
    match s'.xch.entries.find? (·.id = r.id) with
    | some e => if e.st = .ret then leaveReturn e s' else s'
    | none => s') s
  { s1 with xch := { s1.xch with retWin := s1.xch.retWin.filter (·.step ≠ k) } }

/-- Barrier step Λ−16 (R212): a design-memory return that has not reached its bank overruns. -/
def returnOverrun (s : State) : State × List Report :=
  if s.xch.dmRets = [] then (s, []) else (rflag oXchSts 8 s, [{ code := 0x8004, frame := frameNow s }])

end Sys2Proof.Machine
end

