-- ==== Sys2Proof/Machine/Steps.lean ====
section
/-!
DEFINITION. The sequencer's steps: evaluation, tick and lock-phase steps, stall cycles, and the start of a run
(R68-R97).
-/
namespace Sys2Proof.Machine

/-- The sequencer stands before an evaluation step, a first tick step, a second tick step, a lock-phase step (R84), and its clock
runs. -/
def evalReady (s : State) : Bool := stepClock s && s.seq.st = .flight && decide (s.seq.pos < frameL s)
def firstReady (s : State) : Bool := stepClock s && s.seq.st = .flight && s.seq.pos = frameL s
def secondReady (s : State) : Bool := stepClock s && s.seq.st = .flight && s.seq.pos = frameL s + 1
def lockReady (s : State) : Bool := stepClock s && s.seq.st = .lock

/-- A schedule position is over: the faults it detected are taken, the counts advance, GSC last (R71, R266). -/
def advancePos (rs : List Report) (s : State) : State :=
  let acts := reportActs s rs
  let s1 := raiseFirst acts s
  bumpGsc (raiseLast acts { s1 with seq := { s1.seq with pos := s.seq.pos + 1, spos := s.seq.spos + 1, voided := false } })

/-- Evaluation step `pos` of frame F (R71); `s` is the machine at the start of the step. -/
def evalBody (hs : List Happening) (s : State) : State :=
  let s0 := strikes hs s
  let x := andThen (memPorts s0) (andThen (reachStep s0) (fabricStep s0 hs s0.seq.pos s0))
  advancePos x.2 (dacScan s0 (prechecks s0 x.1))

/-- EVALUATION_STEP. -/
def evaluationStep (hs : List Happening) (s : State) : State := seqStep evalReady (evalBody hs) s

/-- The staged state values of cluster `cl` are committed at once (R17, R39). -/
def commitCluster (s0 : State) (cl : Nat) (s : State) : State :=
  let c := getCl s cl
  let c1 := c.staged.foldl (fun c e => match e.2 with
    | some v => dsPut (physOf s0 cl (e.1 / 2048)) (e.1 % 2048) v c
    | none => c) c
  setCl cl { c1 with staged := [] } s
def commitAll (s0 : State) (s : State) : State := (runClusters s0).foldl (fun s cl => commitCluster s0 cl s) s

/-- The running basins whose count of the frame's schedule steps, the L evaluation steps, differs (R95). -/
def slipped (s0 : State) (hs : List Happening) : List Nat :=
  hs.filterMap fun h => match h with
    | .slip b n => if basinRuns s0 b && n ≠ frameL s0 then some b else none
    | _ => none
def slipCheck (s0 : State) (hs : List Happening) (s : State) : State × List Report :=
  let bs := slipped s0 hs
  (if bs = [] then s else rflag oSeqSts 13 s,
   bs.map fun b => { code := 0x5003, lk := 3, locv := b, frame := frameNow s0 })

/-- The first tick step of frame F (R72). -/
def firstBody (hs : List Happening) (s : State) : State :=
  let s0 := strikes hs s
  let x := andThen (memPorts s0) (andThen (reachStep s0) (commitAll s0 s0, []))
  let s1 := traceFirstTick (dacScan s0 (gaugeFirstTick hs s0 x.1))
  let y := scrubs hs (andThen (slipCheck s0 hs) (clearExports s1, x.2))
  advancePos y.2 (prechecks s0 y.1)

/-- FIRST_TICK_STEP. -/
def firstTickStep (hs : List Happening) (s : State) : State := seqStep firstReady (firstBody hs) s

/-- The flight ends with frame F: its last frame, a halt at the next frame start or before, the last frame asked for
(R73, R79, R82). -/
def flightEnds (s : State) : Bool :=
  decide (s.seq.frames ≤ s.seq.fltPos + 1) || (s.seq.stepf && s.seq.left = 1) ||
    (match s.seq.halt with
     | some e => decide (e ≤ s.seq.gsc.toNat + 1)
     | none => false)

/-- The done-marker of frame `f` leaves on link `n`, in the control lane of the group that carries position L+1 (R172, R178), and
this device's window for the peer's marker comes (R179). -/
def sendMarker (f : Nat) (last : Bool) (n : Nat) (s : State) : State :=
  let l := getLnk s n
  let mark := f % 2 ^ 32 * 2 ^ 12 + b2n (isTainted s f) * 2 ^ 11 + b2n last * 2 ^ 10
  let l1 := { l with txMark := some (f % 2 ^ 32, isTainted s f, last),
                     tx := l.tx ||| BitVec.ofNat 956 (controlLane 0 0 2 mark * 2 ^ 896) }
  if l.early.contains (f % 2 ^ 32) then setLnk n { l1 with early := l.early.erase (f % 2 ^ 32) } s
  else setLnk n { l1 with marks := l.marks ++ [f] } s
def sendMarkers (f : Nat) (last : Bool) (s : State) : State := (upLinks s).foldl (fun s n => sendMarker f last n s) s

/-- The frame's duration against its limit (R92, SEQ_OVR_MAX). -/
def overrunCheck (s : State) : State × List Report :=
  let d := frameL s + 2 + s.seq.frameStall
  let limit := rfld s oSeqOvr 23 0
  let s1 := rput oSeqOvrMax 23 0 (min (max d (rfld s oSeqOvrMax 23 0)) 0xFFFFFF) s
  if limit ≠ 0 && decide (limit < d) then (seqInt 3 (rflag oSeqSts 12 s1), [{ code := 0x5002, frame := frameNow s }])
  else (s1, [])

/-- F and the flight position advance, the frame's taint summary closes and the mark of frame F−64 becomes final
(R73, R74). -/
def closeFrame (f : Nat) (s : State) : State :=
  let fin := match s.seq.finalTo with
    | some g => some (frMax g (frBack f 64))
    | none => if 64 ≤ f then some (f - 64) else none
  let s1 := { s with fab := mmapv Cluster.fresh (fun c => { c with xsent := false }) s.fab }
  { s1 with seq := { s1.seq with lastTaint := isTainted s f, finalTo := fin, F := s.seq.F + 1, fltPos := s.seq.fltPos + 1,
                                 left := if s.seq.stepf then s.seq.left - 1 else s.seq.left, voided := false } }

/-- The second tick step's own actions on frame F, the gauge drive to the frame's close (R73). -/
def secondActions (s0 : State) (s : State) : State :=
  let f := s0.seq.F.toNat
  closeFrame f (sendMarkers f (flightEnds s0) (traceSecondTick f (gaugeSecondTick s0 f s)))

/-- The step after the second tick step: step 0 of the next frame, or of the lock phase; unless the faults of the step take the
device to safe state. -/
def afterFrame (ends : Bool) (acts : List (Report × Nat)) (s : State) : State :=
  let s1 := bumpGsc (raiseLast acts { s with seq := { s.seq with pos := 0, spos := s.seq.spos + 1, frameStall := 0 } })
  if s1.seq.st ≠ .flight then s1 else if ends then beginLock s1.seq.gsc.toNat s1 else carryTaint s1

/-- The second tick step of frame F (R73): the faults it detects are logged and taint before the frame's taint summary closes,
and a safe-state reaction takes effect after the step (R266, R267). -/
def secondBody (hs : List Happening) (s : State) : State :=
  let s0 := strikes hs s
  let x := andThen overrunCheck (scrubs hs (andThen (memPorts s0) (reachStep s0 s0)))
  let acts := reportActs x.1 x.2
  let s1 := raiseFirst acts (prechecks s0 (dacScan s0 x.1))
  afterFrame (flightEnds s0) acts (secondActions s0 s1)

/-- SECOND_TICK_STEP. -/
def secondTickStep (hs : List Happening) (s : State) : State := seqStep secondReady (secondBody hs) s

/-- The import entries the return window writes in step `k` count for the comparators of the next frame (R375). -/
def returnWindowStep (k : Nat) (s : State) : State :=
  let now := s.xch.retWin.filter (·.step = k)
  now.foldl (fun s r =>
    let d := retDesc s r.site
    (List.range (nfld d 34 29 + 1)).foldl (fun s i => dacReturn (nfld d 62 46) (nfld d 45 35 + i) (pget r.value i) s) s)
    (returnWindow k s)

/-- Lock-phase step `k` lies in the stretch, where the fabric clocks are gated (R76, R77). -/
def inStretch (s : State) (k : Nat) : Bool := decide (s.seq.len ≤ k + 16) && decide (k + 16 < s.seq.lam)

/-- One step of the lock phase by its segment (R76, R77). -/
def lockBody (hs : List Happening) (s : State) : State :=
  let s0 := strikes hs s
  let k := s0.seq.lockPos
  let x1 := if k = 0 then returnDeadline (applyThrottle s0) else (s0, [])
  let s2 := if k < 16 then returnWindowStep k x1.1 else x1.1
  let x3 := if k + 16 = s2.seq.lam then andThen returnOverrun (closeRecord s2, x1.2) else (s2, x1.2)
  let s4 := if k + 12 = s2.seq.lam then applyConfig x3.1 else x3.1
  let x := if inStretch s2 k then (s4, x3.2) else scrubs hs (s4, x3.2)
  let acts := reportActs x.1 x.2
  let s5 := raiseFirst acts (prechecks s2 x.1)
  let s6 := { s5 with seq := { s5.seq with lockPos := k + 1 } }
  bumpGsc (raiseLast acts (if k + 1 = s6.seq.lam then barrierDecision s6 else s6))

/-- LOCK_PHASE_STEP. -/
def lockPhaseStep (hs : List Happening) (s : State) : State := seqStep lockReady (lockBody hs) s

/-- The WAITs at the stalled step whose replies are absent (R87, R165). -/
def waitHolds (s : State) (p : Nat) : Bool :=
  (runBasins s).any fun b => (List.range 4).any fun i =>
    let q := 4 * b + i
    (List.range 16).any fun t => (mget 0#16 (getSlu s q).waitMap p).getLsbD t && getTag s q t = .waiting

/-- A blocking return due in the lock phase of flight `n` is missing (R213). -/
def returnHolds (s : State) (n : Nat) : Bool :=
  match s.seq.preRet.find? (·.1 = n) with
  | some (_, g, _) => hasWharf s && dueMissing g s
  | none => false

/-- A partition stands at its reserve (R200). -/
def capacityHolds (s : State) : Bool :=
  hasWharf s && (List.range 64).any fun j => partSize s j ≠ 0 && decide (partFree s j ≤ partReserve s j)

/-- This device's own holding condition for one of the stall's events (R87). -/
def evHolds (s : State) (e : GEvent) : Bool :=
  match e.kind, e.at_ with
  | 1, .wait _ p => waitHolds s p
  | 2, .lock n => returnHolds s n
  | 3, _ => capacityHolds s
  | 4, _ => trcHolds s
  | _, _ => false
def stallHolds (s : State) : Bool := s.seq.stallEvs.any (evHolds s)

/-- This device reports release in the present stall cycle (R87, R182). -/
def reportRelease (s : State) : State :=
  sendExpress 9 s.seq.stallCyc { s with seq := { s.seq with ownRel := some s.seq.stallCyc } }

/-- The group release cycle, once every device has reported (R87). -/
def groupRelease (s : State) : Option Nat :=
  match s.seq.ownRel with
  | none => none
  | some r =>
    (otherDevs s).foldl (fun acc d =>
      match acc, s.grp.releases.find? (·.1 = d) with
      | some m, some (_, some c) => some (max m c)
      | _, _ => none) (some r)

/-- The stalled step's state again, at stall cycle R (R87). -/
def resumeStall (s : State) : State :=
  { s with seq := { s.seq with st := s.seq.ret, stallEvs := [], resume := none, ownRel := none } }

/-- One stall cycle passes (R87).  SEQ_STALL_CYC counts a unit as the stall's own count passes each multiple of 256, and the cycles
of a stall that takes effect at a frame's step 0 belong to that frame's duration: DESIGN CHOICE (log entry 40), R98 and R92 leave
both open. -/
def stallCycle (s : State) : State :=
  if s.seq.st ≠ .stall then s
  else
    let s1 := if s.seq.ownRel = none && !stallHolds s then reportRelease s else s
    let res := match s1.seq.resume with
      | some r => some r
      | none => (groupRelease s1).map fun r => alignUp (r + 256) 256
    let counted : Nat := if s1.seq.ret = .flight then 1 else 0
    let s2 := rcount oSeqStallCyc 31 0 (if (s1.seq.stallCyc + 1) % 256 = 0 then 1 else 0) (bankCycles { s1 with
      seq := { s1.seq with stallCyc := s1.seq.stallCyc + 1, resume := res, frameStall := s1.seq.frameStall + counted } })
    match res with
    | some r => if r ≤ s2.seq.stallCyc then resumeStall s2 else s2
    | none => s2

/-- The stall's count has reached its limit, at a multiple of 256 (R89). -/
def stallLimit (s : State) : Bool :=
  let u := rfld s oSeqStallTmo 23 0
  u ≠ 0 && decide (256 * u ≤ s.seq.stallCyc) && s.seq.stallCyc % 256 = 0

/-- STALL_TIMEOUT (R89): a device that still holds reports the fault and release; its conditions are resolved as Deadline
mode resolves them when the stalled step executes (R213), that of a trace stall as STALL = 0 does (R371). -/
def stallTimeout (s : State) : State :=
  if s.seq.st ≠ .stall || !stallLimit s || s.seq.ownRel.isSome || !stallHolds s then s
  else
    let traced := s.seq.stallEvs.any (fun e => e.kind = 4) && trcHolds s
    let s1 := reportRelease (raise 0x5004 0 0 (seqInt 3 (rflag oSeqSts 9 s)))
    { s1 with trc := { s1.trc with waived := s1.trc.waived || traced } }

/-- Every scheduled path empty, no export, no staged value (R427); no shadow mismatch of the ended run counts any longer
(R260). -/
def emptyPaths (s : State) : State :=
  let fc (c : Cluster) : Cluster := { c with memOps := [], expo := [], staged := [], xsent := false, shd := [] }
  let fb (b : Basin) : Basin := { b with lanes := [], egress := [] }
  let fl (l : Link) : Link := { l with buf := [], rxV := 0, early := [], marks := [] }
  { s with fab := mmapv Cluster.fresh fc s.fab, bas := mmapv Basin.fresh fb s.bas, lnk := mmapv Link.fresh fl s.lnk }

/-- A start at F = 0 (R81, R226, R427, R428).  Of the events agreed before it, whose coordinates lay in the ended run, a
throttle change and an emergency halving take effect at the first step that can apply them, and a halt lapses (log entry 18). -/
def newRun (s : State) : State :=
  let s1 := configNow (emptyPaths (runEnd { s with slu := mmapv Sluice.fresh (fun u => { u with modeAt := [] }) s.slu,
                                                   grp := { s.grp with taints := [] } }))
  let s2 := rset oSeqOvrMax 0#32 (rset oSeqStallCnt 0#32 (rset oSeqStallCyc 0#32 s1))
  let evs := (s2.seq.events.filter (·.kind = 6)).map fun e => { e with at_ := .gsc 0 }
  { s2 with seq := { s2.seq with F := 0, gsc := 0, spos := 0, pos := 0, fltPos := 0, fltNum := 0, lockPos := 0, events := evs,
                                 thrPend := s2.seq.thrPend.map fun t => { t with e0 := 0 }, thrGsc := 0, lockGsc := 0,
                                 fltRec := none, preRet := [], taint := [], carry := none, finalTo := none, voided := false,
                                 halt := none, frameStall := 0, ret := .flight } }

/-- The first sequencer step comes next (R81, R84, R190): from the resume position that a clock loss left, else with a new
flight. -/
def beginRun (fresh : Bool) (steps : Nat) (s : State) : State :=
  let s1 := if fresh then newRun s else s
  let s2 := { s1 with seq := { s1.seq with st := s1.seq.ret, ret := .flight, stepf := decide (steps ≠ 0),
                                           left := BitVec.ofNat 32 steps, runPend := none } }
  if s1.seq.ret = .flight && s1.seq.pos = 0 && s1.seq.fltPos = 0 then
    { s2 with seq := { s2.seq with mode := rbit s2 oLkgMode 0, frameStall := 0 } }
  else s2

end Sys2Proof.Machine
end

