-- ==== Sys2Proof/Machine/Lkp.lean ====
section
/-!
DEFINITION. The lockkeeper's commands in general: the reply, the order of the checks, what is in progress (R386-R392).
-/
namespace Sys2Proof.Machine

/-- Status codes (R390). -/
def stOk : Nat := 0
def stBadOpcode : Nat := 1
def stBadParam : Nat := 2
def stBusy : Nat := 3
def stNoUnit : Nat := 4
def stDenied : Nat := 5
def stLatency : Nat := 6
def stCapacity : Nat := 7
def stTimeout : Nat := 8
def stFenced : Nat := 9
def stFaulted : Nat := 10
def stEndurance : Nat := 11

def crRing (i : Nat) : RingRegs := ⟨oLkpCrLo i, oLkpCrHi i, oLkpCrPi i, oLkpCrCi i⟩
def rrRing (i : Nat) : RingRegs := ⟨oLkpRrLo i, oLkpRrHi i, oLkpRrPi i, oLkpRrCi i⟩

/-- The 32 bytes of a reply record (R387). -/
def replyBytes (phase : Nat) (c : Cmd) (status r0 r1 r2 : Nat) : List Byte :=
  leBytes 4 (phase * 2 ^ 31 + c.op % 256 * 2 ^ 16 + status) ++ leBytes 4 c.tag ++ leBytes 8 r0 ++ leBytes 8 r1 ++ leBytes 8 r2

/-- The mailbox takes a reply (R389). -/
def mboxReply (bs : List Byte) (s : State) : State :=
  let s1 := (List.range 8).foldl (fun s w =>
    rset (oLkpMboxRpl w) (BitVec.ofNat 32 (leNat ((bs.drop (4 * w)).take 4))) s) s
  let was := rbit s oLkpMboxCtl 1
  let s2 := rmod oLkpMboxCtl (fun w => setBit (clrBit w 0) 1) s1
  if was then s2 else signal 22 s2

/-- The command is over and answered on the port it came from (R386-R389). -/
def reply (c : Cmd) (status r0 r1 r2 : Nat) (s : State) : State :=
  let s1 := { s with lkp := { s.lkp with run := s.lkp.run.erase c } }
  if c.port < 16 then
    (if ringEn s1 (rrRing c.port) then
      ringPush (rrRing c.port) 32 c.port (replyBytes (ringPhase s1 (rrRing c.port)) c status r0 r1 r2) s1
    else s1)
  else if c.port = 16 then mboxReply (replyBytes 0 c status r0 r1 r2) s1
  else s1

/-- The command is in progress: its reply comes later. -/
def started (c : Cmd) (s : State) : State := { s with lkp := { s.lkp with run := s.lkp.run ++ [c] } }

/-- The requests of the lockkeeper at the banks are given up: their replies come too late (R343). -/
def accessDrop (s : State) : State :=
  let late (r : SvcReq) : SvcReq := if r.master = 1 && r.answer = .direct then { r with answer := .late } else r
  { s with dmc := { s.dmc with waiting := s.dmc.waiting.map late, deferred := s.dmc.deferred.map late,
                               replies := s.dmc.replies.filter (·.master ≠ 1) },
           lkp := { s.lkp with access := [] } }

/-- R0 of a command refused or cut off: of IMG_LOAD and IMG_VERIFY, whose check code and section are valid with any status, no section (R251, R393). -/
def refusedR0 (c : Cmd) : Nat := if c.op = 0x01 || c.op = 0x02 then 0xFFFF0000 else 0

/-- Every command in flight is answered TIMEOUT (R282, R299). -/
def timeoutAll (s : State) : State := accessDrop (s.lkp.run.foldl (fun s c => reply c stTimeout (refusedR0 c) 0 0 s) s)

/-- A command of opcode `op` is in progress. -/
def inProgress (s : State) (op : Nat) : Bool := s.lkp.run.any (·.op = op)

/-- An IMG_LOAD is in progress (CFG_STS.LOADING). -/
def loading (s : State) : Bool := s.lkp.load.isSome

/-- The firmware runs and takes commands (LKP_STS.READY). -/
def lkpReady (s : State) : Bool := rbit s oLkpSts 31

/-- The member may carry out a command that the lead carries out for its group (R393). -/
def leads (s : State) : Bool := !grpFormed s || leadDev s = s.dev.devid

/-- Refused while the device is in SAFE or CLK_HALT (R391); a disarm by TRACE_ARM is accepted in any state (R372). -/
def cmdFaulted (s : State) (c : Cmd) : Bool :=
  (s.seq.st = .safe && !([0x06, 0x10, 0x11, 0x15].contains c.op) && !(c.op = 0x0C && !nbit c.flags 0)) ||
    (s.seq.st = .clkHalt && [0x01, 0x02, 0x03, 0x04, 0x05, 0x0B].contains c.op)

/-- Refused with BUSY because an IMG_LOAD is in progress, whatever else its state would give (R292). -/
def loadBusy (s : State) (op : Nat) : Bool :=
  loading s && [0x01, 0x02, 0x03, 0x05, 0x06, 0x07, 0x08, 0x09, 0x0A, 0x0F, 0x13].contains op

/-- Refused because the same opcode is in progress (R392). -/
def cmdBusy (s : State) (op : Nat) : Bool := inProgress s op && op ≠ 0x04 && op ≠ 0x06

/-- The status a command is refused with, in the order of R391; 0 where it is carried out.  `faulted`: the state of another member
refuses it. -/
def refusal (c : Cmd) (s : State) (form unit denied busy : Bool) (faulted : Bool := false) : Nat :=
  if !form || c.rsv ≠ 0 then stBadParam
  else if !unit then stNoUnit
  else if cmdFaulted s c || faulted then stFaulted
  else if loadBusy s c.op then stBusy
  else if denied then stDenied
  else if busy || cmdBusy s c.op then stBusy
  else 0

/-- A command of the port can be taken (R388): the firmware runs, the port's command before is answered, and the reply ring, while it
is enabled, has a free record. -/
def takes (s : State) (port : Nat) : Bool :=
  lkpReady s && !(port ≤ 16 && s.lkp.run.any (·.port = port)) && !(port < 16 && ringEn s (rrRing port) && !ringRoom s (rrRing port))

/-- The command carried out by `body`, or refused (R391); nothing happens where it cannot be taken. -/
def command (c : Cmd) (s : State) (form unit denied busy : Bool) (body : State → State) (faulted : Bool := false) : State :=
  if !takes s c.port then s
  else match refusal c s form unit denied busy faulted with
    | 0 => body s
    | st => reply c st (refusedR0 c) 0 0 s

/-- Parameter bytes the opcode does not use are zero (R387). -/
def noP3 (c : Cmd) : Bool := c.p3.all (· = 0#8)

/-- IDLE, READY or PAUSED; the device runs. -/
def seqCode (st : SeqSt) : Nat :=
  match st with
  | .idle => 0 | .ready => 1 | .flight => 2 | .lock => 3 | .stall => 4 | .paused => 5 | .clkHalt => 6 | .safe => 7

/-- The states in the order of their codes. -/
def seqOfCode (n : Nat) : SeqSt :=
  match n with
  | 1 => .ready | 2 => .flight | 3 => .lock | 4 => .stall | 5 => .paused | 6 => .clkHalt | 7 => .safe | _ => .idle

/-- A placed basin is fenced (R293). -/
def placedFenced (s : State) : Bool := (placedBasins s).any (rbit s oCfgFenced)

/-- This device's state as a report for the lead (R81, R253, R316, R327, R360). -/
def ownReport (s : State) : MemberRep :=
  { st := if pauseHeld s then .lock else s.seq.st, lock := rbit s oCkgSts 8, digest := s.lkp.digest, power := rfld s oPwrSts 2 0,
    hold := rbit s oTimSts 1, fenced := placedFenced s, apart := s.seq.diverged }

/-- A member whose state has changed reports it to its lead over the ring (R81, R253, R316, R327, R360). -/
def reportState (s : State) : State :=
  let r := ownReport s
  if !grpFormed s || leadDev s = s.dev.devid || s.lkp.told = some r then s
  else ringSend (leadDev s) (.report (seqCode r.st) r.lock r.digest r.power r.hold r.fenced r.apart) { s with lkp := { s.lkp with told := some r } }

/-- Every other member has reported a state with the property (R253, R316, R327, R360). -/
def othersAll (s : State) (p : MemberRep → Bool) : Bool :=
  (otherDevs s).all fun d => match s.lkp.reports.find? (·.1 = d) with
    | some (_, r) => p r
    | none => false

end Sys2Proof.Machine
end

