-- ==== Sys2Proof/Machine/BargeOps.lean ====
section
/-!
DEFINITION. Nodes of the barge network, their stubs, and the drain and fence handshake (R334, R343, R345).
-/
namespace Sys2Proof.Machine

/-- Row and column of a node (R334): the basins as in the mesh, the unit nodes in the rows below them. -/
def nodePlace (s : State) (n : Nat) : Nat × Nat :=
  if n < 32 then (n / 8, n % 8) else (nRows s + (n - 32) / 8, (n - 32) % 8)

/-- The places from `a` to `b` on one line, `a` left out: each step goes one towards `b`. -/
def walk (a b : Nat) : List Nat := if a ≤ b then (List.range (b - a)).map (a + 1 + ·) else (List.range (a - b)).map (a - 1 - ·)

/-- The routers a barge passes from node `src` to node `dst` (R335): along the row to the destination's column, then along that
column; every router of the basin rows is present, whatever the state of its node (R334, R336). -/
def bargeRoute (s : State) (src dst : Nat) : List (Nat × Nat) :=
  let (r0, c0) := nodePlace s src
  let (r1, c1) := nodePlace s dst
  (r0, c0) :: (walk c0 c1).map (r0, ·) ++ (walk r0 r1).map (·, c1)

/-- Unit-clock cycles a header flit takes from `src` to `dst`: two a hop (R335). -/
def routeCycles (s : State) (src dst : Nat) : Nat := 2 * ((bargeRoute s src dst).length - 1)

/-- Node `n`, fence and draining aside, answers for itself: a basin that is present and clocked, a unit that is present and clocked;
node 46 is the endpoint and node 47 DMC (R334, R343). -/
def nodeAlive (s : State) (n : Nat) : Bool :=
  if n < 32 then decide (n < nBasins s) && rbit s oCkgEn1 n && unitOn s 14
  else if n = 46 then true
  else decide (n < 48) && unitOn s (n - 32)

/-- Node `n` is FENCED, or it drains (R345). -/
def nodeFenced (s : State) (n : Nat) : Bool := decide (n < 32) && rbit s oCfgFenced n
def nodeDrains (s : State) (n : Nat) : Bool := s.bnw.draining.any (·.1 = n)

/-- The stub of node `n` answers a request of master `m` with FENCED (R343, R345): requests of the lockkeeper pass to a fenced
basin. -/
def stubAnswers (s : State) (n m : Nat) : Bool :=
  !nodeAlive s n || nodeDrains s n || (nodeFenced s n && m ≠ 1)

/-- BNW_UFENCED as it reads. -/
def ufencedView (s : State) : Word :=
  BitVec.ofNat 32 ((List.range 16).map fun u => if u ≠ 14 && stubAnswers s (32 + u) 0 then 2 ^ u else 0).sum

/-- Every request node `n` has accepted is replied to, and its own requests have their replies (R345). -/
def nodeQuiet (s : State) (n : Nat) : Bool :=
  !s.bnw.taken.any (·.dst = n) && !s.bnw.sent.any (·.src = n) &&
    (n ≠ 47 || (s.dmc.waiting = [] && s.dmc.deferred = [])) && (n ≠ 45 || s.hold.jobs = [])

/-- R1 of the reply: the first completion code other than OK, and the item it came with. -/
def firstCode (codes : List Nat) : Nat :=
  match codes.zipIdx.find? fun x => x.1 ≠ 0 with
  | some (c, i) => c + i * 2 ^ 32
  | none => 0

/-- An access to design memory is answered with the items it has done (R394): a read's values go to its buffer. -/
def accessAnswer (a : AccessRun) (status : Nat) (s : State) : State :=
  let s1 := { s with lkp := { s.lkp with access := s.lkp.access.erase a } }
  let s2 := if a.write then s1 else hostPut a.buf (a.got.flatMap fun x => leBytes 8 x.2.toNat) s1
  reply a.cmd status a.got.length (firstCode (a.got.map (·.1))) 0 s2

/-- A FENCE command whose last drain has ended is answered (R293, R395). -/
def fenceSettle (s : State) : State :=
  if s.bnw.draining.any (·.2 = .fence) then s
  else match s.lkp.run.find? (·.op = 0x09) with
    | some c =>
      reply c (if s.bnw.forced then stTimeout else stOk) (rget s oCfgFenced).toNat 0 0
        { s with bnw := { s.bnw with forced := false } }
    | none => s

/-- Node `n` becomes FENCED (R345): by its fence bit, or by the clock enable whose clearing waited for it; that of the basins waits for
the last of them. -/
def nodeCloses (n : Nat) (why : DrainFor) (s : State) : State :=
  match why with
  | .gate => if n < 32 then rmod oCkgEn1 (clrBit · n) s else rmod oCkgEn0 (clrBit · (n - 32)) s
  | .gateBas => if s.bnw.draining.any (·.2 = .gateBas) then s else rmod oCkgEn0 (clrBit · 14) s
  | _ => rflag oCfgFenced n s

/-- A control barge is sent (R340); behind one of the same pair it waits. -/
def controlSend (kind frm dst : Nat) (s : State) : State :=
  { s with bnw := { s.bnw with control := s.bnw.control ++ [(kind, frm, dst)] } }

/-- The drain of node `n` ends (R345). -/
def drainEnds (n : Nat) (s : State) : State :=
  let whys := (s.bnw.draining.filter (·.1 = n)).map (·.2)
  let s1 := { s with bnw := { s.bnw with draining := s.bnw.draining.filter (·.1 ≠ n) } }
  fenceSettle (whys.foldl (fun s w => nodeCloses n w s) s1)

/-- DRAIN_COMPLETE (R345): the node, which has nothing under way, is FENCED and acknowledges the drain to the lockkeeper, the agent of
fence and drain control (R338). -/
def drainComplete (n : Nat) (s : State) : State :=
  if nodeDrains s n && nodeQuiet s n then drainEnds n (controlSend 1 n 32 s) else s

/-- A fence of the nodes `ns` is requested (R345): their ports are DRAINING, and FENCED at once where nothing is under way. -/
def startDrains (ns : List Nat) (why : DrainFor) (s : State) : State :=
  let s1 := { s with bnw := { s.bnw with draining := s.bnw.draining ++ ns.map (·, why) } }
  ns.foldl (fun s n => drainComplete n (controlSend 0 32 n s)) s1

/-- The barge that carries a service access (R338, R341): the request as its sender knows it. -/
def svcBarge (r : SvcReq) : Barge :=
  let len := if r.half.isSome then 4 else 8
  let op := match r.op with
    | .read | .readHalf => 0
    | .write | .partialW => 1
    | .setBits => 2
    | .clearBits => 3
  let bytes := leBytes 8 r.data.toNat
  { pri := 2, cls := 0, master := r.master, dst := 47, src := if r.master = 0 then 46 else if r.master = 1 then 32 else 43,
    remote := false, dev := 0, tag := r.tag % 4096, op := op, status := 0, code := 0, ndata := 0, len := len,
    addr := if r.master = 0 then r.addr else 0x40000 * r.bank + 8 * r.word,
    data := if op = 0 then [] else (if r.half = some true then bytes.drop 4 else bytes).take len }

/-- The service accesses at the banks whose answers their senders still await, as barges. -/
def svcSent (s : State) : List Barge := ((s.dmc.waiting ++ s.dmc.deferred).filter (·.answer = .direct)).map svcBarge

/-- The requests that node `n` has accepted, as their senders know them (R345). -/
def acceptedAt (s : State) (n : Nat) : List Barge :=
  s.bnw.taken.filter (·.dst = n) ++ (if n = 47 then svcSent s else []) ++ (if n = 45 then jobSent s else [])

/-- The requests node `n` has accepted are abandoned (R345). -/
def abandon (n : Nat) (s : State) : State :=
  let dm := n = 47
  { s with bnw := { s.bnw with taken := s.bnw.taken.filter (·.dst ≠ n) },
           dmc := { s.dmc with waiting := if dm then [] else s.dmc.waiting, deferred := if dm then [] else s.dmc.deferred },
           hold := { s.hold with jobs := if n = 45 then [] else s.hold.jobs } }

/-- CONTROL_BARGE_ARRIVAL (R340, R345): consumed into the control sink of node `dst`, in the entry of its sender; of those the model
has sent between the two nodes only the oldest can arrive.  `kind` 0 fence control, 1 drain acknowledgment, 2 credit restore: the
tags and credits held for node `frm` are free again.  The drain of a FENCE began at the command and its acknowledgment is counted
at DRAIN_COMPLETE, so kinds 0 and 1 change nothing more (DESIGN CHOICE, log entry 26). -/
def controlArrival (kind frm dst : Nat) (s : State) : State :=
  let pair (x : Nat × Nat × Nat) : Bool := x.2 = (frm, dst)
  if 3 ≤ kind || 48 ≤ frm || 48 ≤ dst || (s.bnw.control.find? pair).any (·.1 ≠ kind) then s
  else
    let s1 := { s with bnw := { s.bnw with control := s.bnw.control.erase (kind, frm, dst),
                                           sink := (kind, frm, dst) :: s.bnw.sink.filter (!pair ·) } }
    if kind = 2 then { s1 with bnw := { s1.bnw with dead := s1.bnw.dead.filter fun b => !(b.dst = frm && b.src = dst) } } else s1

end Sys2Proof.Machine
end

