-- ==== Sys2Proof/Machine/Image.lean ====
section
/-!
DEFINITION. The Plegranov image as the loader reads it: header, directory, sections and records (R239-R243).  Where the spec
names a section's content and not its bytes, the layout is the model's own (log entry 20).
-/
namespace Sys2Proof.Machine

/-- One directory entry (R240). -/
structure Sec where
  idx    : Nat
  type   : Nat
  vdev   : Nat
  vbasin : Nat
  off    : Nat
  len    : Nat
  crc    : Nat
  deriving DecidableEq, Repr

/-- An image's header and directory, read from host address `base` (R239). -/
structure Img where
  base  : Nat
  len   : Nat
  magic : Nat
  fmt   : Nat
  units : Nat
  l     : Nat
  v     : Nat
  n     : Nat
  rows  : Nat
  cols  : Nat
  flags : Nat
  d     : Nat
  h     : Nat
  nsec  : Nat
  hold  : Nat
  dir   : Nat
  secs  : List Sec
  deriving DecidableEq, Repr

/-- `n` bytes of host memory at `a`, little-endian. -/
def hostNum (s : State) (a n : Nat) : Nat := leNat (hostGet s a n)

/-- Directory entry `i` of an image at `base` whose directory lies at `dir`. -/
def readSec (s : State) (base dir i : Nat) : Sec :=
  let a := base + dir + 24 * i
  ⟨i, hostNum s a 2, hostNum s (a + 2) 1, hostNum s (a + 3) 1, hostNum s (a + 4) 8, hostNum s (a + 12) 8, hostNum s (a + 20) 4⟩

/-- The image at `base` of `len` bytes. -/
def readImg (s : State) (base len : Nat) : Img :=
  let f (o n : Nat) : Nat := hostNum s (base + o) n
  { base := base, len := len, magic := f 0 4, fmt := f 4 2, units := f 6 2, l := f 8 2, v := f 10 1, n := f 11 1,
    rows := f 12 1, cols := f 13 1, flags := f 14 1, d := f 15 1, h := f 16 2, nsec := f 18 2, hold := f 20 4, dir := f 24 8,
    secs := if f 24 8 + 24 * f 18 2 ≤ len then (List.range (f 18 2)).map (readSec s base (f 24 8)) else [] }

def Img.pin (im : Img) : Bool := nbit im.flags 0

/-- The bytes of a section; `n` of them from `o` on, as a number. -/
def secBytes (s : State) (im : Img) (x : Sec) : List Byte := hostGet s (im.base + x.off) x.len
def secNum (s : State) (im : Img) (x : Sec) (o n : Nat) : Nat := hostNum s (im.base + x.off + o) n

/-- DIGEST as it stands in the header, and of the whole file with that field zero (R239). -/
def imgDigest (s : State) (im : Img) : List Byte := hostGet s (im.base + 32) 32
def imgSum (s : State) (im : Img) : List Byte :=
  sha256 (hostGet s im.base 32 ++ List.replicate 32 0#8 ++ hostGet s (im.base + 64) (im.len - 64))

/-- The virtual device this device is (R249). -/
def ownVdev (s : State) : Nat := if grpFormed s then (members s).idxOf s.dev.devid else 0

/-- The sections virtual device `i` loads: its own and those of every device (R253), of one type. -/
def vdevSecs (im : Img) (i type : Nat) : List Sec := im.secs.filter fun x => x.type = type && (x.vdev = 0xFF || x.vdev = i)

/-- The sections this device loads. -/
def ownSecs (s : State) (im : Img) (type : Nat) : List Sec := vdevSecs im (ownVdev s) type

/-- Step `t` of logical processor `p` of cluster `c` in an INSTR section; routing word `t` of cluster `c`, `t` from 0 to L+1, in a
ROUTE section. -/
def imgInstr (s : State) (im : Img) (x : Sec) (c p t : Nat) : BitVec 64 :=
  BitVec.ofNat 64 (secNum s im x (8 * ((c * 64 + p) * im.l + t)) 8)
def imgRoute (s : State) (im : Img) (x : Sec) (c t : Nat) : BitVec 256 :=
  BitVec.ofNat 256 (secNum s im x (32 * (c * (im.l + 2) + t)) 32)

/-- One INIT or BANKINIT record (R242, R243): object, first item, count, the words that follow; `none` for a fill. -/
structure InitRec where
  obj   : Nat
  first : Nat
  count : Nat
  fill  : Option Nat
  words : List Nat
  rsv   : Bool           -- a reserved header bit is set
  deriving DecidableEq, Repr

/-- The 64-bit words of a section. -/
def secWords (s : State) (im : Img) (x : Sec) : List Nat := (List.range (x.len / 8)).map fun i => secNum s im x (8 * i) 8

/-- The records of an INIT section (R242), or `none` where the words run out within a record. -/
def initRecs : Nat → List Nat → Option (List InitRec)
  | 0, ws => if ws = [] then some [] else none
  | _ + 1, [] => some []
  | k + 1, h :: t =>
    let cnt := nfld h 35 25 + 1
    let n := if nbit h 24 then 0 else (cnt + 31) / 32
    if t.length < n then none
    else (initRecs k (t.drop n)).map fun rs =>
      ⟨nfld h 63 47, nfld h 46 36, cnt, if nbit h 24 then some (nfld h 23 22) else none, t.take n, nfld h 21 0 ≠ 0⟩ :: rs

/-- The records of a BANKINIT section (R243). -/
def bankRecs : Nat → List Nat → Option (List InitRec)
  | 0, ws => if ws = [] then some [] else none
  | _ + 1, [] => some []
  | k + 1, h :: t =>
    let cnt := nfld h 39 25 + 1
    let n := if nbit h 24 then 1 else cnt
    if t.length < n then none
    else (bankRecs k (t.drop n)).map fun rs =>
      ⟨nfld h 63 55, nfld h 54 40, cnt, if nbit h 24 then some (t.headD 0) else none, t.take n, nfld h 23 0 ≠ 0⟩ :: rs

def secInits (s : State) (im : Img) (x : Sec) : Option (List InitRec) := initRecs (secWords s im x).length (secWords s im x)
def secBanks (s : State) (im : Img) (x : Sec) : Option (List InitRec) := bankRecs (secWords s im x).length (secWords s im x)

/-- Entry `i` of an INIT record; word `i` of a BANKINIT record. -/
def initVal (r : InitRec) (i : Nat) : Nat :=
  match r.fill with
  | some v => v
  | none => nfld (r.words.getD (i / 32) 0) (2 * (i % 32) + 1) (2 * (i % 32))
def bankVal (r : InitRec) (i : Nat) : Nat :=
  match r.fill with
  | some v => v
  | none => r.words.getD i 0

/-- A table of the image: the entries of `n` bytes of the own section of the type. -/
def secEntries (s : State) (im : Img) (type n : Nat) : List Nat :=
  match ownSecs s im type with
  | x :: _ => (List.range (x.len / n)).map fun i => secNum s im x (n * i) n
  | [] => []

/-- A section's LENGTH fits the layout of its type for the counts of the header (R251, check 0x01). -/
def secFits (s : State) (im : Img) (x : Sec) : Bool :=
  let basin := decide (x.vbasin < im.v)
  match x.type with
  | 0x01 => basin && x.len = 64 * 64 * im.l * 8
  | 0x02 => basin && x.len = 64 * (im.l + 2) * 32
  | 0x03 => basin && x.len = 4
  | 0x04 => x.len % 8 = 0 && (secInits s im x).isSome
  | 0x05 => x.len = 12 * im.v * 4
  | 0x06 => x.len % 8 = 0 && (secBanks s im x).isSome
  | 0x07 => x.len = 4 * im.v * 16 * 8
  | 0x08 => x.len = 8 * 262144
  | 0x09 => x.len % 8 = 0 && decide (x.len ≤ 8 * 2 ^ 19)
  | 0x0A => x.len = 256
  | 0x0B => x.len = 4 * 32768
  | 0x0C => x.len = 2 * 16384
  | 0x0D => x.len = 48
  | 0x0E => x.len % 288 = 0 && decide (x.len ≤ 16 * 288)
  | _ => false

/-- Fields of a BANKS entry, in the form of DMC_OWN: mode, gang width, lane, virtual basin and cluster of the owner. -/
def bkMode (e : Nat) : Nat := nfld e 25 24
def bkGw (e : Nat) : Nat := nfld e 22 20 + 1
def bkLane (e : Nat) : Nat := nfld e 19 17
def bkOb (e : Nat) : Nat := nfld e 10 6
def bkOc (e : Nat) : Nat := nfld e 5 0

/-- Fields of a LINKS entry: used, peer virtual device, peer link, declared cable term. -/
def liUsed (e : Nat) : Bool := nbit e 31
def liDev (e : Nat) : Nat := nfld e 29 24
def liLink (e : Nat) : Nat := nfld e 23 20
def liTerm (e : Nat) : Nat := nfld e 7 0

end Sys2Proof.Machine
end

