-- ==== Sys2Proof/Machine/ImageCheck.lean ====
section
/-!
DEFINITION. The checks that refuse a load, and the placement (R246-R251).
-/
namespace Sys2Proof.Machine

/-- The logical processors of cluster `cl` that a load would find in the repair list, its pending nomination included (R248). -/
def repairLps (s : State) (cl : Nat) : List Nat :=
  let old := (s.lkp.repairs.filter (·.1 = cl)).map (·.2)
  let n := rfld s (cRepair cl) 6 0
  if rbit s (cRepair cl) 31 && decide (n < 64) && !old.contains n then old ++ [n] else old
/-- The cluster's shadow or spare has been nominated, or its spare has failed a march. -/
def repairMarked (s : State) (cl : Nat) : Bool :=
  s.lkp.marked.contains cl || s.lkp.badSpare.contains cl || (rbit s (cRepair cl) 31 && decide (64 ≤ rfld s (cRepair cl) 6 0))
/-- The cluster can be repaired, or needs no repair. -/
def repairable (s : State) (cl : Nat) : Bool := !repairMarked s cl && decide ((repairLps s cl).length ≤ 1)

/-- Virtual basin `v` can stand on physical basin `b` (R247). -/
def basinUsable (s : State) (im : Img) (v b : Nat) : Bool :=
  let bk := secEntries s im 0x05 4
  decide (b < nBasins s) && ((List.range 64).all fun c => repairable s (64 * b + c)) &&
    (List.range 12).all fun i => bkMode (bk.getD (12 * v + i) 0) = 0 || !rbit s (oDmcRepair (12 * b + i)) 31

/-- The places a footprint is tried at, in order (R246). -/
def placements (s : State) (im : Img) : List (List Nat) :=
  if im.pin then [List.range im.v]
  else
    (List.range (nRows s + 1 - im.rows)).flatMap fun dr => (List.range (nCols s + 1 - im.cols)).map fun dc =>
      (List.range im.v).map fun v => 8 * (dr + v / im.cols) + dc + v % im.cols

/-- The placement a load makes: the first at which every basin is usable (R246). -/
def placement (s : State) (im : Img) : Option (List Nat) :=
  (placements s im).find? fun pl => (List.range im.v).all fun v => basinUsable s im v (pl.getD v 0)

/-- The instruction a word of the image spells, its bank taken as virtual. -/
def imgOp (s : State) (im : Img) (x : Sec) (c p t : Nat) : POp := decodeWord (12 * im.v) true (imgInstr s im x c p t)

/-- Some word of an INSTR section has the property. -/
def anyOp (s : State) (im : Img) (x : Sec) (q : Nat → Nat → Nat → POp → Bool) : Bool :=
  (List.range 64).any fun c => (List.range 64).any fun p => (List.range im.l).any fun t => q c p t (imgOp s im x c p t)
/-- Some word of a ROUTE section has the property. -/
def anyRoute (s : State) (im : Img) (x : Sec) (q : Nat → Nat → BitVec 256 → Bool) : Bool :=
  (List.range 64).any fun c => (List.range (im.l + 2)).any fun t => q c t (imgRoute s im x c t)

/-- The first own section of a type that fails a test. -/
def firstSec (s : State) (im : Img) (type : Nat) (bad : Sec → Bool) : Option Nat := ((ownSecs s im type).find? bad).map (·.idx)
/-- A failed check that is no section's fault. -/
def whole (bad : Bool) : Option Nat := if bad then some 0xFFFF else none

def isXsend : POp → Bool
  | .xsend _ _ => true
  | _ => false
/-- The lane a gauge sub-operation names. -/
def gaugeLane : POp → Option Nat
  | .gdrv l | .gsmp l => some l
  | _ => none
/-- A slot that lands or relays takes its value from a link in-slot. -/
def usesLink (w : BitVec 256) : Bool :=
  (List.range 5).any fun k => (rLand w k || rRelays w k) && decide (0xA00 ≤ rSrc w k) && decide (rSrc w k < 0xBC0)

/-- Check 0x01: the form of the file. -/
def check01 (s : State) (im : Img) : Option Nat :=
  if decide (im.len < 64) || im.magic ≠ 0x56474C50 || im.fmt ≠ 1 || im.flags / 2 ≠ 0 || decide (im.len < im.dir + 24 * im.nsec)
  then some 0xFFFF
  else (im.secs.find? fun x => decide (im.len < x.off + x.len) || !secFits s im x).map (·.idx)

/-- Check 0x02, 0x03: the sums. -/
def check02 (s : State) (im : Img) : Option Nat :=
  (im.secs.find? fun x => (crc32 (secBytes s im x)).toNat ≠ x.crc).map (·.idx)
def check03 (s : State) (im : Img) : Option Nat := whole (imgSum s im ≠ imgDigest s im)

/-- Check 0x04: units. -/
def check04 (s : State) (im : Img) : Option Nat :=
  if Nat.land im.units (memUnits s.dev.member) ≠ im.units then some 0xFFFF
  else if hasWharf s then none
  else firstSec s im 0x01 fun x => anyOp s im x fun _ _ _ op => isXsend op

/-- The image uses gauge slots or link slots (R246). -/
def usesPins (s : State) (im : Img) : Bool :=
  ((ownSecs s im 0x01).any fun x => anyOp s im x fun _ _ _ op => (gaugeLane op).isSome) ||
    ((ownSecs s im 0x02).any fun x => anyRoute s im x fun _ _ w => usesLink w) ||
    (secEntries s im 0x0D 4).any liUsed

/-- Check 0x05: L. -/
def check05 (im : Img) : Option Nat := whole (decide (im.l < 8) || decide (1024 < im.l) || im.l % 8 ≠ 0)

/-- Check 0x06: the counts (R246).  On a member with one row a PIN = 0 image of other ROWS is refused here, and not as having no
placement: DESIGN CHOICE (log entry 62), R246 says only that the row count is 1. -/
def check06 (s : State) (im : Img) : Option Nat :=
  let shape := if im.pin then im.rows ≠ 0 || im.cols ≠ 0 || decide (nBasins s < im.v)
    else im.rows * im.cols ≠ im.v || decide (nRows s = 1 && im.rows ≠ 1) || usesPins s im
  whole (im.n ≠ (groupDevs s).length || im.v = 0 || decide (32 < im.v) || shape)

/-- Check 0x07, 0x08: places. -/
def check07 (s : State) (im : Img) : Option Nat := whole (placement s im = none)
def check08 (s : State) (im : Img) (hold : Nat) : Option Nat :=
  let a := hold / 4096
  let rb := rfld s oTrcBase 24 0
  let rs := rfld s oTrcSize 23 0
  whole (decide (holdBytes s < hold + 4096 * im.hold) ||
    (trcArmed s && im.hold ≠ 0 && rs ≠ 0 && decide (a < rb + rs) && decide (rb < a + im.hold)))

/-- Checks 0x09 to 0x0B: latencies (R250). -/
def check09 (s : State) (im : Img) : Option Nat := whole (decide (im.d < nativeD s))
def check0A (s : State) (im : Img) : Option Nat := whole (decide (nativeD s + rfld s oCapLatDm 15 8 < im.d))
def check0B (s : State) (im : Img) : Option Nat := whole (decide (im.h < rfld s oCapLatHold 15 0))

/-- The used links of the image, with their entries. -/
def usedLinks (s : State) (im : Img) : List (Nat × Nat) :=
  ((List.range 12).map fun n => (n, (secEntries s im 0x0D 4).getD n 0)).filter (liUsed ·.2)

/-- Check 0x0C: cable terms, and the descriptor's fixed latencies. -/
def check0C (s : State) (im : Img) : Option Nat :=
  if (usedLinks s im).any fun e => decide (liTerm e.2 < rfld s (oLnkDly e.1) 31 24) then firstSec s im 0x0D fun _ => true
  else whole (rget s oCapLatReach ≠ 0x00122301#32 || rfld s oCapLatXl 7 0 ≠ 0x60 || (hasWharf s && rfld s oCapLatXl 23 16 ≠ 0x18))

/-- The physical device of virtual device `i` (R249). -/
def vdevId (s : State) (i : Nat) : Nat := (groupDevs s).getD i 64

/-- Check 0x0D: links. -/
def check0D (s : State) (im : Img) : Option Nat :=
  if (usedLinks s im).any fun e =>
      !lnkUp s e.1 || !lnkGroup s e.1 || rfld s (oLnkPeer e.1) 29 24 ≠ vdevId s (liDev e.2) ||
        rfld s (oLnkPeer e.1) 23 20 ≠ liLink e.2
  then firstSec s im 0x0D fun _ => true
  else none

/-- REACHCFG of virtual basin `v` of virtual device `i`: an image without the section counts as XBAR_REG 0 and MESH_REG 0 (DESIGN
CHOICE, log entry 47); the directions the basin uses (R116). -/
def reachCfgOf (s : State) (im : Img) (i v : Nat) : Nat :=
  match (vdevSecs im i 0x03).find? (·.vbasin = v) with
  | some x => secNum s im x 0 4
  | none => 0
def usesDir (s : State) (im : Img) (i v d : Nat) : Bool :=
  (vdevSecs im i 0x02).any fun x => x.vbasin = v && anyRoute s im x fun c _ w =>
    (List.range 8).any fun j => (egrLane c j).1 = d && rEgr w j ≠ 0

/-- The highest step clock one basin of the image allows, in MHz (R116). -/
def basinMaxMhz (s : State) (im : Img) (i v : Nat) : Nat :=
  let cfg := reachCfgOf s im i v
  let xb := if nfld cfg 1 0 = 0 then 1000 else if nfld cfg 1 0 = 1 then 1300 else 1600
  (List.range 4).foldl (fun m d => if usesDir s im i v d && !nbit cfg (4 + d) then min m 1200 else m) xb

/-- The highest step clock the image allows: the lowest limit over every basin of every device it names (R116). -/
def imgMaxMhz (s : State) (im : Img) : Nat :=
  (List.range im.n).foldl (fun m i => (List.range im.v).foldl (fun m v => min m (basinMaxMhz s im i v)) m) 1600

/-- Check 0x0E: the step clock. -/
def check0E (s : State) (im : Img) : Option Nat := whole (decide (imgMaxMhz s im < rfld s oCkgStep 26 16))

/-- Two STATE instructions of a processor name one state entry (R40). -/
def statesClash (s : State) (im : Img) (x : Sec) : Bool :=
  (List.range 64).any fun c => (List.range 64).any fun p =>
    let es := (List.range im.l).filterMap fun t => match imgOp s im x c p t with
      | .eval _ true => some (wD (imgInstr s im x c p t))
      | _ => none
    !decide es.Nodup

/-- Check 0x0F: illegal instruction words (R35, R40). -/
def check0F (s : State) (im : Img) : Option Nat :=
  firstSec s im 0x01 fun x => anyOp s im x (fun _ _ _ op => op = .illegal) || statesClash s im x

/-- The bits a range sub-operation writes: MWD, HWD, XFD apart. -/
def rangeBits : POp → List (Nat × Nat)
  | .wset n i => (List.range n).map fun j => (0, i + j)
  | .hset n i => (List.range n).map fun j => (1, i + j)
  | .xset n i => (List.range n).map fun j => (2, i + j)
  | _ => []
/-- The port with a limit of one in a step that a sub-operation takes: 0 ASHL, 1 RD and WR, 2 HSHL, 3 HRD and HWR. -/
def onePort : POp → Option Nat
  | .ashl _ _ => some 0
  | .rd _ | .wr _ => some 1
  | .hshl _ _ => some 2
  | .hrd _ _ | .hwr _ _ => some 3
  | _ => none

/-- The sub-operations of a cluster in step `t` break a limit of R43. -/
def clusterStepClash (ops : List POp) : Bool :=
  let lanes := ops.filterMap fun op => match op with | .gdrv l => some l | _ => none
  (List.range 3).any (fun i => decide (1 < (ops.filter (onePort · = some i)).length)) ||
    !decide (ops.flatMap rangeBits).Nodup || !decide lanes.Nodup

/-- Check 0x10 within one INSTR section: R43, R58, R194. -/
def portsClash (s : State) (im : Img) (x : Sec) : Bool :=
  let opsAt (c t : Nat) : List POp := (List.range 64).map fun p => imgOp s im x c p t
  let inStep := (List.range im.l).any fun t =>
    ((List.range 64).any fun c => clusterStepClash (opsAt c t)) ||
      ((List.range 4).any fun i =>
        decide (1 < ((List.range 16).flatMap fun c => (opsAt (16 * i + c) t).filter (onePort · = some 3)).length)) ||
      decide (2 < ((List.range 64).flatMap fun c => (opsAt c t).filter isXsend).length)
  let inFrame := (List.range 64).any fun c =>
    decide (1 < ((List.range im.l).flatMap fun t => (opsAt c t).filter isXsend).length)
  inStep || inFrame ||
    anyOp s im x fun c _ _ op => match gaugeLane op with
      | some l => !laneBound s (64 * x.vbasin + c) l
      | none => false

/-- The probe IDs that the PROBEs of an INSTR section name (R43). -/
def probeIds (s : State) (im : Img) (x : Sec) : List Nat :=
  (List.range 64).flatMap fun c => (List.range 64).flatMap fun p =>
    (List.range im.l).filterMap fun t => match imgOp s im x c p t with | .probe id => some id | _ => none

/-- The own sections of a type that stand before `x` in the directory, `x` the last. -/
def secsTo (s : State) (im : Img) (x : Sec) : List Sec := (ownSecs s im x.type).filter fun y => decide (y.idx ≤ x.idx)

/-- Check 0x10: port limits; a probe ID that an earlier PROBE has. -/
def check10 (s : State) (im : Img) : Option Nat :=
  firstSec s im 0x01 fun x => portsClash s im x || !decide ((secsTo s im x).flatMap (probeIds s im)).Nodup

/-- A routing word of a PIN = 0 image uses a lane that leaves the footprint or enters it from outside (R246). -/
def leavesFoot (s : State) (pl : List Nat) (b c : Nat) (w : BitVec 256) : Bool :=
  let outside (d : Nat) : Bool := match neighbour s b d with | some nb => !pl.contains nb | none => true
  ((List.range 8).any fun j =>
    let d := (egrLane c j).1
    (rEgr w j ≠ 0 && outside d) || (rEgr w j = 2 && outside ((d + 2) % 4))) ||
  (List.range 5).any fun k => (rLand w k || rRelays w k) && decide (0x800 ≤ rSrc w k) && decide (rSrc w k < 0xA00) &&
    outside ((rSrc w k - 0x800) / 128)

/-- More than two import writes to one processor (R108). -/
def overImports (w : BitVec 256) : Bool :=
  (List.range 64).any fun p => decide (2 < b2n (rLocen w p) + (landSlots w p).length)

/-- Check 0x11: routing words and reach registers, of the device's own sections (DESIGN CHOICE, log entry 47). -/
def check11 (s : State) (im : Img) : Option Nat :=
  let pl := (placement s im).getD []
  match firstSec s im 0x02 (fun x =>
    let b := pl.getD x.vbasin 0
    anyRoute s im x fun c _ w => routeIllegal s (64 * b + c) w || overImports w || (!im.pin && leavesFoot s pl b c w)) with
  | some i => some i
  | none => firstSec s im 0x03 fun x =>
      let e := secNum s im x 0 4
      e / 256 ≠ 0 || nfld e 3 2 ≠ 0 || nfld e 1 0 = 3

/-- Check 0x12: BANKS. -/
def bankBad (im : Img) (es : List Nat) (j : Nat) : Bool :=
  let e := es.getD j 0
  let first := j - bkLane e
  let same (i : Nat) : Bool :=
    let x := es.getD (first + i) 0
    bkMode x = bkMode e && bkGw x = bkGw e && bkLane x = i && bkOb x = bkOb e && bkOc x = bkOc e
  bkMode e = 3 || (bkMode e = 1 && decide (im.v ≤ bkOb e)) ||
    (bkMode e ≠ 0 && (decide (j < bkLane e) || decide (bkGw e ≤ bkLane e) || first / 12 ≠ (first + bkGw e - 1) / 12 ||
      !(List.range (bkGw e)).all same))
def check12 (s : State) (im : Img) : Option Nat :=
  firstSec s im 0x05 fun x =>
    let es := (List.range (12 * im.v)).map fun i => secNum s im x (4 * i) 4
    (List.range (12 * im.v)).any (bankBad im es)

/-- No two records cover one item (R242, R243). -/
def recsApart : List InitRec → Bool
  | [] => true
  | r :: t => t.all (fun x => x.obj ≠ r.obj || decide (x.first + x.count ≤ r.first) || decide (r.first + r.count ≤ x.first)) && recsApart t
def recsOf (s : State) (im : Img) (x : Sec) : List InitRec :=
  (if x.type = 0x04 then secInits s im x else secBanks s im x).getD []

/-- Check 0x13: INIT and BANKINIT.  A reserved bit that is set in a record's header is refused with this code: DESIGN CHOICE (log
entry 63), no check of R251 names it. -/
def recsBad (objs items : Nat) (rs : List InitRec) : Bool :=
  rs.any (fun r => r.rsv || decide (objs ≤ r.obj) || decide (items < r.first + r.count)) || !recsApart rs
def check13 (s : State) (im : Img) : Option Nat :=
  let bad (objs items : Nat) (x : Sec) : Bool := recsBad objs items ((secsTo s im x).flatMap (recsOf s im))
  firstSec s im 0x04 (bad (4096 * im.v) 2048) <|> firstSec s im 0x06 (bad (12 * im.v) 32768)

/-- Check 0x14: regions. -/
def check14 (s : State) (im : Img) : Option Nat :=
  firstSec s im 0x07 fun x => (List.range (64 * im.v)).any fun i =>
    let size := secNum s im x (8 * i + 4) 4
    size ≠ 0 && decide (im.hold < secNum s im x (8 * i) 4 + size)

/-- A return descriptor is in form (R210); `es`: the BANKS entries. -/
def retBad (im : Img) (es : List Nat) (d : Nat) : Bool :=
  if retToDm d then nfld d 38 0 ≠ 0 || decide (12 * im.v ≤ nfld d 62 54) || bkMode (es.getD (nfld d 62 54) 0) ≠ 1
  else
    nfld d 28 0 ≠ 0 || decide (4096 * im.v ≤ nfld d 62 46) || decide (nfld d 45 35 < 1024) ||
      decide (1792 < nfld d 45 35 + nfld d 34 29 + 1)

/-- A landing of the image writes import entry `e` of virtual processor `g` (R106, R107). -/
def landsOn (s : State) (im : Img) (g e : Nat) : Bool :=
  (ownSecs s im 0x02).any fun x => x.vbasin = g / 4096 && (List.range (im.l + 2)).any fun t =>
    let w := imgRoute s im x (g % 4096 / 64) t
    (rLocen w (g % 64) && e = 1024 + t % 384) || (landSlots w (g % 64) ≠ [] && e = 1408 + t % 384)
def retOverlaps (s : State) (im : Img) (d : Nat) : Bool :=
  !retToDm d && (List.range (nfld d 34 29 + 1)).any fun i => landsOn s im (nfld d 62 46) (nfld d 45 35 + i)

/-- The payload values of a call-site entry (R193). -/
def entryNval (e : Nat) : Nat :=
  match ((List.range 16).filter (nbit (siteReq e))).getLast? with
  | some i => (i + 1) * siteW e
  | none => 0

/-- A call-site entry is invalid (R193, R203). -/
def siteBad (rets : Nat) (parts berths : List Nat) (e : Nat) : Bool :=
  let blocks : Bool := siteKind e = 2
  let noReq : Bool := siteReq e = 0
  let noPart : Bool := nfld (parts.getD (sitePart e) 0) 22 11 = 0
  let badRet : Bool := if blocks then decide (rets ≤ siteRet e) else decide (siteRet e ≠ 0)
  siteValid e && (noReq || decide (128 < entryNval e) || noPart || badRet || !nbit (berths.getD (siteBerth e) 0) 31)

/-- Partition extents overlap or leave the store (R196). -/
def partsBad (ps : List Nat) : Bool :=
  let ext (e : Nat) : Nat × Nat := (nfld e 10 0, nfld e 22 11)
  ps.any (fun e => nbit e 31 || decide (2048 < (ext e).1 + (ext e).2)) ||
    (List.range ps.length).any fun i => (List.range i).any fun j =>
      let a := ext (ps.getD i 0)
      let b := ext (ps.getD j 0)
      a.2 ≠ 0 && b.2 ≠ 0 && decide (a.1 < b.1 + b.2) && decide (b.1 < a.1 + a.2)

/-- Blocking call sites whose returns crowd one basin or one bank (R210). -/
def retsCrowd (im : Img) (sites rets : List Nat) : Bool :=
  let ds := (sites.filter fun e => siteValid e && siteKind e = 2).map fun e => rets.getD (siteRet e) 0
  ((List.range im.v).any fun v => decide (16 < (ds.filter fun d => !retToDm d && retBasin d = v).length)) ||
    (List.range (12 * im.v)).any fun j => decide (4 < (ds.filter fun d => retToDm d && nfld d 62 54 = j).length)

/-- Check 0x15: SITES, PARTS, BERTHS, RETURNS, FLOWS. -/
def check15 (s : State) (im : Img) : Option Nat :=
  let banks := secEntries s im 0x05 4
  let rets := secEntries s im 0x09 8
  let parts := secEntries s im 0x0A 4
  let berths := secEntries s im 0x0B 4
  let sites := secEntries s im 0x08 8
  let sec (type : Nat) : Option Nat := firstSec s im type fun _ => true
  let blocking := (sites.filter fun e => siteValid e && siteKind e = 2).map fun e => rets.getD (siteRet e) 0
  if sites.any (siteBad rets.length parts berths) then sec 0x08
  else if rets.any (retBad im banks) || retsCrowd im sites rets || blocking.any (retOverlaps s im) then sec 0x09
  else if partsBad parts then sec 0x0A
  else if berths.any fun e => nbit e 30 || nfld e 15 12 ≠ 0 then sec 0x0B
  else if (secEntries s im 0x0C 2).any fun e => nfld e 14 6 ≠ 0 then sec 0x0C
  else none

/-- The check phase (R251): check code, status and section of the failing check of the lowest code; none: the image passes. -/
def imageCheck (s : State) (im : Img) (hold : Nat) : Option (Nat × Nat × Nat) :=
  let at_ (code st : Nat) (r : Option Nat) : Option (Nat × Nat × Nat) := r.map fun sec => (code, st, sec)
  at_ 0x01 stBadParam (check01 s im) <|> at_ 0x02 stBadParam (check02 s im) <|> at_ 0x03 stBadParam (check03 s im) <|>
  at_ 0x04 stNoUnit (check04 s im) <|> at_ 0x05 stBadParam (check05 im) <|> at_ 0x06 stBadParam (check06 s im) <|>
  at_ 0x07 stCapacity (check07 s im) <|> at_ 0x08 stCapacity (check08 s im hold) <|>
  at_ 0x09 stLatency (check09 s im) <|> at_ 0x0A stLatency (check0A s im) <|> at_ 0x0B stLatency (check0B s im) <|>
  at_ 0x0C stLatency (check0C s im) <|> at_ 0x0D stBadParam (check0D s im) <|> at_ 0x0E stBadParam (check0E s im) <|>
  at_ 0x0F stBadParam (check0F s im) <|> at_ 0x10 stBadParam (check10 s im) <|> at_ 0x11 stBadParam (check11 s im) <|>
  at_ 0x12 stBadParam (check12 s im) <|> at_ 0x13 stBadParam (check13 s im) <|> at_ 0x14 stBadParam (check14 s im) <|>
  at_ 0x15 stBadParam (check15 s im)

end Sys2Proof.Machine
end

