-- ==== Sys2Proof/Machine/Loader.lean ====
section
/-!
DEFINITION. IMG_LOAD and IMG_VERIFY: the two phases, repair, placement, patching, the order of the writes, the release and the
ends of a load that fails (R244-R253, R289-R292, R382).
-/
namespace Sys2Proof.Machine

/-- The image and the hold base an IMG_LOAD or IMG_VERIFY names (R393). -/
def cmdImg (s : State) (c : Cmd) : Img := readImg s c.p0 c.p1
/-- The form of the command record. -/
def imgForm (c : Cmd) : Bool := c.flags = 0 && noP3 c && c.p2 % 4096 = 0

/-- A refused or abandoned load recorded (CFG_LOAD). -/
def recordLoad (phase code sec : Nat) : State → State :=
  rset oCfgLoad (BitVec.ofNat 32 (2 ^ 31 + phase * 2 ^ 30 + code * 2 ^ 16 + sec))

/-- R0 of the reply: check code and section index. -/
def imgR0 (code sec : Nat) : Nat := code + sec * 2 ^ 16

/-- IDLE, with nothing of a run left standing (R84, R244). -/
def seqIdle (s : State) : State :=
  { s with seq := { s.seq with st := .idle, ret := .flight, pos := 0, fltPos := 0, lockPos := 0, tickPend := false, voided := false,
                               halt := none, haltReq := false, stepf := false, markHold := false, carry := none } }

/-- The image that was loaded is loaded no longer (R245). -/
def unloadAll (s : State) : State :=
  rset oCfgLoaded 0#32 { s with lkp := { s.lkp with digest := [], maxMhz := 0 } }

/-- The lockkeeper takes an IMG_LOAD (R244, R392): IDLE, LOADING. -/
def cmdImgLoad (c : Cmd) (s : State) : State :=
  command c s (imgForm c) true false (seqActive s || s.lkp.march.isSome) fun s =>
    let s1 := rflag oCfgSts 2 (seqIdle (started c s))
    { s1 with lkp := { s1.lkp with load := some ⟨c, false, []⟩ } }

/-- The lockkeeper takes an IMG_VERIFY (R252). -/
def cmdImgVerify (c : Cmd) (s : State) : State :=
  command c s (imgForm c) true false (seqActive s || s.lkp.march.isSome) fun s => started c s

/-- A load ends without a release: `phase` 0 in the check phase, 1 in the write phase (R245, R382, R292).  After a write phase the
global set-reset stays asserted, for no image has been released.  The run of the image it discards has ended (R226, R428). -/
def loadFails (l : LoadSt) (status code sec : Nat) (s : State) : State :=
  let s1 := unloadAll (recordLoad (b2n l.write) code sec (rmod oCfgSts (clrBit · 2) (if l.write then s else runEnd s)))
  let s2 := rset oCfgPlaced 0#32 { s1 with lkp := { s1.lkp with load := none } }
  reply l.cmd status (imgR0 code sec) (rget s2 oCfgPlaced).toNat 0 s2

/-- R248 for one cluster: a pending nomination enters the repair list; then the cluster's spare is mapped, or found wanting.  SPARE_BAD
leaves SPARE_ON and SPARE_LP as they stand (DESIGN CHOICE, log entry 47). -/
def applyRepair (s : State) (cl : Nat) : State :=
  let lps := repairLps s cl
  let mk := repairMarked s cl
  let lkp := { s.lkp with repairs := (s.lkp.repairs.filter (·.1 ≠ cl)) ++ lps.map (cl, ·),
                          marked := if mk && !s.lkp.marked.contains cl then cl :: s.lkp.marked else s.lkp.marked }
  let s1 := rmod (cRepair cl) (clrBit · 31) { s with lkp := lkp }
  if mk || decide (2 ≤ lps.length) then raiseEvent 0x0009 2 cl (rflag (cStat cl) 8 s1)
  else match lps with
    | lp :: _ => rmod (cStat cl) (fun w => setFld w 15 8 (lp * 4 + 2)) s1
    | [] => s1
def applyRepairs (s : State) : State := (List.range (64 * nBasins s)).foldl applyRepair s

/-- What the global set-reset does to the fabric: every state entry and port register X, every path empty (R42, R289). -/
def gsrFabric (s : State) : State :=
  let fc (c : Cluster) : Cluster :=
    { c with ds := mkeep (fun k => k % 2048 < 1792) c.ds, ma := BitVec.allOnes _, mwd := BitVec.allOnes _, mrd := BitVec.allOnes _,
             ho := BitVec.allOnes _, hwd := BitVec.allOnes _, xfd := BitVec.allOnes _ }
  let s1 := emptyPaths s
  { s1 with fab := mmapv Cluster.fresh fc s1.fab }

/-- Every sluice tag freed, every reply still due discarded, every collect buffer X, the WAIT maps gone (R164, R167). -/
def slucesClear (s : State) : State := { s with slu := [], req := s.req.map fun r => { r with live := false } }

/-- The sluices lose their tags and collect buffers, and every reply still due; the WAIT maps stay (R167). -/
def slucesFree (s : State) : State :=
  let keep (u : Sluice) : Sluice := { Sluice.fresh with waitMap := u.waitMap }
  { s with slu := mmapv Sluice.fresh keep s.slu, req := s.req.map fun r => { r with live := false } }

/-- Every lane as it stands after a load: Z driven, X expected, no drive in this run (R58, R219). -/
def lanesClear (s : State) : State :=
  let fl (l : Lane) : Lane := { l with sdrv := none, sexp := none, drv := .z, exp := .x, smp := .x }
  { s with gau := { s.gau with lanes := mmapv Lane.fresh fl s.gau.lanes, live := false } }

/-- The seals of the old image go (R377, TRC_UNSEAL). -/
def sealsClear (s : State) : State :=
  let s1 := rset oTrcUnseal 0#32 (rclear (oTrcSeal 0 0) (oTrcSeal 32 0) s)
  { s1 with trc := { s1.trc with seals := [], opens := [] } }

/-- Steps 1 and 2 of R290: the write phase begins. -/
def writeBegins (l : LoadSt) (pl : List Nat) (s : State) : State :=
  let s1 := rflag oCfgSts 1 (rset oCfgFenced (BitVec.allOnes 32) (rset oCfgPlaced 0#32 (unloadAll s)))
  let s2 := xchClear (runEnd (disarm 2 s1))
  let s3 := sealsClear (lanesClear (slucesClear (gsrFabric (rclear (oDmcOwn 0) (oDmcOwn 384) s2))))
  applyRepairs { s3 with lkp := { s3.lkp with load := some { l with write := true, place := pl } } }

/-- CHECK_PHASE_END of an IMG_LOAD (R245, R251): refused, or on to the write phase.  In SAFE the load is abandoned (R292). -/
def loadCheckEnd (s : State) : State :=
  match s.lkp.load with
  | some l =>
    if l.write then s
    else if s.seq.st = .safe then loadFails l stFaulted 0 0xFFFF s
    else
      let im := cmdImg s l.cmd
      match imageCheck s im l.cmd.p2 with
      | some (code, st, sec) => loadFails l st code sec s
      | none => writeBegins l ((placement s im).getD []) s
  | none => s

/-- The basins a placement names, as a mask. -/
def placeMask (pl : List Nat) : Word := BitVec.ofNat 32 (pl.foldl (fun n b => Nat.lor n (1 <<< b)) 0)

/-- CHECK_PHASE_END of an IMG_VERIFY (R252). -/
def verifyCheckEnd (s : State) : State :=
  match s.lkp.run.find? (·.op = 0x02) with
  | some c =>
    let im := cmdImg s c
    match imageCheck s im c.p2 with
    | some (code, st, sec) => reply c st (imgR0 code sec) 0 0 s
    | none => reply c stOk (imgR0 0 0xFFFF) (placeMask ((placement s im).getD [])).toNat 0 s
  | none => s

/-- CHECK_PHASE_END: `verify` says of which command. -/
def checkPhaseEnd (verify : Bool) (s : State) : State := if verify then verifyCheckEnd s else loadCheckEnd s

/-- The bank number of an RD or WR made physical (R249). -/
def patchInstr (pl : List Nat) (w : BitVec 64) : BitVec 64 :=
  match decodeWord 512 true w with
  | .rd j | .wr j =>
    let k := 12 * pl.getD (j / 12) 0 + j % 12
    (w &&& ~~~(BitVec.ofNat 64 (0x1FF <<< 48))) ||| BitVec.ofNat 64 (k <<< 48)
  | _ => w

/-- An INSTR section written: word `t` of every processor, and the spare's copy of the processor it serves (R25, R26, R248). -/
def writeInstr (im : Img) (pl : List Nat) (x : Sec) (s : State) : State :=
  let b := pl.getD x.vbasin 0
  (List.range 64).foldl (fun s c =>
    let cl := 64 * b + c
    let words (p : Nat) : List (BitVec 64) := (List.range im.l).map fun t => patchInstr pl (imgInstr s im x c p t)
    let store (ph : Nat) (ws : List (BitVec 64)) (k : Cluster) : Cluster :=
      (List.range im.l).foldl (fun k t => { k with instr := mset 0#64 k.instr (1024 * ph + t) (ws.getD t 0#64),
                                                   iEcc := mset .clean k.iEcc (1024 * ph + t) .clean }) k
    let k1 := (List.range 64).foldl (fun k p => store p (words p) k) (getCl s cl)
    let lp := rfld s (cStat cl) 15 10
    setCl cl (if rbit s (cStat cl) 9 then store 65 (words lp) k1 else k1) s) s

/-- A ROUTE section written (R99). -/
def writeRoute (im : Img) (pl : List Nat) (x : Sec) (s : State) : State :=
  let b := pl.getD x.vbasin 0
  (List.range 64).foldl (fun s c =>
    let cl := 64 * b + c
    let no (t : Nat) : Nat := if t < im.l then t else 1024 + (t - im.l)
    let k1 := (List.range (im.l + 2)).foldl (fun k t =>
      { k with rw := mset 0#256 k.rw (no t) (imgRoute s im x c t),
               rwEcc := mkeep (fun i => i / 4 ≠ no t) k.rwEcc }) (getCl s cl)
    setCl cl k1 s) s

/-- A BANKS entry written: the owner's basin made physical; every word of a bank that is owned poisoned (R243, R249). -/
def writeBank (pl : List Nat) (j e : Nat) (s : State) : State :=
  let k := 12 * pl.getD (j / 12) 0 + j % 12
  let ob := if bkMode e = 1 then pl.getD (bkOb e) 0 * 64 + bkOc e else 0
  let w := bkMode e * 2 ^ 24 + (bkGw e - 1) * 2 ^ 20 + bkLane e * 2 ^ 17 + ob
  if bkMode e = 0 then s else patrolBegins k (bankPoison k (rset (oDmcOwn k) (BitVec.ofNat 32 w) s))

/-- BANKINIT and INIT records written (R242, R243). -/
def writeBankRec (pl : List Nat) (r : InitRec) (s : State) : State :=
  let k := 12 * pl.getD (r.obj / 12) 0 + r.obj % 12
  (List.range r.count).foldl (fun s i => dmWrite k (r.first + i) (BitVec.ofNat 64 (bankVal r i)) false s) s
def writeInitRec (pl : List Nat) (r : InitRec) (s : State) : State :=
  let cl := 64 * pl.getD (r.obj / 4096) 0 + r.obj % 4096 / 64
  let ph := physOf s cl (r.obj % 64)
  setCl cl ((List.range r.count).foldl (fun c i => dsPut ph (r.first + i) (v4of (initVal r i)) c) (getCl s cl)) s

/-- Region entry `i` of the table: virtual sluice i div 16, region i mod 16 (R249); bits beyond the register's 25 are dropped. -/
def writeRegion (im : Img) (pl : List Nat) (hold : Nat) (x : Sec) (s : State) : State :=
  (List.range (64 * im.v)).foldl (fun s i =>
    let q := 4 * pl.getD (i / 64) 0 + i / 16 % 4
    let put (off n : Nat) : State → State := rset off (BitVec.ofNat 32 (n % 2 ^ 25))
    put (oHldRgnSize q (i % 16)) (secNum s im x (8 * i + 4) 4)
      (put (oHldRgnBase q (i % 16)) (hold / 4096 + secNum s im x (8 * i) 4) s)) s

/-- The region table of every sluice, as it stands before the image's own entries: no region (R161). -/
def regionsClear (s : State) : State := rclear (oHldRgnBase 0 0) (oHldRgnBase 128 0) s

/-- The routing words of every cluster of the placed basins before the image's own: zero (R99). -/
def routesClear (pl : List Nat) (s : State) : State :=
  pl.foldl (fun s b => (List.range 64).foldl (fun s c =>
    setCl (64 * b + c) { getCl s (64 * b + c) with rw := [], rwEcc := [] } s) s) s

/-- The WAIT maps built from the WAITs of an INSTR section (R164). -/
def writeWaitMap (im : Img) (pl : List Nat) (x : Sec) (s : State) : State :=
  (List.range 4).foldl (fun s i =>
    let q := 4 * pl.getD x.vbasin 0 + i
    let mask (t : Nat) : BitVec 16 :=
      (List.range 16).foldl (fun m c => (List.range 64).foldl (fun m p =>
        match imgOp s im x (16 * i + c) p t with
        | .wait g => m ||| BitVec.ofNat 16 (1 <<< g)
        | _ => m) m) 0#16
    let u := getSlu s q
    setSlu q { u with waitMap := (List.range im.l).foldl (fun m t => mset 0#16 m t (mask t)) u.waitMap } s) s

/-- A seal group of the image: 32 bytes of verifier, then one bit for each virtual cluster 64·v + c (R377). -/
def writeSeal (im : Img) (pl : List Nat) (x : Sec) (k : Nat) (s : State) : State :=
  let bs := ((secBytes s im x).drop (288 * k)).take 288
  let bitOf (i : Nat) : Bool := ((bs.getD (32 + i / 8) 0#8).toNat >>> (i % 8)) % 2 = 1
  let cls := ((List.range (64 * im.v)).filter bitOf).map fun i => 64 * pl.getD (i / 64) 0 + i % 64
  let s1 := cls.foldl (fun s cl => rflag (oTrcSeal (cl / 64) (cl % 64 / 32)) (cl % 32) s) s
  { s1 with trc := { s1.trc with seals := s1.trc.seals ++ [(k, ⟨bs.take 32, cls⟩)] } }

/-- One section written to the device, with the patches of R249. -/
def writeSec (im : Img) (pl : List Nat) (hold : Nat) (x : Sec) (s : State) : State :=
  match x.type with
  | 0x01 => writeInstr im pl x s
  | 0x02 => writeRoute im pl x s
  | 0x03 => rset (oBasReachCfg (pl.getD x.vbasin 0)) (BitVec.ofNat 32 (secNum s im x 0 4)) s
  | 0x04 => ((secInits s im x).getD []).foldl (fun s r => writeInitRec pl r s) s
  | 0x05 => (List.range (12 * im.v)).foldl (fun s j => writeBank pl j (secNum s im x (4 * j) 4) s) s
  | 0x06 => ((secBanks s im x).getD []).foldl (fun s r => writeBankRec pl r s) s
  | 0x07 => writeRegion im pl hold x s
  | 0x08 => { s with xch := { s.xch with sites := msetAll 0#64 [] ((secEntries s im 0x08 8).zipIdx.map fun e => (e.2, BitVec.ofNat 64 e.1)) } }
  | 0x09 =>
    let phys (d : Nat) : Nat :=
      if retToDm d then
        let j := nfld d 62 54
        d - j * 2 ^ 54 + (12 * pl.getD (j / 12) 0 + j % 12) * 2 ^ 54
      else
        let g := nfld d 62 46
        d - g * 2 ^ 46 + (4096 * pl.getD (g / 4096) 0 + g % 4096) * 2 ^ 46
    { s with xch := { s.xch with rets := msetAll 0#64 [] ((secEntries s im 0x09 8).zipIdx.map fun e => (e.2, BitVec.ofNat 64 (phys e.1))) } }
  | 0x0A => (List.range 64).foldl (fun s j => rset (oXchPart j) (BitVec.ofNat 32 (secNum s im x (4 * j) 4)) s) s
  | 0x0B => { s with xch := { s.xch with berths := msetAll 0#32 [] ((secEntries s im 0x0B 4).zipIdx.map fun e => (e.2, BitVec.ofNat 32 e.1)) } }
  | 0x0C => { s with xch := { s.xch with flowTab := msetAll 0#16 [] ((secEntries s im 0x0C 2).zipIdx.map fun e => (e.2, BitVec.ofNat 16 e.1)) } }
  | 0x0D => (List.range 12).foldl (fun s n => rput (oLnkLat n) 7 0 (liTerm (secNum s im x (4 * n) 4)) s) s
  | 0x0E => (List.range (x.len / 288)).foldl (fun s k => writeSeal im pl x k s) s
  | _ => s

/-- The sections of this device in the order of R290: registers; instruction and routing words, banks; then, the region tables cleared
and the WAIT maps built between, region tables, the wharf's tables, initial values, seals. -/
def writeOrder0 (s : State) (im : Img) : List Sec := [0x03, 0x0D].flatMap (ownSecs s im)
def writeOrder1 (s : State) (im : Img) : List Sec := [0x01, 0x02, 0x05, 0x06].flatMap (ownSecs s im)
def writeOrder2 (s : State) (im : Img) : List Sec := [0x07, 0x08, 0x09, 0x0A, 0x0B, 0x0C, 0x04, 0x0E].flatMap (ownSecs s im)

/-- Sections written in turn, each after its CRC has been checked again: the section at which the write stops, if one does, with
true for a failed CRC (R245, R290).  `stop`: a section that host memory does not deliver (R382). -/
def writeSecs (im : Img) (pl : List Nat) (hold : Nat) (stop : Option Nat) : List Sec → State → State × Option (Nat × Bool)
  | [], s => (s, none)
  | x :: t, s =>
    if stop = some x.idx then (s, some (x.idx, false))
    else if (crc32 (secBytes s im x)).toNat ≠ x.crc then (s, some (x.idx, true))
    else writeSecs im pl hold stop t (writeSec im pl hold x s)

/-- Steps 3 to 8 of R290.  Without a REACHCFG section for a basin, or a LINKS section, BAS_REACH_CFG and LNK_LAT.C_USE stay at what the
load before left: DESIGN CHOICE (log entry 47), R121 and R249 give the image's value only. -/
def writeImage (l : LoadSt) (stop : Option Nat) (s : State) : State × Option (Nat × Bool) :=
  let im := cmdImg s l.cmd
  let pl := l.place
  let s1 := rput oDmcEq 1 0 (im.d - nativeD s) (rput oSeqCfg 10 0 im.l s)
  let s2 := (pl.zipIdx).foldl (fun s e => setBas e.1 { getBas s e.1 with virt := e.2 } s) s1
  let write (xs : List Sec) : State → State × Option (Nat × Bool) := writeSecs im pl l.cmd.p2 stop xs
  match write (writeOrder0 s im) s2 with
  | (s3, none) =>
    (match write (writeOrder1 s im) (routesClear pl s3) with
     | (s4, none) =>
       let s5 := regionsClear ((ownSecs s im 0x01).foldl (fun s x => writeWaitMap im pl x s) s4)
       let clear (c : Cluster) : Cluster := { c with ds := [], badPar := [] }
       let s6 := pl.foldl (fun s b => (List.range 64).foldl (fun s c => setCl (64 * b + c) (clear (getCl s (64 * b + c))) s) s) s5
       write (writeOrder2 s im) s6
     | r => r)
  | r => r

/-- The image is released (R191, R291): the set-reset deasserts, the placed basins are unfenced, READY. -/
def releaseImage (l : LoadSt) (s : State) : State :=
  let im := cmdImg s l.cmd
  let m := placeMask l.place
  let s1 := rset oCfgPlaced m (rset oCfgLoaded m (rset oCfgFenced (~~~m) s))
  let s2 := rmod oCfgLoad (clrBit · 31) (rmod oCfgSts (fun w => clrBit (clrBit w 2) 1) s1)
  let s3 := { s2 with seq := { s2.seq with st := .ready, diverged := false },
                      grp := { s2.grp with lost := if s2.grp.lost = 2 then 0 else s2.grp.lost },
                      lkp := { s2.lkp with load := none, digest := imgDigest s im, maxMhz := imgMaxMhz s im } }
  reply l.cmd stOk (imgR0 0 0xFFFF) (rget s3 oCfgPlaced).toNat 0 s3

/-- IMAGE_RELEASE (R290, R291): the write phase is carried out and the image released.  It waits while the step PLL is not judged
stable (R292) and while a sluice request of the image before is under way (R167). -/
def imageRelease (s : State) : State :=
  match s.lkp.load with
  | some l =>
    if !l.write then s
    else if s.seq.st = .safe then loadFails l stFaulted 0 0xFFFF s
    else if !rbit s oCkgSts 8 || s.req ≠ [] then s
    else match writeImage l none s with
      | (s1, none) => releaseImage l s1
      | (s1, some (sec, _)) => loadFails l stBadParam 0x02 sec s1
  | none => s

/-- HOST_READ_ERROR of a load (R382): in the check phase with section `sec` being read, in the write phase before it is written. -/
def loadReadError (sec : Nat) (s : State) : State :=
  match s.lkp.load with
  | some l => if l.write then loadFails l stTimeout 0 sec (writeImage l (some sec) s).1 else loadFails l stTimeout 0 sec s
  | none => s

/-- HOST_READ_ERROR of an IMG_VERIFY (R382). -/
def verifyReadError (sec : Nat) (s : State) : State :=
  match s.lkp.run.find? (·.op = 0x02) with
  | some c => reply c stTimeout (imgR0 0 sec) 0 0 s
  | none => s

/-- LOAD_RELOCK_TIMEOUT (R292). -/
def loadRelockTimeout (s : State) : State :=
  match s.lkp.load with
  | some l => if l.write && !rbit s oCkgSts 8 then loadFails l stFaulted 0 0xFFFF s else s
  | none => s

end Sys2Proof.Machine
end

