-- ==== Sys2Proof/Machine/March.lean ====
section
/-!
DEFINITION. The march of banks, data stores and instruction tiers, and the bank handover by command (R126, R140-R145).
-/
namespace Sys2Proof.Machine

/-- The basins of a mask that the member has. -/
def maskBasins (s : State) (m : Nat) : List Nat := (List.range (nBasins s)).filter (nbit m)

/-- What a march command or the boot march tests (R140, R144). -/
structure MarchJob where
  pres   : Bool
  dm     : Bool
  ds     : Bool
  it     : Bool
  banks  : List Nat
  basins : List Nat
  deriving DecidableEq, Repr

/-- The job a MARCH command names (R393). -/
def marchJob (s : State) (c : Cmd) : MarchJob :=
  { pres := nbit c.flags 0, dm := nbit c.p0 0, ds := nbit c.p0 1, it := nbit c.p0 2,
    banks := if nbit c.p0 0 then (List.range (nfld c.p1 31 0)).map (nfld c.p1 63 32 + ·) else [],
    basins := if nbit c.p0 1 || nbit c.p0 2 then maskBasins s c.p2 else [] }

/-- The bank's march is off limits: it is in port mode while its owner's basin runs (R143). -/
def marchDenied (s : State) (j : MarchJob) : Bool :=
  (j.banks.any fun k => match portOwner s k with | some cl => !basinStill s (cl / 64) | none => false) ||
    j.basins.any fun b => !rbit s oCfgFenced b && s.seq.st ≠ .idle

/-- The march starts (R143). -/
def marchStarts (j : MarchJob) (s : State) : State :=
  let s1 := { s with dmc := { s.dmc with marching := j.banks.foldl (fun m k => mset false m k true) s.dmc.marching } }
  let tgt := b2n j.dm + 2 * b2n j.ds + 4 * b2n j.it
  rmod oDmcMarchSts (fun w => setBit (setFld w 28 25 (b2n j.pres * 8 + tgt)) 31) s1

/-- The lockkeeper takes a MARCH command (R143, R144). -/
def cmdMarch (c : Cmd) (s : State) : State :=
  let j := marchJob s c
  let form := decide (c.flags < 2) && decide (1 ≤ c.p0) && decide (c.p0 < 8) && noP3 c && !(j.ds && j.pres) &&
    (!j.dm || (decide (1 ≤ nfld c.p1 31 0) && decide (nfld c.p1 63 32 + nfld c.p1 31 0 ≤ nBanks s))) &&
    decide (c.p2 < 2 ^ nBasins s)
  command c s form (unitOn s 15 && (j.basins = [] || unitOn s 14) && j.basins.all (rbit s oCkgEn1)) (marchDenied s j) s.lkp.march.isSome fun s =>
    marchStarts j (started c { s with lkp := { s.lkp with march := some c } })

/-- The spare of cluster `cl` has failed a march: no load maps a processor onto it (R248). -/
def spareFails (cl : Nat) (s : State) : State :=
  if s.lkp.badSpare.contains cl then s else { s with lkp := { s.lkp with badSpare := cl :: s.lkp.badSpare } }

/-- A failing position nominated (R66, R144); a nomination that is pending stands (DESIGN CHOICE, log entry 45). -/
def nominate (x : Nat × Nat) (s : State) : State :=
  let s1 := if x.2 = 65 then spareFails x.1 s else s
  if rbit s1 (cRepair x.1) 31 then s1 else rset (cRepair x.1) (BitVec.ofNat 32 (2 ^ 31 + 256 + x.2)) s1

/-- The data stores of a basin after a destructive march: contents the spec does not state (log entry 3). -/
def marchStore (n b : Nat) (s : State) : State :=
  (List.range 64).foldl (fun s c =>
    let cl := 64 * b + c
    let ds := (List.range (66 * 2048)).filterMap fun k =>
      let v := v4of (Config.marchedEntry n cl (k / 2048) (k % 2048)).val
      if v = .x then none else some (k, v)
    setCl cl { getCl s cl with ds := ds, badPar := [], staged := [] } s) s
/-- The instruction stores of a basin after a destructive march.  The words of the reach program and their check bits stay as they were
(DESIGN CHOICE, log entry 3: R144 names the instruction tiers, and does not say whether their march takes in the reach programs). -/
def marchTier (n b : Nat) (s : State) : State :=
  (List.range 64).foldl (fun s c =>
    let cl := 64 * b + c
    let ws := (List.range (66 * 1024)).filterMap fun k =>
      let v := Config.marchedWord n cl (k / 1024) (k % 1024)
      if v = 0#64 then none else some (k, v)
    setCl cl { getCl s cl with instr := ws, iEcc := [] } s) s

/-- The fault of a row of an instruction tier that no spare row repairs (R142, R274). -/
def tierFault (s : State) (x : Nat × Nat) : Report :=
  { code := 0x3004, lk := 1, locv := locProc x.2 x.1 (lpOf s x.1 x.2), frame := frameNow s }

/-- What a march leaves in the banks (R141, R142): their words, failing rows onto spares, and the faults. -/
def marchBanks (j : MarchJob) (f : MarchFinds) (s : State) : MarchSum :=
  let s1 := j.banks.foldl (fun s k => if j.pres then marchKeep k s else bankZero k s) s
  let s2 := { s1 with dmc := { s1.dmc with marching := j.banks.foldl (fun m k => mset false m k false) s1.dmc.marching } }
  (f.rows.filter j.banks.contains).foldl (fun x k => rowFails k x) ⟨s2, 0, []⟩

/-- What a march leaves (R141, R142, R144): banks, nominations, unloaded basins, DMC_MARCH_STS; then its faults, reported
together (R266). -/
def marchEnds (j : MarchJob) (f : MarchFinds) (s : State) : State :=
  let m := marchBanks j f s
  let s3 := m.st
  let inJob (x : Nat × Nat) : Bool := j.basins.contains (x.1 / 64) && decide (x.2 < 66)
  let stores := if j.ds then f.stores.filter inJob else []
  let tiers := if j.it then f.tiers.filter inJob else []
  let s4 := if j.ds then
      { (j.basins.foldl (fun s b => marchStore s3.freeCtr b s) s3) with freeCtr := s3.freeCtr + 1 } else s3
  let s5 := if j.it && !j.pres then
      { (j.basins.foldl (fun s b => marchTier s4.freeCtr b s) s4) with freeCtr := s4.freeCtr + 1 } else s4
  let s6 := if j.ds || (j.it && !j.pres) then j.basins.foldl (fun s b => rmod oCfgLoaded (clrBit · b) s) s5 else s5
  let s7 := (stores ++ tiers).foldl (fun s x => nominate x s) s6
  let s8 := if tiers = [] then s7 else rflag oDmcSts 4 s7
  let failed := j.banks.any (fun k => rbit s8 (oDmcRepair k) 31) || stores ≠ [] || tiers ≠ []
  let done := min 0xFFFF (m.done + if j.it then f.repaired else 0)
  settle (rmod oDmcMarchSts (fun w => putBit (setBit (clrBit (setFld w 15 0 done) 31) 30) 29 failed) s8,
    m.rs ++ tiers.map (tierFault s7))

/-- MARCH_COMPLETE (R142): the march under way ends; its command is answered, if a recovery restart has not cut it off (R299).  In Keep the
clocks of what it marches stand (R298). -/
def marchComplete (f : MarchFinds) (s : State) : State :=
  if rbit s oCfgSts 4 then s
  else match s.lkp.march with
  | some c =>
    let s1 := marchEnds (marchJob s c) f { s with lkp := { s.lkp with march := none } }
    if s.lkp.run.contains c then reply c stOk (rget s1 oDmcMarchSts).toNat 0 0 s1 else s1
  | none => s

/-- BANK_OWNER (R126, R127): a handover write by command; with bit 31 at 1 it only clears the refusal. -/
def cmdBankOwner (c : Cmd) (s : State) : State :=
  let k := nfld c.p1 8 0
  let form := c.flags = 0 && decide (c.p0 < 2 ^ 32) && decide (c.p1 < nBanks s) && c.p2 = 0 && noP3 c
  command c s form (unitOn s 15) false false fun s =>
    let (s1, ok) := if nbit c.p0 31 then (ownClear k s, true) else ownWrite k (BitVec.ofNat 32 c.p0) s
    reply c (if ok then stOk else stDenied) (rget s1 (oDmcOwn k)).toNat 0 0 s1

end Sys2Proof.Machine
end

