-- ==== Sys2Proof/Machine/Clocks.lean ====
section
/-!
DEFINITION. Clocks: PLL judging and loss, source switches, gust control, the step-clock change, clock enables and the resume
after a clock loss (R301-R318).
-/
namespace Sys2Proof.Machine

/-- A multiplexer's switch (R308): carried out, forced with its fault, or abandoned. -/
def switchSrc (e : SwitchEnd) (f : State → State) (s : State) : State × List Report :=
  match e with
  | .clean => (f s, [])
  | .forced => (rflag oCkgSts 0 (f s), [{ code := 0x9004, frame := frameNow s }])
  | .noSource => (rflag oCkgSts 4 s, [])

/-- How a switch to the crystal goes: a lost crystal gives no edge until a warm or power-on reset (R304, R308). -/
def toXtal (e : SwitchEnd) (s : State) : SwitchEnd := if rbit s oCkgSts 7 then e else .noSource

/-- The unit domain switches source through its divider, which starts again at 1/16 (R308). -/
def unitSwitch (e : SwitchEnd) (xtal : Bool) (s : State) : State × List Report :=
  switchSrc (if xtal then toXtal e s else e) (fun s => { s with clk := { s.clk with unitXtal := xtal, unitDiv := 1 } })
    { s with clk := { s.clk with unitDiv := 1 } }

/-- UNIT_DIVIDER_STEP (R308). -/
def unitDividerStep (s : State) : State :=
  if s.clk.unitDiv < 16 then { s with clk := { s.clk with unitDiv := s.clk.unitDiv + 1 } } else s

/-- Every stack into self-refresh, or out of it (R309, R315, R320). -/
def stacksRefresh (on : Bool) (s : State) : State :=
  (List.range (nStacks s)).foldl (fun s i => rputb (oHldStackSts i) 3 on s) s

/-- A ramp from standstill starts (R310). -/
def rampStart (s : State) : State :=
  { s with clk := { s.clk with ramp := true }, seq := { s.seq with ratio := 1 } }

/-- The step PLL has been judged stable (R305, R313, R316): STEP_LOCK; a frequency change goes on to its ramp.  A loss while no
run was on, or during the ramp of a CLK_RESUME, ends in a ramp too: DESIGN CHOICE (log entry 19). -/
def stepStable (e : SwitchEnd) (s : State) : State × List Report :=
  let s1 := rflag oCkgSts 8 s
  if s.clk.relock then
    let x := switchSrc e (fun s => { s with clk := { s.clk with stepXtal := false } }) s1
    (rampStart x.1, x.2)
  else if decide (4 ≤ bootStage s) && decide (bootStage s ≤ 7) && (bootStage s ≠ 4 || !s.rst.test) && (s.seq.st ≠ .clkHalt || s.clk.resume) &&
      decide (s.seq.ratio ≤ 1) && !s.clk.ramp then (rampStart s1, [])
  else (s1, [])

/-- The hold PLL has been judged stable (R309): the unit domain returns to it and the stacks leave self-refresh. -/
def holdStable (e : SwitchEnd) (s : State) : State × List Report :=
  let x := if s.clk.unitXtal then unitSwitch e false s else (s, [])
  (if unitOn x.1 13 && rfld s oPwrSts 2 0 = 0 then stacksRefresh false x.1 else x.1, x.2)

/-- A link PLL has been judged stable (R317): its links that are enabled train again. -/
def linkStable (j : Nat) (s : State) : State := (List.range 4).foldl (fun s i => lnkDetect (4 * j + i) s) s

/-- Boot stage PLL ends when all five PLLs are judged stable (R284). -/
def bootPllDone (s : State) : State :=
  if bootStage s = 3 && (List.range 5).all (fun i => pllSt s i = 3) then setStage 4 s else s

/-- PLL `i` has been judged stable (R305). -/
def pllStable (e : SwitchEnd) (i : Nat) (s : State) : State :=
  let s1 := rmod (oCkgPll i) (fun w => clrBit (setFld w 31 30 3) 29) s
  let x := if i = 0 then stepStable e s1 else if i = 4 then holdStable e s1 else (linkStable (i - 1) s1, [])
  bootPllDone (raiseAll x.2 x.1)

/-- An entry of the frame in progress whose write the failing clock cut off reads with bad parity (R31, R32): an import entry, or
the step-result entry of the step just executed. -/
def cutEntry (s : State) (x : Nat × Nat × Nat) : State :=
  let (cl, ph, e) := x
  if basinRuns s (cl / 64) && decide (ph < 66) && frameBegun s && (e + 1 = s.seq.pos || (decide (1024 ≤ e) && decide (e < 1792))) then
    let c := getCl s cl
    setCl cl { c with badPar := mset false c.badPar (2048 * ph + e) true } s
  else s

/-- STEP_PLL_LOCK_LOSS (R316): the gust divider goes to 1/16 at once (R308), 0x9001, and the clock-loss halt. -/
def stepLoss (cut : List (Nat × Nat × Nat)) (s : State) : State × List Report :=
  let s1 := pllStart false 0 (rflag (oCkgPll 0) 28 (cut.foldl cutEntry s))
  ({ s1 with seq := { s1.seq with ratio := 1 }, clk := { s1.clk with ramp := false } }, [{ code := 0x9001, frame := frameNow s }])

/-- HOLD_PLL_LOCK_LOSS (R309). -/
def holdLoss (e : SwitchEnd) (s : State) : State × List Report :=
  let x := unitSwitch e true (pllStart false 4 (rflag (oCkgPll 4) 28 s))
  (stacksRefresh true x.1, { code := 0x9002, frame := frameNow s } :: x.2)

/-- Link `n` loses its PLL (R317): DOWN from any state. -/
def linkPllGone (n : Nat) (s : State) : State × List Report :=
  if lnkUp s n then lnkDrop n 0 true s else if lnkSt s n = 0 then (s, []) else (lnkToDown n 0 s, [])

/-- LINK_PLL_LOCK_LOSS of link PLL `j` (R317); the ring ports go down with link PLL 0. -/
def linkLoss (j : Nat) (s : State) : State × List Report :=
  let s1 := pllStart false (j + 1) (rflag (oCkgPll (j + 1)) 28 s)
  let x := (List.range 4).foldl (fun x i => andThen (linkPllGone (4 * j + i)) x) (s1, [])
  (if j = 0 then rmod oRingSts (fun w => clrBit (clrBit w 0) 1) x.1 else x.1, { code := 0x9003, frame := frameNow s } :: x.2)

/-- A PLL judged stable loses lock (R307); `cut`: the entries whose write the failing step clock cuts off. -/
def pllLost (e : SwitchEnd) (cut : List (Nat × Nat × Nat)) (i : Nat) (s : State) : State × List Report :=
  if pllSt s i ≠ 3 then (s, [])
  else if i = 0 then stepLoss cut s
  else if i = 4 then holdLoss e s
  else if i ≤ 3 then linkLoss (i - 1) s
  else (s, [])

/-- Faults found between two steps are taken; a pause no marker holds back any longer is shown (R78, R266). -/
def takeFaults (x : State × List Report) : State := settlePause (raiseAll x.2 x.1)
def pllLose (e : SwitchEnd) (cut : List (Nat × Nat × Nat)) (i : Nat) (s : State) : State := takeFaults (pllLost e cut i s)

/-- A measured error as CKG_PLL.PPM shows it: two's complement, saturating. -/
def ppmField (ppm : Int) : Nat := ((max (-32767) (min 32767 ppm)) % 65536).toNat

/-- PLL_WINDOW_END (R305, R306, R307), of a window counted on the crystal: `ppm`: the window's error; `lock`: the lock detector reports
lock; `e`: how a switch back goes.  The window is judged by the tolerance that stood when it began (CKG_TOL card). -/
def pllWindowEnd (i : Nat) (ppm : Int) (lock : Bool) (e : SwitchEnd) (cut : List (Nat × Nat × Nat)) (s : State) : State :=
  let passes := decide (ppm.natAbs ≤ mget 100 s.clk.tol i)
  let s0 := rput (oCkgPll i) 15 0 (ppmField ppm) s
  let s1 := { s0 with clk := { s0.clk with tol := mset 100 s0.clk.tol i (rfld s oCkgTol 9 0) } }
  let count (p f : Nat) (s : State) : State :=
    { s with clk := { s.clk with pass := mset 0 s.clk.pass i p, fails := mset 0 s.clk.fails i f } }
  if 4 < i || pllSt s i = 0 || !rbit s oCkgSts 7 then s
  else match pllSt s i with
    | 1 => if lock then count 0 0 (setPllSt i 2 s1) else s1
    | 2 =>
      let p := if passes then mget 0 s.clk.pass i + 1 else 0
      if p = 3 then pllStable e i (count 0 0 s1) else count p 0 s1
    | _ =>
      let f := if passes then 0 else mget 0 s.clk.fails i + 1
      if f = 3 then pllLose e cut i (count 0 0 s1) else count 0 f s1

/-- PLL_JUDGE_TIMEOUT (R285, R305): FAIL; the attempt repeats, or the boot stops. -/
def pllJudgeTimeout (i : Nat) (s : State) : State :=
  if 4 < i || pllSt s i = 0 || pllSt s i = 3 then s
  else
    let s1 := rflag (oCkgPll i) 29 s
    if bootStage s = 3 then setStage 0xF (rflag oCfgBoot 8 s1) else pllStart false i s1

/-- CRYSTAL_LOST (R304): the control domain's switch is forced, and every PLL loses lock; `e`: how the unit domain's switch
goes.  A divider that runs from the crystal goes to 1/16 (R308). -/
def crystalLost (e : SwitchEnd) (cut : List (Nat × Nat × Nat)) (s : State) : State :=
  if !rbit s oCkgSts 7 then s
  else
    let s1 := rmod oCkgSts (fun w => setBit (setBit (clrBit w 7) 3) 0) s
    let s2 := { s1 with clk := { s1.clk with unitDiv := if s.clk.unitXtal then 1 else s.clk.unitDiv },
                        seq := { s1.seq with ratio := if s.clk.stepXtal then min 1 s.seq.ratio else s.seq.ratio } }
    takeFaults ((List.range 5).foldl (fun x i => andThen (pllLost e cut i) x) (s2, [{ code := 0x9004, frame := frameNow s }]))

/-- CKG_STEP as it reads: the divider and the ramp live (CKG_STEP card). -/
def ckgStepView (s : State) : Word :=
  setFld (putBit (rget s oCkgStep) 8 (s.clk.ramp || s.seq.restore)) 4 0 s.seq.ratio

/-- Why a new step frequency is not accepted (R116, R313), as a command status; 0 where it is. -/
def mhzRefusal (s : State) (mhz : Nat) : Nat :=
  if decide (mhz < 400) || decide (1600 < mhz) || mhz % 25 ≠ 0 || (s.lkp.maxMhz ≠ 0 && decide (s.lkp.maxMhz < mhz)) then stBadParam
  else if !seqRests s then stDenied
  else if s.clk.ramp || s.clk.relock || s.seq.restore || pllSt s 0 = 1 || pllSt s 0 = 2 then stBusy
  else 0

/-- An accepted step frequency (R313): the divider to 1/16, the step domain to the crystal, the PLL to relock. -/
def mhzChange (mhz : Nat) (e : SwitchEnd) (s : State) : State :=
  let s1 := rput oCkgStep 26 16 mhz { s with seq := { s.seq with ratio := 1 }, clk := { s.clk with relock := true } }
  let x := switchSrc (toXtal e s) (fun s => { s with clk := { s.clk with stepXtal := true } }) s1
  raiseAll x.2 (pllStart false 0 x.1)

/-- A write of CKG_STEP.MHZ (R313): CKG_STEP_MHZ_WRITE. -/
def mhzWrite (mhz : Nat) (e : SwitchEnd) (s : State) : State :=
  if mhzRefusal s mhz = 0 then mhzChange mhz e s else rflag oCkgSts 6 s

/-- The restore to full rate is requested (R312): CKG_STEP_RESTORE; while EMERG is 0 it does nothing. -/
def restoreRequest (s : State) : State :=
  if !s.seq.emerg then s
  else sendExpress 6 (horizonStep s / 256) (addEvent ⟨6, s.dev.devid, .gsc (horizonStep s)⟩ (rflag oCkgStep 9 s))

/-- CKG_TOL (its card): a new value applies from the next window. -/
def tolWrite (v : Word) (s : State) : State :=
  if fld v 9 0 < 10 || 1000 < fld v 9 0 then rflag oCkgSts 6 s else rset oCkgTol (v &&& 0x3FF#32) s

/-- The enables of CKG_EN0 that a write can change: units 6 to 15 but for the barge network, where present (CKG_EN0 card). -/
def enWritable (s : State) (u : Nat) : Bool := decide (6 ≤ u) && decide (u ≤ 15) && u ≠ 10 && unitPresent s u
/-- A clear of unit `u`'s enable is refused (R315). -/
def enRefused (s : State) (u : Nat) : Bool := seqActive s && [8, 9, 11, 12, 13, 14, 15].contains u

/-- One enable bit of CKG_EN0 written (R314, R315, R345): a clear takes effect when the unit's node has drained. -/
def enUnit (u : Nat) (on : Bool) (s : State) : State :=
  let was := rbit s oCkgEn0 u
  if !enWritable s u || was = on then s
  else if on then
    let s1 := rflag oCkgEn0 u s
    if u = 13 && rfld s oPwrSts 2 0 = 0 && pllSt s 4 = 3 then stacksRefresh false s1 else s1
  else if enRefused s u then rflag oCkgSts 5 s
  else if u = 14 then
    (match (List.range (nBasins s)).filter (rbit s oCkgEn1) with
     | [] => rmod oCkgEn0 (clrBit · u) s
     | bs => startDrains bs .gateBas s)
  else startDrains [32 + u] .gate (if u = 13 then stacksRefresh true s else s)

/-- One enable bit of CKG_EN1 written (R314, R315, R345): a clear takes effect when the basin's node has drained. -/
def enBasin (b : Nat) (on : Bool) (s : State) : State :=
  if nBasins s ≤ b || rbit s oCkgEn1 b = on then s
  else if on then rflag oCkgEn1 b s
  else if !rbit s oCfgFenced b then rflag oCkgSts 5 s
  else startDrains [b] .gate s

/-- CKG_EN_WRITE: a write of CKG_EN0 (`second` false) or CKG_EN1 (R314, R315). -/
def enWrite (second : Bool) (v : Word) (s : State) : State :=
  (List.range 32).foldl (fun s i => if second then enBasin i (bit v i) s else enUnit i (bit v i) s) s

/-- Each sluice frees the tags of the voided frame `f`; their replies are discarded (R167). -/
def freeVoidedTags (f : Nat) (s : State) : State :=
  (List.range (nSluices s)).foldl (fun s q =>
    (List.range 16).foldl (fun s t =>
      if getTag s q t ≠ .free && mget 0 (getSlu s q).tagF t = f then
        let s1 := setTag q t .free s
        { s1 with req := s1.req.map fun r => if r.q = q && r.tag = t && r.frame = f then { r with live := false } else r }
      else s) s) s

/-- The pre-checks that the steps of the voided frame `f` made are made again when it is run again (R164, R209): those of the WAITs
but for its positions 0 to 255, which were checked before its step 0, and those of the lock phases, made from GSC `g` on. -/
def preChecksAgain (f g : Nat) (s : State) : State :=
  let before (k : Nat) : Bool := decide (f * 16384 ≤ k) && decide (k < f * 16384 + 256 * 16)
  { s with slu := mmapv Sluice.fresh (fun u => { u with modeAt := mkeep before u.modeAt }) s.slu,
           seq := { s.seq with preRet := s.seq.preRet.filter fun r => decide (r.2.1 < g) } }

/-- The frame the void took back is run again from its step 0 (R316, R427): GSC and the schedule position stand where it began. -/
def rewindFrame (s : State) : State :=
  let p := s.seq.pos
  let s1 := discardFrom (s.seq.spos - p) (preChecksAgain s.seq.F.toNat (s.seq.gsc.toNat - p) (freeVoidedTags s.seq.F.toNat s))
  let s2 := { s1 with fab := mmapv Cluster.fresh (fun c => { c with xsent := false }) s1.fab }
  { s2 with seq := { s2.seq with gsc := s2.seq.gsc - BitVec.ofNat 64 p, spos := s2.seq.spos - p, pos := 0, frameStall := 0,
                                 voided := false, ret := .flight },
            trc := { s2.trc with probe := [], probeBy := [], trig := [], dac := s2.trc.dacRet, cap := none } }

/-- The resume position of this device (R316). -/
def resumePosition (s : State) : State :=
  if s.seq.voided then rewindFrame s
  else if s.seq.tickPend then
    let s1 := secondBody [] { s with seq := { s.seq with st := .flight, tickPend := false } }
    { s1 with seq := { s1.seq with ret := if s1.seq.st = .lock then .lock else .flight } }
  else
    let inLock := s.seq.stood = .lock || (s.seq.stood = .stall && s.seq.ret = .lock)
    let s1 := if s.seq.stood = .stall then
        { s with seq := { s.seq with events := s.seq.stallEvs ++ s.seq.events, stallEvs := [] } } else s
    if inLock then
      { s1 with seq := { s1.seq with lockPos := 0, gsc := BitVec.ofNat 64 s1.seq.lockGsc, ret := .lock } }
    else { s1 with seq := { s1.seq with ret := .flight } }

/-- The ramp of a CLK_RESUME is over: PAUSED at the resume position (R316); a halt still placed is complete.  A device in SAFE stays there (R267). -/
def resumeDone (s : State) : State :=
  let s1 := if s.saf.safe then s else dropCarry (resumePosition s)
  let s2 := { s1 with clk := { s1.clk with resume := false } }
  if s2.saf.safe then s2
  else settlePause { s2 with seq := { s2.seq with st := .paused, halt := none, haltReq := false, stepf := false, markHold := true,
                                                  tickPend := false } }

/-- A CLK_RESUME begins here (R316): the ramp from standstill. -/
def beginResume (s : State) : State := rampStart { s with clk := { s.clk with resume := true } }

/-- The ramp is complete (R310): a frequency change and its command are over, or a CLK_RESUME goes on.  An emergency halving in
force stays in force (log entry 19). -/
def rampDone (s : State) : State :=
  let s1 := { s with clk := { s.clk with ramp := false }, seq := { s.seq with ratio := if s.seq.emerg then 8 else 16 } }
  let s2 := if s.clk.relock then
      let t := setBound { s1 with clk := { s1.clk with relock := false } }
      (match t.lkp.run.find? fun c => c.op = 0x17 && !nbit c.p0 0 with
       | some c => reply c stOk (ckgStepView t).toNat 0 0 t
       | none => t)
    else s1
  if s.clk.resume then resumeDone s2 else s2

/-- GUST_RAMP_HOLD_END (R310). -/
def rampHoldEnd (s : State) : State :=
  if !s.clk.ramp then s
  else if s.seq.ratio < 16 then { s with seq := { s.seq with ratio := s.seq.ratio + 1 } }
  else rampDone s

/-- CLK_RESUME (R316): the lead forwards it to every member. -/
def cmdClkResume (c : Cmd) (s : State) : State :=
  let form := c.flags = 0 && c.p0 = 0 && c.p1 = 0 && c.p2 = 0 && noP3 c
  let denied := !leads s || s.seq.st ≠ .clkHalt || !othersAll s (·.st = .clkHalt)
  let busy := !rbit s oCkgSts 8 || !othersAll s (·.lock) || s.clk.ramp
  command c s form true denied busy fun s => beginResume (ringSendAll .clkResume (started c s))

/-- STEP_CLOCK (R312, R313, R397): a new step frequency, or the restore, on every member. -/
def cmdStepClock (e : SwitchEnd) (c : Cmd) (s : State) : State :=
  let mhz := nfld c.p0 26 16
  let set := !nbit c.p0 0
  let form := c.flags = 0 && c.p1 = 0 && c.p2 = 0 && noP3 c && nfld c.p0 15 1 = 0 && c.p0 / 2 ^ 27 = 0 &&
    (if set then mhzRefusal s mhz ≠ stBadParam else decide (mhz = 0))
  let denied := !leads s || (set && mhzRefusal s mhz = stDenied)
  command c s form true denied (set && mhzRefusal s mhz = stBusy) fun s =>
    if set then mhzChange mhz e (ringSendAll (.stepMhz mhz) (started c s))
    else if s.seq.emerg then restoreRequest (started c s)
    else reply c stOk (ckgStepView s).toNat 0 0 s

end Sys2Proof.Machine
end

