-- ==== Sys2Proof/Machine/Std.lean ====
section
/-!
DEFINITION. Standing registers in the MRAM array: reading with its check, persistent writes (R402-R407).
-/
namespace Sys2Proof.Machine

/-- Offsets of standing register `i` and its companion (R402). -/
def oStd (i : Nat) : Nat := 0x60000 + 4 * i

/-- Its PW fields; none for a reserved register or one without a PW field (R402, R403). -/
def stdPw (i : Nat) : Word :=
  match cardAt (oStd i) with
  | some c => BitVec.ofNat 32 c.pw
  | none => 0#32

/-- The shipped value: of the serial number what manufacture wrote (R407, log entry 2). -/
def stdShipped (i : Nat) : Word :=
  if i = 0 then Config.serial.truncate 32
  else if i = 1 then (Config.serial >>> 32).truncate 32
  else cardReset (oStd i)

/-- The value stored in the array. -/
def stdStored (s : State) (i : Nat) : Word := if i < 2 then stdShipped i else rget s (oStd i)

/-- A read of standing register `i` by the host or by a unit at its read point (R407): the value, and the flag a check leaves. -/
def stdRead (i : Nat) (s : State) : Word × State :=
  match mget .clean s.std.ecc i with
  | .clean | .poison => (stdStored s i, s)
  | .single => (stdStored s i, rflag (oStdCmp i) 28 s)
  | .double => (stdShipped i, rflag (oStdCmp i) 29 s)

/-- How a write of a standing register goes (R403, R404). -/
inductive StdEnd where
  | same      -- the PW fields equal the stored ones, or there are none: nothing is written
  | dropped   -- the array is busy
  | refused   -- the endurance limit
  | started
  deriving DecidableEq, Repr

def stdEnd (s : State) (i : Nat) (v : Word) : StdEnd :=
  if s.std.busy.isSome then .dropped
  else if stdPw i = 0#32 then .same
  else if mget .clean s.std.ecc i ≠ .double && (v &&& stdPw i) = (stdStored s i &&& stdPw i) then .same
  else if 100000 ≤ rfld s (oStdCmp i) 16 0 then .refused
  else .started

/-- What the write does to the array's registers (R404): while one is under way a write of any of them, one without a PW field too, is
discarded. -/
def stdWrite (i : Nat) (v : Word) (s : State) : State :=
  if 256 ≤ i then s
  else match stdEnd s i v with
    | .same => s
    | .dropped => rflag oStdSts 1 s
    | .refused => rflag oStdSts 2 (rflag (oStdCmp i) 30 s)
    | .started =>
      let w := (v &&& stdPw i) ||| (stdStored s i &&& ~~~(stdPw i))
      let s1 := rmod (oStdCmp i) (fun c => setBit (setFld c 16 0 (fld c 16 0 + 1)) 31) (rflag oStdSts 0 s)
      { s1 with std := { s1.std with busy := some (i, w) } }

/-- The persistent write under way ends (R404, R407): the array holds the value with good check bits. -/
def stdFinish (s : State) : State :=
  match s.std.busy with
  | some (i, w) =>
    let s1 := rmod oStdSts (clrBit · 0) (rmod (oStdCmp i) (clrBit · 31) (rset (oStd i) w s))
    { s1 with std := { s1.std with busy := none, ecc := mset .clean s1.std.ecc i .clean } }
  | none => s

/-- The pin settings of stage ARM read (R216, R219, R235): banks, park and safe values; `boot`: stage OSC reads STD_PINPARK and
STD_XTAL_WAIT too (R287, R402). -/
def readPins (boot : Bool) (s : State) : State :=
  let (vio, s1) := stdRead 16 s
  let (drv, s2) := stdRead 17 s1
  let (park, s3) := stdRead 18 s2
  let (safe, s4) := stdRead 19 s3
  let s5 := { s4 with std := { s4.std with park := park, safe := safe, edge := bit vio 16 } }
  let s6 := (List.range 16).foldl (fun s k =>
    rput (oGauBank k) 10 8 (4 * fld vio k k + fld drv (2 * k + 1) (2 * k)) s) s5
  if boot then
    let (pps, s7) := stdRead 22 s6
    let (xt, s8) := stdRead 5 s7
    { s8 with std := { s8.std with pps := pps, xtal := xt } }
  else s6

/-- The reaction policy read in stage ARM (R278, R279). -/
def readPolicy (s : State) : State :=
  let (react, s1) := stdRead 20 s
  let (mask, s2) := stdRead 21 s1
  rset oSafFnmask mask (rset oSafReact react s2)

end Sys2Proof.Machine
end

