-- ==== Sys2Proof/Machine/Reset.lean ====
section
/-!
DEFINITION. Resets, the boot, Keep and the recovery restart (R280-R288, R295, R297-R299, R414).
-/
namespace Sys2Proof.Machine

/-- PWR_STS.STATE. -/
def pwrSt (s : State) : Nat := rfld s oPwrSts 2 0

/-- Banks selected in PWR_KEEPMASK (R319). -/
def bankKept (s : State) (k : Nat) : Bool := rbit s (oPwrKeepmask (k / 32)) (k % 32)

/-- The block of a register: its BAR0 offset div 0x1_0000 (R20). -/
def blockOf (off : Nat) : Nat := off / 0x10000

/-- A register that a warm, PERST_N or group reset keeps (R281, R300, R318, R333, R346, R363): standing registers, the TIM block
but for TIM_STS, the wake logic, BNW_TMO, CFG_CAUSE, CLU_REPAIR, DMC_REPAIR; in a group reset the LNK block too. -/
def warmKeeps (grp : Bool) (off : Nat) : Bool :=
  let b := blockOf off
  let clu := off % 0x10000
  b = 6 || (b = 7 && off ≠ oTimSts) ||
    (b = 3 && (off = oPwrCtl || off = oPwrWakeTmr || off = oPwrLastwake || off = oPwrLastwakeTsn || decide (0x30040 ≤ off))) ||
    off = oBnwTmo || off = oCfgCause || (grp && b = 0xA) ||
    (decide (0x10 ≤ b) && decide (b < 0x30) && decide (0x400 ≤ clu) && clu % 0x100 = 8) ||
    (decide (oDmcRepair 0 ≤ off) && decide (off < oDmcRepair 384))

/-- The register file after a warm, PERST_N or group reset: what is kept, and the fields that show what goes on running: the step
frequency, the PLLs, the crystal, the power cap, the recovery count; a hold stack's initialization goes on (R149). -/
def regsWarm (grp : Bool) (s : State) : State :=
  let s1 := { s with regs := mkeep (warmKeeps grp) s.regs }
  let s2 := (List.range 5).foldl (fun t i => rput (oCkgPll i) 31 30 (pllSt s i) t) s1
  let s3 := (List.range 4).foldl (fun t i => rputb (oHldStackSts i) 1 (rbit s (oHldStackSts i) 1) t) s2
  let s4 := rput oCfgSts 31 24 (rfld s oCfgSts 31 24) (rput oCkgStep 26 16 (rfld s oCkgStep 26 16) s3)
  rputb oPwrSts 9 (rbit s oPwrSts 9) (rput oCkgSts 8 7 (rfld s oCkgSts 8 7) s4)

/-- The stacks whose contents a reset keeps: HLD_STACK_STS shows them READY again when the reset is over (R168, R281; DESIGN CHOICE,
log entry 24). -/
def stacksKept (s : State) : List Nat :=
  (List.range (nStacks s)).filter fun i => s.hold.ready.contains i || rbit s (oHldStackSts i) 0

/-- The stores of a cluster after a reset: contents kept, port registers X, every path empty (R281). -/
def clusterReset (c : Cluster) : Cluster :=
  { Cluster.fresh with ds := c.ds, badPar := c.badPar, instr := c.instr, iEcc := c.iEcc, rw := c.rw, rwEcc := c.rwEcc }

/-- The unit logic after a warm, PERST_N or group reset (R226, R281): the sequencer IDLE, nothing loaded, every queue and table
empty; hold and design memory, the fault log, SAF_FIRST, the repair list and network time as they were. -/
def unitsWarm (grp : Bool) (s : State) : State :=
  let ratio := if s.seq.ratio = 0 then 0 else if s.seq.emerg || s.seq.restore then 16 else s.seq.ratio
  { s with
    seq := { SeqState.init with ratio := ratio }
    fab := mmapv Cluster.fresh clusterReset s.fab
    bas := [], slu := [], req := s.req.map fun r => { r with live := false }
    hold := { s.hold with writeback := [], scrubPtr := [], refDue := [], jobs := [], turn := [], ready := stacksKept s }
    dmc := { s.dmc with waiting := [], deferred := [], writeback := [], replies := [], patrolPtr := [], patrolMs := [], used := [], marching := [] }
    lnk := if grp then mmapv Link.fresh (fun l => { l with early := [], marks := [], buf := [], rxV := 0 }) s.lnk else []
    grp := if grp then s.grp else GroupState.init
    xch := XchState.init, gau := GauState.init
    saf := { s.saf with safe := false, arm := true }
    trc := TrcState.init
    tim := { s.tim with good := 0, bad := 0 }
    host := { s.host with msixTab := [], pba := 0 }
    clk := { s.clk with ramp := s.clk.ramp && !s.clk.resume, relock := false, resume := false }
    bnw := BnwState.init
    lkp := { LkpState.init with repairs := s.lkp.repairs, marked := s.lkp.marked, badSpare := s.lkp.badSpare }
    pwr := { s.pwr with fences := [], off := false, exit := none, stopped := false, safeDue := false, warmDue := false } }

/-- STD_WRITE_COMPLETE (R404, R405): the persistent write is over, and the STD_WRITE that made it is answered. -/
def stdComplete (s : State) : State :=
  match s.std.busy, s.lkp.run.find? (·.op = 0x19) with
  | some _, some c => reply c stOk (rget (stdFinish s) (oStdCmp (c.p0 % 256))).toNat 0 0 (stdFinish s)
  | some _, none => stdFinish s
  | none, _ => s

/-- A warm, PERST_N or group reset takes effect (R281, R282, R284): commands in flight end in TIMEOUT, a persistent write
completes first, the boot goes on at stage FW, and after a warm reset a lost crystal is used again (R304).  A step clock below full rate
ramps again. -/
def deviceReset (kind src : Nat) (s : State) : State :=
  let grp := kind = 5
  let s1 := regsWarm grp (unitsWarm grp (timeoutAll (stdComplete s)))
  let s2 := { s1 with rst := { RstState.init with test := s.rst.test, perst := s.rst.perst, cause := 64 * kind + src } }
  let s3 := setStage 4 (if kind = 3 || kind = 4 then rflag oCkgSts 7 s2 else s2)
  if pllSt s3 0 = 3 && s3.seq.ratio < 16 && !s3.rst.test && !s3.clk.ramp then rampStart s3 else s3

/-- A power-on reset (R280, R281): everything as State.reset has it but the part itself, what stands in the MRAM array, the host's
memory and the environment's pins; a persistent write completes first (R406). -/
def powerOn (s : State) : State :=
  let t := stdFinish s
  let keep (off : Nat) : Bool := blockOf off = 6 && off ≠ oStdSts
  let u := { State.reset with pending := t.pending, dev := t.dev, regs := mkeep keep t.regs, freeCtr := t.freeCtr,
                              std := { State.reset.std with ecc := t.std.ecc },
                              host := { State.reset.host with mem := t.host.mem, cpl := t.host.cpl },
                              rst := { RstState.init with perst := t.rst.perst } }
  (List.range 256).foldl (fun v i => rput (oStdCmp i) 30 28 0 v) u

/-- VIN_OVERVOLTAGE (R414): the rails are removed and the module is unpowered. -/
def vinOvervoltage (s : State) : State := { powerOn s with rst := { (powerOn s).rst with ovp := true } }
/-- VIN_OVERVOLTAGE_END (R414). -/
def vinOvervoltageEnd (s : State) : State := if s.rst.ovp then powerOn s else s

/-- A reset of the whole device is under way: the boot has not reached READY (R280). -/
def resetUnderWay (s : State) : Bool := bootStage s ≠ 7

/-- What a power state had stopped runs again for a PERST_N reset (R281, R327): the crystal, the PLLs; a stack without power is
initialized (R149), a bank that was not kept is poisoned (R321). -/
def resetWakes (s : State) : State :=
  let st := pwrSt s
  let s1 := if 3 ≤ st then
      (List.range (nBanks s)).foldl (fun s k => if bankKept s k && st ≠ 5 then s else bankPoison k s) s else s
  let s2 := if s.pwr.off then (List.range (nStacks s)).foldl (fun s i => rset (oHldStackSts i) 2#32 s) s1 else s1
  let s3 := if st = 5 then rflag oCkgSts 7 s2 else s2
  if 2 ≤ st then (List.range 5).foldl (fun s i => if pllSt s i = 0 then pllStart (decide (st < 4)) i s else s) s3 else s3

/-- A power-on boot is under way and has not reached stage FW (R280, R284), of a power-on reset or of an exit from Still (R326). -/
def powerOnBoot (s : State) : Bool := decide (bootStage s < 4) && (decide (pwrSt s < 4) || s.pwr.exit.isSome)

/-- PERST_N_ASSERT (R280, R286, R327): whole device reset; while a power-on boot has not reached stage FW that broader reset goes on,
and waits at FW for PERST_N to rise.  In an unpowered module the pin's level alone is remembered (R414, R422). -/
def perstAssert (s : State) : State :=
  let t := { s with rst := { s.rst with perst := true }, host := { s.host with link := false, conf := [] } }
  if s.rst.perst then s
  else if s.rst.ovp then t
  else
    if powerOnBoot t then { t with rst := { t.rst with held := true } }
    else
      let u := deviceReset 2 0 (resetWakes t)
      { u with rst := { u.rst with held := true } }

/-- The endpoint, powered and out of reset, trains its link (R286, R326). -/
def linkTrains (s : State) : State :=
  let up := !s.rst.perst && !s.rst.ovp && !s.rst.testEn && bootStage s ≠ 0 && decide (pwrSt s < 4)
  { s with host := { s.host with link := s.host.link || up } }

/-- PERST_N_RELEASE (R284, R286): the reset's stages begin from FW; a boot that had stopped starts again there. -/
def perstRelease (s : State) : State :=
  linkTrains { s with rst := { s.rst with perst := false, held := false } }

/-- A warm reset requested (R280): by command (3) or by CFG_RST (4); it is discarded while a broader reset is under way. -/
def requestWarm (kind : Nat) (s : State) : State :=
  if resetUnderWay s || s.rst.group.isSome then s else { s with rst := { s.rst with warm := some kind } }

/-- A warm reset reaches a device in Lull, Calm or Mist: it wakes first (R327). -/
def warmNow (kind src : Nat) (s : State) : State :=
  if rfld s oPwrSts 2 0 ≠ 0 then wakeBegin 0 { s with pwr := { s.pwr with warmDue := true } } else deviceReset kind src s

/-- The reset that woke the device takes effect in Run (R327); a group reset governs over a warm one (R280). -/
def warmAfterExit (s : State) : State :=
  match s.rst.group, s.rst.warm with
  | some (lead, _, _), _ => deviceReset 5 lead s
  | none, some k => deviceReset k 0 s
  | none, none => s

/-- WARM_RESET_EFFECT (R280): a group reset agreed meanwhile is the broader one, and the warm reset is discarded. -/
def warmEffect (s : State) : State :=
  match s.rst.warm with
  | some k => if s.rst.group.isSome then { s with rst := { s.rst with warm := none } } else warmNow k 0 s
  | none => s

/-- GROUP_RESET_INSTANT (R297): the agreed instant has come; `missed`: the lead's cancel did not reach this member, which resets
alone. -/
def groupInstant (missed : Bool) (s : State) : State :=
  match s.rst.group with
  | some (lead, sec, ns) =>
    if nowNs s < sec * 1000000000 + ns then s
    else if missed then warmNow 3 0 { s with rst := { s.rst with group := none, warm := some 3 } }
    else warmNow 5 lead s
  | none => s

/-- The RESET of scope group that is in progress. -/
def groupResetCmd (s : State) : Option Cmd := s.lkp.run.find? fun c => c.op = 0x15 && nfld c.p0 1 0 = 1

/-- Every other member has acknowledged (R297). -/
def allAcked (s : State) (op : Nat) : Bool := (otherDevs s).all fun d => s.lkp.acks.contains (op, d)

/-- GROUP_RESET_CANCEL (R297): on the lead, a member is unacknowledged 200 µs before the instant. -/
def groupCancel (s : State) : State :=
  match s.rst.group, groupResetCmd s with
  | some (_, sec, ns), some c =>
    if allAcked s 0x15 || nowNs s + 200000 < sec * 1000000000 + ns then s
    else reply c stTimeout 0 0 0 (ringSendAll .resetCancel { s with rst := { s.rst with group := none } })
  | _, _ => s

/-- Every request the sluices of basin `b` sent has completed at the controller (R167, R295). -/
def basinDrained (s : State) (b : Nat) : Bool := !s.req.any fun r => r.q / 4 = b && !r.served

/-- BASIN_RESET_EFFECT (R281, R295): the logic of fenced basin `b` is reset and the basin unloaded. -/
def basinResetEffect (b : Nat) (s : State) : State :=
  if !s.rst.basins.contains b || !basinDrained s b then s
  else
    let keep (off : Nat) : Bool := !(blockOf off = 0x10 + b) || (decide (0x400 ≤ off % 0x10000) && off % 0x100 = 8)
    let s1 := { s with regs := mkeep keep s.regs, rst := { s.rst with basins := s.rst.basins.erase b },
                       fab := s.fab.map (fun e => if e.1 / 64 = b then (e.1, clusterReset e.2) else e) |>.filter (fun e => decide (e.2 ≠ Cluster.fresh)),
                       req := s.req.map fun r => if r.q / 4 = b then { r with live := false } else r,
                       bnw := { s.bnw with dead := s.bnw.dead.filter (·.dst ≠ b) } }
    let s2 := setBas b Basin.fresh s1
    let s3 := (List.range 4).foldl (fun s i =>
      let q := 4 * b + i
      rset (oHldSluCnt q) 0#32 (rset (oHldSluSts q) 0#32
        (setSlu q { Sluice.fresh with waitMap := (getSlu s q).waitMap } s))) s2
    rmod oCfgLoaded (clrBit · b) s3

/-- POWER_GOOD (R284, R287): stage OSC begins, and the pins take their park states from the standing registers it reads; the 0.05 ms of R287
are timing. -/
def powerGood (s : State) : State :=
  if bootStage s = 0 && !s.rst.ovp && rfld s oPwrSts 2 0 = 0 then linkTrains (setStage 1 (readPins true s)) else s

/-- BOOT_OSC_DONE (R284, R285, R287, R407): the straps are read, on an exit from Still the standing registers too (R326); with TEST_EN high
the device stays, its endpoint disabled. -/
def bootOscDone (testEn : Bool) (s : State) : State :=
  if bootStage s ≠ 1 then s
  else if testEn || s.rst.testEn then { s with rst := { s.rst with testEn := true }, host := { s.host with link := false } }
  else
    let s1 := if s.pwr.exit.isSome then readPins true s else s
    setStage 2 { s1 with dev := { s1.dev with devid := s1.dev.pins % 64 } }

/-- BOOT_XTAL_DONE (R284, R303, R308): the control domain switches to the crystal and the PLLs start; without an edge of the
crystal the switch is abandoned and the stage goes on. -/
def bootXtalDone (e : SwitchEnd) (s : State) : State :=
  if bootStage s ≠ 2 then s
  else
    let x := switchSrc e (rflag oCkgSts 7) s
    let s1 := raiseAll x.2 x.1
    if e = .noSource then s1 else (List.range 5).foldl (fun s i => pllStart false i s) (setStage 3 s1)

/-- The hold stacks are trained and their initialization starts (R149, R284): those in self-refresh, and those whose
contents a reset keeps, are retrained only (R281, R326). -/
def stacksTrain (s : State) : State :=
  (List.range (nStacks s)).foldl (fun s i =>
    if rbit s (oHldStackSts i) 3 || s.hold.ready.contains i then s
    else rmod (oHldStackSts i) (fun w => setBit (clrBit w 0) 1) s) s

/-- What the boot march tests: STD_MARCH (R145). -/
def bootJob (v : Word) (s : State) : MarchJob :=
  { pres := bit v 4, dm := bit v 0, ds := bit v 1, it := bit v 2,
    banks := if bit v 0 then List.range (nBanks s) else [],
    basins := if bit v 1 || bit v 2 then List.range (nBasins s) else [] }

/-- BOOT_FW_DONE (R284, R285): the firmware's digest has been checked. -/
def bootFwDone (ok : Bool) (s : State) : State :=
  if bootStage s ≠ 4 || s.rst.held then s
  else if !ok then setStage 0xF (rflag oCfgBoot 9 s)
  else
    let s1 := rset oLkpFw (BitVec.ofNat 32 ((Config.firmwareMajor.val + 1) * 2 ^ 16) ||| Config.firmwareMinor.zeroExtend 32) s
    if !s1.rst.test then setStage 6 s1
    else
      let (v, s2) := stdRead 4 s1
      let s3 := marchStarts (bootJob v s2) (stacksTrain (setStage 5 s2))
      if pllSt s3 0 = 3 then rampStart s3 else s3

/-- BOOT_TEST_DONE (R145, R284, R285): the ramp, the boot march and the initialization of every stack that trained are complete;
`bad`: the stacks that failed training. -/
def bootTestDone (f : MarchFinds) (bad : List Nat) (s : State) : State :=
  let failed := (List.range (nStacks s)).filter bad.contains
  let up := (List.range (nStacks s)).all fun i => bad.contains i || s.hold.ready.contains i || rbit s (oHldStackSts i) 0
  if bootStage s ≠ 5 || s.clk.ramp || pllSt s 0 ≠ 3 || !up then s
  else
    let s0 := { s with hold := { s.hold with ready := s.hold.ready.filter fun i => !failed.contains i } }
    let s1 := failed.foldl (fun s i => rmod (oHldStackSts i) (fun w => clrBit (clrBit w 1) 0) s) s0
    let s2 := if failed = [] then s1 else rflag oCfgBoot 11 s1
    let (v, s3) := stdRead 4 s2
    let s4 := marchEnds (bootJob v s3) f s3
    let s5 := if rbit s4 oDmcMarchSts 29 then rflag oCfgBoot 10 s4 else s4
    setStage 6 { s5 with rst := { s5.rst with test := false } }

/-- The stacks whose contents the reset kept are READY again; without the hold PLL they refresh themselves (R168, R281, R309). -/
def stacksShown (s : State) : State :=
  let s1 := s.hold.ready.foldl (fun s i => rputb (oHldStackSts i) 3 (decide (pllSt s 4 ≠ 3)) (rflag (oHldStackSts i) 0 s)) s
  { s1 with hold := { s1.hold with ready := [] } }

/-- The ring ports train with their trim (R186, R284, R402); `ports`: which of them succeed. -/
def portsTrain (ports : Nat) (s : State) : State :=
  if bypassed s then s else (stdRead 88 (ringTrain 1 (nbit ports 1) (ringTrain 0 (nbit ports 0) s))).2

/-- BOOT_ARM_DONE (R284, R288, R300): the reset is over; `ms`: the whole milliseconds it took. -/
def bootArmDone (ms ports : Nat) (s : State) : State :=
  if bootStage s ≠ 6 then s
  else
    let s1 := readPolicy (readPins false s)
    let s2 := rput oCfgBoot 31 16 (ms % 65536) (setStage 7 s1)
    let s3 := rset oCfgCause (BitVec.ofNat 32 (s.rst.cause / 64 * 2 ^ 28 + s.rst.cause % 64 * 2 ^ 22)) s2
    portsTrain ports (stacksShown (rflag oLkpSts 31 s3))

/-- The recovery restart waits for PAUSED, or goes on at once (R299): `vote`: the safety unit requests the halt itself. -/
def recoverStart (vote : Bool) (s : State) : State :=
  if s.rst.recov ≠ 0 then s
  else
    let s1 := { s with rst := { s.rst with recov := 1 } }
    if seqRuns s1 && vote then requestHalt { s1 with seq := { s1.seq with haltReq := true } } else s1

/-- CFG_RST (R280, R299, CFG_RST card): a keyed write; a warm reset prevails. -/
def cfgRstWrite (v : Word) (s : State) : State :=
  if fld v 31 16 ≠ 0x5A3C then s
  else if bit v 0 then requestWarm 4 s
  else if bit v 1 then recoverStart true s
  else s

/-- Into Keep (R298, R299): the lockkeeper reboots, commands in flight end in TIMEOUT, each answered once, hold memory is in
self-refresh. -/
def keepEnter (s : State) : State :=
  let s1 := match s.lkp.load with
    | some l => loadFails l stTimeout 0 0xFFFF s
    | none => s
  let s2 := stacksRefresh true (timeoutAll s1)
  rflag oCfgSts 4 (rmod oLkpSts (clrBit · 31) { s2 with rst := { s2.rst with recov := 2 }, seq := { s2.seq with runPend := none } })

/-- RECOVERY_KEEP_ENTRY (R299): nothing runs. -/
def recoveryKeep (s : State) : State := if s.rst.recov = 1 && !seqActive s then keepEnter s else s

/-- RECOVERY_PAUSE_TIMEOUT (R299): 0xB002 with the reaction safe state, then on to Keep. -/
def recoveryPauseTimeout (s : State) : State :=
  if s.rst.recov ≠ 1 || !seqActive s then s
  else
    let r : Report := { code := 0xB002, frame := frameNow s }
    enterSafe (taintReport r (logFaultAs 3 r s))

/-- RECOVERY_RESTART_DONE (R299): the firmware runs again; out of Keep. -/
def recoveryDone (s : State) : State :=
  if s.rst.recov ≠ 2 then s
  else
    let s1 := { s with rst := { s.rst with recov := 0, missed := false } }
    let s2 := if rfld s1 oPwrSts 2 0 = 0 && pllSt s1 4 = 3 && rbit s1 oCkgEn0 13 then stacksRefresh false s1 else s1
    let s3 := rcount oCfgSts 31 24 1 (rmod oCfgSts (fun w => setBit (clrBit w 4) 3) s2)
    if bootStage s3 = 7 then rflag oLkpSts 31 s3 else s3

/-- WATCHDOG_MISSED (R272, R299): 0xB002 and a recovery restart; a second miss during one leads to the safe state. -/
def watchdogMissed (s : State) : State :=
  let s1 := raise 0xB002 0 0 s
  let s2 := { s1 with rst := { s1.rst with missed := true } }
  if s.rst.recov = 0 then recoverStart false s2 else if s.rst.missed then enterSafe s2 else s2

end Sys2Proof.Machine
end

