-- ==== Sys2Proof/Machine/Power.lean ====
section
/-!
DEFINITION. Power states, wake and exit, the power cap and the thermal throttle (R319-R332, R379, R413).
-/
namespace Sys2Proof.Machine

/-- A transition is in progress, and its target. -/
def pwrBusy (s : State) : Bool := rbit s oPwrSts 3
def pwrTarget (s : State) : Nat := rfld s oPwrSts 6 4

/-- The save copy's first byte and length (R326). -/
def saveBase (s : State) : Nat := 4096 * rfld s oPwrSave 24 0
def saveLen (s : State) : Nat := 0x2800000 * (placedBasins s).length

/-- Two ranges of bytes meet. -/
def rangesMeet (a n b m : Nat) : Bool := decide (a < b + m) && decide (b < a + n)

/-- The save copy is valid (R326). -/
def saveValid (s : State) : Bool :=
  let b := saveBase s
  let n := saveLen s
  decide (b + n ≤ holdBytes s) &&
    !((List.range (nSluices s)).any fun q => (List.range 16).any fun r =>
        rfld s (oHldRgnSize q r) 24 0 ≠ 0 && rangesMeet b n (rgnBase s q r) (4096 * rfld s (oHldRgnSize q r) 24 0)) &&
    !(trcArmed s && rangesMeet b n (4096 * rfld s oTrcBase 24 0) (4096 * rfld s oTrcSize 23 0))

/-- How many banks PWR_KEEPMASK selects (R319). -/
def keptCount (s : State) : Nat := ((List.range (nBanks s)).filter (bankKept s)).length

/-- Nothing but the timer, and the timer off, or no source at all, could wake the device (R322). -/
def wakeless (s : State) : Bool :=
  let en := rfld s oPwrCtl 6 4
  en = 0 || (en = 4 && rget s oPwrWakeTmr = 0#32)

/-- Steps 1 to 4 of an entry (R323, R379): BUSY and TARGET, the pause marker, verdicts out of hold, basins drained and fenced.  From
Lull or Calm the stacks leave self-refresh for the writes of steps 2 and 5, until step 6 (log entry 56). -/
def entryBegins (target : Nat) (s : State) : State :=
  let s0 := rput oPwrSts 6 3 (2 * target + 1) s
  let s1 := if pwrSt s ≠ 0 && unitOn s0 13 then stacksRefresh false s0 else s0
  let s2 := if trcArmed s1 && unitOn s1 7 then stageMarker 2 (nextFrame s1) target 0 s1 else s1
  let s3 := if 3 ≤ target then runEnd s2 else s2
  let bs := (List.range (nBasins s)).filter fun b => !rbit s oCfgFenced b
  startDrains bs .power { s3 with pwr := { s3.pwr with fences := s3.pwr.fences ++ bs } }

/-- PWR_STS as it reads. -/
def pwrStsView (s : State) : Word :=
  let sr := (List.range (nStacks s)).all fun i => rbit s (oHldStackSts i) 3
  putBit (putBit (rget s oPwrSts) 10 (decide (0 < s.seq.therm))) 8 sr

/-- The exit under way records the lower source of two that fire together (R325). -/
def lowerSource (src : Nat) (s : State) : State :=
  { s with pwr := { s.pwr with exit := s.pwr.exit.map fun x => (min x.1 src, x.2) } }

/-- An exit that a source of R325 began has begun in this control-clock cycle. -/
def sameCycle (s : State) : Bool := s.pwr.exit.any fun x => x.2.1 = tsnOf s && x.1 ≠ 0

/-- POWER_STATE (R322, R325, R391): a deeper state, a return to Run, or the ring wake of another device. -/
def cmdPowerState (c : Cmd) (s : State) : State :=
  let target := nfld c.p0 2 0
  let dev := nfld c.p0 15 8
  let other := dev ≠ 0xFF && dev ≠ s.dev.devid
  let deeper := !other && decide (pwrSt s < target)
  let form := c.flags = 0 && nfld c.p0 7 3 = 0 && c.p0 / 2 ^ 16 = 0 && c.p1 = 0 && c.p2 = 0 && noP3 c &&
    decide (target ≤ 5) && (if other then decide (dev < 64) && target = 0 else target = 0 || deeper) &&
    !(deeper && target = 4 && decide (8 < keptCount s)) && !(deeper && decide (4 ≤ target) && wakeless s)
  let denied := deeper && target = 3 && rget s oCfgLoaded ≠ 0#32 && !(rbit s oPwrCtl 0 && saveValid s)
  let stirring := s.xch.entries ≠ [] || s.xch.flows.any fun f => f.2 = .service
  let together := !other && target = 0 && decide (1 ≤ pwrSt s) && decide (pwrSt s ≤ 3) && sameCycle s
  let busy := (pwrBusy s && !together) ||
    (deeper && (seqActive s || loading s || s.lkp.march.isSome || (decide (3 ≤ target) && stirring)))
  command c s form true denied busy fun s =>
    if other then
      let s1 := ringSend dev .wake s
      reply c stOk (pwrStsView s1).toNat 0 0 s1
    else if deeper then entryBegins target (started c s)
    else if pwrSt s = 0 then reply c stOk (pwrStsView s).toNat 0 0 s
    else wakeBegin 1 (lowerSource 1 (started c s))

/-- The POWER_STATE command in progress is answered. -/
def powerReply (status : Nat) (s : State) : State :=
  match s.lkp.run.find? (·.op = 0x0B) with
  | some c => reply c status (pwrStsView s).toNat 0 0 s
  | none => s

/-- Fail records that the ring has not taken are discarded and counted (R323). -/
def dropFails (s : State) : State :=
  let n := (s.gau.fifo.filter fun r => !r.loss).length
  rcount oGauFfLost 31 0 n { s with gau := { s.gau with fifo := [], lost := none } }

/-- GAU_FLUSH_TIMEOUT (R323): 10 ms into an entry into Mist or deeper. -/
def gauFlushTimeout (s : State) : State := if pwrBusy s && decide (3 ≤ pwrTarget s) then dropFails s else s

/-- Edge records still staged are discarded and counted at their inputs (R323). -/
def dropEdges (s : State) : State :=
  let s1 := s.gau.edgeBuf.foldl (fun s r => rcount (oGauEdgeOvf r.input) 31 0 1 s) s
  { s1 with gau := { s1.gau with edgeBuf := [] } }

/-- Where the save copy holds a word: byte `o` of the 640 KiB of cluster `c` of the `j`-th placed basin.  R326 gives what the copy
holds and not how it is laid out: DESIGN CHOICE (log entry 4): for each store in turn its words, each of 8 data bytes and a check
byte, then the routing words, each of 32 data bytes and 4 check bytes. -/
def saveAddr (s : State) (j c o : Nat) : Nat := saveBase s + 0x2800000 * j + 655360 * c + o

/-- The stores of a cluster that the copy holds: the 64 logical processors' and the spare's. -/
def savedPhys : List Nat := List.range 64 ++ [65]

/-- Offset of word `w` of the `i`-th store of a cluster, and of routing word `w`, of which `l` and `l` + 1 are the tick words. -/
def saveInstr (l i w : Nat) : Nat := 9 * (l * i + w)
def saveRoute (l w : Nat) : Nat := 9 * 65 * l + 36 * w
def routeKey (l w : Nat) : Nat := if w < l then w else 1024 + (w - l)

/-- The check bytes of words saved: free values (log entry 4), the spec gives no code matrix. -/
def checkBytes (s : State) (a n : Nat) : List Byte := (List.range n).map fun i => Config.saveByte s.freeCtr (a + i)

/-- The words of cluster `c`'s part of the copy, as bytes. -/
def saveCluster (s : State) (j c : Nat) (x : Cluster) : List Byte :=
  let l := frameL s
  (savedPhys.zipIdx.flatMap fun pi => (List.range l).flatMap fun w =>
      leBytes 8 (mget 0#64 x.instr (1024 * pi.1 + w)).toNat ++ checkBytes s (saveAddr s j c (saveInstr l pi.2 w + 8)) 1) ++
    (List.range (l + 2)).flatMap fun w =>
      leBytes 32 (mget 0#256 x.rw (routeKey l w)).toNat ++ checkBytes s (saveAddr s j c (saveRoute l w + 32)) 4

/-- Bytes stored in hold memory from the word-aligned address `a` on, in whole words with good check bits. -/
def holdStore (a : Nat) (bs : List Byte) (s : State) : State :=
  (List.range ((bs.length + 7) / 8)).foldl (fun s i =>
    hdWrite (a / 8 + i) (BitVec.ofNat 64 (leNat ((bs.drop (8 * i)).take 8))) false s) s

/-- The save copy is written (R323, R326). -/
def saveCopy (s : State) : State :=
  let put (t : State) (jb : Nat × Nat) : State := (List.range 64).foldl (fun t c =>
    holdStore (saveAddr s jb.1 c 0) (saveCluster s jb.1 c (getCl s (64 * jb.2 + c))) t) t
  { ((placedBasins s).zipIdx.map fun bi => (bi.2, bi.1)).foldl put s with freeCtr := s.freeCtr + 1 }

/-- The instruction stores and reach programs lose their contents (R321); the error states of those saved stay, as the copy holds
their check bits. -/
def storesLost (s : State) : State :=
  let l := frameL s
  let fc (e : Nat × Cluster) : Nat × Cluster :=
    let placed := rbit s oCfgPlaced (e.1 / 64)
    (e.1, { e.2 with instr := [], rw := [],
                     iEcc := mkeep (fun k => placed && decide (k % 1024 < l) && k / 1024 ≠ 64) e.2.iEcc,
                     rwEcc := mkeep (fun k => placed && (decide (k / 4 < l) || decide (4096 ≤ k))) e.2.rwEcc })
  { s with fab := (s.fab.map fc).filter fun e => decide (e.2 ≠ Cluster.fresh) }

/-- `n` bytes of hold memory from `a` on, and whether a word they lie in has decayed beyond correction. -/
def holdBack (s : State) (a n : Nat) : Nat × Bool :=
  (leNat ((List.range n).map fun i => mget 0#8 s.hold.cells (a + i)),
   (List.range n).any fun i => hdEcc s ((a + i) / 8) = .double || hdEcc s ((a + i) / 8) = .poison)

/-- Cluster `c` of the `j`-th placed basin has its stores back from the copy: a word that decayed there returns with damaged check
bits, which its fetch finds (R34, R119, R326). -/
def restoreCluster (s : State) (j c : Nat) (x : Cluster) : Cluster :=
  let l := frameL s
  let x1 := savedPhys.zipIdx.foldl (fun x pi => (List.range l).foldl (fun (x : Cluster) w =>
    let (v, bad) := holdBack s (saveAddr s j c (saveInstr l pi.2 w)) 9
    let k := 1024 * pi.1 + w
    { x with instr := mset 0#64 x.instr k (BitVec.ofNat 64 v),
             iEcc := if bad then mset .clean x.iEcc k .double else x.iEcc }) x) x
  (List.range (l + 2)).foldl (fun (x : Cluster) w =>
    let a := saveAddr s j c (saveRoute l w)
    let k := routeKey l w
    let bad (q : Nat) : Bool := (holdBack s (a + 8 * q) 8).2 || (holdBack s (a + 32) 4).2
    { x with rw := mset 0#256 x.rw k (BitVec.ofNat 256 (holdBack s a 32).1),
             rwEcc := (List.range 4).foldl (fun m q => if bad q then mset .clean m (4 * k + q) .double else m) x.rwEcc }) x1

/-- The stores of every placed basin restored from the save copy (R326); without a loaded image there is none. -/
def restoreCopy (s : State) : State :=
  if rget s oCfgLoaded = 0#32 then s
  else (placedBasins s).zipIdx.foldl (fun t bi => (List.range 64).foldl (fun t c =>
    setCl (64 * bi.1 + c) (restoreCluster s bi.2 c (getCl t (64 * bi.1 + c))) t) t) s

/-- Hold memory without power loses its contents (R320). -/
def stacksOff (s : State) : State :=
  let s1 := { s with hold := { s.hold with cells := [], ecc := [], writeback := [] }, pwr := { s.pwr with off := true } }
  (List.range (nStacks s)).foldl (fun s i => rset (oHldStackSts i) 0#32 s) s1

/-- The registers that Frost and Still keep (R321, R322): the standing and the power block, the stacks' live state, ISOLATED, what stage
ARM read into the bank registers; Frost, which ends in no boot, the repairs and failures of the banks (R142); what the hardware shows of itself:
the boot is over, and the crystal runs in Frost (R319). -/
def deepRegs (still : Bool) (s : State) : State :=
  let keep (off : Nat) : Bool :=
    (blockOf off = 6) || (blockOf off = 3) || (decide (0xE0040 ≤ off) && decide (off < 0xE0050)) ||
      (!still && decide (oDmcRepair 0 ≤ off) && decide (off < oDmcRepair 384))
  let s1 := rputb oRingSts 3 (rbit s oRingSts 3) { s with regs := mkeep keep s.regs }
  let s2 := rput oCfgBoot 3 0 7 (rputb oCkgSts 7 (!still && rbit s oCkgSts 7) s1)
  (List.range 16).foldl (fun t k => rput (oGauBank k) 10 8 (rfld s (oGauBank k) 10 8) t) s2

/-- What Frost and Still lose (R321): everything but the wake logic, standing registers, the kept banks, hold memory where it
refreshes itself, and from Frost the repair list; the registers come back with their reset values, of which GAU_BANK's are the
standing values last read (R216); an isolation stands (R187). -/
def deepLoss (still : Bool) (s : State) : State :=
  let lkp := if still then LkpState.init else { LkpState.init with repairs := s.lkp.repairs, marked := s.lkp.marked, badSpare := s.lkp.badSpare }
  { State.reset with
    pending := s.pending, dev := s.dev, regs := (deepRegs still s).regs, freeCtr := s.freeCtr, std := s.std, pwr := s.pwr
    hold := s.hold, dmc := { State.reset.dmc with cells := s.dmc.cells, ecc := s.dmc.ecc }
    tim := { TimeState.init with sec := s.tim.sec, ns := s.tim.ns, frac := s.tim.frac, mono := s.tim.mono, fresh := true }
    host := { State.reset.host with mem := s.host.mem, cpl := s.host.cpl, msix := s.host.msix }
    lkp := lkp, rst := { RstState.init with perst := s.rst.perst, test := still } }

/-- The PLLs are off (R319); the unit domain, of which the barge network runs, is switched to the crystal first (R301, R308). -/
def pllsOff (s : State) : State :=
  let x := if s.clk.unitXtal then (s, []) else unitSwitch (if pllSt s 4 = 3 then .clean else .forced) true s
  let s0 := raiseAll x.2 x.1
  let s1 := (List.range 5).foldl (fun s i => setPllSt i 0 s) (rmod oCkgSts (clrBit · 8) s0)
  { s1 with clk := { s1.clk with judged := [], pass := [], fails := [] } }

/-- PWR_STS takes the state, and the transition is over. -/
def setPwr (st : Nat) : State → State := rput oPwrSts 6 0 st

/-- The exit of an entry that was stopped, or of a state left (R323, R326): basins unfenced, the resume marker, PWR_LASTWAKE. -/
def exitEnds (src tsn : Nat) (coarse : Bool) (st : Nat) (s : State) : State :=
  let s1 := s.pwr.fences.foldl (fun s b => rmod oCfgFenced (clrBit · b) s) s
  let s2 := linkTrains { setPwr 0 s1 with
    pwr := { s1.pwr with fences := [], exit := none, stopped := false, off := false }
    bnw := { s1.bnw with draining := s1.bnw.draining.filter (·.2 ≠ .power) } }
  let s3 := if trcArmed s2 && unitOn s2 7 then stageMarker 3 (nextFrame s2) (st + 16 * src) 0 s2 else s2
  let n := satAdd 16 (rfld s3 oPwrLastwake 15 0) 1
  rset oPwrLastwakeTsn (BitVec.ofNat 32 tsn)
    (rset oPwrLastwake (BitVec.ofNat 32 (2 ^ 31 + b2n coarse * 2 ^ 30 + st * 2 ^ 24 + src * 2 ^ 16 + n)) s3)

/-- What has to end before the device enters the target (R323): trace flushed, drains over, fail records written. -/
def entryReady (s : State) : Bool :=
  pwrBusy s && decide (pwrSt s < pwrTarget s) && s.pwr.exit.isNone && !s.bnw.draining.any (·.2 = .power) &&
    (!unitOn s 7 || s.trc.staging = []) && (decide (pwrTarget s < 3) || (s.gau.fifo = [] && s.gau.lost.isNone))

/-- Steps 5 to 9 of an entry (R323). -/
def enterState (t : Nat) (s : State) : State :=
  let s1 := if 3 ≤ t then dropEdges (slucesFree s) else s
  let s2 := if t = 3 then storesLost (if rget s oCfgLoaded ≠ 0#32 then saveCopy s1 else s1) else s1
  let s3 := stacksRefresh true s2
  let s4 := if 3 ≤ t && !rbit s oPwrCtl 0 then stacksOff s3 else s3
  let s5 := if 4 ≤ t then deepLoss (t = 5) (powerReply stOk s4) else s4
  let s6 := if 2 ≤ t then pllsOff s5 else s5
  let s7 := setPwr t { s6 with seq := { s6.seq with ratio := if 3 ≤ t then 1 else s6.seq.ratio } }
  if t < 4 then powerReply stOk s7 else s7

/-- POWER_ENTRY_COMPLETE (R323): the device stands in the target state; a safe state reached meanwhile keeps it in Run (R327). -/
def powerEntryComplete (s : State) : State :=
  if !entryReady s then s
  else if s.saf.safe then powerReply stBusy (exitEnds 0 (tsnOf s) false 0 s)
  else enterState (pwrTarget s) s

/-- The clocks an exit needs run (R326): from Calm on the PLLs are judged stable; from Still the boot is over; from Mist on the
ramp, which starts at the first try, is complete. -/
def exitClocks (s : State) : Bool :=
  let st := pwrSt s
  decide (st < 2) || (((List.range 5).all fun i => pllSt s i = 3) &&
    (decide (st < 3) || (!s.clk.ramp && decide (8 ≤ s.seq.ratio))))

/-- Every stack is out of self-refresh, or trained and initialized again (R326); while the hold PLL is not judged stable, as after a loss
in Lull, they stay in self-refresh (R309). -/
def stacksBack (s : State) : State :=
  if s.pwr.off then (List.range (nStacks s)).foldl (fun s i => rset (oHldStackSts i) 1#32 (stackPoison i s)) s
  else if rbit s oCkgEn0 13 && pllSt s 4 = 3 then stacksRefresh false s
  else s

/-- Steps of an exit that depend on the state left (R321, R326, R362). -/
def leaveState (st : Nat) (s : State) : State :=
  let s1 := if st = 5 then s else stacksBack s
  let s1 := if st = 5 then stacksRefresh false s1 else s1
  let s2 := if 3 ≤ st then
      (List.range (nBanks s)).foldl (fun s k => if bankKept s k && st ≠ 5 then s else bankPoison k s) s1 else s1
  if st = 4 then
      rset oLkpFw (BitVec.ofNat 32 ((Config.firmwareMajor.val + 1) * 2 ^ 16) ||| Config.firmwareMinor.zeroExtend 32)
        (rflag oLkpSts 31 (readPolicy s2))
  else if st = 3 then restoreCopy s2 else s2

/-- POWER_EXIT_COMPLETE (R326-R328): the device is back in Run; what waited for it, the safe state or a reset, follows. -/
def powerExitComplete (s : State) : State :=
  match s.pwr.exit with
  | none => s
  | some (src, tsn, coarse) =>
    let st := pwrSt s
    if !exitClocks s || (st = 5 && bootStage s ≠ 7) then s
    else
      let s1 := exitEnds src tsn coarse st (if st = 0 then s else leaveState st s)
      let s2 := powerReply (if s.pwr.stopped then stBusy else stOk) s1
      let safe := s2.pwr.safeDue
      let warm := s2.pwr.warmDue
      let s3 := { s2 with pwr := { s2.pwr with safeDue := false, warmDue := false } }
      let s4 := if safe then enterSafe s3 else s3
      if warm then warmAfterExit s4 else s4

/-- A source has an effect now: in a state below Run or in an entry, where no exit has begun before this moment (R325, R327). -/
def wakeable (src : Nat) (s : State) : Bool :=
  match s.pwr.exit with
  | some (e, _, _) => sameCycle s && e ≠ src
  | none => pwrSt s ≠ 0 || pwrBusy s

/-- A maskable wake source fires (R325, R327, R329): 2 WAKE_N, 3 ring, 4 timer.  Its bits in WAKE_EN and STORM are src − 2.  In Run,
with no entry under way, it has no effect. -/
def wakeSource (src : Nat) (s : State) : State :=
  let i := src - 2
  if !rbit s oPwrCtl (4 + i) || !wakeable src s || s.rst.ovp then s
  else
    let now := s.tim.mono
    let recent := (src, now) :: s.pwr.wakes.filter fun w => decide (now < w.2 + 1000000000)
    let s1 := wakeBegin src (lowerSource src { s with pwr := { s.pwr with wakes := recent } })
    if 16 ≤ (recent.filter (·.1 = src)).length then rflag oPwrSts (12 + i) (rmod oPwrCtl (clrBit · (4 + i)) s1) else s1

/-- WAKE_N_ASSERTED, RING_WAKE, WAKE_TIMER_EXPIRY (R325): the timer only where it was set, from a completed entry on. -/
def wakeN (s : State) : State := wakeSource 2 s
def ringWake (s : State) : State := wakeSource 3 s
def wakeTimer (s : State) : State := if rget s oPwrWakeTmr = 0#32 || pwrSt s = 0 then s else wakeSource 4 s

/-- VIN_BELOW_24V (R331): `mv`: VIN in mV. -/
def vinBelow (mv : Nat) (s : State) : State :=
  if decide (24000 ≤ mv) then s else rflag oPwrSts 9 (rput oPwrVin 15 0 (min 65535 mv) s)

/-- A change of this device's own stretch requests (R93, R330, R331). -/
def setTherm (v : Nat) (s : State) : State :=
  if v = s.seq.therm then s else throttleEvent { s with seq := { s.seq with therm := v } }
def setPcap (v : Nat) (s : State) : State :=
  if v = s.seq.pcap then s else throttleEvent { s with seq := { s.seq with pcap := v } }

/-- POWER_CAP_END (R331): VIN has stayed at or above 24.5 V for 10 ms. -/
def powerCapEnd (mv : Nat) (s : State) : State :=
  if mv < 24500 || !rbit s oPwrSts 9 then s
  else setPcap 0 (rmod oPwrSts (clrBit · 9) (rput oPwrVin 15 0 (min 65535 mv) s))

/-- The request under the cap (R331): `p` the input power in W, E the stretch in force, Fs the unstretched flight. -/
def capRequest (s : State) (p : Nat) : Nat :=
  let fs := s.seq.frames * (frameL s + 2) + s.seq.len
  let e := s.seq.eff
  if 400 < p then min 1048575 (((fs + e) * p + 399) / 400 - fs)
  else if decide (p < 380) && decide (0 < e) then min 1048575 ((fs + e) * p / 390 - fs)
  else s.seq.pcap

/-- POWER_CAP_SAMPLE (R331): each 1 ms, the measured power and VIN. -/
def powerCapSample (p mv : Nat) (s : State) : State :=
  let s1 := rput oPwrVin 31 16 (min 65535 p) (rput oPwrVin 15 0 (min 65535 mv) s)
  if rbit s1 oPwrSts 9 && lkpReady s1 then setPcap (capRequest s1 p) s1 else s1

/-- The junction temperature measured (SAF_MON.TJ, TJ_HI). -/
def measureTj (tj : Nat) (s : State) : State :=
  let t := min 255 tj
  rput oSafMon 31 24 t (rput oSafMon 23 16 (max t (rfld s oSafMon 23 16)) s)

/-- THERMAL_THROTTLE_SAMPLE (R330): each 10 ms. -/
def thermalSample (tj : Nat) (s : State) : State :=
  let s1 := measureTj tj s
  let start := rfld s oPwrTherm 7 0
  let step := rfld s oPwrTherm 27 8
  if !lkpReady s1 then s1
  else if start ≤ tj then setTherm (min 1048575 (s1.seq.therm + step)) s1
  else if tj + 3 ≤ start then setTherm (s1.seq.therm - step) s1
  else s1

/-- ALERT_N is driven low (R332); it is released until the boot is over (R287). -/
def alertN (s : State) : Bool :=
  (bootStage s = 7 || decide (4 ≤ pwrSt s)) && (rbit s oPwrSts 9 || decide (0 < s.seq.therm) || rfld s oPwrSts 14 12 ≠ 0)

end Sys2Proof.Machine
end

