-- ==== Sys2Proof/Machine/Monitors.lean ====
section
/-!
DEFINITION. Monitors and what the host sees of the safety unit: rails, temperatures, injection, FAULT_N, the log's bytes
(R268-R277).
-/
namespace Sys2Proof.Machine

/-- FAULT_N is driven low (R268, R288). -/
def faultN (s : State) : Bool :=
  s.saf.safe || decide ((rget s oSafSts &&& rget s oSafFnmask &&& 0xFFFF#32) ≠ 0#32) || decide (bootStage s ≠ 7) || s.rst.ovp

/-- UART_TX (R287): released before the rails are up, high until the boot is over; from then on the lockkeeper drives it (none). -/
def uartTx (s : State) : Option PinOut :=
  if bootStage s = 7 || decide (4 ≤ pwrSt s) then none else if bootStage s = 0 then some .released else some .high

/-- The outputs of fabric link `n` stand at electrical idle (R287). -/
def linkIdle (s : State) (n : Nat) : Bool := bootStage s = 0 || !rbit s (oLnkCtl n) 0

/-- FAULT_REPORT (R262, R265): a unit's report of a listed code reaches the safety unit; `frame`: the frame to which the rule that
raises it attributes it, where one exists. -/
def faultReport (code lk loc frame : Nat) (s : State) : State :=
  if !faultListed code then s
  else if code < 0x1000 then raiseEvent code lk loc s
  else raiseIn code lk loc frame s

/-- The monitor of rail `r` is checked (R415): its rail is not off or at retention level by design, in Frost or Still, or with the hold
stacks powered off (R320). -/
def railChecked (s : State) (r : Nat) : Bool :=
  decide (r ≤ 7) && !(decide (4 ≤ pwrSt s) && [0, 1, 2, 4, 5].contains r) && !(s.pwr.off && (r = 3 || r = 4))

/-- RAIL_MONITOR_TRIP (R270): rail `r`; `f`: the frame in progress 64 step periods before the trip, which the taint follows up to
the trip. -/
def railTrip (r f : Nat) (s : State) : State :=
  if !railChecked s r then s
  else
    let g := s.seq.F.toNat
    let f0 := if frDist f g < 64 then f else g
    let s1 := rflag oSafMon r s
    let x : Report := { code := 0xA001, lk := 10, locv := r, frame := if frameNow s = none then none else some f0 }
    raiseAll [x] (if frameNow s = none || reactDone s1 x = 0 then s1 else taintSpan (frNext f0 1) g s1)

/-- The halving of every member's step clock is requested (R86, R94, R271), unless one is agreed or in force. -/
def requestHalving (s : State) : State :=
  if s.seq.emerg || s.seq.events.any (·.kind = 6) then s
  else sendExpress 6 (horizonStep s / 256) (addEvent ⟨6, s.dev.devid, .gsc (horizonStep s)⟩ s)

/-- TEMP_EMERGENCY (R271): the junction has reached SAF_TLIM.EMERG. -/
def tempEmergency (tj : Nat) (s : State) : State :=
  if tj < rfld s oSafTlim 7 0 then s else requestHalving (raiseEvent 0x0008 10 0 (measureTj tj s))

/-- TEMP_CRITICAL (R271): the junction has reached 115 °C. -/
def tempCritical (tj : Nat) (s : State) : State :=
  if tj < 115 then s else raise 0xA002 10 0 (measureTj tj s)

/-- INSTR_SCRUB_LATE (R257); a gated BAS unit raises no fault (R314). -/
def instrScrubLate (s : State) : State := if unitOn s 14 then raise 0x1007 0 0 s else s

/-- SAF_INJECT_WRITE (R277): the frame current at the write, location none, no sticky flag. -/
def safInject (code : Nat) (s : State) : State :=
  if !faultListed code || s.saf.safe then s
  else raiseAll [{ code := code, frame := frameNow s, inj := true }] s

/-- The 16 bytes of a log record (R273). -/
def recBytes (r : LogRec) : List Byte :=
  let fv := match r.frame with | some _ => 1 | none => 0
  leBytes 4 (r.code * 2 ^ 16 + r.react * 2 ^ 14 + fv * 2 ^ 13 + b2n r.inj * 2 ^ 12 + r.rep) ++
    leBytes 4 (r.lkind * 2 ^ 28 + r.locv) ++ leBytes 4 (r.frame.getD 0 % 2 ^ 32) ++ leBytes 4 r.tsn

/-- SAF_FIRST[w]. -/
def firstWord (s : State) (w : Nat) : Word :=
  match s.saf.first with
  | some r => BitVec.ofNat 32 (leNat (((recBytes r).drop (4 * w)).take 4))
  | none => 0#32

end Sys2Proof.Machine
end

