-- ==== Sys2Proof/Machine/Time.lean ====
section
/-!
DEFINITION. Network time: the local clock, its sources, the servo, setting the time (R347-R363).
-/
namespace Sys2Proof.Machine

/-- TIM_CTL.SRC: 0 free-running, 1 ring beacons, 2 1PPS_IN (R351). -/
def timSrc (s : State) : Nat := rfld s oTimCtl 1 0

/-- A `w`-bit field as a two's complement number. -/
def signedFld (w n : Nat) : Int := if 2 ^ (w - 1) ≤ n then (n : Int) - 2 ^ w else n

/-- A number as a two's complement word that saturates at ±(2^31 − 1). -/
def satWord (x : Int) : Word := BitVec.ofInt 32 (max (-2147483647) (min 2147483647 x))

/-- TMAX in those units (R355). -/
def trimMax (s : State) : Int := (min 50000 (rfld s oCkgTol 9 0 * 500) : Nat) * trimUnit
def clampTrim (s : State) (x : Int) : Int := max (-(trimMax s)) (min (trimMax s) x)

/-- TIM_TRIM as it reads: whole ppb, rounded down. -/
def trimView (s : State) : Word := BitVec.ofInt 32 (s.tim.trim / trimUnit)

/-- TIM_STS as it reads: a free-running master is always locked (R357). -/
def timStsView (s : State) : Word := if timSrc s = 0 then setBit (rget s oTimSts) 0 else rget s oTimSts

/-- `n` nanoseconds pass on the device's own clock, which no step of network time moves, and on that of design memory while the
memory clock runs (R139). -/
def timePasses (n : Nat) (s : State) : State :=
  { s with tim := { s.tim with mono := s.tim.mono + n },
           dmc := { s.dmc with time := s.dmc.time + (if memClockOn s then n else 0) } }

/-- 1PPS_OUT goes high for 100 ms (R358). -/
def ppsPulse (s : State) : State :=
  if rbit s oTimCtl 3 then { s with tim := { s.tim with high := some s.tim.mono } } else s

/-- The clock made to stand at `n` units of 2^-32 ns; a step or an advance across a whole second gives one pulse (R347, R358). -/
def setClock (n : Nat) (s : State) : State :=
  let whole := n / 2 ^ 32
  let sec := whole / 1000000000 % 2 ^ 48
  let s1 := { s with tim := { s.tim with sec := sec, ns := whole % 1000000000, frac := n % 2 ^ 32 } }
  if sec = s.tim.sec then s1 else ppsPulse s1

/-- One crystal cycle passes: 40 ns · (1 + trim) (R347). -/
def clockTick (s : State) : State :=
  if clockRuns s then setClock (clockAt s 40000) (timePasses 40 s) else timePasses 40 s

/-- PPS_OUT_PULSE (R347, R358): the crystal cycle in which the nanoseconds field carries; in any other nothing happens here. -/
def clockCarry (s : State) : State :=
  if clockRuns s && decide ((s.tim.sec + 1) * 1000000000 * 2 ^ 32 ≤ clockAt s 40000) then clockTick s else s

/-- 1PPS_OUT as it stands (R287, R358): high for 100 ms from its pulse, low otherwise; with PPS_EN 0, through reset and boot, and
under the global set-reset its park state; released before the rails are up. -/
def ppsOut (s : State) : PinOut :=
  if rfld s oCfgBoot 3 0 = 0 && decide (rfld s oPwrSts 2 0 < 4) then .released
  else if !rbit s oTimCtl 3 || rfld s oCfgBoot 3 0 ≠ 7 || rbit s oCfgSts 1 then
    (match fld s.std.pps 1 0 with | 1 => .low | 2 => .high | _ => .keeper)
  else match s.tim.high with
    | some t => if s.tim.mono < t + 100000000 then .high else .low
    | none => .low

/-- A phase step of `o` ps (R356): the clock, TIM_LASTSTEP, STEPPED; the servo is unlocked (R357). -/
def phaseStep (o : Int) (s : State) : State :=
  let n := (clockFrac s : Int) + o * 2 ^ 32 / 1000
  let s1 := setClock n.toNat s
  let s2 := rset oTimLaststep (satWord (o / 1000)) (rmod oTimSts (fun w => setBit (clrBit w 0) 3) s1)
  { s2 with tim := { s2.tim with good := 0, bad := 0 } }

/-- The rate correction (R355); `r`: the offset's rate in thousandths of a ppb. -/
def servoRate (r : Int) (s : State) : State :=
  let integ := s.tim.integ + r * rfld s oTimServo 31 16
  let trim := clampTrim s (r * rfld s oTimServo 7 0 * 256 + integ)
  { s with tim := { s.tim with integ := integ, trim := trim } }

/-- Lock by the offsets of consecutive samples (R357). -/
def servoLock (o : Int) (s : State) : State :=
  let good := if o.natAbs ≤ 100 then s.tim.good + 1 else 0
  let bad := if 500 < o.natAbs then s.tim.bad + 1 else 0
  let s1 := { s with tim := { s.tim with good := good, bad := bad } }
  if 16 ≤ good then rflag oTimSts 0 s1 else if 4 ≤ bad then rmod oTimSts (clrBit · 0) s1 else s1

/-- The step threshold in ps (R356). -/
def stepLimit (s : State) : Nat := 1000 * max 1 (rfld s oTimStepNs 23 0)

/-- The servo steps on this sample (R356, R362): beyond the threshold as a follower, or at the first sample after an exit from Frost
or Still in IDLE; never while a run stands or STEP_EN is 0. -/
def servoSteps (o : Int) (s : State) : Bool :=
  rbit s oTimCtl 2 && !(seqRuns s || s.seq.st = .paused) &&
    ((timSrc s = 1 && decide (stepLimit s < o.natAbs)) || (s.tim.fresh && s.seq.st = .idle))

/-- A valid sample with offset `o` ps and rate `r` (R354-R357): out of holdover, a phase step or a rate correction. -/
def servoSample (o r : Int) (s : State) : State :=
  let s1 := rset oTimOffset (satWord o) (rmod oTimSts (clrBit · 1) s)
  let s2 := if servoSteps o s1 then phaseStep o s1 else servoLock o (servoRate r s1)
  { s2 with tim := { s2.tim with fresh := false } }

/-- What a port hears is better: the lower master, then the lower hop count, then RING_IN (R352). -/
def upstream (s : State) : Option Nat :=
  match s.tim.ports.find? (·.1 = 0), s.tim.ports.find? (·.1 = 1) with
  | some (_, m0, h0), some (_, m1, h1) => if m1 < m0 || (m1 = m0 && decide (h1 < h0)) then some 1 else some 0
  | some _, none => some 0
  | none, some _ => some 1
  | none, none => none

/-- What this device's own beacons carry (R352): the master's device ID, the hops from it, the group ID. -/
def ownBeacon (s : State) : Nat × Nat × Nat :=
  if timSrc s = 1 then (rfld s oTimSts 25 20, rfld s oTimSts 19 14, rfld s oLkgCfg 31 16) else (s.dev.devid, 0, rfld s oLkgCfg 31 16)

/-- The local clock `sub` ps after the last crystal cycle, in ps (R347). -/
def clockPs (s : State) (sub : Nat) : Nat := clockAt s sub * 1000 / 2 ^ 32

/-- TIME_BEACON_EXCHANGE (R352, R355, R356, R362): the reply is back at port `p`, which is trained; t1 and t4 are of this device's own
clock, t2 and t3 of the neighbour's, all in ps; `valid`: the master's VALID.  A device without its crystal holds over (R354). -/
def beacon (p : Nat) (t1 t2 t3 : Int) (sub master hops gid : Nat) (valid : Bool) (s : State) : State :=
  let t4 : Int := clockPs s sub
  if timSrc s ≠ 1 || 1 < p || bypassed s || !rbit s oRingSts p || !unitOn s 6 || gid ≠ rfld s oLkgCfg 31 16 || !rbit s oCkgSts 7 ||
      decide (t4 < t1) || decide (t3 < t2) then s
  else
    let s1 := { s with tim := { s.tim with ports := mset (64, 64) s.tim.ports p (master, hops),
                                           delay := mset 0 s.tim.delay p (((t2 - t1) + (t4 - t3)) / 2) } }
    if upstream s1 ≠ some p then s1
    else
      let o := ((t2 - t1) - (t4 - t3)) / 2 - signedFld 16 (rfld s (oTimAsym p) 15 0)
      let near := decide (o.natAbs ≤ stepLimit s1) || servoSteps o s1
      let s2 := servoSample o (o * 8000) s1
      let s3 := rmod oTimSts (fun w => putBit (setFld (setFld w 25 20 master) 19 14 (hops + 1)) 8 (p = 1)) s2
      if valid && near then rflag oTimSts 2 s3 else s3

/-- PPS_IN_EDGE (R353): a rising edge `sub` ps after the last crystal cycle. -/
def ppsIn (sub : Nat) (s : State) : State :=
  let t := 1000 * s.tim.mono + sub
  if timSrc s ≠ 2 || !rbit s oCkgSts 7 || !unitOn s 6 || (match s.tim.pps with | some a => decide (t < a + 500000000000) | none => false) then s
  else
    let s1 := { s with tim := { s.tim with pps := some t } }
    let at_ : Int := clockPs s sub - signedFld 16 (rfld s (oTimAsym 2) 15 0)
    let n := at_ % 1000000000000
    let o := if n < 500000000000 then -n else 1000000000000 - n
    servoSample o o s1

/-- Into holdover (R354, R357): the trim frozen at the integral term. -/
def holdover (s : State) : State :=
  let s1 := rmod oTimSts (fun w => setBit (clrBit w 0) 1) s
  { s1 with tim := { s1.tim with good := 0, bad := 0, trim := clampTrim s s1.tim.integ } }

/-- TIME_SOURCE_LOST (R354). -/
def sourceLost (s : State) : State :=
  if timSrc s = 0 || !unitOn s 6 then s
  else
    let ports := match upstream s with | some p => mdel s.tim.ports p | none => s.tim.ports
    rflag oTimSts 4 (holdover { s with tim := { s.tim with ports := ports } })

/-- Network time when the crystal is lost (R354): holdover on the internal oscillator, the trim frozen as it is. -/
def crystalTime (s : State) : State :=
  let s1 := rmod oTimSts (fun w => setBit (clrBit w 0) 1) s
  { s1 with tim := { s1.tim with good := 0, bad := 0 } }

/-- TIM_CTL_WRITE (R351, TIM_CTL card). -/
def timCtlWrite (v : Word) (s : State) : State :=
  let s1 := rput oTimCtl 3 2 (fld v 3 2) s
  let src := fld v 1 0
  if src = timSrc s then s1
  else if src = 3 || rbit s oLkgCfg 0 then rflag oTimSts 5 s1
  else
    let s2 := rmod oTimSts (fun w => clrBit (clrBit w 1) 0) (rput oTimCtl 1 0 src s1)
    { s2 with tim := { s2.tim with integ := 0, good := 0, bad := 0, ports := [], pps := none } }

/-- TIM_TRIM_WRITE (R355, TIM_TRIM card). -/
def timTrimWrite (v : Word) (s : State) : State :=
  if timSrc s ≠ 0 then rflag oTimSts 5 s
  else { s with tim := { s.tim with trim := clampTrim s (v.toInt * trimUnit) } }

/-- A read of TIM_NS latches the seconds (R349). -/
def latchSec (s : State) : State :=
  rset oTimSecHi (BitVec.ofNat 32 (s.tim.sec / 2 ^ 32 % 65536)) (rset oTimSecLo (BitVec.ofNat 32 s.tim.sec) s)

/-- TIME_SET (R361): a phase step to the time given. -/
def cmdTimeSet (c : Cmd) (s : State) : State :=
  let form := c.flags = 0 && decide (c.p0 < 2 ^ 48) && decide (c.p1 < 1000000000) && c.p2 = 0 && noP3 c
  command c s form (unitOn s 6) (timSrc s = 1) (seqRuns s || s.seq.st = .paused) fun s =>
    let new : Nat := (c.p0 * 1000000000 + c.p1) * 2 ^ 32
    let size : Int := (Int.ofNat new - Int.ofNat (clockFrac s)) / 4294967296
    let s1 := rset oTimLaststep (satWord size) (setClock new s)
    let s2 := rmod oTimSts (fun w => setBit (setBit (clrBit w 0) 3) 2) s1
    let s3 := { s2 with tim := { s2.tim with good := 0, bad := 0 } }
    reply c stOk (timStsView s3).toNat 0 0 s3

end Sys2Proof.Machine
end

