-- ==== Sys2Proof/Machine/HostRegs.lean ====
section
/-!
DEFINITION. The registers as the host meets them: what an access reaches, ownership, reads with their side effects, and writes
(R1, R2, R10-R12, R20-R23, R98, R314, R343, R344, R398-R400 and the cards' side effects).
-/
namespace Sys2Proof.Machine

/-- The barge node of a BAR0 offset (R20, R334); none in a reserved block. -/
def regNode (off : Nat) : Option Nat :=
  let b := blockOf off
  if b = 0 then some 46
  else if b < 0xF then some (31 + b)
  else if 0x10 ≤ b && b < 0x30 then some (b - 0x10)
  else if b = 0x30 then some 47
  else none

/-- An access of `len` bytes touches the private test block (R20, R21). -/
def testBlock (off len : Nat) : Bool := decide (0x3F00000 < off + max 1 len) && decide (off < 0x4000000)

/-- The form of a BAR0 access (R10): 4 bytes, aligned, within 64 MiB. -/
def regForm (off len : Nat) : Bool := len = 4 && off % 4 = 0 && decide (off < 0x4000000)

/-- The endpoint takes no access: in reset, disabled by TEST_EN, without power, in Frost or Still (R280, R285, R286, R321,
R414). -/
def endpointDown (s : State) : Bool := !s.host.link || s.rst.ovp || s.rst.perst || s.rst.testEn || decide (4 ≤ pwrSt s)

/-- The function's configuration space as it reads: the Device ID is CAP_ID.PART, the class code that of a processing accelerator
(R381). -/
def confView (s : State) (k : Nat) : Word :=
  let w := mget 0#32 s.host.conf k
  if k = 0 then setFld w 31 16 (memPart s.dev.member) else if k = 2 then setFld w 31 8 0x120000 else w

/-- The endpoint answers a configuration request with Configuration Request Retry Status (R286). -/
def configRetry (s : State) : Bool := !endpointDown s && bootStage s ≠ 7 && bootStage s ≠ 0xF

/-- A stopped boot shows CAP, CFG, SAF and STD only (R285). -/
def stoppedHides (s : State) (off : Nat) : Bool := bootStage s = 0xF && !([0, 4, 5, 6].contains (blockOf off))

/-- A register is there: its card has the offset, and the array element lies within the member's ranges (R2). -/
def regExists (s : State) (off : Nat) : Bool :=
  let within (base stride n : Nat) (top : Nat) : Bool := off < base || top ≤ off || decide ((off - base) / stride < n)
  (cardAt off).isSome && within 0x301000 4 (nBanks s) 0x301600 && within 0x302000 4 (nBanks s) 0x302600 &&
    within 0xE0040 4 (nStacks s) 0xE0050 && within 0xE1000 4 (nSluices s) 0xE1200 && within 0xE1200 4 (nSluices s) 0xE1400 &&
    within 0xE8000 0x80 (nSluices s) 0xEC000 && within 0xD1000 4 (nLanes s) 0xD1800 && within 0xD2000 4 (nLanes s) 0xD2800 &&
    within 0xD0040 4 (nLanes s / 32) 0xD0080 && within 0xD0200 4 (nLanes s / 8) 0xD0300 && within 0x80200 8 (nBasins s) 0x80300

/-- The registers an IMG_LOAD writes (R244, R398).  TRC_CTL, whose ARM the disarm of R373 clears, is not counted among them (DESIGN
CHOICE, log entry 61: R244 lists what a load writes, and says neither of the disarm). -/
def loaderWrites (off : Nat) : Bool :=
  let b := blockOf off
  [oSeqCfg, oDmcEq, oCfgPlaced, oCfgLoaded, oCfgFenced, oCfgLoad, oTrcUnseal].contains off ||
    (decide (0x10 ≤ b) && decide (b < 0x30) && (off % 0x10000 = 0x100 || (decide (0x400 ≤ off % 0x10000) && off % 0x100 = 8))) ||
    (b = 0xA && decide (off < 0xA0300) && off % 0x40 = 0x10) ||
    (decide (0x301000 ≤ off) && decide (off < 0x301600)) || (decide (0xE8000 ≤ off) && decide (off < 0xEC000)) ||
    (decide (0xC0100 ≤ off) && decide (off < 0xC0200)) || (decide (0x80200 ≤ off) && decide (off < 0x80300))

/-- The registers the group's events own on every member (R80, R398); LKG_MODE on every member but the lead. -/
def groupOwns (s : State) (off : Nat) : Bool :=
  grpFormed s && otherDevs s ≠ [] &&
    ([oSeqFlight, oSeqLock, oSeqThrottle, oSeqOvr, oSeqStallTmo, oCkgStep].contains off || (off = oLkgMode && !leads s))

/-- LKP_OWN: the register is owned by the lockkeeper (R398); a register with a W1C field never is (R400), but for DMC_OWN and
DMC_MARCH_STS, whose W1C field stays the host's. -/
def lkpOwns (s : State) (off : Nat) : Bool :=
  let own := decide (0x301000 ≤ off) && decide (off < 0x301600)
  let w1c := match cardAt off with | some c => c.w1c ≠ 0 && !own && off ≠ oDmcMarchSts | none => true
  !w1c && ((loading s && loaderWrites off) || groupOwns s off ||
    (s.lkp.march.isSome && (own || off = oDmcMarchSts || off = oCfgLoaded || (decide (0x302000 ≤ off) && decide (off < 0x302600)) ||
      (decide (0x100000 ≤ off) && decide (off < 0x300000) && decide (0x400 ≤ off % 0x10000) && off % 0x100 = 8))) ||
    (inProgress s 0x0B && [oPwrLastwake, oPwrLastwakeTsn, oCfgFenced].contains off))

/-- LKP_OWN for the window LKP_OWN_SEL selects. -/
def ownView (s : State) : Word :=
  let base := 128 * rfld s oLkpOwnSel 25 7
  BitVec.ofNat 32 ((List.range 32).map fun j => if lkpOwns s (base + 4 * j) then 2 ^ j else 0).sum

/-- The CAP block as it reads (R22, R23 and the latency descriptor). -/
def capView (s : State) (off : Nat) : Word :=
  let m := s.dev.member
  let e := m = .fx820e
  if off = oCapId then BitVec.ofNat 32 (0x7E1A0000 + memPart m)
  else if off = oCapVer then (if s.dev.stepB then 0x110#32 else 0x100#32)
  else if off = oCapUnits then BitVec.ofNat 32 (memUnits m)
  else if off = oCapGeom then BitVec.ofNat 32 (0x404000 + nBasins s)
  else if off = oCapMem then BitVec.ofNat 32 (0x01800000 + nStacks s * 2 ^ 16 + nBanks s)
  else if off = oCapGau then BitVec.ofNat 32 ((if e then 0 else 0x100000) + nLanes s)
  else if off = oCapDevid then BitVec.ofNat 32 s.dev.devid
  else if off = oCapLatDm then BitVec.ofNat 32 (0x300 + nativeD s)
  else if off = oCapLatXl then (if hasWharf s then rget s off else setFld (rget s off) 23 16 0)
  else rget s off

/-- SEQ_THR_STS as it reads (R93, R94): a source shows where its own request is the largest of the group; HOST_STRETCH is the same
on every member (R80). -/
def thrStsView (s : State) : Word :=
  let w := max (stretchWanted s) (reqMax s (reqsLast s))
  let top (x : Nat) : Nat := b2n (x = w && x ≠ 0)
  BitVec.ofNat 32 (b2n s.seq.emerg * 2 ^ 23 + top s.seq.pcap * 2 ^ 22 + top s.seq.therm * 2 ^ 21 + top (hostStretch s) * 2 ^ 20 +
    s.seq.eff)

/-- A throttle change is agreed and not yet effective: a request pending changes the stretch (R93, SEQ_STS.THR_PEND). -/
def thrChanges (s : State) : Bool := s.seq.thrPend.any fun t => effBy t.e0 s ≠ s.seq.eff

/-- SEQ_STS as it reads; PAUSED is held back until every marker is verified (R78). -/
def seqStsView (s : State) : Word :=
  let q := s.seq
  let st := if q.st = .paused && q.markHold then 3 else seqCode q.st
  let stall := q.events.any fun e => decide (1 ≤ e.kind) && decide (e.kind ≤ 4)
  rget s oSeqSts &&& 0x00007A00#32 |||
    BitVec.ofNat 32 (q.fltPos % 8192 * 2 ^ 16 + b2n q.diverged * 2 ^ 15 + b2n q.stepf * 2 ^ 10 + b2n q.halt.isSome * 2 ^ 7 +
      b2n stall * 2 ^ 6 + b2n (thrChanges s) * 2 ^ 5 + b2n q.lastTaint * 2 ^ 3 + st)

/-- The SEQ block as it reads (R98). -/
def seqView (s : State) (off : Nat) : Word :=
  if off = oSeqThrSts then thrStsView s
  else if off = oSeqSts then seqStsView s
  else if off = oSeqFrameLo then s.seq.F.truncate 32
  else if off = oSeqGscLo then s.seq.gsc.truncate 32
  else if off = oSeqFltNum then s.seq.fltNum
  else if off = oSeqStepf then s.seq.left
  else if off = oSeqHalt then BitVec.ofNat 32 (b2n s.seq.haltReq)
  else rget s off

/-- F[31:0] of the newest frame whose taint mark is final (R74, R208, R367). -/
def finalLo (s : State) : Word := BitVec.ofNat 32 (s.seq.finalTo.getD 0)

/-- HLD_SLU_STS[q]: tags outstanding and slots in use (R157). -/
def sluStsView (s : State) (q : Nat) : Word :=
  let out := (List.range 16).filter fun t => getTag s q t ≠ .free
  BitVec.ofNat 32 ((s.req.filter (·.q = q)).length * 2 ^ 16 + (out.map (2 ^ ·)).sum)

/-- SAF_STS and SAF_LOG_STS as they read (R268, R275). -/
def safStsView (s : State) : Word :=
  rget s oSafSts &&& 0xFFFF#32 |||
    BitVec.ofNat 32 (b2n s.saf.safe * 2 ^ 31 + b2n (faultN s) * 2 ^ 30 + b2n (decide (1008 ≤ s.saf.log.length)) * 2 ^ 16)

/-- BAS_CFLAG0, BAS_CFLAG1: clusters `lo` to lo+31 of basin `b` with a sticky flag set (R67). -/
def cflagView (s : State) (b lo : Nat) : Word :=
  BitVec.ofNat 32 ((List.range 32).map fun i => if rfld s (oCluStat b (lo + i)) 7 0 ≠ 0 then 2 ^ i else 0).sum

/-- XCH_PART_USE[j]: the entries in use, and the highest occupancy since the last read, which starts as that of the read. -/
def partHwm (s : State) (j : Nat) : Nat := (partUsed s j + 63) / 64
def partUseView (s : State) (j : Nat) : Word :=
  BitVec.ofNat 32 (max (rfld s (oXchPartUse j) 29 18) (partHwm s j) * 2 ^ 18 + partUsed s j)
/-- The partition whose XCH_PART_USE lies at `off`. -/
def partAt (off : Nat) : Option Nat := if 0xC0200 ≤ off && decide (off < 0xC0300) then some ((off - 0xC0200) / 4) else none

/-- LKG_CFG.LEAD (R188): the lowest device ID in LKG_MEMBERS, or this device where it runs alone. -/
def leadView (s : State) : Nat := (members s).headD s.dev.devid

/-- The other blocks whose registers show live state. -/
def liveView (s : State) (off : Nat) : Word :=
  let b := blockOf off
  if off = oDmcEq then setFld (rget s off) 7 4 (nativeD s)
  else if 0x302000 ≤ off && off < 0x302600 then setFld (rget s off) 7 4 (Config.factoryRepairs ((off - 0x302000) / 4)).val
  else if 0xE1000 ≤ off && off < 0xE1200 then sluStsView s ((off - 0xE1000) / 4)
  else if off = oLkgCfg then setFld (rget s off) 7 2 (leadView s)
  else if 0x10 ≤ b && b < 0x30 && (off % 0x10000 = 0x80 || off % 0x10000 = 0x84) then
    cflagView s (b - 0x10) (8 * (off % 0x10000 - 0x80))
  else if 0xC0200 ≤ off && off < 0xC0300 then partUseView s ((off - 0xC0200) / 4)
  else if off = oXchFinalLo || off = oTrcFinalLo then finalLo s
  else if off = oGauFfUse then BitVec.ofNat 32 s.gau.fifo.length
  else if off = oSafSts then safStsView s
  else if off = oSafLogSts then setFld (rget s off) 10 0 s.saf.log.length
  else if 0x50020 ≤ off && off < 0x50030 then firstWord s ((off - 0x50020) / 4)
  else if off = oCkgStep then ckgStepView s
  else if off = oCkgEn0 then rget s off &&& BitVec.ofNat 32 (memUnits s.dev.member)
  else if off = oCkgEn1 then rget s off &&& BitVec.ofNat 32 (2 ^ nBasins s - 1)
  else if off = oPwrSts then pwrStsView s
  else if off = oBnwUfenced then ufencedView s
  else if off = oTimNs then BitVec.ofNat 32 s.tim.ns
  else if off = oTimTsn then BitVec.ofNat 32 (tsnOf s)
  else if off = oTimSts then timStsView s
  else if off = oTimTrim then trimView s
  else if off = oLkpOwn then ownView s
  else if off = oCfgRst then BitVec.ofNat 32 (b2n s.rst.warm.isSome + 2 * b2n (decide (s.rst.recov ≠ 0)))
  else if b = 6 && off < 0x60400 then stdStored s ((off - 0x60000) / 4)
  else rget s off

/-- The register as it reads, side effects aside: write-only fields and absent elements read zero (R2, R11, R12). -/
def regView (s : State) (off : Nat) : Word :=
  if !regExists s off then 0#32
  else
    let w := if blockOf off = 0 then capView s off else if blockOf off = 9 then seqView s off else liveView s off
    match cardAt off with
    | some c => w &&& ~~~(BitVec.ofNat 32 c.wo)
    | none => 0#32

/-- What a read changes: RC fields, latches, the flags of a standing register's check (R12, R98, R349, R407). -/
def readEffect (off : Nat) (s : State) : State :=
  if !regExists s off then s
  else if off = oSeqFrameLo then rset oSeqFrameHi ((s.seq.F >>> 32).truncate 32) s
  else if off = oSeqGscLo then rset oSeqGscHi ((s.seq.gsc >>> 32).truncate 32) s
  else if off = oTimNs then latchSec s
  else if blockOf off = 6 && off < 0x60400 then (stdRead ((off - 0x60000) / 4) s).2
  else if let some j := partAt off then rput off 29 18 (partHwm s j) s
  else match cardAt off with
    | some c => if c.rc = 0 then s else rmod off (· &&& ~~~(BitVec.ofNat 32 c.rc)) s
    | none => s

/-- The value a read of a standing register gives is the one its check leaves (R407). -/
def readValue (s : State) (off : Nat) : Word :=
  if blockOf off = 6 && off < 0x60400 && regExists s off then (stdRead ((off - 0x60000) / 4) s).1 else regView s off

/-- The MSI-X table and the pending-bit array (R385), laid out as PCI Express has them. -/
def msixWord (s : State) (off : Nat) : Option Word :=
  if 0x18000 ≤ off && off < 0x18400 then
    let i := (off - 0x18000) / 4
    some (mget (if i % 4 = 3 then 1#32 else 0#32) s.host.msixTab i)
  else if off = 0x18800 then some (s.host.pba.truncate 32)
  else if off = 0x18804 then some ((s.host.pba >>> 32).truncate 32)
  else none

/-- A write of an MSI-X table word: reserved bits stay 0, and a vector unmasked with its pending bit set is sent. -/
def msixWrite (off : Nat) (v : Word) (s : State) : State :=
  let i := (off - 0x18000) / 4
  let n := i / 4
  let w := if i % 4 = 3 then v &&& 1#32 else if i % 4 = 0 then v &&& 0xFFFFFFFC#32 else v
  let s1 := { s with host := { s.host with msixTab := mset (if i % 4 = 3 then 1#32 else 0#32) s.host.msixTab i w } }
  if i % 4 = 3 && w = 0#32 && s.host.pba.getLsbD n then
    { s1 with host := { s1.host with pba := s1.host.pba &&& ~~~(BitVec.ofNat 64 (1 <<< n)), msix := n :: s1.host.msix } }
  else s1

/-- A host access answered FENCED (R343, R344): zero data, or the write discarded. -/
def hostFenced (s : State) : State := rflag oBnwSts 1 (rcount oBnwFencedCnt 31 0 1 s)

/-- BAR0_READ (R10, R20, R21, R98, R285, R314, R344): `len` bytes at `off`. -/
def bar0Read (off len : Nat) (s : State) : State :=
  if endpointDown s then s
  else if testBlock off len then hostCpl .unsupported false 0 off [] (raise 0xB001 11 (off / 4) s)
  else if !regForm off len then hostCpl .unsupported false 0 off [] s
  else
    let give (w : Word) (s : State) : State := hostCpl .ok false 0 off (leBytes 4 w.toNat) s
    if stoppedHides s off then give 0#32 s
    else match regNode off with
      | none => give 0#32 s
      | some n =>
        if stubAnswers s n 0 then give 0#32 (hostFenced s)
        else match msixWord s off with
          | some w => give w s
          | none => give (readValue s off) (readEffect off s)

/-- The fields of the card that a write changes (R11, R12). -/
def cardWrite (off : Nat) (v : Word) (s : State) : State :=
  match cardAt off with
  | some c =>
    let rw := BitVec.ofNat 32 c.rw
    let w1 := (rget s off &&& ~~~rw) ||| (v &&& rw)
    rset off ((w1 &&& ~~~(v &&& BitVec.ofNat 32 c.w1c)) ||| (v &&& BitVec.ofNat 32 c.w1s)) s
  | none => s

/-- A sticky flag's clear that also clears a record's VALID (their cards). -/
def clearWith (off i rec_ : Nat) (v : Word) (s : State) : State :=
  let s1 := cardWrite off v s
  if bit v i then rmod rec_ (clrBit · 31) s1 else s1

/-- A clear of sticky flags that clears a record's VALID once every flag reads 0 (their cards). -/
def clearAll (off rec_ : Nat) (v : Word) (s : State) : State :=
  let s1 := cardWrite off v s
  if rget s1 off = 0#32 then rmod rec_ (clrBit · 31) s1 else s1

/-- A write accepted within limits, or ignored. -/
def writeIf (ok : Bool) (off : Nat) (v : Word) (s : State) : State := if ok then cardWrite off v s else s

/-- SEQ_HALT.REQ (R82): SEQ_HALT_REQ.  A request that is ignored sets no SEQ_STS.CFG_ERR: DESIGN CHOICE (log entry 64), R82 and R98
do not say whether it counts as an ignored SEQ write. -/
def haltReqWrite (v : Word) (s : State) : State :=
  if bit v 0 && seqRuns s then requestHalt { s with seq := { s.seq with haltReq := true } } else s

/-- SEQ_LOCK's limits (R76). -/
def lockOk (v : Word) : Bool :=
  let n := fld v 12 0
  decide (32 ≤ n) && decide (n ≤ 4096) && n % 8 = 0 && (!bit v 16 || decide (64 ≤ n))
def flightOk (v : Word) : Bool := decide (1 ≤ fld v 12 0) && decide (fld v 12 0 ≤ 4096)

/-- A write in the SEQ block (R79, R80, R93, R98). -/
def seqWrite (off : Nat) (v : Word) (s : State) : State :=
  let bad := rflag oSeqSts 11 s
  if off = oSeqCfg then bad
  else if off = oSeqFlight then (if flightOk v then configChange s.seq.gsc.toNat (cardWrite off v s) else bad)
  else if off = oSeqLock then (if lockOk v then configChange s.seq.gsc.toNat (cardWrite off v s) else bad)
  else if off = oSeqThrottle then throttleEvent (cardWrite off v s)
  else if off = oSeqHalt then haltReqWrite v s
  else cardWrite off v s

/-- A write in a BAS window: only the loader writes BAS_REACH_CFG. -/
def basWrite (off : Nat) (v : Word) (s : State) : State :=
  let b := blockOf off - 0x10
  let o := off % 0x10000
  if o = 0x100 then rflag (oBasReachSts b) 4 s
  else if o = 0x104 then clearWith off 0 (oBasContRec b) v s
  else if 0x400 ≤ o && o % 0x100 = 0 then clearWith off 0 (off + 4) v s
  else cardWrite off v s

/-- A write in the DMC block (R126, R127, R139). -/
def dmcWrite (off : Nat) (v : Word) (s : State) : State :=
  if off = oDmcSts then clearWith off 1 oDmcUeRec v s
  else if off = oDmcHsts then clearAll off oDmcHaddr v s
  else if off = oDmcEq then s
  else if off = oDmcPatrol then writeIf (decide (100 ≤ fld v 15 0) && decide (fld v 15 0 ≤ 1000)) off v s
  else if 0x301000 ≤ off && off < 0x301600 then
    let k := (off - 0x301000) / 4
    if bit v 31 then ownClear k s else (ownWrite k v s).1
  else cardWrite off v s

/-- A write in the HLD block (R152, R161). -/
def hldWrite (off : Nat) (v : Word) (s : State) : State :=
  if off = oHldSts then clearWith off 1 oHldUeLine v s
  else if off = oHldHsts then clearAll off oHldHaddr v s
  else if off = oHldScrub then writeIf (decide (1 ≤ fld v 7 0) && decide (fld v 7 0 ≤ 24)) off v s
  else if 0xE8000 ≤ off && off < 0xEC000 then
    let i := off - 0xE8000
    regionWrite (i / 0x80) (i % 0x80 / 8) (i % 8 = 4) v s
  else cardWrite off v s

/-- A write in the LNK block (R170, R189, R190). -/
def lnkWrite (off : Nat) (v : Word) (s : State) : State :=
  if off < 0xA0300 && off % 0x40 = 0 then lnkCtlWrite ((off - 0xA0000) / 0x40) v s
  else if off < 0xA0300 && off % 0x40 = 0x10 then s
  else if off = oLkgCfg then lkgCfgWrite v s
  else if off = oLkgMode then lkgModeWrite v s
  else if off = oLkgMembersLo || off = oLkgMembersHi || off = oLkgLinkmask then lkgTableWrite off v s
  else if off = oLkgSts then clearWith off 3 oLkgLockrec v s
  else cardWrite off v s

/-- A write in the XCH block (R196, R204, R206, R211). -/
def xchWrite (off : Nat) (v : Word) (s : State) : State :=
  let i := off - 0xC1000
  if off = oXchSts then clearWith off 0 oXchCaprec v s
  else if off = oXchDone then wXchDone v s
  else if off = oXchRetLo then wXchRetLo v s
  else if off = oXchRetHi then ringHiWrite retRing v s
  else if off = oXchRetPi then wXchRetPi v s
  else if 0xC0100 ≤ off && off < 0xC0200 then
    (if partUsed s ((off - 0xC0100) / 4) = 0 then rput off 30 23 (fld v 30 23) s else s)
  else if off < 0xC1000 then cardWrite off v s
  else if i % 16 = 0 then wXchRingLo (i / 16) v s
  else if i % 16 = 4 then ringHiWrite (xchRing (i / 16)) v s
  else if i % 16 = 12 then wXchRingCi (i / 16) v s
  else s

/-- A write in the GAU block (R217, R222, R228). -/
def gauWrite (off : Nat) (v : Word) (s : State) : State :=
  if off = oGauSts then clearWith off 0 oGauFf1Lane v s
  else if 0xD0080 ≤ off && off < 0xD00A0 then
    let r := (off - 0xD0080) / 16
    (match off % 16 with
     | 0 => wGauRingLo r v s
     | 4 => if ringEn s (gauRing r) then rflag oGauSts 5 s else ringHiWrite (gauRing r) v s
     | 12 => wGauRingCi r v s
     | _ => s)
  else if 0xD0200 ≤ off && off < 0xD0300 then wGauZdmap ((off - 0xD0200) / 4) v s
  else if 0xD1000 ≤ off && off < 0xD1800 then wGauLane ((off - 0xD1000) / 4) v s
  else cardWrite off v s

/-- A write in the SAF block (R271, R277). -/
def safWrite (off : Nat) (v : Word) (s : State) : State :=
  if off = oSafCtl then writeIf (!seqActive s) off v s
  else if off = oSafTlim then writeIf (decide (96 ≤ fld v 7 0) && decide (fld v 7 0 ≤ 110)) off v s
  else if off = oSafInject then safInject (fld v 15 0) s
  else cardWrite off v s

/-- A write in the CKG block (R304, R312-R315). `e`: how a switch of the step domain goes. -/
def ckgWrite (off : Nat) (v : Word) (e : SwitchEnd) (s : State) : State :=
  if off = oCkgEn0 then enWrite false v s
  else if off = oCkgEn1 then enWrite true v s
  else if off = oCkgTol then tolWrite v s
  else if off = oCkgStep then
    let s1 := if fld v 26 16 ≠ rfld s oCkgStep 26 16 then mhzWrite (fld v 26 16) e s else s
    if bit v 9 then restoreRequest s1 else s1
  else cardWrite off v s

/-- A write in the PWR block (R330, R333). -/
def pwrWrite (off : Nat) (v : Word) (s : State) : State :=
  let run := pwrSt s = 0 && !pwrBusy s
  if off = oPwrCtl || off = oPwrWakeTmr || off = oPwrSave then writeIf run off v s
  else if 0x30040 ≤ off && off < 0x30070 then
    let i := (off - 0x30040) / 4
    let mask := BitVec.ofNat 32 (2 ^ min 32 (nBanks s - 32 * i) - 1)
    writeIf run off (v &&& mask) s
  else if off = oPwrTherm then
    let t := fld v 7 0
    let s1 := rput off 27 8 (fld v 27 8) s
    if 60 ≤ t && t ≤ 95 then rput off 7 0 t s1 else s1
  else cardWrite off v s

/-- A write in the BNW block. -/
def bnwWrite (off : Nat) (v : Word) (s : State) : State :=
  if off = oBnwTmo then (if 10 ≤ fld v 13 0 && fld v 13 0 ≤ 10000 then cardWrite off v s else rflag oBnwSts 5 s)
  else if off = oBnwSts then clearWith off 0 oBnwTmorec v s
  else cardWrite off v s

/-- A write in the TIM block (R351, R355). -/
def timWrite (off : Nat) (v : Word) (s : State) : State :=
  if off = oTimCtl then timCtlWrite v s
  else if off = oTimTrim then timTrimWrite v s
  else cardWrite off v s

/-- A write in the TRC block (R368, R372, R373): while the unit is armed its configuration does not change. -/
def trcWrite (off : Nat) (v : Word) (s : State) : State :=
  if off = oTrcCtl then (if bit v 0 then trcArmWrite v s else trcDisarmWrite v s)
  else if off = oTrcRp then trcRpWrite v s
  else if off = oTrcSts || off = oTrcInt then cardWrite off v s
  else if trcArmed s && (match cardAt off with | some c => c.rw ≠ 0 | none => false) then rflag oTrcSts 1 s
  else cardWrite off v s

/-- The command in execution that came from ring `i` loses its reply (R388). -/
def loseRing (i : Nat) (s : State) : State :=
  let f (c : Cmd) : Cmd := if c.port = i then { c with port := 17 } else c
  { s with lkp := { s.lkp with run := s.lkp.run.map f, march := s.lkp.march.map f,
                               access := s.lkp.access.map fun a => { a with cmd := f a.cmd },
                               load := s.lkp.load.map fun l => { l with cmd := f l.cmd } } }

/-- LKP_CR_LO[i], LKP_RR_LO[i] (R388): a change of EN cuts the command in execution off from its reply. -/
def lkpRingLo (i : Nat) (r : RingRegs) (v : Word) (s : State) : State :=
  match ringLoWrite r 4 12 v s with
  | some s1 => if bit v 8 = ringEn s r then s1 else loseRing i s1
  | none => s

/-- LKP_MBOX_CTL (R389): GO sets, DONE clears. -/
def mboxGo (v : Word) (s : State) : State := cardWrite oLkpMboxCtl v s

/-- A write in the LKP block (R386, R388, R389). -/
def lkpWrite (off : Nat) (v : Word) (s : State) : State :=
  let i := (off - 0x11000) / 0x20
  if 0x18000 ≤ off && off < 0x18400 then msixWrite off v s
  else if 0x10100 ≤ off && off < 0x10140 then writeIf (!rbit s oLkpMboxCtl 0) off v s
  else if off = oLkpMboxCtl then mboxGo v s
  else if off < 0x11000 then cardWrite off v s
  else match off % 0x20 with
    | 0x00 => lkpRingLo i (crRing i) v s
    | 0x04 => ringHiWrite (crRing i) v s
    | 0x08 => (ringIdxWrite (crRing i) true v s).getD s
    | 0x10 => lkpRingLo i (rrRing i) v s
    | 0x14 => ringHiWrite (rrRing i) v s
    | 0x1C => (ringIdxWrite (rrRing i) false v s).getD s
    | _ => s

/-- A write that has reached its register, within the register's own rules. -/
def regWrite (off : Nat) (v : Word) (e : SwitchEnd) (s : State) : State :=
  match blockOf off with
  | 0 => s
  | 1 => lkpWrite off v s
  | 2 => ckgWrite off v e s
  | 3 => pwrWrite off v s
  | 4 => if off = oCfgRst then cfgRstWrite v s else cardWrite off v s
  | 5 => safWrite off v s
  | 6 => if off < 0x60400 then stdWrite ((off - 0x60000) / 4) v s else cardWrite off v s
  | 7 => timWrite off v s
  | 8 => trcWrite off v s
  | 9 => seqWrite off v s
  | 0xA => lnkWrite off v s
  | 0xB => bnwWrite off v s
  | 0xC => xchWrite off v s
  | 0xD => gauWrite off v s
  | 0xE => hldWrite off v s
  | 0x30 => dmcWrite off v s
  | _ => basWrite off v s

/-- A host write is dropped, counted and recorded (R399); `reason` 0: the register is owned, 1: the lockkeeper writes it in the same
cycle. -/
def writeLost (reason off : Nat) (s : State) : State :=
  let s1 := rcount oLkpHostWrLost 31 0 1 s
  if rbit s1 oLkpHostWrRec 31 then s1
  else rset oLkpHostWrRec (BitVec.ofNat 32 (2 ^ 31 + reason * 2 ^ 30 + off / 4 % 2 ^ 24)) s1

/-- The registers that the lockkeeper writes without owning them (R399): those of SEQ_SET and STEP_CLOCK, of TRACE_ARM, of TIME_SET and
of STD_WRITE. -/
def lkpShares (off : Nat) : Bool :=
  [oSeqFlight, oSeqLock, oSeqThrottle, oSeqOvr, oSeqStallTmo, oCkgStep, oTrcCtl].contains off || blockOf off = 7 ||
    (blockOf off = 6 && decide (off < 0x60400))

/-- The write sets nothing but a W1C field that stays the host's in an owned register (R400): DMC_OWN[k].REFUSED or
DMC_MARCH_STS.DONE. -/
def hostPart (off : Nat) (v : Word) : Bool :=
  (decide (0x301000 ≤ off) && decide (off < 0x301600) && bit v 31) || (off = oDmcMarchSts && bit v 30)

/-- The write reaches its register, or is dropped there (R399, R400); `clash`: the lockkeeper writes the register in this cycle. -/
def ownedWrite (off : Nat) (v : Word) (e : SwitchEnd) (s : State) (clash : Bool := false) : State :=
  if lkpOwns s off && !hostPart off v then writeLost 0 off s
  else if clash && lkpShares off then writeLost 1 off s
  else regWrite off v e s

/-- A host write of one register (R10-R12, R285, R314, R344, R399). -/
def hostWrite (off : Nat) (v : Word) (e : SwitchEnd) (s : State) (clash : Bool := false) : State :=
  if endpointDown s then s
  else if stoppedHides s off then s
  else match regNode off with
    | none => s
    | some n =>
      if stubAnswers s n 0 then hostFenced s
      else if !(regExists s off || (msixWord s off).isSome) then s
      else ownedWrite off v e s clash

/-- REGISTER_WRITE (R10, R12, R21): `data` at `off`; an access of another form is discarded. -/
def bar0Write (off : Nat) (data : List Byte) (e : SwitchEnd) (s : State) (clash : Bool := false) : State :=
  if endpointDown s then s
  else if testBlock off data.length then raise 0xB001 11 (off / 4) s
  else if regForm off data.length then hostWrite off (BitVec.ofNat 32 (leNat data)) e s clash else s

end Sys2Proof.Machine
end

