-- ==== Sys2Proof/Machine/Barge.lean ====
section
/-!
DEFINITION. Barges: their form, credits, service at the target, replies and timeouts (R337-R344), and the host's aperture on design
memory (R130-R133).
-/
namespace Sys2Proof.Machine

/-- The barge keeps the form of R337: a reserved CLASS or OP, or NDATA inconsistent with LEN, makes a router discard it. -/
def bargeForm (b : Barge) : Bool :=
  let full := if b.len ≤ 16 then 0 else (b.len + 31) / 32
  let carries := b.cls = 0 && b.op ≠ 0
  decide (b.cls ≤ 2) && decide (b.op ≤ 4) && decide (1 ≤ b.len) && decide (b.len ≤ 256) &&
    (if carries then b.ndata = full else b.ndata = 0 || (b.cls = 1 && b.ndata = full))

/-- Receive buffers each master has at a node (R339); a DMC barge goes to one bank's controller. -/
def nodeCredits (n : Nat) : Nat := if n = 45 then 16 else if n = 46 then 32 else if n = 47 then 1 else 2
/-- Reply buffers of a requester (R339). -/
def replyStore (n : Nat) : Nat := if n = 46 then 256 else if n = 32 then 32 else 16

/-- The bank a barge to DMC addresses. -/
def bargeBank (b : Barge) : Nat := if b.dst = 47 then b.addr % 0x6000000 / 0x40000 else 0

/-- The request is one its master can send: from its node, at the priorities of its traffic (R338); the safety unit's from every node,
the link's at the priority of the remote barge; of a reserved ID nothing is known. -/
def bargeSender (b : Barge) : Bool :=
  match b.master with
  | 0 => b.src = 46 && (b.pri = 1 || b.pri = 2)
  | 1 => b.src = 32 && decide (b.pri ≤ 2)
  | 2 => b.src = 43 && (b.pri = 2 || b.pri = 3)
  | 3 => b.src = 39 && b.pri = 3
  | 4 => b.src = 44 && b.pri = 3
  | 5 => b.src = 45 && b.pri = 3
  | 6 => b.src = 41
  | 7 => b.pri = 0
  | _ => true

/-- The requester holds a credit, has reserved a reply buffer, and a tag that no request under way or timed out keeps (R339,
R343). -/
def bargeCredit (s : State) (b : Barge) : Bool :=
  let out := s.bnw.sent ++ s.bnw.dead
  bargeSender b &&
    decide ((out.filter fun x => x.master = b.master && x.dst = b.dst && bargeBank x = bargeBank b).length < nodeCredits b.dst) &&
    decide ((s.bnw.sent.filter fun x => x.src = b.src).length < replyStore b.src) &&
    !(out.any fun x => x.src = b.src && x.master = b.master && x.tag = b.tag)

/-- A reply to `b`, on its way back (R337). -/
def bargeReply (b : Barge) (status code : Nat) (data : List Byte) (s : State) : State :=
  let nd := if data.length ≤ 16 then 0 else (data.length + 31) / 32
  let r := { b with cls := 1, dst := b.src, src := b.dst, status := status, code := code, ndata := nd, data := data }
  { s with bnw := { s.bnw with replies := r :: s.bnw.replies, taken := s.bnw.taken.erase b } }

/-- FENCED from a router or the link node (R338, R341), and from a stub, which BNW_FENCED_CNT counts (R343, R346). -/
def bargeTurned (b : Barge) (s : State) : State := bargeReply b 1 0 [] s
def bargeFenced (b : Barge) (s : State) : State := bargeTurned b (rcount oBnwFencedCnt 31 0 1 s)

/-- A barge counted in BNW_BAD. -/
def bargeBad (s : State) : State := rflag oBnwSts 4 (rcount oBnwBad 15 0 1 s)

/-- The request waits at its requester for the reply. -/
def bargeSent (b : Barge) (s : State) : State := { s with bnw := { s.bnw with sent := s.bnw.sent ++ [b] } }

/-- One word of the access `b` asks of a bank, at `addr`, `n` bytes of it (R131). -/
def svcWord (b : Barge) (answer : SvcAnswer) (addr n : Nat) (data : List Byte) : SvcReq :=
  let off := addr % 0x6000000
  let up : Bool := off % 8 = 4
  let half := if n = 4 then some up else none
  let sh := if n = 4 && up then 2 ^ 32 else 1
  let m : BitVec 64 := if n = 4 then (if up then 0xFFFFFFFF00000000#64 else 0xFFFFFFFF#64) else BitVec.allOnes 64
  let o : SvcOp := match b.op with
    | 0 => if half.isSome then .readHalf else .read
    | 2 => .setBits
    | 3 => .clearBits
    | _ => if half.isSome then .partialW else .write
  { master := b.master, tag := b.tag, addr := addr, half := half, op := o, bank := off / 0x40000, word := off % 0x40000 / 8,
    data := BitVec.ofNat 64 (leNat data * sh), mask := m, poison := false, counted := false, answer := answer, cycle := 0 }

/-- The words of a service access by barge (R131): half a word, or a series of whole words in address order; an access of any other
size or alignment has none. -/
def bargeWords (b : Barge) : List SvcReq :=
  if b.len = 4 && b.addr % 4 = 0 then [svcWord b .barge b.addr 4 b.data]
  else if b.len % 8 = 0 && b.addr % 8 = 0 then
    (List.range (b.len / 8)).map fun i => svcWord b .barge (b.addr + 8 * i) 8 ((b.data.drop (8 * i)).take 8)
  else []

/-- The service access reaches its bank, and is performed where it is the bank's next (R134, R135). -/
def svcArrive (r : SvcReq) (s : State) : State :=
  let s1 := serviceRequest r s
  if (svcNext s1 r.bank).any fun x => x.master = r.master && x.tag = r.tag && x.addr = r.addr then serviceAccess r.bank s1 else s1

/-- A reply of a bank answers request `r`. -/
def answers (r : SvcReq) (x : SvcReply) : Bool := x.master = r.master && x.tag = r.tag && x.addr = r.addr

/-- The request waits at its bank. -/
def svcWaits (s : State) (r : SvcReq) : Bool :=
  (s.dmc.waiting ++ s.dmc.deferred).any fun x => x.master = r.master && x.tag = r.tag && x.addr = r.addr && x.answer = r.answer

/-- The answer of a request, once there is one: its code and word.  Beyond the member's banks and windows a read gives zero and a
write has no effect (R2, R130). -/
def wordAnswer (s : State) (r : SvcReq) : Option (Nat × Nat) :=
  if decide (0x12000000 ≤ r.addr) || decide (nBanks s ≤ r.bank) then some (0, 0)
  else (s.dmc.replies.find? (answers r)).map fun x => (x.code, x.data.toNat)

/-- The request is at its bank: sent there unless it waits there already or has its answer. -/
def wordSend (r : SvcReq) (s : State) : State := if (wordAnswer s r).isSome || svcWaits s r then s else svcArrive r s

/-- A service access by barge (R131, R132): each of its words is sent to its bank once; the reply goes when every word has its
answer, with the first code other than OK.  An access that R131 gives no form is answered without one (DESIGN CHOICE, log entry
26). -/
def dmcBarge (b : Barge) (s : State) : State :=
  let ws := bargeWords b
  let s1 := ws.foldl (fun s r => wordSend r s) s
  let as := ws.filterMap (wordAnswer s1)
  if as.length ≠ ws.length then s1
  else
    let code := ((as.map (·.1)).find? (· ≠ 0)).getD 0
    let part (r : SvcReq) (d : Nat) : List Byte :=
      match r.half with
      | some up => leBytes 4 (if up then d / 2 ^ 32 else d)
      | none => leBytes 8 d
    let bytes := if ws = [] then List.replicate b.len 0#8 else (ws.zip as).flatMap fun x => part x.1 x.2.2
    let left := s1.dmc.replies.filter fun x => !ws.any fun r => answers r x
    bargeReply b 0 code (if b.op = 0 then bytes else []) { s1 with dmc := { s1.dmc with replies := left } }

/-- A request to hold memory (R153-R155, R342): of an access that reaches beyond populated memory the part inside is performed; it
waits for its DRAM banks. -/
def holdBarge (b : Barge) (s : State) : State × List Report :=
  let len := holdInside s b.addr b.len
  if s.hold.jobs.any (·.b = b) then (s, [])
  else if holdOffline s b.addr len && len ≠ 0 then (bargeReply b 0 6 [] s, [])
  else jobArrives b .barge (if b.op = 0 then readCells b.addr len else writeCells b.addr (b.data.take len)) s

/-- A host access to hold memory that the power state turns away: below Run its stacks are in self-refresh or unpowered (R153, R321);
in Keep the host reaches no hold memory (R298). -/
def bar4Away (a : Nat) (s : State) : State := if rbit s oCfgSts 4 then s else hostHold 4 a s

/-- The host's access to `n` bytes of hold memory, as a barge (R338). -/
def bar4Barge (op a n : Nat) (data : List Byte) : Barge :=
  { pri := 2, cls := 0, master := 0, dst := 45, src := 46, remote := false, dev := 0, tag := 0, op := op, status := 0, code := 0,
    ndata := 0, len := n, addr := a, data := data }

/-- An access of the last class of R155 is over: the host's read completes and its flags are set, a barge is answered (R153, R154,
R342), a reply that comes too late is counted (R343). -/
def jobEnds (s : State) (j : HoldJob) : State :=
  let a := j.b.addr
  let past := j.cells.length < j.b.len
  let bytes := j.cells.map (·.2) ++ List.replicate (j.b.len - j.cells.length) 0#8
  match j.why with
  | .late => rcount oBnwLate 31 0 1 s
  | .trace => s
  | .barge =>
    if j.b.op = 0 then bargeReply j.b 0 (if past then 8 else holdCode j) bytes s
    else bargeReply j.b 0 (if past then 8 else if j.refused then 9 else 0) [] s
  | .host =>
    if j.b.op = 0 then
      let s1 := if j.poison then hostHold 0 a s else s
      let s2 := if j.ue then hostHold 1 a s1 else s1
      hostCpl .ok (j.poison || j.ue) 4 a bytes s2
    else if j.refused then hostHold 2 a s else s

/-- The accesses of the last class that are over have their effects, and leave. -/
def jobsEnd (s : State) : State := (jobsDone s).foldl jobEnds (jobsLeave (traceEnds s))

/-- An operation of the hold controller, what it completes, and its reports. -/
def holdSettle (x : State × List Report) : State := settle (jobsEnd x.1, x.2)

/-- BAR4_READ (R153-R155): beyond populated memory it reads zero. -/
def bar4Read (a len : Nat) (s : State) : State :=
  let n := holdInside s a len
  let past (s : State) : State := if n < len then hostHold 3 a s else s
  if !hostWindow s then hostCpl .unsupported false 4 a [] (bar4Away a s)
  else if stubAnswers s 45 0 then hostCpl .ok false 4 a (List.replicate len 0#8) (hostFenced s)
  else if holdOffline s a n && n ≠ 0 then hostCpl .unsupported false 4 a [] (hostHold 4 a (past s))
  else holdSettle (jobArrives (bar4Barge 0 a len []) .host (readCells a n) (past s))

/-- BAR4_WRITE (R153, R155): beyond populated memory it is discarded. -/
def bar4Write (a : Nat) (data : List Byte) (s : State) : State :=
  let n := holdInside s a data.length
  let past (s : State) : State := if n < data.length then hostHold 3 a s else s
  if !hostWindow s then bar4Away a s
  else if stubAnswers s 45 0 then hostFenced s
  else if holdOffline s a n && n ≠ 0 then hostHold 4 a (past s)
  else holdSettle (jobArrives (bar4Barge 1 a data.length data) .host (writeCells a (data.take n)) (past s))

/-- A register access by barge (R12). -/
def regBarge (b : Barge) (s : State) : State :=
  if b.op = 0 then bargeReply b 0 0 (leBytes 4 (readValue s b.addr).toNat) (readEffect b.addr s)
  else bargeReply b 0 0 [] (if regExists s b.addr then ownedWrite b.addr (BitVec.ofNat 32 (leNat b.data)) .clean s else s)

/-- The request is one for the registers of HLD or DMC: of the host by its priority (R338).  The other masters' loading and register
accesses come at one priority and no field of the header tells them apart: here by their size, a register's 4 bytes (DESIGN CHOICE,
log entry 26). -/
def bargeToReg (b : Barge) : Bool := b.pri = 1 && (b.master = 0 || b.len = 4)

/-- The target serves the request (R337, R338, R342): a message is consumed; host memory is at node 46 for the device's own masters. -/
def bargeServe (b : Barge) (s : State) : State :=
  if b.op = 4 then bargeReply b 0 0 [] s
  else if b.dst = 46 && b.master ≠ 0 then
    (if b.op = 0 then bargeReply b 0 0 (hostGet s b.addr b.len) s else bargeReply b 0 0 [] (hostPut b.addr b.data s))
  else if b.dst = 47 && !bargeToReg b then dmcBarge b s
  else if b.dst = 45 && !bargeToReg b then holdSettle (holdBarge b s)
  else regBarge b s

/-- The link a remote request toward device `d` leaves on (R341): the UP group link whose peer is `d`, else the first UP group link
(DESIGN CHOICE, log entry 48). -/
def remoteLink (d : Nat) (s : State) : Option Nat :=
  let up := (List.range 12).filter fun n => lnkUp s n && lnkGroup s n
  match up.find? fun n => rfld s (oLnkPeer n) 29 24 = d with
  | some n => some n
  | none => up.head?

/-- One receive buffer that the peer of link `n` holds free for master `m`, taken or given back (R341). -/
def peerTake (n m : Nat) (s : State) : State := setLnk n { getLnk s n with bufs := mmod 0 (getLnk s n).bufs m (· - 1) } s
def peerGive (n m : Nat) (s : State) : State := setLnk n { getLnk s n with bufs := mmod 0 (getLnk s n).bufs m (· + 1) } s

/-- A remote request at the link node (R340, R341): it leaves on the link while one of the buffers its peer holds for the master is
free, and waits in its own buffer until then. -/
def remoteSend (b : Barge) (s : State) : State :=
  let s0 := { s with bnw := { s.bnw with taken := s.bnw.taken.erase b } }
  match remoteLink b.dev s with
  | none => bargeTurned b s
  | some n =>
    if mget 0 (getLnk s n).bufs b.master ≠ 0 then
      flitsSend n b (peerTake n b.master { s0 with bnw := { s0.bnw with held := s0.bnw.held ++ [(n, b)] } })
    else { s0 with bnw := { s0.bnw with taken := s0.bnw.taken ++ [b] } }

/-- BARGE_REQUEST_ARRIVAL (R337-R341, R343, R345): `served`: the target has served it; else it lies in its reserved buffer, and a
later arrival of the same barge is its service.  `via`: the link over which a request of master 6 has come (R341). -/
def bargeArrival (b : Barge) (served : Bool) (via : Nat) (s : State) : State :=
  if s.bnw.taken.contains b then (if b.remote && b.master ≠ 6 then remoteSend b s else if served then bargeServe b s else s)
  else if b.cls = 1 || b.cls = 2 || !bargeCredit s b then s
  else
    let s0 := bargeSent b s
    let s1 := if b.master = 6 then { s0 with bnw := { s0.bnw with inbound := s0.bnw.inbound ++ [(via, b)] } } else s0
    if !bargeForm b then bargeBad s1
    else if 8 ≤ b.master then bargeTurned b (bargeBad s1)
    else if b.remote && b.master ≠ 6 then remoteSend b s1
    else if stubAnswers s b.dst b.master then bargeFenced b s1
    else
      let s2 := { s1 with bnw := { s1.bnw with taken := s1.bnw.taken ++ [b] } }
      if served then bargeServe b s2 else s2

/-- The BAR a host request came through: by its priority and its target (R338). -/
def bargeBar (b : Barge) : Nat := if b.pri = 1 then 0 else if b.dst = 47 then 2 else 4

/-- A command of the lockkeeper meets FENCED or TIMEOUT (R344); its requests carry the low bits of its TAG. -/
def cmdBargeEnd (tag status : Nat) (s : State) : State :=
  match s.lkp.run.find? fun c => c.tag % 4096 = tag with
  | some c =>
    if let some a := s.lkp.access.find? (·.cmd = c) then accessAnswer a status s else
    (match s.lkp.load with
     | some l => if c.op = 0x01 then loadFails l status 0 0xFFFF s else reply c status (refusedR0 c) 0 0 s
     | none => reply c status (refusedR0 c) 0 0 (if c.op = 0x03 || c.op = 0x05 then { s with seq := { s.seq with runPend := none } } else s))
  | none => s

/-- The host's outcome of a reply (R133, R154, R344). -/
def hostOutcome (b r : Barge) (s : State) : State :=
  let bar := bargeBar b
  let s1 := if r.status = 1 then rflag oBnwSts 1 s
            else if bar = 2 then hostCode r.code b.addr s
            else if bar = 4 then
              (match r.code with
               | 3 => hostHold 0 b.addr s | 4 => hostHold 1 b.addr s | 6 => hostHold 4 b.addr s
               | 8 => hostHold 3 b.addr s | 9 => hostHold 2 b.addr s | _ => s)
            else s
  if b.op ≠ 0 then s1
  else if r.status = 0 && bar = 4 && r.code = 6 then hostCpl .unsupported false bar b.addr [] s1
  else
    let zero := r.status = 1 || (bar = 2 && (r.code = 5 || r.code = 6))
    hostCpl .ok (bar = 4 && (r.code = 3 || r.code = 4)) bar b.addr (if zero then List.replicate b.len 0#8 else r.data) s1

/-- `b` is the request `r` replies to. -/
def repliesTo (r b : Barge) : Bool := b.tag = r.tag && b.src = r.dst && b.dst = r.src && b.master = r.master

/-- An older reply of the same source, destination and priority is on its way: it arrives first (R336).  The replies lie newest
first. -/
def replyBehind (s : State) (r : Barge) : Bool :=
  s.bnw.replies.contains r &&
    (s.bnw.replies.reverse.takeWhile (· ≠ r)).any fun x => x.src = r.src && x.dst = r.dst && x.pri = r.pri

/-- The reply to a request that came over a link returns by the same path (R341). -/
def replyBack (r b : Barge) (s : State) : State :=
  match s.bnw.inbound.find? (·.2 = b) with
  | some (n, _) =>
    let s1 := { s with bnw := { s.bnw with inbound := s.bnw.inbound.erase (n, b) } }
    if lnkUp s n then flitsSend n r s1 else s1
  | none => s

/-- The request `b` is no longer held at its link: its buffer at the peer is free (R341). -/
def linkFrees (b : Barge) (s : State) : State :=
  let s1 := { s with bnw := { s.bnw with held := s.bnw.held.filter (·.2 ≠ b) } }
  (s.bnw.held.filter (·.2 = b)).foldl (fun s x => peerGive x.1 b.master s) s1

/-- A barge that a router discards leaves the network (R337). -/
def replyGone (r : Barge) (s : State) : State := { s with bnw := { s.bnw with replies := s.bnw.replies.erase r } }

/-- BARGE_REPLY_ARRIVAL (R294, R336, R341, R343, R344); a malformed reply is discarded and counted (R337). -/
def replyArrives (r : Barge) (s : State) : State :=
  if r.cls ≠ 1 || replyBehind s r then s
  else if !bargeForm r then bargeBad (replyGone r s)
  else match s.bnw.sent.find? (repliesTo r) with
    | some b =>
      let s1 := linkFrees b (replyGone r { s with bnw := { s.bnw with sent := s.bnw.sent.erase b } })
      if nodeFenced s r.dst then s1
      else if b.master = 0 then hostOutcome b r s1
      else if b.master = 1 && r.status = 1 then cmdBargeEnd b.tag stFenced s1
      else if b.master = 6 then replyBack r b s1
      else s1
    | none => match s.bnw.dead.find? (repliesTo r) with
      | some b => rcount oBnwLate 31 0 1 (linkFrees b (replyGone r { s with bnw := { s.bnw with dead := s.bnw.dead.erase b } }))
      | none => s

/-- BARGE_TIMEOUT (R128, R343, R344): request `b` has waited for BNW_TMO, on the network or at a bank. -/
def bargeTimeout (b : Barge) (s : State) : State :=
  if !(s.bnw.sent ++ svcSent s ++ jobSent s).contains b then s
  else
    let late (r : SvcReq) : SvcReq := if r.answer = .direct && svcBarge r = b then { r with answer := .late } else r
    let lateJob (j : HoldJob) : HoldJob := if j.why = .host && j.b = b then { j with why := .late } else j
    let s0 := if s.bnw.sent.contains b then
        { s with bnw := { s.bnw with sent := s.bnw.sent.erase b, dead := s.bnw.dead ++ [b] } }
      else { s with dmc := { s.dmc with waiting := s.dmc.waiting.map late, deferred := s.dmc.deferred.map late },
                    hold := { s.hold with jobs := s.hold.jobs.map lateJob } }
    let s1 := rflag oBnwSts 0 (rcount oBnwTmoCnt 31 0 1 s0)
    let rec_ := 2 ^ 31 + b.master % 16 * 2 ^ 27 + b.dst % 64 * 2 ^ 21 + b2n b.remote * 2 ^ 20 + b.dev % 64 * 2 ^ 14 + b.tag % 4096
    let s2 := if rbit s1 oBnwTmorec 31 then s1 else rset oBnwTmorec (BitVec.ofNat 32 rec_) s1
    if b.master = 0 then
      let s3 := rflag oBnwSts 2 s2
      if b.op = 0 then hostCpl .abort false (bargeBar b) b.addr [] s3 else s3
    else if b.master = 1 then cmdBargeEnd b.tag stTimeout s2
    else s2

/-- DRAIN_TIMEOUT (R345): the fence is forced and the accepted requests are abandoned; their requesters, who have waited longer, end in
TIMEOUT.  A credit restore goes to every requester that holds credits for the node (R340). -/
def drainTimeout (n : Nat) (s : State) : State :=
  if !nodeDrains s n then s
  else
    let s1 := (acceptedAt s n).foldl (fun s b => bargeTimeout b s) (rflag oBnwSts 3 s)
    let holders := (((s1.bnw.sent ++ s1.bnw.dead).filter (·.dst = n)).map (·.src)).eraseDups
    let s2 := holders.foldl (fun s m => controlSend 2 n m s) (abandon n s1)
    drainEnds n { s2 with bnw := { s2.bnw with forced := s2.bnw.forced || s2.bnw.draining.any fun d => d = (n, .fence) } }

/-- The form of a BAR2 access (R131). -/
def bar2Form (off len : Nat) : Bool :=
  decide (off + len ≤ 0x20000000) && ((len = 4 && off % 4 = 0) || (decide (0 < len) && len % 8 = 0 && off % 8 = 0))

/-- The BAR2 access as one barge for each word (R131); the window of each word chooses a write's action: plain, set alias or clear
alias (R130). -/
def bar2Barges (off len : Nat) (write : Bool) (data : List Byte) : List Barge :=
  let n := if len = 4 then 4 else 8
  (List.range (len / n)).map fun i =>
    { pri := 2, cls := 0, master := 0, dst := 47, src := 46, remote := false, dev := 0, tag := i,
      op := if write then 1 + (off + n * i) / 0x6000000 else 0, status := 0, code := 0, ndata := 0, len := n, addr := off + n * i,
      data := (data.drop (n * i)).take n }

/-- One word of a BAR2 access goes out: beyond the member's banks and in the reserved range it reads zero and ignores writes (R2, R130);
a stub's FENCED reads zero (R344). -/
def bar2Word (b : Barge) (s : State) : State :=
  let r := svcWord b .direct b.addr b.len b.data
  let zero (s : State) : State := if b.op = 0 then hostCpl .ok false 2 b.addr (List.replicate b.len 0#8) s else s
  if decide (0x12000000 ≤ b.addr) || decide (nBanks s ≤ r.bank) then zero s
  else if stubAnswers s 47 0 then zero (hostFenced s)
  else svcArrive r s

/-- The endpoint holds the credit for the word's bank and a reply buffer (R339): the bank keeps one buffer for the host. -/
def bar2Credit (s : State) (b : Barge) : Bool :=
  let k := bargeBank b
  !((s.dmc.waiting ++ s.dmc.deferred).any fun x => x.master = 0 && x.bank = k) &&
    !((s.bnw.sent ++ s.bnw.dead).any fun x => x.master = 0 && x.dst = 47 && bargeBank x = k) &&
    decide (((svcSent s ++ jobSent s ++ s.bnw.sent).filter (·.src = 46)).length < replyStore 46)

/-- The words of BAR2 accesses that wait at the endpoint go out in their order, each when it has its credit (R131, R339). -/
def bar2Goes : Nat → State → State
  | 0, s => s
  | n + 1, s =>
    match s.bnw.queue with
    | b :: rest => if bar2Credit s b then bar2Goes n (bar2Word b { s with bnw := { s.bnw with queue := rest } }) else s
    | [] => s
def bar2Pump (s : State) : State := bar2Goes s.bnw.queue.length s
def bar2Send (bs : List Barge) (s : State) : State := bar2Pump { s with bnw := { s.bnw with queue := s.bnw.queue ++ bs } }

/-- BAR2_READ (R130, R131, R133). -/
def bar2Read (off len : Nat) (s : State) : State :=
  if endpointDown s then s
  else if !hostWindow s || !bar2Form off len then hostCpl .unsupported false 2 off [] s
  else if stubAnswers s 47 0 then hostCpl .ok false 2 off (List.replicate len 0#8) (hostFenced s)
  else bar2Send (bar2Barges off len false []) s

/-- BAR2_WRITE (R130, R131). -/
def bar2Write (off : Nat) (data : List Byte) (s : State) : State :=
  if endpointDown s || !hostWindow s || !bar2Form off data.length then s
  else if stubAnswers s 47 0 then hostFenced s
  else bar2Send (bar2Barges off data.length true data) s

end Sys2Proof.Machine
end

