-- ==== Sys2Proof/Machine/Access.lean ====
section
/-!
DEFINITION. STATE_READ and STATE_WRITE: the spaces, their items, the conditions and the patches (R296, R394).
-/
namespace Sys2Proof.Machine

/-- What STATE_READ and STATE_WRITE name (R394). -/
structure AccessJob where
  space : Nat
  obj   : Nat
  first : Nat
  count : Nat
  buf   : Nat
  deriving DecidableEq, Repr

def accessJob (c : Cmd) : AccessJob :=
  { space := nfld c.p0 63 60, obj := nfld c.p0 16 0, first := nfld c.p1 63 32, count := nfld c.p1 31 0, buf := c.p2 }

/-- Objects of a space on this member, and the items an object has (R394). -/
def accessObjects (s : State) (j : AccessJob) : Nat :=
  match j.space with
  | 0 | 1 => 4096 * nBasins s
  | 2 => 64 * nBasins s
  | 3 => nSluices s
  | _ => nBanks s
def accessItems (s : State) (write : Bool) (j : AccessJob) : Nat :=
  match j.space with
  | 0 => 2048
  | 2 => if write then frameL s else frameL s + 2
  | 4 => 32768
  | _ => frameL s

/-- The form of the record. -/
def accessForm (s : State) (write : Bool) (c : Cmd) : Bool :=
  let j := accessJob c
  c.flags = 0 && noP3 c && decide (j.space ≤ 4) && nfld c.p0 59 17 = 0 && decide (j.obj < accessObjects s j) &&
    decide (1 ≤ j.count) && decide (j.first + j.count ≤ accessItems s write j) && c.p2 % 8 = 0

/-- The basin of an object in spaces 0 to 3. -/
def accessBasin (j : AccessJob) : Nat :=
  match j.space with
  | 0 | 1 => j.obj / 4096
  | 2 => j.obj / 64
  | _ => j.obj / 4

/-- The unit is there and clocked: the basin, or DMC. -/
def accessUnit (s : State) (j : AccessJob) : Bool :=
  if j.space = 4 then unitOn s 15 else unitOn s 14 && rbit s oCkgEn1 (accessBasin j)

/-- Refused for the device's state (R14, R296, R394): space 4 never.  Of a write of space 0 where every step clock is stopped R394,
which R14 names for the full rule, says that it is accepted (DEDUCED, log entry 39). -/
def accessDenied (s : State) (write : Bool) (j : AccessJob) : Bool :=
  let fenced := rbit s oCfgFenced (accessBasin j)
  let still := s.seq.st = .ready || (s.seq.st = .paused && !s.seq.markHold)
  let stopped := s.seq.st = .clkHalt || s.seq.st = .safe
  if j.space = 4 then false
  else if !write then !(fenced || still || stopped || s.seq.st = .idle)
  else if j.space = 0 then !(fenced || still || stopped)
  else !(fenced && still)

/-- The service request of the next item of an access to design memory: its tag names the port and the command. -/
def accessSvc (s : State) (a : AccessRun) : SvcReq :=
  let i := a.got.length
  { master := 1, tag := 4096 * (a.cmd.port + 1) + a.cmd.tag % 4096, addr := 0, half := none,
    op := if a.write then .write else .read, bank := a.bank, word := a.first + i,
    data := if a.write then BitVec.ofNat 64 (hostNum s (a.buf + 8 * i) 8) else 0#64, mask := BitVec.allOnes 64, poison := false,
    counted := false, answer := .direct, cycle := 0 }

/-- The run `a` replaced by `a'`. -/
def putRun (a a' : AccessRun) (s : State) : State :=
  { s with lkp := { s.lkp with access := s.lkp.access.map fun x => if x = a then a' else x } }

/-- The number a routing word has in the store: the tick words are 1,024 and 1,025. -/
def routeNo (s : State) (t : Nat) : Nat := if t < frameL s then t else 1024 + (t - frameL s)

/-- The completion code of a stored word's error state: ECC_UE where it is uncorrectable. -/
def eccCode (e : Ecc) : Nat := match e with | .double => 4 | _ => 0

/-- One item of spaces 0 to 3 read (R394): its value as a number, and its completion code. -/
def readItem (j : AccessJob) (i : Nat) (s : State) : Nat × Nat :=
  let n := j.first + i
  match j.space with
  | 0 =>
    let c := getCl s (j.obj / 64)
    let ph := physOf s (j.obj / 64) (j.obj % 64)
    (v4code (dsGet c ph n), if mget false c.badPar (2048 * ph + n) then 4 else 0)
  | 1 =>
    let c := getCl s (j.obj / 64)
    let ph := physOf s (j.obj / 64) (j.obj % 64)
    ((mget 0#64 c.instr (1024 * ph + n)).toNat, eccCode (mget .clean c.iEcc (1024 * ph + n)))
  | 2 =>
    let c := getCl s j.obj
    ((mget 0#256 c.rw (routeNo s n)).toNat, if routeBad c (routeNo s n) then 4 else 0)
  | _ => ((mget 0#16 (getSlu s j.obj).waitMap n).toNat, 0)

/-- One item of spaces 0 to 3 written (R394); the word gets new check bits. -/
def writeItem (j : AccessJob) (i v : Nat) (s : State) : State :=
  let n := j.first + i
  match j.space with
  | 0 => setCl (j.obj / 64) (dsPut (physOf s (j.obj / 64) (j.obj % 64)) n (v4of v) (getCl s (j.obj / 64))) s
  | 1 =>
    let c := getCl s (j.obj / 64)
    let k := 1024 * physOf s (j.obj / 64) (j.obj % 64) + n
    setCl (j.obj / 64) { c with instr := mset 0#64 c.instr k (BitVec.ofNat 64 v), iEcc := mset .clean c.iEcc k .clean } s
  | 2 =>
    let c := getCl s j.obj
    setCl j.obj { c with rw := mset 0#256 c.rw (routeNo s n) (BitVec.ofNat 256 v),
                         rwEcc := mkeep (fun x => x / 4 ≠ routeNo s n) c.rwEcc } s
  | _ =>
    let u := getSlu s j.obj
    setSlu j.obj { u with waitMap := mset 0#16 u.waitMap n (BitVec.ofNat 16 v) } s

/-- Bytes of an item in the buffer; space 0 packs 32 entries in 8 bytes. -/
def itemBytes (j : AccessJob) : Nat := match j.space with | 2 => 32 | 3 => 2 | _ => 8

/-- Item `i` of the buffer. -/
def bufItem (s : State) (j : AccessJob) (i : Nat) : Nat :=
  if j.space = 0 then hostNum s (j.buf + i / 4) 1 / 4 ^ (i % 4) % 4 else hostNum s (j.buf + itemBytes j * i) (itemBytes j)

/-- The values read as the buffer holds them: entries of space 0 packed, the last 8 bytes filled with zero. -/
def bufBytes (j : AccessJob) (vs : List Nat) : List Byte :=
  if j.space = 0 then
    let all := vs.zipIdx.foldl (fun n x => n + x.1 * 4 ^ x.2) 0
    leBytes (8 * ((vs.length + 31) / 32)) all
  else vs.flatMap fun v => leBytes (itemBytes j) v

/-- The first `n` items written in turn. -/
def writeItems (j : AccessJob) (n : Nat) (s : State) : State :=
  (List.range n).foldl (fun s i => writeItem j i (bufItem s j i) s) s

/-- A successful STATE_WRITE here, or on member `d` (SEQ_STS card): DIVERGED is cleared when every member has had one. -/
def restoredOn (d : Nat) (s : State) : State :=
  if !s.seq.diverged then s
  else
    let acks := if s.lkp.acks.contains (0x07, d) then s.lkp.acks else (0x07, d) :: s.lkp.acks
    if (groupDevs s).all fun x => acks.contains (0x07, x) then
      { s with seq := { s.seq with diverged := false }, lkp := { s.lkp with acks := acks.filter (·.1 ≠ 0x07) } }
    else { s with lkp := { s.lkp with acks := acks } }

/-- STATE_WRITE is over on this member, and told to the others (SEQ_STS card). -/
def writeDone (s : State) : State := ringSendAll (.ack 0x07) (restoredOn s.dev.devid s)

/-- An access to design memory goes on (R394): the answer of the item under way is taken, or the next item sent; `none` where it has
to wait, or is over. -/
def accessStep (a : AccessRun) (s : State) : Option (AccessRun × State) :=
  let r := accessSvc s a
  if a.out then
    (s.dmc.replies.find? (answers r)).map fun x =>
      let a' := { a with got := a.got ++ [(x.code, x.data)], out := false }
      (a', putRun a a' { s with dmc := { s.dmc with replies := s.dmc.replies.erase x } })
  else if a.got.length < a.count then
    some ({ a with out := true }, svcArrive r (putRun a { a with out := true } s))
  else none

/-- As far as it goes: each item takes two of these steps; then its reply. -/
def accessGoes : Nat → AccessRun → State → State
  | 0, _, s => s
  | k + 1, a, s =>
    match accessStep a s with
    | some (a', s') => accessGoes k a' s'
    | none =>
      if a.out then s
      else accessAnswer a a.status (if a.write && a.status = stOk then writeDone s else s)

/-- Every access to design memory under way goes on. -/
def accessPump (s : State) : State := s.lkp.access.foldl (fun s a => accessGoes (2 * (a.count - a.got.length) + 2) a s) s

/-- The node that serves an object (R334). -/
def accessNode (j : AccessJob) : Nat := if j.space = 4 then 47 else accessBasin j

/-- STATE_READ, or STATE_WRITE of the items a host buffer gives, is carried out: `count` items of it, `status` in the reply (R394,
R343). -/
def accessBegins (c : Cmd) (write : Bool) (count status : Nat) (s : State) : State :=
  let j := accessJob c
  if stubAnswers s (accessNode j) 1 then reply c stFenced 0 0 0 (rcount oBnwFencedCnt 31 0 1 s)
  else if j.space = 4 then
    let a : AccessRun := ⟨c, write, j.obj, j.first, count, j.buf, status, [], false⟩
    let s1 := started c s
    accessGoes (2 * count + 2) a { s1 with lkp := { s1.lkp with access := s1.lkp.access ++ [a] } }
  else if write then
    let s1 := writeItems j count s
    reply c status count 0 0 (if status = stOk then writeDone s1 else s1)
  else
    let xs := (List.range count).map fun i => readItem j i s
    reply c status count (firstCode (xs.map (·.2))) 0 (hostPut j.buf (bufBytes j (xs.map (·.1))) s)

/-- STATE_READ (R394). -/
def cmdStateRead (c : Cmd) (s : State) : State :=
  let j := accessJob c
  command c s (accessForm s false c) (accessUnit s j) (accessDenied s false j) false (accessBegins c false j.count stOk)

/-- STATE_WRITE (R296, R394). -/
def cmdStateWrite (c : Cmd) (s : State) : State :=
  let j := accessJob c
  command c s (accessForm s true c) (accessUnit s j) (accessDenied s true j) false (accessBegins c true j.count stOk)

/-- A STATE_WRITE whose buffer cannot be read beyond `done` items (R382). -/
def stateWriteError (c : Cmd) (done : Nat) (s : State) : State :=
  let j := accessJob c
  command c s (accessForm s true c) (accessUnit s j) (accessDenied s true j) false (accessBegins c true (min done j.count) stTimeout)

end Sys2Proof.Machine
end

