-- ==== Sys2Proof/Machine/Runs.lean ====
section
/-!
DEFINITION. Run control: RUN, STEP_FRAMES, their start instant, HALT (R81, R82, R85, R189, R253, R293, R327, R360).
-/
namespace Sys2Proof.Machine

/-- A placed basin has lost what the image put into it (R144, CFG_LOADED). -/
def placedUnloaded (s : State) : Bool := (placedBasins s).any fun b => !rbit s oCfgLoaded b

/-- A sequencer state in which a run is on. -/
def stRuns (st : SeqSt) : Bool := st = .flight || st = .lock || st = .stall

/-- Some other member has reported a state with the property. -/
def someOther (s : State) (p : MemberRep → Bool) : Bool := s.lkp.reports.any fun x => (otherDevs s).contains x.1 && p x.2

/-- Another member of the group that this device leads has halted for its clock, or is in SAFE (R81). -/
def groupFaulted (s : State) : Bool := leads s && someOther s fun r => r.st = .safe || r.st = .clkHalt

/-- RUN and STEP_FRAMES are not permitted in the state of this device, or, on the lead, of its group (R81, R144, R189, R191, R253,
R293, R327, R360).  A member whose run is on is no such case: it makes the group busy. -/
def runDenied (s : State) : Bool :=
  let other (r : MemberRep) : Bool :=
    r.st ≠ .idle && r.digest = s.lkp.digest && r.power = 0 && !r.hold && !r.fenced &&
      !(r.st = .paused && r.apart)
  (!grpFormed s && !runsAlone s) || s.seq.st = .idle || (s.seq.st = .paused && s.seq.diverged) || placedFenced s ||
    placedUnloaded s || decide (s.grp.lost ≠ 0) || pwrSt s ≠ 0 || rbit s oTimSts 1 || (leads s && !othersAll s other)

/-- Something in progress keeps the group from a start (R81, R143, R313): a run, a ramp or relock of the step clock, here or, on the
lead, on a member; a power-state change; a march of a bank that the design owns.  BUSY for a step clock that is not locked (R316) is
DEDUCED (log entry 19). -/
def runBusy (s : State) : Bool :=
  seqActive s || (leads s && someOther s fun r => stRuns r.st || !r.lock) || s.clk.ramp || s.clk.relock || !rbit s oCkgSts 8 || pwrBusy s ||
    s.dmc.marching.any fun k => k.2 && ownMode s k.1 = 1

/-- The event bound of the group is above 240 steps (R85). -/
def boundTooLarge (s : State) : Bool := grpFormed s && decide (240 < eventBound s)

/-- SEQ and BAS are there and enabled; below Run, where their clocks stand, the command is DENIED (R327). -/
def runUnits (s : State) : Bool := [8, 14].all fun u => unitPresent s u && rbit s oCkgEn0 u

/-- The start instant of the two parameters (R81): explicit, or the first whole microsecond at least 100 µs ahead. -/
def startInstant (s : State) (sec ns : Nat) : Nat :=
  if sec = 0 && ns = 0 then alignUp (nowNs s + 100000) 1000 else sec * 1000000000 + ns

/-- An instant that may be asked for (R81). -/
def instantOk (s : State) (sec ns : Nat) : Bool :=
  (sec = 0 && ns = 0) ||
    (decide (sec < 2 ^ 48) && decide (ns < 1000000000) && decide (nowNs s + 100000 ≤ sec * 1000000000 + ns))

/-- A start agreed on every member: pending until its instant (R81). -/
def pendRun (c : Cmd) (cont : Bool) (steps sec ns : Nat) (s : State) : State :=
  let t := startInstant s sec ns
  let r : RunPend := ⟨cont, steps, t / 1000000000, t % 1000000000⟩
  let s1 := started c s
  ringSendAll (.start cont steps r.sec r.ns) { s1 with seq := { s1.seq with runPend := some r } }

/-- RUN (R81). -/
def cmdRun (c : Cmd) (s : State) : State :=
  let form := decide (c.flags < 2) && c.p2 = 0 && noP3 c && instantOk s c.p0 c.p1 && !boundTooLarge s
  command c s form (runUnits s) (!leads s || runDenied s) (runBusy s || s.seq.runPend.isSome)
    (pendRun c (nbit c.flags 0) 0 c.p0 c.p1) (groupFaulted s)

/-- STEP_FRAMES (R81). -/
def cmdStepFrames (c : Cmd) (s : State) : State :=
  let form := c.flags = 0 && decide (1 ≤ c.p0) && decide (c.p0 < 2 ^ 32) && noP3 c && instantOk s c.p1 c.p2 && !boundTooLarge s
  command c s form (runUnits s) (!leads s || runDenied s) (runBusy s || s.seq.runPend.isSome) (pendRun c true c.p0 c.p1 c.p2)
    (groupFaulted s)

/-- What the checks of R81 give in the present state, in the order of R391; 0 where the group starts. -/
def runStatus (s : State) : Nat :=
  if boundTooLarge s then stBadParam
  else if !runUnits s then stNoUnit
  else if s.seq.st = .safe || s.seq.st = .clkHalt || groupFaulted s then stFaulted
  else if runDenied s then stDenied
  else if runBusy s then stBusy
  else 0

/-- The RUN or STEP_FRAMES that waits for its instant is answered on the device that took it. -/
def runReply (status r0 r1 r2 : Nat) (s : State) : State :=
  match s.lkp.run.find? fun c => c.op = 0x03 || c.op = 0x05 with
  | some c => reply c status r0 r1 r2 s
  | none => s

/-- A pending start is cancelled with a status (R81). -/
def cancelRun (status : Nat) (s : State) : State :=
  if s.seq.runPend.isSome then runReply status 0 0 0 { s with seq := { s.seq with runPend := none } } else s

/-- RUN_START_INSTANT (R81): the checks again, then the first sequencer step; a check that fails cancels the start on every
member. -/
def runStart (s : State) : State :=
  match s.seq.runPend with
  | none => s
  | some r =>
    if nowNs s < r.sec * 1000000000 + r.ns then s
    else if runStatus s ≠ 0 then ringSendAll .cancel (cancelRun (runStatus s) s)
    else
      let s1 := beginRun (s.seq.st = .ready || !r.cont) r.steps s
      if r.steps = 0 then runReply stOk r.sec r.ns s1.seq.F.toNat s1 else s1

/-- A HALT's reply: F of the next frame, and GSC. -/
def haltReply (c : Cmd) (s : State) : State := reply c stOk s.seq.F.toNat s.seq.gsc.toNat 0 s

/-- HALT (R81, R82): it cancels a pending start; in FLIGHT, LOCK or STALL it requests the halt and waits for PAUSED. -/
def cmdHalt (c : Cmd) (s : State) : State :=
  let form := c.flags = 0 && c.p0 = 0 && c.p1 = 0 && c.p2 = 0 && noP3 c
  command c s form (unitOn s 8) false false fun s =>
    let s1 := if s.seq.runPend.isSome then ringSendAll .cancel (cancelRun stDenied s) else s
    if seqRuns s1 then requestHalt (started c s1)
    else if pauseHeld s1 then started c s1
    else haltReply c s1

end Sys2Proof.Machine
end

