-- ==== Sys2Proof/Machine/Manage.lean ====
section
/-!
DEFINITION. The commands that manage the device: FENCE, UNFENCE, TRACE_ARM, UNSEAL, SELFTEST, FAULT_READ, FAULT_DUMP, TABLE_LOAD,
ISOLATE, RESET, SEQ_SET, STD_WRITE (R187, R203, R276, R283, R293, R297, R372, R378, R395-R397, R405).
-/
namespace Sys2Proof.Machine

/-- P1, P2 and P3 are not used. -/
def onlyP0 (c : Cmd) : Bool := c.p1 = 0 && c.p2 = 0 && noP3 c
/-- No parameter is used. -/
def noParams (c : Cmd) : Bool := c.flags = 0 && c.p0 = 0 && onlyP0 c

/-- FENCE (R293, R314, R345, R395): the named basins that are not fenced drain; the reply comes when the last one is fenced. -/
def cmdFence (c : Cmd) (s : State) : State :=
  let named := (maskBasins s c.p0).filter fun b => !rbit s oCfgFenced b
  let form := c.flags = 0 && onlyP0 c && decide (c.p0 < 2 ^ nBasins s)
  let denied := named.any fun b => rbit s oCfgPlaced b && !seqRests s
  command c s form (unitOn s 14 && (maskBasins s c.p0).all (rbit s oCkgEn1)) denied false fun s =>
    let s1 := started c s
    fenceSettle (startDrains named .fence { s1 with bnw := { s1.bnw with forced := false } })

/-- UNFENCE (R293, R395). -/
def cmdUnfence (c : Cmd) (s : State) : State :=
  let named := maskBasins s c.p0
  let form := c.flags = 0 && onlyP0 c && decide (c.p0 < 2 ^ nBasins s)
  let denied := !seqRests s || s.seq.st = .idle || named.any fun b => !rbit s oCfgPlaced b || !rbit s oCfgLoaded b
  command c s form (unitOn s 14 && named.all (rbit s oCkgEn1)) denied false fun s =>
    let s1 := named.foldl (fun s b => rmod oCfgFenced (clrBit · b) s) s
    reply c stOk (rget s1 oCfgFenced).toNat 0 0 s1

/-- TRACE_ARM (R372, R373). -/
def cmdTraceArm (c : Cmd) (s : State) : State :=
  let arms := nbit c.flags 0
  command c s (decide (c.flags < 2) && c.p0 = 0 && onlyP0 c) (unitOn s 7) (arms && trcArmed s) false fun s =>
    let st := if arms then armRefusal (rget s oTrcCtl) s else 0
    if st ≠ 0 then reply c st (rget s oTrcSts).toNat 0 0 s
    else
      let s1 := if arms then arm s else disarm 1 s
      reply c stOk (rget s1 oTrcSts).toNat 0 0 s1

/-- What UNSEAL compares with the verifier (R378): SHA-256 of the token, the image's DIGEST and the group's number. -/
def unsealHash (s : State) (c : Cmd) : List Byte :=
  sha256 (c.p3.take 32 ++ List.replicate (32 - c.p3.length) 0#8 ++ s.lkp.digest ++ [BitVec.ofNat 8 c.p0])

/-- UNSEAL (R378). -/
def cmdUnseal (c : Cmd) (s : State) : State :=
  let grp := s.trc.seals.find? (·.1 = c.p0)
  let form := c.flags = 0 && decide (c.p0 < 16) && c.p1 = 0 && c.p2 = 0 && (grp.isSome || !unitPresent s 7)
  let fails := rfld s oTrcUnseal 19 16
  command c s form (unitOn s 7) (decide (8 ≤ fails)) false fun s =>
    match grp with
    | some (_, g) =>
      if unsealHash s c = g.verifier then
        let s1 := rflag oTrcUnseal c.p0 { s with trc := { s.trc with opens := s.trc.opens ++ [c.p0] } }
        reply c stOk (rget s1 oTrcUnseal).toNat 0 0 s1
      else
        let s1 := rput oTrcUnseal 19 16 (fails + 1) s
        reply c stDenied (rget s1 oTrcUnseal).toNat 0 0 s1
    | none => s

/-- SELFTEST (R396); `failing`: the mechanisms whose test fails. -/
def cmdSelftest (failing : Nat) (c : Cmd) (s : State) : State :=
  command c s (noParams c) true (s.seq.st = .clkHalt) (seqActive s) fun s =>
    reply c (if failing % 512 = 0 then stOk else stFaulted) (failing % 512) 0 0 s

/-- FAULT_READ (R276): records oldest first, removed where the consume flag is set. -/
def cmdFaultRead (c : Cmd) (s : State) : State :=
  let form := decide (c.flags < 2) && decide (1 ≤ c.p0) && decide (c.p0 ≤ 1024) && c.p1 = 0 && noP3 c
  command c s form true false false fun s =>
    let rs := s.saf.log.take c.p0
    let s1 := hostPut c.p2 (rs.flatMap recBytes) s
    let s2 := if nbit c.flags 0 then { s1 with saf := { s1.saf with log := s1.saf.log.drop c.p0 } } else s1
    reply c stOk rs.length s2.saf.log.length 0 s2

/-- The offsets of a card's elements. -/
def cardOffs (c : Card) : List Nat :=
  (List.range c.n1).flatMap fun i => (List.range c.n2).map fun j => c.base + c.s1 * i + c.s2 * j

/-- The unit a BAR0 block belongs to. -/
def blockUnit (b : Nat) : Nat := if b = 0x30 then 15 else if 0x10 ≤ b then 14 else b - 1

/-- The register belongs in a dump (R276): of a unit and an element that are present, with a field of type RO, W1C or RC, or in the STD
block. -/
def dumped (s : State) (c : Card) (off : Nat) : Bool :=
  let b := blockOf off
  b ≠ 0 && unitPresent s (blockUnit b) && (blockUnit b ≠ 14 || decide (b - 0x10 < nBasins s)) && regExists s off && (b = 6 || c.ro ≠ 0 || c.w1c ≠ 0 || c.rc ≠ 0)

/-- The register pairs of a dump, in the order of the offsets; RC registers are read without clearing. -/
def dumpPairs (s : State) : List (Nat × Word) :=
  let offs := cards.flatMap fun c => ((cardOffs c).filter (dumped s c)).map fun off => (off, readValue s off)
  sortBy (·.1) offs

/-- The dump (R276): header, log records, register pairs. -/
def dumpBytes (s : State) : List Byte :=
  let pairs := dumpPairs s
  leBytes 4 0x504D4446 ++ leBytes 4 1 ++ leBytes 4 (regView s oCapId).toNat ++ leBytes 4 (regView s oCapVer).toNat ++
    leBytes 4 (regView s oCapDevid).toNat ++ leBytes 4 (seqStsView s).toNat ++ leBytes 8 s.seq.F.toNat ++
    leBytes 8 s.seq.gsc.toNat ++ leBytes 8 s.tim.sec ++ leBytes 4 (tsnOf s) ++ leBytes 4 s.saf.log.length ++
    leBytes 4 pairs.length ++ leBytes 4 0 ++ s.saf.log.flatMap recBytes ++
    pairs.flatMap fun p => leBytes 4 p.1 ++ leBytes 4 p.2.toNat

/-- The reads of the standing registers that a dump makes check their codes (R407). -/
def dumpChecks (s : State) : State :=
  (List.range 256).foldl (fun s i => if regExists s (oStd i) then (stdRead i s).2 else s) s

/-- FAULT_DUMP (R276). -/
def cmdFaultDump (c : Cmd) (s : State) : State :=
  command c s (c.flags = 0 && c.p1 = 0 && noP3 c) true false false fun s =>
    if c.p0 < 0x20000 then reply c stCapacity 0 0 0 s
    else reply c stOk (dumpBytes s).length 0 0 (hostPut c.p2 (dumpBytes s) (dumpChecks s))

/-- What TABLE_LOAD names: the berth table or the flow table, first entry, count (R393). -/
def tblFlow (c : Cmd) : Bool := nbit c.p0 0
def tblFirst (c : Cmd) : Nat := nfld c.p1 63 32
def tblCount (c : Cmd) : Nat := nfld c.p1 31 0

/-- Entry `i` of the buffer. -/
def tblEntry (s : State) (c : Cmd) (i : Nat) : Nat :=
  if tblFlow c then hostNum s (c.p2 + 2 * i) 2 else hostNum s (c.p2 + 4 * i) 4

/-- An entry with a reserved bit (R203). -/
def tblReserved (c : Cmd) (e : Nat) : Bool := if tblFlow c then nfld e 14 6 ≠ 0 else nbit e 30 || nfld e 15 12 ≠ 0

/-- The table with the entries loaded. -/
def tblPut (s0 : State) (c : Cmd) (s : State) : State :=
  (List.range (tblCount c)).foldl (fun s i =>
    let n := tblFirst c + i
    if tblFlow c then { s with xch := { s.xch with flowTab := mset 0#16 s.xch.flowTab n (BitVec.ofNat 16 (tblEntry s0 c i)) } }
    else { s with xch := { s.xch with berths := mset 0#32 s.xch.berths n (BitVec.ofNat 32 (tblEntry s0 c i)) } }) s

/-- A valid call site names an invalid berth (R203). -/
def siteLost (s : State) : Bool :=
  s.xch.sites.any fun e => siteValid e.2.toNat && !nbit (berthEntry s (siteBerth e.2.toNat)) 31

/-- TABLE_LOAD (R203, R382); `bad`: its buffer cannot be read, and nothing is loaded. -/
def tableLoad (bad : Bool) (c : Cmd) (s : State) : State :=
  let size := if tblFlow c then 16384 else 32768
  let form := c.flags = 0 && decide (c.p0 < 2) && noP3 c && decide (1 ≤ tblCount c) && decide (tblFirst c + tblCount c ≤ size)
  let busy := s.xch.entries ≠ [] || s.xch.flows ≠ []
  command c s form (unitOn s 11) (!seqRests s) busy fun s =>
    if bad then reply c stTimeout 0 0 0 s
    else
      let s1 := tblPut s c s
      if (List.range (tblCount c)).any (fun i => tblReserved c (tblEntry s c i)) || (!tblFlow c && siteLost s1) then
        reply c stBadParam 0 0 0 s
      else reply c stOk (tblCount c) 0 0 s1

/-- ISOLATE (R186, R187): the bypass closed, every fabric link disabled. -/
def cmdIsolate (c : Cmd) (s : State) : State :=
  command c s (noParams c) (unitOn s 9) (grpFormed s && seqActive s) false fun s =>
    let s1 := rflag oRingSts 3 ((List.range 12).foldl (fun s n => lnkCtlWrite n 0#32 s) s)
    reply c stOk (rget s1 oRingSts).toNat 0 0 s1

/-- RESET of scope group (R297): the instant, at least 1 ms ahead, sent to every member. -/
def resetGroup (c : Cmd) (s : State) : State :=
  let t := alignUp (nowNs s + 1000000) 1000
  let s1 := started c s
  let s2 := { s1 with rst := { s1.rst with group := some (s.dev.devid, t / 1000000000, t % 1000000000) },
                      lkp := { s1.lkp with acks := s1.lkp.acks.filter (·.1 ≠ 0x15) } }
  ringSendAll (.resetAt s.dev.devid (t / 1000000000) (t % 1000000000)) s2

/-- RESET (R280, R283, R295, R297, R314). -/
def cmdReset (c : Cmd) (s : State) : State :=
  let scope := nfld c.p0 1 0
  let b := nfld c.p0 12 8
  let form := c.flags = 0 && onlyP0 c && nfld c.p0 7 2 = 0 && c.p0 / 2 ^ 13 = 0 &&
    (match scope with | 0 | 1 => b = 0 | 2 => decide (b < nBasins s) | _ => false)
  let denied := match scope with
    | 0 => false
    | 1 => !grpFormed s || leadDev s ≠ s.dev.devid
    | _ => !rbit s oCfgFenced b || (rbit s oCfgPlaced b && !seqRests s)
  command c s form (scope ≠ 2 || (unitOn s 14 && rbit s oCkgEn1 b)) denied false fun s =>
    match scope with
    | 0 => requestWarm 3 (reply c stOk 0 0 0 s)
    | 1 => resetGroup c s
    | _ => reply c stOk 0 0 0 { s with rst := { s.rst with basins := s.rst.basins ++ [b] } }

/-- The values of a SEQ_SET lie within the limits of the registers it names (R397). -/
def seqSetOk (mask flight lock thr ovr tmo : Nat) : Bool :=
  (!nbit mask 0 || (flightOk (BitVec.ofNat 32 flight) && flight / 2 ^ 13 = 0)) &&
    (!nbit mask 1 || (lockOk (BitVec.ofNat 32 lock) && lock / 2 ^ 17 = 0 && nfld lock 15 13 = 0)) &&
    (!nbit mask 2 || decide (thr < 2 ^ 20)) && (!nbit mask 3 || decide (ovr < 2 ^ 24)) && (!nbit mask 4 || decide (tmo < 2 ^ 24))

/-- SEQ_SET on this device (R397): the registers of the mask written. -/
def seqSetHere (g mask flight lock thr ovr tmo : Nat) (s : State) : State :=
  let put (i off v : Nat) (s : State) : State := if nbit mask i then rset off (BitVec.ofNat 32 v) s else s
  let s1 := put 4 oSeqStallTmo tmo (put 3 oSeqOvr ovr (put 2 oSeqThrottle thr (put 1 oSeqLock lock (put 0 oSeqFlight flight s))))
  let s2 := if nbit mask 0 || nbit mask 1 then configChange g s1 else s1
  if nbit mask 2 then throttleEvent s2 else s2

/-- SEQ_SET (R397): here and on every member; R0 is the GSC at which the values are agreed, kept in P2 of the command in progress. -/
def cmdSeqSet (c : Cmd) (s : State) : State :=
  let fl := nfld c.p1 31 0
  let lo := nfld c.p1 63 32
  let th := nfld c.p2 31 0
  let ov := nfld c.p2 63 32
  let tm := leNat (c.p3.take 4)
  let g := s.seq.gsc.toNat
  let form := c.flags = 0 && decide (c.p0 < 32) && (c.p3.drop 4).all (· = 0#8) && seqSetOk c.p0 fl lo th ov tm
  command c s form (unitOn s 8) (!leads s) false fun s =>
    let s1 := { s with lkp := { s.lkp with acks := s.lkp.acks.filter (·.1 ≠ 0x18) } }
    ringSendAll (.seqSet g c.p0 fl lo th ov tm) (seqSetHere g c.p0 fl lo th ov tm (started { c with p2 := g } s1))

/-- STD_WRITE (R403-R405). -/
def cmdStdWrite (c : Cmd) (s : State) : State :=
  let v := BitVec.ofNat 32 c.p1
  let cmp (s : State) : Nat := (rget s (oStdCmp (c.p0 % 256))).toNat
  let form := c.flags = 0 && decide (c.p0 < 256) && decide (c.p1 < 2 ^ 32) && c.p2 = 0 && noP3 c && stdPw c.p0 ≠ 0#32
  command c s form true false false fun s =>
    match stdEnd s c.p0 v with
    | .same => reply c stOk (cmp s) 0 0 s
    | .dropped => reply c stBusy (cmp s) 0 0 s
    | .refused => reply c stEndurance (cmp (stdWrite c.p0 v s)) 0 0 (stdWrite c.p0 v s)
    | .started => started c (stdWrite c.p0 v s)

end Sys2Proof.Machine
end

