-- ==== Sys2Proof/Machine/Lockkeeper.lean ====
section
/-!
DEFINITION. The lockkeeper at work: replies that a change of state brings, taking commands, read errors, messages of the ring
(R82, R185, R297, R312, R316, R382, R388, R389, R397).
-/
namespace Sys2Proof.Machine

/-- Every command in progress that satisfies `p` is answered by `f`. -/
def replyWhere (p : Cmd → Bool) (f : Cmd → State → State) (s : State) : State :=
  (s.lkp.run.filter p).foldl (fun s c => f c s) s

/-- A HALT, or a STEP_FRAMES whose run has begun: it waits for PAUSED (R81, R82). -/
def waitsPause (s : State) (c : Cmd) : Bool := c.op = 0x04 || (c.op = 0x05 && s.seq.runPend.isNone)

/-- Replies due at PAUSED, or at SAFE and CLK_HALT, which keep the group from it (R82, R391). -/
def settlePaused (s : State) : State :=
  if s.seq.st = .paused && !s.seq.markHold then
    replyWhere (waitsPause s) (fun c s => reply c stOk s.seq.F.toNat (if c.op = 0x04 then s.seq.gsc.toNat else 0) 0 s) s
  else if s.seq.st = .safe || s.seq.st = .clkHalt then replyWhere (waitsPause s) (fun c => reply c stFaulted 0 0 0) s
  else s

/-- CLK_RESUME is answered when every member is PAUSED (R316). -/
def settleResume (s : State) : State :=
  if s.seq.st = .safe then replyWhere (·.op = 0x16) (fun c => reply c stFaulted 0 0 0) s
  else if s.seq.st = .paused && !s.clk.resume && !s.seq.markHold && othersAll s (·.st = .paused) then
    replyWhere (·.op = 0x16) (fun c s => reply c stOk s.seq.gsc.toNat 0 0 s) s
  else s

/-- The restore of STEP_CLOCK is answered when EMERG reads 0 (R312). -/
def settleRestore (s : State) : State :=
  let waits (c : Cmd) : Bool := c.op = 0x17 && nbit c.p0 0
  if !s.seq.emerg then replyWhere waits (fun c s => reply c stOk (ckgStepView s).toNat 0 0 s) s
  else if s.seq.st = .safe then replyWhere waits (fun c => reply c stFaulted 0 0 0) s
  else s

/-- SEQ_SET and RESET of scope group are answered when every member has acknowledged (R297, R397). -/
def settleAcks (s : State) : State :=
  let s1 := if allAcked s 0x18 then replyWhere (·.op = 0x18) (fun c => reply c stOk c.p2 0 0) s else s
  if allAcked s1 0x15 then replyWhere (·.op = 0x15) (fun c => reply c stOk 0 0 0) s1 else s1

/-- A safe state abandons a load (R292). -/
def settleLoad (s : State) : State :=
  match s.lkp.load with
  | some l => if s.seq.st = .safe then loadFails l stFaulted 0 0xFFFF s else s
  | none => s

/-- What the lockkeeper does after an event: the replies that have become due, and its report to the lead. -/
def lkpSettle (s : State) : State := reportState (settleAcks (settleRestore (settleResume (settlePaused (accessPump (bar2Pump (settleLoad s)))))))

/-- A command record in host memory or in the mailbox (R387). -/
def parseCmd (port : Nat) (bs : List Byte) : Cmd :=
  let n (a k : Nat) : Nat := leNat ((bs.drop a).take k)
  { port := port, op := n 0 1, flags := n 1 1, rsv := n 2 2, tag := n 4 4, p0 := n 8 8, p1 := n 16 8, p2 := n 24 8,
    p3 := (bs.drop 32).take 32 }

/-- The command of an opcode carried out (R393); `failing` and `e` are what a SELFTEST and a STEP_CLOCK meet. -/
def carryOut (failing : Nat) (e : SwitchEnd) (c : Cmd) (s : State) : State :=
  match c.op with
  | 0x01 => cmdImgLoad c s
  | 0x02 => cmdImgVerify c s
  | 0x03 => cmdRun c s
  | 0x04 => cmdHalt c s
  | 0x05 => cmdStepFrames c s
  | 0x06 => cmdStateRead c s
  | 0x07 => cmdStateWrite c s
  | 0x08 => cmdBankOwner c s
  | 0x09 => cmdFence c s
  | 0x0A => cmdUnfence c s
  | 0x0B => cmdPowerState c s
  | 0x0C => cmdTraceArm c s
  | 0x0D => cmdUnseal c s
  | 0x0E => cmdSelftest failing c s
  | 0x0F => cmdMarch c s
  | 0x10 => cmdFaultRead c s
  | 0x11 => cmdFaultDump c s
  | 0x12 => cmdTimeSet c s
  | 0x13 => tableLoad false c s
  | 0x14 => cmdIsolate c s
  | 0x15 => cmdReset c s
  | 0x16 => cmdClkResume c s
  | 0x17 => cmdStepClock e c s
  | 0x18 => cmdSeqSet c s
  | 0x19 => cmdStdWrite c s
  | _ => reply c stBadOpcode 0 0 0 s

/-- No command from the port is in progress. -/
def portFree (s : State) (i : Nat) : Bool := !s.lkp.run.any (·.port = i)

/-- Port `i` has a command that may be taken (R388, R389): a command ring, or the mailbox. -/
def portReady (s : State) (i : Nat) : Bool :=
  if i < 16 then
    ringEn s (crRing i) && ringRoom s (rrRing i) && ringUsed s (crRing i) ≠ 0 && portFree s i
  else rbit s oLkpMboxCtl 0 && portFree s 16

/-- The port that is served next: the first that is ready after the one served last (R388). -/
def nextPort (s : State) : Option Nat :=
  ((List.range 17).map fun i => (s.lkp.turn + 1 + i) % 17).find? (portReady s)

/-- The record at a ring's consumer index, or in the mailbox. -/
def portCmd (s : State) (i : Nat) : Cmd :=
  if i < 16 then
    parseCmd i (hostGet s (ringBase s (crRing i) + 64 * ((rget s (oLkpCrCi i)).toNat % ringN s (crRing i))) 64)
  else parseCmd 16 ((List.range 16).flatMap fun w => leBytes 4 (rget s (oLkpMboxCmd w)).toNat)

/-- COMMAND_TAKEN (R388, R389). -/
def commandTaken (failing : Nat) (e : SwitchEnd) (s : State) : State :=
  if !lkpReady s || endpointDown s then s
  else match nextPort s with
    | none => s
    | some i =>
      let s1 := { s with lkp := { s.lkp with turn := i } }
      carryOut failing e (portCmd s i) (if i < 16 then rmod (oLkpCrCi i) (· + 1) s1 else s1)

/-- A host-memory error on command ring `i` or its reply ring (R388): both stop. -/
def ringError (i : Nat) (s : State) : State :=
  if 16 ≤ i || !ringEn s (crRing i) || !ringEn s (rrRing i) then s
  else
    let s1 := rmod (oLkpRrLo i) (clrBit · 8) (rmod (oLkpCrLo i) (clrBit · 8) s)
    loseRing i (rflag oLkpSts i s1)

/-- HOST_READ_ERROR (R211, R382, R388). -/
def hostReadError (u : ReadUnit) (s : State) : State :=
  match u with
  | .ring i => ringError i s
  | .load sec => loadReadError sec s
  | .verify sec => verifyReadError sec s
  | .tableLoad c => tableLoad true c s
  | .stateWrite c done => stateWriteError c done s
  | .returnRing => returnRead true s

/-- A member acknowledges the message of a command. -/
def noteAck (op src : Nat) (s : State) : State :=
  if op = 0x07 then restoredOn src s
  else if s.lkp.acks.contains (op, src) then s
  else { s with lkp := { s.lkp with acks := (op, src) :: s.lkp.acks } }

/-- A message of another member for this device's lockkeeper; `e`: how a switch of the step domain goes. -/
def ringAct (src : Nat) (m : RingMsg) (e : SwitchEnd) (s : State) : State :=
  match m with
  | .mode stall => rset oLkgMode (BitVec.ofNat 32 (b2n stall)) s
  | .evtBound n => rput oSeqHorizon 23 16 (min 255 n) s
  | .start cont steps sec ns => { s with seq := { s.seq with runPend := some ⟨cont, steps, sec, ns⟩ } }
  | .cancel => cancelRun (if runStatus s = 0 then stDenied else runStatus s) s
  | .seqSet g mask fl lo th ov tm => ringSend src (.ack 0x18) (seqSetHere g mask fl lo th ov tm s)
  | .stepMhz mhz => if mhzRefusal s mhz = 0 then mhzChange mhz e s else s
  | .clkResume => if s.seq.st = .clkHalt && !s.clk.ramp then beginResume s else s
  | .resetAt lead sec ns => ringSend lead (.ack 0x15) { s with rst := { s.rst with group := some (lead, sec, ns) } }
  | .resetCancel => { s with rst := { s.rst with group := none } }
  | .report st lock digest power hold fenced apart =>
    { s with lkp := { s.lkp with reports := (src, ⟨seqOfCode st, lock, digest, power, hold, fenced, apart⟩) :: s.lkp.reports.filter (·.1 ≠ src) } }
  | .linkUp link peer plink ps => linkAdded ⟨src, link, peer, plink, ps⟩ s
  | .linkLost link => let x := linkGone src link s; raiseAll x.2 x.1
  | .ack op => noteAck op src s
  | .wake | .other _ => s

/-- RING_MESSAGE_RECEIVED (R185, R186, R325): a message for another device is passed on; a wake wakes; the rest is for members of
the group. -/
def ringReceived (src dst gid : Nat) (m : RingMsg) (e : SwitchEnd) (s : State) : State :=
  if bypassed s then s
  else if dst ≠ s.dev.devid then { s with grp := { s.grp with ringOut := (gid % 2 ^ 16, dst, m) :: s.grp.ringOut } }
  else if m = .wake then ringWake s
  else if lkpReady s && grpFormed s && gid % 2 ^ 16 = rfld s oLkgCfg 31 16 && (otherDevs s).contains src then ringAct src m e s
  else s

end Sys2Proof.Machine
end

