-- ==== Sys2Proof/Machine/ExecSteps.lean ====
section
/-!
DEFINITION. One meaning for each row of the opcode table: the sequencer's steps, stalls and starts.
-/
namespace Sys2Proof.Machine

/-- An event's effect, and what the lockkeeper does after it. -/
def settled (s : State) : Res := .next (lkpSettle s)

/-- EVALUATION_STEP (R71). -/
def execEvaluationStep (hs : List Happening) (s : State) : Res := settled (Sys2Proof.Machine.evaluationStep hs s)

/-- FIRST_TICK_STEP (R72). -/
def execFirstTickStep (hs : List Happening) (s : State) : Res := settled (Sys2Proof.Machine.firstTickStep hs s)

/-- SECOND_TICK_STEP (R73). -/
def execSecondTickStep (hs : List Happening) (s : State) : Res := settled (Sys2Proof.Machine.secondTickStep hs s)

/-- LOCK_PHASE_STEP (R77). -/
def execLockPhaseStep (hs : List Happening) (s : State) : Res := settled (Sys2Proof.Machine.lockPhaseStep hs s)

/-- STALL_CYCLE (R87). -/
def execStallCycle (s : State) : Res := settled (Sys2Proof.Machine.stallCycle s)

/-- STALL_TIMEOUT (R89). -/
def execStallTimeout (s : State) : Res := settled (Sys2Proof.Machine.stallTimeout s)

/-- RUN_START_INSTANT (R81). -/
def execRunStartInstant (s : State) : Res := settled (runStart s)

end Sys2Proof.Machine
end

