-- ==== Sys2Proof/Machine/ExecCommands.lean ====
section
/-!
DEFINITION. One meaning for each row of the opcode table: the commands of R393, the lockkeeper's taking of them, and the ends of what they start.
-/
namespace Sys2Proof.Machine

/-- IMG_LOAD (R244). -/
def execImgLoad (c : Cmd) (s : State) : Res := settled (cmdImgLoad c s)

/-- IMAGE_RELEASE (R291). -/
def execImageRelease (s : State) : Res := settled (Sys2Proof.Machine.imageRelease s)

/-- IMG_VERIFY (R252). -/
def execImgVerify (c : Cmd) (s : State) : Res := .next (cmdImgVerify c s)

/-- CHECK_PHASE_END (R245). -/
def execCheckPhaseEnd (verify : Bool) (s : State) : Res := settled (Sys2Proof.Machine.checkPhaseEnd verify s)

/-- LOAD_RELOCK_TIMEOUT (R292). -/
def execLoadRelockTimeout (s : State) : Res := settled (Sys2Proof.Machine.loadRelockTimeout s)

/-- RUN (R81). -/
def execRun (c : Cmd) (s : State) : Res := .next (cmdRun c s)

/-- HALT (R82). -/
def execHalt (c : Cmd) (s : State) : Res := settled (cmdHalt c s)

/-- STEP_FRAMES (R81). -/
def execStepFrames (c : Cmd) (s : State) : Res := .next (cmdStepFrames c s)

/-- STATE_READ (R394). -/
def execStateRead (c : Cmd) (s : State) : Res := settled (cmdStateRead c s)

/-- STATE_WRITE (R394). -/
def execStateWrite (c : Cmd) (s : State) : Res := settled (cmdStateWrite c s)

/-- BANK_OWNER (R126). -/
def execBankOwner (c : Cmd) (s : State) : Res := .next (cmdBankOwner c s)

/-- FENCE (R293). -/
def execFence (c : Cmd) (s : State) : Res := .next (cmdFence c s)

/-- UNFENCE (R293). -/
def execUnfence (c : Cmd) (s : State) : Res := .next (cmdUnfence c s)

/-- POWER_STATE (R322). -/
def execPowerState (c : Cmd) (s : State) : Res := settled (cmdPowerState c s)

/-- TRACE_ARM (R372). -/
def execTraceArm (c : Cmd) (s : State) : Res := .next (cmdTraceArm c s)

/-- UNSEAL (R378). -/
def execUnseal (c : Cmd) (s : State) : Res := .next (cmdUnseal c s)

/-- SELFTEST (R396). -/
def execSelftest (c : Cmd) (failing : Nat) (s : State) : Res := .next (cmdSelftest failing c s)

/-- MARCH (R143). -/
def execMarch (c : Cmd) (s : State) : Res := .next (cmdMarch c s)

/-- MARCH_COMPLETE (R142). -/
def execMarchComplete (f : MarchFinds) (s : State) : Res := settled (Sys2Proof.Machine.marchComplete f s)

/-- FAULT_READ (R276). -/
def execFaultRead (c : Cmd) (s : State) : Res := .next (cmdFaultRead c s)

/-- FAULT_DUMP (R276). -/
def execFaultDump (c : Cmd) (s : State) : Res := .next (cmdFaultDump c s)

/-- TIME_SET (R361). -/
def execTimeSet (c : Cmd) (s : State) : Res := settled (cmdTimeSet c s)

/-- TABLE_LOAD (R203). -/
def execTableLoad (c : Cmd) (s : State) : Res := .next (Sys2Proof.Machine.tableLoad false c s)

/-- ISOLATE (R187). -/
def execIsolate (c : Cmd) (s : State) : Res := settled (cmdIsolate c s)

/-- RESET (R283). -/
def execReset (c : Cmd) (s : State) : Res := settled (cmdReset c s)

/-- CLK_RESUME (R316). -/
def execClkResume (c : Cmd) (s : State) : Res := settled (cmdClkResume c s)

/-- STEP_CLOCK (R313). -/
def execStepClock (c : Cmd) (e : SwitchEnd) (s : State) : Res := settled (cmdStepClock e c s)

/-- SEQ_SET (R397). -/
def execSeqSet (c : Cmd) (s : State) : Res := settled (cmdSeqSet c s)

/-- STD_WRITE (R405). -/
def execStdWrite (c : Cmd) (s : State) : Res := .next (cmdStdWrite c s)

/-- STD_WRITE_COMPLETE (R404). -/
def execStdWriteComplete (s : State) : Res := .next (stdComplete s)

/-- COMMAND_TAKEN (R388). -/
def execCommandTaken (failing : Nat) (e : SwitchEnd) (s : State) : Res := settled (Sys2Proof.Machine.commandTaken failing e s)

/-- HOST_READ_ERROR (R382). -/
def execHostReadError (u : ReadUnit) (s : State) : Res := settled (Sys2Proof.Machine.hostReadError u s)

end Sys2Proof.Machine
end

