-- ==== Sys2Proof/Machine/ExecHost.lean ====
section
/-!
DEFINITION. One meaning for each row of the opcode table: host accesses of BAR0: reads, writes without a row of their own, and the writes the opcode table names.
-/
namespace Sys2Proof.Machine

/-- BAR0_READ (R10): `hs`: upsets of the standing register read (R407). -/
def execBar0Read (off len : Nat) (hs : List Happening) (s : State) : Res :=
  settled (Sys2Proof.Machine.bar0Read off len (strikes hs s))

/-- REGISTER_WRITE (R12). -/
def execRegisterWrite (off : Nat) (data : List Byte) (e : WriteEnd) (s : State) : Res :=
  settled (bar0Write off data e.sw s e.clash)

/-- SEQ_FRAME_LO_READ (R98). -/
def execSeqFrameLoRead (s : State) : Res := .next (Sys2Proof.Machine.bar0Read oSeqFrameLo 4 s)

/-- SEQ_GSC_LO_READ (R98). -/
def execSeqGscLoRead (s : State) : Res := .next (Sys2Proof.Machine.bar0Read oSeqGscLo 4 s)

/-- TIM_NS_READ (R349). -/
def execTimNsRead (s : State) : Res := .next (Sys2Proof.Machine.bar0Read oTimNs 4 s)

/-- SEQ_HALT_REQ (R82). -/
def execSeqHaltReq (s : State) : Res := settled (hostWrite oSeqHalt 1#32 .clean s)

/-- CFG_RST_WARM (R280): with RECOVER written at 1 too, the warm reset prevails. -/
def execCfgRstWarm (recover : Bool) (s : State) : Res :=
  .next (hostWrite oCfgRst (if recover then 0x5A3C0003#32 else 0x5A3C0001#32) .clean s)

/-- CFG_RST_RECOVER (R299). -/
def execCfgRstRecover (s : State) : Res := settled (hostWrite oCfgRst 0x5A3C0002#32 .clean s)

/-- DMC_OWN_HANDOVER (R126). -/
def execDmcOwnHandover (k : Nat) (v : Word) (s : State) : Res := .next (hostWrite (oDmcOwn k) (clrBit v 31) .clean s)

/-- DMC_OWN_REFUSAL_CLEAR (R127). -/
def execDmcOwnRefusalClear (k : Nat) (v : Word) (s : State) : Res := .next (hostWrite (oDmcOwn k) (setBit v 31) .clean s)

/-- HLD_REGION_WRITE (R161). -/
def execHldRegionWrite (q r : Nat) (size : Bool) (v : Word) (s : State) : Res :=
  .next (hostWrite (if size then oHldRgnSize q r else oHldRgnBase q r) v .clean s)

/-- LNK_CTL_EN_WRITE (R170). -/
def execLnkCtlEnWrite (n : Nat) (en : Bool) (s : State) : Res :=
  settled (hostWrite (oLnkCtl n) (if en then 1#32 else 0#32) .clean s)

/-- LNK_CTL_RETRAIN (R170). -/
def execLnkCtlRetrain (n : Nat) (en : Bool) (s : State) : Res :=
  settled (hostWrite (oLnkCtl n) (if en then 3#32 else 2#32) .clean s)

/-- LKG_FORM (R189): FORM at 1. -/
def execLkgForm (v : Word) (s : State) : Res := settled (hostWrite oLkgCfg (setBit v 0) .clean s)

/-- LKG_DISSOLVE (R189): FORM at 0. -/
def execLkgDissolve (v : Word) (s : State) : Res := settled (hostWrite oLkgCfg (clrBit v 0) .clean s)

/-- LKG_MODE_WRITE (R190). -/
def execLkgModeWrite (v : Word) (s : State) : Res := .next (hostWrite oLkgMode v .clean s)

/-- XCH_DONE_WRITE (R204). -/
def execXchDoneWrite (v : Word) (s : State) : Res := .next (hostWrite oXchDone v .clean s)

/-- XCH_RING_CI_WRITE (R206). -/
def execXchRingCiWrite (r : Nat) (v : Word) (s : State) : Res := .next (hostWrite (oXchRingCi r) v .clean s)

/-- XCH_RING_LO_WRITE (R206). -/
def execXchRingLoWrite (r : Nat) (v : Word) (s : State) : Res := .next (hostWrite (oXchRingLo r) v .clean s)

/-- XCH_RET_PI_WRITE (R211). -/
def execXchRetPiWrite (v : Word) (s : State) : Res := .next (hostWrite oXchRetPi v .clean s)

/-- XCH_RET_LO_WRITE (R211). -/
def execXchRetLoWrite (v : Word) (s : State) : Res := .next (hostWrite oXchRetLo v .clean s)

/-- GAU_LANE_WRITE (R217). -/
def execGauLaneWrite (n : Nat) (v : Word) (s : State) : Res := .next (hostWrite (oGauLane n) v .clean s)

/-- GAU_ZDMAP_WRITE (R222). -/
def execGauZdmapWrite (z : Nat) (v : Word) (s : State) : Res := .next (hostWrite (oGauZdmap z) v .clean s)

/-- GAU_RING_LO_WRITE (R228). -/
def execGauRingLoWrite (r : Nat) (v : Word) (s : State) : Res := .next (hostWrite (oGauRingLo r) v .clean s)

/-- GAU_RING_CI_WRITE (R228). -/
def execGauRingCiWrite (r : Nat) (v : Word) (s : State) : Res := .next (hostWrite (oGauRingCi r) v .clean s)

/-- TRC_ARM_WRITE (R372): ARM at 1. -/
def execTrcArmWrite (v : Word) (s : State) : Res := .next (hostWrite oTrcCtl (setBit v 0) .clean s)

/-- TRC_DISARM_WRITE (R373): ARM at 0. -/
def execTrcDisarmWrite (v : Word) (s : State) : Res := .next (hostWrite oTrcCtl (clrBit v 0) .clean s)

/-- TRC_RP_WRITE (R368). -/
def execTrcRpWrite (v : Word) (s : State) : Res := .next (hostWrite oTrcRp v .clean s)

/-- CKG_STEP_MHZ_WRITE (R313): RESTORE at 0. -/
def execCkgStepMhzWrite (mhz : Nat) (e : SwitchEnd) (s : State) : Res :=
  settled (hostWrite oCkgStep (clrBit (setFld (rget s oCkgStep) 26 16 mhz) 9) e s)

/-- CKG_STEP_RESTORE (R312): MHZ as it stands. -/
def execCkgStepRestore (s : State) : Res := settled (hostWrite oCkgStep (setBit (rget s oCkgStep) 9) .clean s)

/-- CKG_EN_WRITE (R314). -/
def execCkgEnWrite (second : Bool) (v : Word) (s : State) : Res :=
  settled (hostWrite (if second then oCkgEn1 else oCkgEn0) v .clean s)

/-- TIM_CTL_WRITE (R351). -/
def execTimCtlWrite (v : Word) (s : State) : Res := settled (hostWrite oTimCtl v .clean s)

/-- TIM_TRIM_WRITE (R355). -/
def execTimTrimWrite (v : Word) (s : State) : Res := .next (hostWrite oTimTrim v .clean s)

/-- SAF_INJECT_WRITE (R277). -/
def execSafInjectWrite (v : Word) (s : State) : Res := settled (hostWrite oSafInject v .clean s)

/-- LKP_CR_PI_WRITE (R386). -/
def execLkpCrPiWrite (i : Nat) (v : Word) (s : State) : Res := .next (hostWrite (oLkpCrPi i) v .clean s)

/-- LKP_RR_CI_WRITE (R386). -/
def execLkpRrCiWrite (i : Nat) (v : Word) (s : State) : Res := .next (hostWrite (oLkpRrCi i) v .clean s)

/-- LKP_CR_LO_WRITE (R388). -/
def execLkpCrLoWrite (i : Nat) (v : Word) (s : State) : Res := .next (hostWrite (oLkpCrLo i) v .clean s)

/-- LKP_RR_LO_WRITE (R388). -/
def execLkpRrLoWrite (i : Nat) (v : Word) (s : State) : Res := .next (hostWrite (oLkpRrLo i) v .clean s)

/-- LKP_MBOX_GO (R389). -/
def execLkpMboxGo (s : State) : Res := .next (hostWrite oLkpMboxCtl 1#32 .clean s)

/-- STD_REGISTER_WRITE (R404). -/
def execStdRegisterWrite (i : Nat) (v : Word) (s : State) : Res := .next (hostWrite (oStd i) v .clean s)

end Sys2Proof.Machine
end

