-- ==== Sys2Proof/Machine/ExecLinks.lean ====
section
/-!
DEFINITION. One meaning for each row of the opcode table: fabric links, the lock group, the ring and network time.
-/
namespace Sys2Proof.Machine

/-- A link enters TRAIN: its lane trims are read from their standing registers (R170, R402, R407). -/
def signalDetected (n : Nat) (s : State) : State :=
  if lnkOn s n && lnkSt s n = 1 then (stdRead (65 + 2 * n) (stdRead (64 + 2 * n) (lnkMove n 1 2 s)).2).2 else s

/-- A ring port trains again: its trim is read (R186, R402, R407). -/
def ringPortTrains (port : Nat) (up : Bool) (lost : Nat) (s : State) : State :=
  if bypassed s || 1 < port then s else (stdRead 88 (ringRetrain port up lost s)).2

/-- LINK_SIGNAL_DETECTED (R170). -/
def execLinkSignalDetected (n : Nat) (s : State) : Res := .next (signalDetected n s)

/-- LINK_DETECT_TIMEOUT (R170). -/
def execLinkDetectTimeout (n : Nat) (s : State) : Res := .next (lnkFail n 1 1 s)

/-- LINK_TRAIN_DONE (R170). -/
def execLinkTrainDone (n : Nat) (s : State) : Res := .next (lnkMove n 2 3 s)

/-- LINK_TRAIN_TIMEOUT (R170). -/
def execLinkTrainTimeout (n : Nat) (s : State) : Res := .next (lnkFail n 2 2 s)

/-- LINK_ALIGN_DONE (R170). -/
def execLinkAlignDone (n : Nat) (s : State) : Res := .next (lnkAligned n s)

/-- LINK_ALIGN_TIMEOUT (R170). -/
def execLinkAlignTimeout (n : Nat) (s : State) : Res := .next (lnkFail n 3 3 s)

/-- LINK_IDENT_RECEIVED (R171). -/
def execLinkIdentReceived (n dev link group : Nat) (s : State) : Res := .next (linkIdent n dev link group s)

/-- LINK_MEASURE_DONE (R176). -/
def execLinkMeasureDone (n dlyPs : Nat) (s : State) : Res := .next (linkMeasured n dlyPs s)

/-- LINK_RETRY_TIMER (R170). -/
def execLinkRetryTimer (n : Nat) (s : State) : Res := .next (lnkRetry n s)

/-- LINK_DOWN (R170). -/
def execLinkDown (n fail : Nat) (s : State) : Res := settled (Sys2Proof.Machine.linkDown n fail s)

/-- LINK_CODEWORD_RECEIVED (R173). -/
def execLinkCodewordReceived (n : Nat) (w : Codeword) (s : State) : Res := settled (codewordReceived n w s)

/-- LINK_GROUP_RECEIVED (R175). -/
def execLinkGroupReceived (n ctl : Nat) (vals : List V4) (s : State) : Res := .next (groupReceived n ctl vals s)

/-- DONE_MARKER_RECEIVED (R179). -/
def execDoneMarkerReceived (n fLo : Nat) (taint early : Bool) (s : State) : Res := settled (markerReceived n fLo taint early s)

/-- MARKER_WINDOW_CLOSE (R179). -/
def execMarkerWindowClose (n : Nat) (s : State) : Res := settled (Sys2Proof.Machine.markerWindowClose n s)

/-- LINK_FLIT_RECEIVED (R181). -/
def execLinkFlitReceived (n seq : Nat) (crcOk : Bool) (s : State) : Res := settled (flitReceived n seq crcOk s)

/-- LINK_ACK_RECEIVED (R181). -/
def execLinkAckReceived (n : Nat) (nak : Bool) (seq : Nat) (s : State) : Res := settled (ackReceived n nak seq s)

/-- EXPRESS_WORD_RECEIVED (R183). -/
def execExpressWordReceived (n kind src seq arg : Nat) (ok : Bool) (s : State) : Res :=
  settled (expressReceived n kind src seq arg ok s)

/-- GROUP_FORMATION_COMPLETE (R189). -/
def execGroupFormationComplete (ferr : Nat) (links : List GLink) (s : State) : Res := settled (formComplete ferr links s)

/-- GROUP_FORMATION_TIMEOUT (R189). -/
def execGroupFormationTimeout (s : State) : Res := .next (formTimeout s)

/-- RING_MESSAGE_RECEIVED (R185). -/
def execRingMessageReceived (src dst gid : Nat) (m : RingMsg) (e : SwitchEnd) (s : State) : Res :=
  settled (ringReceived src dst gid m e s)

/-- RING_PORT_RETRAIN (R186). -/
def execRingPortRetrain (port : Nat) (up : Bool) (lost : Nat) (s : State) : Res := .next (ringPortTrains port up lost s)

/-- TIME_BEACON_EXCHANGE (R352). -/
def execTimeBeaconExchange (p : Nat) (t1 t2 t3 : Int) (sub master hops gid : Nat) (valid : Bool) (s : State) : Res :=
  settled (beacon p t1 t2 t3 sub master hops gid valid s)

/-- PPS_IN_EDGE (R353). -/
def execPpsInEdge (sub : Nat) (s : State) : Res := settled (ppsIn sub s)

/-- TIME_SOURCE_LOST (R354). -/
def execTimeSourceLost (s : State) : Res := settled (sourceLost s)

/-- PPS_OUT_PULSE (R358). -/
def execPpsOutPulse (s : State) : Res := .next (clockCarry s)

end Sys2Proof.Machine
end

