-- ==== Sys2Proof/Machine/ExecMemory.lean ====
section
/-!
DEFINITION. One meaning for each row of the opcode table: BAR2 and BAR4, the banks of design memory, hold memory and the sluices' replies.
-/
namespace Sys2Proof.Machine

/-- BAR2_READ (R131). -/
def execBar2Read (off len : Nat) (s : State) : Res := settled (Sys2Proof.Machine.bar2Read off len s)

/-- BAR2_WRITE (R130). -/
def execBar2Write (off : Nat) (data : List Byte) (s : State) : Res := settled (Sys2Proof.Machine.bar2Write off data s)

/-- BAR4_READ (R154). -/
def execBar4Read (off len : Nat) (s : State) : Res := settled (if endpointDown s then s else Sys2Proof.Machine.bar4Read off len s)

/-- BAR4_WRITE (R153). -/
def execBar4Write (off : Nat) (data : List Byte) (s : State) : Res :=
  settled (if endpointDown s then s else Sys2Proof.Machine.bar4Write off data s)

/-- DMC_SERVICE_REQUEST (R135). -/
def execDmcServiceRequest (r : SvcReq) (s : State) : Res := settled (serviceRequest r s)

/-- DMC_SERVICE_ACCESS (R134). -/
def execDmcServiceAccess (k : Nat) (s : State) : Res := settled (serviceAccess k s)

/-- DMC_DEFERRED_WRITE (R135). -/
def execDmcDeferredWrite (k : Nat) (s : State) : Res := settled (deferredWrite k s)

/-- DMC_ECC_WRITEBACK (R137). -/
def execDmcEccWriteback (k w : Nat) (s : State) : Res := .next (eccWriteback k w s)

/-- DMC_PATROL_READ (R139). -/
def execDmcPatrolRead (k : Nat) (s : State) : Res := settled (patrolRead k s)

/-- PATROL_LATE (R139). -/
def execPatrolLate (s : State) : Res := settled (Sys2Proof.Machine.patrolLate s)

/-- INSTR_SCRUB_LATE (R257). -/
def execInstrScrubLate (s : State) : Res := settled (Sys2Proof.Machine.instrScrubLate s)

/-- HOLD_ACCESS_COMPLETE (R155). -/
def execHoldAccessComplete (d : Nat) (s : State) : Res := settled (holdSettle (holdAccess d s))

/-- HOLD_REFRESH_DUE (R151). -/
def execHoldRefreshDue (d : Nat) (s : State) : Res := .next (refreshDue d s)

/-- HOLD_SCRUB_READ (R152). -/
def execHoldScrubRead (i : Nat) (s : State) : Res := settled (holdSettle (scrubRead i s))

/-- HOLD_SCRUB_LATE (R152). -/
def execHoldScrubLate (s : State) : Res := settled (scrubLate s)

/-- SLUICE_REPLY_ARRIVAL (R157). -/
def execSluiceReplyArrival (q t : Nat) (s : State) : Res := .next (replyArrival q t s)

/-- HOLD_STACK_READY (R149). -/
def execHoldStackReady (i : Nat) (s : State) : Res := .next (stackReady i s)

/-- HOLD_REFRESH_DOUBLING (R151). -/
def execHoldRefreshDoubling (i temp : Nat) (s : State) : Res := .next (refreshDoubling i temp s)

end Sys2Proof.Machine
end

