-- ==== Sys2Proof/Machine/ExecSystem.lean ====
section
/-!
DEFINITION. One meaning for each row of the opcode table: the barge network, safety, clocks, resets and power.
-/
namespace Sys2Proof.Machine

/-- BARGE_REQUEST_ARRIVAL (R339). -/
def execBargeRequestArrival (b : Barge) (how : BargeIn) (s : State) : Res := settled (bargeArrival b how.served how.via s)

/-- BARGE_REPLY_ARRIVAL (R343). -/
def execBargeReplyArrival (r : Barge) (s : State) : Res := settled (replyArrives r s)

/-- BARGE_TIMEOUT (R343). -/
def execBargeTimeout (b : Barge) (s : State) : Res := settled (Sys2Proof.Machine.bargeTimeout b s)

/-- CONTROL_BARGE_ARRIVAL (R340). -/
def execControlBargeArrival (kind frm dst : Nat) (s : State) : Res := .next (controlArrival kind frm dst s)

/-- DRAIN_COMPLETE (R345). -/
def execDrainComplete (n : Nat) (s : State) : Res := settled (Sys2Proof.Machine.drainComplete n s)

/-- DRAIN_TIMEOUT (R345). -/
def execDrainTimeout (n : Nat) (s : State) : Res := settled (Sys2Proof.Machine.drainTimeout n s)

/-- FAULT_REPORT (R262). -/
def execFaultReport (code lkind loc frame : Nat) (s : State) : Res :=
  settled (Sys2Proof.Machine.faultReport code lkind loc frame s)

/-- RAIL_MONITOR_TRIP (R270). -/
def execRailMonitorTrip (r f : Nat) (s : State) : Res := settled (railTrip r f s)

/-- TEMP_EMERGENCY (R271). -/
def execTempEmergency (tj : Nat) (s : State) : Res := settled (Sys2Proof.Machine.tempEmergency tj s)

/-- TEMP_CRITICAL (R271). -/
def execTempCritical (tj : Nat) (s : State) : Res := settled (Sys2Proof.Machine.tempCritical tj s)

/-- WATCHDOG_MISSED (R272). -/
def execWatchdogMissed (s : State) : Res := settled (Sys2Proof.Machine.watchdogMissed s)

/-- STEP_PLL_LOCK_LOSS (R316). -/
def execStepPllLockLoss (cut : List (Nat × Nat × Nat)) (s : State) : Res := settled (takeFaults (pllLost .clean cut 0 s))

/-- HOLD_PLL_LOCK_LOSS (R309). -/
def execHoldPllLockLoss (e : SwitchEnd) (s : State) : Res := settled (pllLose e [] 4 s)

/-- LINK_PLL_LOCK_LOSS (R317). -/
def execLinkPllLockLoss (j : Nat) (s : State) : Res := settled (if j < 3 then pllLose .clean [] (j + 1) s else s)

/-- PLL_WINDOW_END (R305). -/
def execPllWindowEnd (i : Nat) (ppm : Int) (lock : Bool) (e : LossEnd) (s : State) : Res :=
  settled (Sys2Proof.Machine.pllWindowEnd i ppm lock e.sw e.cut s)

/-- PLL_JUDGE_TIMEOUT (R305). -/
def execPllJudgeTimeout (i : Nat) (s : State) : Res := .next (Sys2Proof.Machine.pllJudgeTimeout i s)

/-- CRYSTAL_LOST (R304). -/
def execCrystalLost (e : LossEnd) (s : State) : Res :=
  settled (crystalTime (Sys2Proof.Machine.crystalLost e.sw e.cut s))

/-- GUST_RAMP_HOLD_END (R310). -/
def execGustRampHoldEnd (s : State) : Res := settled (rampHoldEnd s)

/-- UNIT_DIVIDER_STEP (R308). -/
def execUnitDividerStep (s : State) : Res := .next (Sys2Proof.Machine.unitDividerStep s)

/-- POWER_ON_RESET (R280). -/
def execPowerOnReset (pins : Nat) (s : State) : Res := .next (powerOn { s with dev := { s.dev with pins := pins % 64 } })

/-- VIN_OVERVOLTAGE (R414). -/
def execVinOvervoltage (s : State) : Res := .next (Sys2Proof.Machine.vinOvervoltage s)

/-- VIN_OVERVOLTAGE_END (R414). -/
def execVinOvervoltageEnd (s : State) : Res := .next (Sys2Proof.Machine.vinOvervoltageEnd s)

/-- PERST_N_ASSERT (R280). -/
def execPerstNAssert (s : State) : Res := .next (perstAssert s)

/-- PERST_N_RELEASE (R286). -/
def execPerstNRelease (s : State) : Res := .next (perstRelease s)

/-- POWER_GOOD (R284). -/
def execPowerGood (s : State) : Res := .next (Sys2Proof.Machine.powerGood s)

/-- BOOT_OSC_DONE (R284). -/
def execBootOscDone (testEn : Bool) (hs : List Happening) (s : State) : Res :=
  .next (Sys2Proof.Machine.bootOscDone testEn (strikes hs s))

/-- BOOT_XTAL_DONE (R303). -/
def execBootXtalDone (e : SwitchEnd) (s : State) : Res := settled (Sys2Proof.Machine.bootXtalDone e s)

/-- BOOT_FW_DONE (R284). -/
def execBootFwDone (ok : Bool) (s : State) : Res := .next (Sys2Proof.Machine.bootFwDone ok s)

/-- BOOT_TEST_DONE (R284). -/
def execBootTestDone (f : MarchFinds) (bad : List Nat) (s : State) : Res := settled (Sys2Proof.Machine.bootTestDone f bad s)

/-- BOOT_ARM_DONE (R288). -/
def execBootArmDone (ms ports : Nat) (hs : List Happening) (s : State) : Res :=
  .next (Sys2Proof.Machine.bootArmDone ms ports (strikes hs s))

/-- WARM_RESET_EFFECT (R280). -/
def execWarmResetEffect (s : State) : Res := .next (warmEffect s)

/-- GROUP_RESET_INSTANT (R297). -/
def execGroupResetInstant (missed : Bool) (s : State) : Res := .next (groupInstant missed s)

/-- GROUP_RESET_CANCEL (R297). -/
def execGroupResetCancel (s : State) : Res := .next (groupCancel s)

/-- BASIN_RESET_EFFECT (R295). -/
def execBasinResetEffect (b : Nat) (s : State) : Res := .next (Sys2Proof.Machine.basinResetEffect b s)

/-- RECOVERY_KEEP_ENTRY (R299). -/
def execRecoveryKeepEntry (s : State) : Res := settled (recoveryKeep s)

/-- RECOVERY_PAUSE_TIMEOUT (R299). -/
def execRecoveryPauseTimeout (s : State) : Res := settled (Sys2Proof.Machine.recoveryPauseTimeout s)

/-- RECOVERY_RESTART_DONE (R299). -/
def execRecoveryRestartDone (s : State) : Res := settled (recoveryDone s)

/-- POWER_ENTRY_COMPLETE (R323). -/
def execPowerEntryComplete (s : State) : Res := settled (Sys2Proof.Machine.powerEntryComplete s)

/-- GAU_FLUSH_TIMEOUT (R323). -/
def execGauFlushTimeout (s : State) : Res := .next (Sys2Proof.Machine.gauFlushTimeout s)

/-- WAKE_N_ASSERTED (R325). -/
def execWakeNAsserted (s : State) : Res := settled (wakeN s)

/-- RING_WAKE (R325). -/
def execRingWake (s : State) : Res := settled (Sys2Proof.Machine.ringWake s)

/-- WAKE_TIMER_EXPIRY (R325). -/
def execWakeTimerExpiry (s : State) : Res := settled (wakeTimer s)

/-- POWER_EXIT_COMPLETE (R326). -/
def execPowerExitComplete (s : State) : Res := settled (Sys2Proof.Machine.powerExitComplete s)

/-- VIN_BELOW_24V (R331). -/
def execVinBelow24v (mv : Nat) (s : State) : Res := settled (vinBelow mv s)

/-- POWER_CAP_END (R331). -/
def execPowerCapEnd (mv : Nat) (s : State) : Res := settled (Sys2Proof.Machine.powerCapEnd mv s)

/-- POWER_CAP_SAMPLE (R331). -/
def execPowerCapSample (p mv : Nat) (s : State) : Res := settled (Sys2Proof.Machine.powerCapSample p mv s)

/-- THERMAL_THROTTLE_SAMPLE (R330). -/
def execThermalThrottleSample (tj : Nat) (s : State) : Res := settled (thermalSample tj s)

end Sys2Proof.Machine
end

