-- ==== Sys2Proof/Machine/ExecUnits.lean ====
section
/-!
DEFINITION. One meaning for each row of the opcode table: the wharf, the gauge unit and trace.
-/
namespace Sys2Proof.Machine

/-- XCH_FRAGMENT_ARRIVAL (R197). -/
def execXchFragmentArrival (s : State) : Res := settled (fragmentArrival s)

/-- XCH_CLOSE_POINT (R198). -/
def execXchClosePoint (f : Nat) (s : State) : Res := settled (closePoint f s)

/-- XCH_DELIVERY_WRITE (R205). -/
def execXchDeliveryWrite (s : State) : Res := .next (deliveryWrite s)

/-- XCH_LOSS_RECORD_WRITE (R201). -/
def execXchLossRecordWrite (s : State) : Res := .next (lossWrite s)

/-- XCH_RETURN_RECORD_READ (R211). -/
def execXchReturnRecordRead (s : State) : Res := settled (returnRead false s)

/-- GAU_FAIL_RECORD_WRITE (R227). -/
def execGauFailRecordWrite (s : State) : Res := .next (failRecordWrite s)

/-- EDGE_CAPTURE (R232). -/
def execEdgeCapture (i : Nat) (edge : EdgeAt) (s : State) : Res :=
  .next (Sys2Proof.Machine.edgeCapture i edge.rising edge.sub s)

/-- GAU_EDGE_RECORD_WRITE (R233). -/
def execGauEdgeRecordWrite (s : State) : Res := .next (edgeRecordWrite s)

/-- TRC_DRAIN_WRITE (R369). -/
def execTrcDrainWrite (s : State) : Res := settled (drainWrite s)

/-- TRC_DRAIN_RETRY (R369): the write answered OFFLINE is made again. -/
def execTrcDrainRetry (s : State) : Res := settled (drainWrite s)

end Sys2Proof.Machine
end

