-- ==== Sys2Proof/Machine/Dispatch.lean ====
section
/-!
DEFINITION. One arm for each command and event.
-/
namespace Sys2Proof.Machine

/-- The effect of a command or event on everything but the queue. -/
def exec (i : Instr) (s : State) : Host.Outcome State Fault Refusal :=
  match i with
  | .evaluationStep hs => Sys2Proof.Machine.execEvaluationStep hs s
  | .firstTickStep hs => Sys2Proof.Machine.execFirstTickStep hs s
  | .secondTickStep hs => Sys2Proof.Machine.execSecondTickStep hs s
  | .lockPhaseStep hs => Sys2Proof.Machine.execLockPhaseStep hs s
  | .stallCycle => Sys2Proof.Machine.execStallCycle s
  | .stallTimeout => Sys2Proof.Machine.execStallTimeout s
  | .imgLoad c => Sys2Proof.Machine.execImgLoad c s
  | .imageRelease => Sys2Proof.Machine.execImageRelease s
  | .imgVerify c => Sys2Proof.Machine.execImgVerify c s
  | .run c => Sys2Proof.Machine.execRun c s
  | .runStartInstant => Sys2Proof.Machine.execRunStartInstant s
  | .halt c => Sys2Proof.Machine.execHalt c s
  | .stepFrames c => Sys2Proof.Machine.execStepFrames c s
  | .stateRead c => Sys2Proof.Machine.execStateRead c s
  | .stateWrite c => Sys2Proof.Machine.execStateWrite c s
  | .bankOwner c => Sys2Proof.Machine.execBankOwner c s
  | .fence c => Sys2Proof.Machine.execFence c s
  | .unfence c => Sys2Proof.Machine.execUnfence c s
  | .powerState c => Sys2Proof.Machine.execPowerState c s
  | .traceArm c => Sys2Proof.Machine.execTraceArm c s
  | .unseal c => Sys2Proof.Machine.execUnseal c s
  | .selftest c failing => Sys2Proof.Machine.execSelftest c failing s
  | .march c => Sys2Proof.Machine.execMarch c s
  | .marchComplete f => Sys2Proof.Machine.execMarchComplete f s
  | .faultRead c => Sys2Proof.Machine.execFaultRead c s
  | .faultDump c => Sys2Proof.Machine.execFaultDump c s
  | .timeSet c => Sys2Proof.Machine.execTimeSet c s
  | .tableLoad c => Sys2Proof.Machine.execTableLoad c s
  | .isolate c => Sys2Proof.Machine.execIsolate c s
  | .reset c => Sys2Proof.Machine.execReset c s
  | .clkResume c => Sys2Proof.Machine.execClkResume c s
  | .stepClock c e => Sys2Proof.Machine.execStepClock c e s
  | .seqSet c => Sys2Proof.Machine.execSeqSet c s
  | .stdWrite c => Sys2Proof.Machine.execStdWrite c s
  | .bar0Read off len hs => Sys2Proof.Machine.execBar0Read off len hs s
  | .registerWrite off data e => Sys2Proof.Machine.execRegisterWrite off data e s
  | .seqFrameLoRead => Sys2Proof.Machine.execSeqFrameLoRead s
  | .seqGscLoRead => Sys2Proof.Machine.execSeqGscLoRead s
  | .timNsRead => Sys2Proof.Machine.execTimNsRead s
  | .seqHaltReq => Sys2Proof.Machine.execSeqHaltReq s
  | .cfgRstWarm recover => Sys2Proof.Machine.execCfgRstWarm recover s
  | .cfgRstRecover => Sys2Proof.Machine.execCfgRstRecover s
  | .dmcOwnHandover k v => Sys2Proof.Machine.execDmcOwnHandover k v s
  | .dmcOwnRefusalClear k v => Sys2Proof.Machine.execDmcOwnRefusalClear k v s
  | .hldRegionWrite q r size v => Sys2Proof.Machine.execHldRegionWrite q r size v s
  | .lnkCtlEnWrite n en => Sys2Proof.Machine.execLnkCtlEnWrite n en s
  | .lnkCtlRetrain n en => Sys2Proof.Machine.execLnkCtlRetrain n en s
  | .lkgForm v => Sys2Proof.Machine.execLkgForm v s
  | .lkgDissolve v => Sys2Proof.Machine.execLkgDissolve v s
  | .lkgModeWrite v => Sys2Proof.Machine.execLkgModeWrite v s
  | .xchDoneWrite v => Sys2Proof.Machine.execXchDoneWrite v s
  | .xchRingCiWrite r v => Sys2Proof.Machine.execXchRingCiWrite r v s
  | .xchRingLoWrite r v => Sys2Proof.Machine.execXchRingLoWrite r v s
  | .xchRetPiWrite v => Sys2Proof.Machine.execXchRetPiWrite v s
  | .xchRetLoWrite v => Sys2Proof.Machine.execXchRetLoWrite v s
  | .gauLaneWrite n v => Sys2Proof.Machine.execGauLaneWrite n v s
  | .gauZdmapWrite z v => Sys2Proof.Machine.execGauZdmapWrite z v s
  | .gauRingLoWrite r v => Sys2Proof.Machine.execGauRingLoWrite r v s
  | .gauRingCiWrite r v => Sys2Proof.Machine.execGauRingCiWrite r v s
  | .trcArmWrite v => Sys2Proof.Machine.execTrcArmWrite v s
  | .trcDisarmWrite v => Sys2Proof.Machine.execTrcDisarmWrite v s
  | .trcRpWrite v => Sys2Proof.Machine.execTrcRpWrite v s
  | .ckgStepMhzWrite mhz e => Sys2Proof.Machine.execCkgStepMhzWrite mhz e s
  | .ckgStepRestore => Sys2Proof.Machine.execCkgStepRestore s
  | .ckgEnWrite second v => Sys2Proof.Machine.execCkgEnWrite second v s
  | .timCtlWrite v => Sys2Proof.Machine.execTimCtlWrite v s
  | .timTrimWrite v => Sys2Proof.Machine.execTimTrimWrite v s
  | .safInjectWrite v => Sys2Proof.Machine.execSafInjectWrite v s
  | .lkpCrPiWrite idx v => Sys2Proof.Machine.execLkpCrPiWrite idx v s
  | .lkpRrCiWrite idx v => Sys2Proof.Machine.execLkpRrCiWrite idx v s
  | .lkpCrLoWrite idx v => Sys2Proof.Machine.execLkpCrLoWrite idx v s
  | .lkpRrLoWrite idx v => Sys2Proof.Machine.execLkpRrLoWrite idx v s
  | .lkpMboxGo => Sys2Proof.Machine.execLkpMboxGo s
  | .commandTaken failing e => Sys2Proof.Machine.execCommandTaken failing e s
  | .stdRegisterWrite idx v => Sys2Proof.Machine.execStdRegisterWrite idx v s
  | .stdWriteComplete => Sys2Proof.Machine.execStdWriteComplete s
  | .bar2Read off len => Sys2Proof.Machine.execBar2Read off len s
  | .bar2Write off data => Sys2Proof.Machine.execBar2Write off data s
  | .bar4Read off len => Sys2Proof.Machine.execBar4Read off len s
  | .bar4Write off data => Sys2Proof.Machine.execBar4Write off data s
  | .dmcServiceRequest r => Sys2Proof.Machine.execDmcServiceRequest r s
  | .dmcServiceAccess k => Sys2Proof.Machine.execDmcServiceAccess k s
  | .dmcDeferredWrite k => Sys2Proof.Machine.execDmcDeferredWrite k s
  | .dmcEccWriteback k w => Sys2Proof.Machine.execDmcEccWriteback k w s
  | .dmcPatrolRead k => Sys2Proof.Machine.execDmcPatrolRead k s
  | .patrolLate => Sys2Proof.Machine.execPatrolLate s
  | .instrScrubLate => Sys2Proof.Machine.execInstrScrubLate s
  | .holdAccessComplete d => Sys2Proof.Machine.execHoldAccessComplete d s
  | .holdRefreshDue d => Sys2Proof.Machine.execHoldRefreshDue d s
  | .holdScrubRead idx => Sys2Proof.Machine.execHoldScrubRead idx s
  | .holdScrubLate => Sys2Proof.Machine.execHoldScrubLate s
  | .sluiceReplyArrival q t => Sys2Proof.Machine.execSluiceReplyArrival q t s
  | .holdStackReady idx => Sys2Proof.Machine.execHoldStackReady idx s
  | .xchFragmentArrival => Sys2Proof.Machine.execXchFragmentArrival s
  | .xchClosePoint f => Sys2Proof.Machine.execXchClosePoint f s
  | .xchDeliveryWrite => Sys2Proof.Machine.execXchDeliveryWrite s
  | .xchLossRecordWrite => Sys2Proof.Machine.execXchLossRecordWrite s
  | .xchReturnRecordRead => Sys2Proof.Machine.execXchReturnRecordRead s
  | .gauFailRecordWrite => Sys2Proof.Machine.execGauFailRecordWrite s
  | .edgeCapture idx edge => Sys2Proof.Machine.execEdgeCapture idx edge s
  | .gauEdgeRecordWrite => Sys2Proof.Machine.execGauEdgeRecordWrite s
  | .trcDrainWrite => Sys2Proof.Machine.execTrcDrainWrite s
  | .trcDrainRetry => Sys2Proof.Machine.execTrcDrainRetry s
  | .linkSignalDetected n => Sys2Proof.Machine.execLinkSignalDetected n s
  | .linkDetectTimeout n => Sys2Proof.Machine.execLinkDetectTimeout n s
  | .linkTrainDone n => Sys2Proof.Machine.execLinkTrainDone n s
  | .linkTrainTimeout n => Sys2Proof.Machine.execLinkTrainTimeout n s
  | .linkAlignDone n => Sys2Proof.Machine.execLinkAlignDone n s
  | .linkAlignTimeout n => Sys2Proof.Machine.execLinkAlignTimeout n s
  | .linkIdentReceived n dev link group => Sys2Proof.Machine.execLinkIdentReceived n dev link group s
  | .linkMeasureDone n dlyPs => Sys2Proof.Machine.execLinkMeasureDone n dlyPs s
  | .linkRetryTimer n => Sys2Proof.Machine.execLinkRetryTimer n s
  | .linkDown n fail => Sys2Proof.Machine.execLinkDown n fail s
  | .linkCodewordReceived n w => Sys2Proof.Machine.execLinkCodewordReceived n w s
  | .linkGroupReceived n ctl vals => Sys2Proof.Machine.execLinkGroupReceived n ctl vals s
  | .doneMarkerReceived n fLo taint early => Sys2Proof.Machine.execDoneMarkerReceived n fLo taint early s
  | .markerWindowClose n => Sys2Proof.Machine.execMarkerWindowClose n s
  | .linkFlitReceived n seq crcOk => Sys2Proof.Machine.execLinkFlitReceived n seq crcOk s
  | .linkAckReceived n nak seq => Sys2Proof.Machine.execLinkAckReceived n nak seq s
  | .expressWordReceived n kind src seq arg ok => Sys2Proof.Machine.execExpressWordReceived n kind src seq arg ok s
  | .groupFormationComplete ferr links => Sys2Proof.Machine.execGroupFormationComplete ferr links s
  | .groupFormationTimeout => Sys2Proof.Machine.execGroupFormationTimeout s
  | .ringMessageReceived src dst gid m e => Sys2Proof.Machine.execRingMessageReceived src dst gid m e s
  | .ringPortRetrain port up lost => Sys2Proof.Machine.execRingPortRetrain port up lost s
  | .timeBeaconExchange p t1 t2 t3 sub master hops gid valid => Sys2Proof.Machine.execTimeBeaconExchange p t1 t2 t3 sub master hops gid valid s
  | .ppsInEdge sub => Sys2Proof.Machine.execPpsInEdge sub s
  | .timeSourceLost => Sys2Proof.Machine.execTimeSourceLost s
  | .ppsOutPulse => Sys2Proof.Machine.execPpsOutPulse s
  | .bargeRequestArrival b how => Sys2Proof.Machine.execBargeRequestArrival b how s
  | .bargeReplyArrival r => Sys2Proof.Machine.execBargeReplyArrival r s
  | .bargeTimeout b => Sys2Proof.Machine.execBargeTimeout b s
  | .controlBargeArrival kind frm dst => Sys2Proof.Machine.execControlBargeArrival kind frm dst s
  | .drainComplete n => Sys2Proof.Machine.execDrainComplete n s
  | .drainTimeout n => Sys2Proof.Machine.execDrainTimeout n s
  | .faultReport code lkind loc frame => Sys2Proof.Machine.execFaultReport code lkind loc frame s
  | .railMonitorTrip r f => Sys2Proof.Machine.execRailMonitorTrip r f s
  | .tempEmergency tj => Sys2Proof.Machine.execTempEmergency tj s
  | .tempCritical tj => Sys2Proof.Machine.execTempCritical tj s
  | .watchdogMissed => Sys2Proof.Machine.execWatchdogMissed s
  | .stepPllLockLoss cut => Sys2Proof.Machine.execStepPllLockLoss cut s
  | .holdPllLockLoss e => Sys2Proof.Machine.execHoldPllLockLoss e s
  | .linkPllLockLoss j => Sys2Proof.Machine.execLinkPllLockLoss j s
  | .pllWindowEnd idx ppm lock e => Sys2Proof.Machine.execPllWindowEnd idx ppm lock e s
  | .pllJudgeTimeout idx => Sys2Proof.Machine.execPllJudgeTimeout idx s
  | .crystalLost e => Sys2Proof.Machine.execCrystalLost e s
  | .gustRampHoldEnd => Sys2Proof.Machine.execGustRampHoldEnd s
  | .powerOnReset pins => Sys2Proof.Machine.execPowerOnReset pins s
  | .vinOvervoltage => Sys2Proof.Machine.execVinOvervoltage s
  | .perstNAssert => Sys2Proof.Machine.execPerstNAssert s
  | .perstNRelease => Sys2Proof.Machine.execPerstNRelease s
  | .powerGood => Sys2Proof.Machine.execPowerGood s
  | .bootOscDone testEn hs => Sys2Proof.Machine.execBootOscDone testEn hs s
  | .bootXtalDone e => Sys2Proof.Machine.execBootXtalDone e s
  | .bootFwDone ok => Sys2Proof.Machine.execBootFwDone ok s
  | .bootTestDone f bad => Sys2Proof.Machine.execBootTestDone f bad s
  | .bootArmDone ms ports hs => Sys2Proof.Machine.execBootArmDone ms ports hs s
  | .warmResetEffect => Sys2Proof.Machine.execWarmResetEffect s
  | .groupResetInstant missed => Sys2Proof.Machine.execGroupResetInstant missed s
  | .groupResetCancel => Sys2Proof.Machine.execGroupResetCancel s
  | .basinResetEffect b => Sys2Proof.Machine.execBasinResetEffect b s
  | .recoveryKeepEntry => Sys2Proof.Machine.execRecoveryKeepEntry s
  | .recoveryPauseTimeout => Sys2Proof.Machine.execRecoveryPauseTimeout s
  | .recoveryRestartDone => Sys2Proof.Machine.execRecoveryRestartDone s
  | .hostReadError u => Sys2Proof.Machine.execHostReadError u s
  | .powerEntryComplete => Sys2Proof.Machine.execPowerEntryComplete s
  | .gauFlushTimeout => Sys2Proof.Machine.execGauFlushTimeout s
  | .wakeNAsserted => Sys2Proof.Machine.execWakeNAsserted s
  | .ringWake => Sys2Proof.Machine.execRingWake s
  | .wakeTimerExpiry => Sys2Proof.Machine.execWakeTimerExpiry s
  | .powerExitComplete => Sys2Proof.Machine.execPowerExitComplete s
  | .vinBelow24v mv => Sys2Proof.Machine.execVinBelow24v mv s
  | .powerCapEnd mv => Sys2Proof.Machine.execPowerCapEnd mv s
  | .powerCapSample p mv => Sys2Proof.Machine.execPowerCapSample p mv s
  | .thermalThrottleSample tj => Sys2Proof.Machine.execThermalThrottleSample tj s
  | .vinOvervoltageEnd => Sys2Proof.Machine.execVinOvervoltageEnd s
  | .holdRefreshDoubling idx temp => Sys2Proof.Machine.execHoldRefreshDoubling idx temp s
  | .unitDividerStep => Sys2Proof.Machine.execUnitDividerStep s
  | .loadRelockTimeout => Sys2Proof.Machine.execLoadRelockTimeout s
  | .checkPhaseEnd verify => Sys2Proof.Machine.execCheckPhaseEnd verify s

end Sys2Proof.Machine
end

