-- ==== Sys2Proof/Machine/Step.lean ====
section
/-!
DEFINITION. One step: the command or event at the front of the queue; on an empty queue one crystal cycle of network time.
-/
namespace Sys2Proof.Machine

/-- One step.  DESIGN CHOICE (log entry 5): on an empty queue network time advances by one cycle of the crystal (R348). -/
def step (s : State) : Host.Outcome State Fault Refusal :=
  match s.pending with
  | [] => .next (clockTick s)
  | i :: rest => exec i { s with pending := rest }

/-- `s` with the command a table word spells at the front of its queue. -/
def State.withFetchWord (s : State) (nbits w : Nat) : State :=
  match decodeTableWord nbits w with
  | some i => { s with pending := i :: s.pending }
  | none => s

end Sys2Proof.Machine
end

