-- ==== Sys2Proof/Safety.lean ====
section
/-!
DEFINITION. What claims are stated in: the canonical form of the byte memories, the rest of the lockkeeper, outcomes.
-/
namespace Sys2Proof.Machine

/-- The byte memories (host memory, hold memory, design memory) are in canonical form: addresses strictly rising, no entry equal to
what an unlisted address reads as. -/
def Memory.wf (s : State) : Bool := mwf 0#8 s.host.mem && mwf 0#8 s.hold.cells && mwf 0#8 s.dmc.cells

/-- Every memory, the register file and the clusters, basins, sluices and links are in canonical form, so that equal contents are equal
data.  A register that is not listed holds its reset value. -/
def Canonical (s : State) : Bool :=
  Memory.wf s && mwfBy cardReset 0 s.regs && mwf Cluster.fresh s.fab && mwf Basin.fresh s.bas && mwf Sluice.fresh s.slu &&
    mwf Link.fresh s.lnk

/-- No command is in progress, no BAR2 word waits for a credit, and the device is no member of a formed group other than as its lead: an
event brings no reply and no report. -/
def lkpIdle (s : State) : Bool :=
  s.lkp.run.isEmpty && s.lkp.access.isEmpty && s.lkp.load.isNone && s.bnw.queue.isEmpty && (!grpFormed s || leadDev s = s.dev.devid)

/-- The registers in which the lockkeeper gives a reply: the producer indices of the reply rings, the mailbox's reply words and its
control register. -/
def replyOff (off : Nat) : Bool :=
  (decide (0x10140 ≤ off) && decide (off ≤ 0x10160)) || (decide (0x11000 ≤ off) && decide (off < 0x11200) && off % 32 = 24)

/-- `t` is `s` after nothing but replies and reports of the lockkeeper: the two differ at most in the reply registers, the host's
memory and interrupts, the commands in progress, the state last reported to the lead, and the messages waiting on the ring. -/
def repliesOnly (s t : State) : Prop :=
  t = { s with regs := t.regs, host := { s.host with mem := t.host.mem, msix := t.host.msix, pba := t.host.pba },
               lkp := { s.lkp with run := t.lkp.run, told := t.lkp.told }, grp := { s.grp with ringOut := t.grp.ringOut } } ∧
    ∀ off, replyOff off = false → rget t off = rget s off

/-- The lockkeeper has nothing else to do than to reply and to report: no state access waits at a bank, no
BAR2 word for a credit, no load is given up in SAFE. -/
def onlyReplies (s : State) : Prop := s.lkp.access = [] ∧ s.bnw.queue = [] ∧ (s.lkp.load = none ∨ s.seq.st ≠ .safe)

/-- The command or event completes in `u`, after which the lockkeeper does what has become due: in a state that brings it no other work,
replies and reports. -/
def leadsTo (i : Instr) (s u : State) : Prop := ∃ t, exec i s = .next t ∧ t = lkpSettle u ∧ (onlyReplies u → repliesOnly u t)

/-- The command completes in `u`, after which the lockkeeper may do what has become due. -/
def doneAs (i : Instr) (s u : State) : Prop := exec i s = .next u ∨ leadsTo i s u

/-- The sub-operations that act on a sluice's tag (R54): HRD, HWR and WAIT. -/
def atSluice : POp → Bool
  | .hrd _ _ | .hwr _ _ | .wait _ => true
  | _ => false

/-- The sub-operations whose processor writes Z (R46, R52, R59). -/
def givesZ : POp → Bool
  | .ashl _ _ | .wset _ _ | .rd _ | .wr _ | .hshl _ _ | .hset _ _ | .hrd _ _ | .hwr _ _ | .xset _ _ | .xsend _ _ | .gdrv _ | .nop => true
  | _ => false

/-- No group-wide event is due at the step that would execute next. -/
abbrev noneDue (s : State) : Prop := s.seq.events.filter (evDue s) = []

/-- An access of the host meets the register at `off`: nothing on the way hides it or answers for it, and it exists. -/
def hostSees (s : State) (off : Nat) : Bool :=
  !endpointDown s && !testBlock off 4 && !stoppedHides s off && regExists s off &&
    (match regNode off with | some n => !stubAnswers s n 0 | none => false)

/-- A write of the host reaches the register at `off`: the host meets it, and the lockkeeper does not own it. -/
def hostReaches (s : State) (off : Nat) : Bool := hostSees s off && !lkpOwns s off

/-- Every register but those of the list holds what it held. -/
def regsBut (offs : List Nat) (s t : State) : Prop := ∀ off, off ∉ offs → rget t off = rget s off

/-- The two states agree in all but the register file. -/
def restSame (s t : State) : Prop := { t with regs := s.regs } = s

/-- Host memory, hold memory and design memory read the same at every byte. -/
def memSame (s t : State) : Prop :=
  ∀ a, mget 0#8 t.host.mem a = mget 0#8 s.host.mem a ∧ mget 0#8 t.hold.cells a = mget 0#8 s.hold.cells a ∧
    mget 0#8 t.dmc.cells a = mget 0#8 s.dmc.cells a

/-- The record of a command row, and the opcode of its row in R393. -/
def cmdOf : Instr → Option (Nat × Cmd)
  | .imgLoad c => some (0x01, c) | .imgVerify c => some (0x02, c) | .run c => some (0x03, c) | .halt c => some (0x04, c)
  | .stepFrames c => some (0x05, c) | .stateRead c => some (0x06, c) | .stateWrite c => some (0x07, c) | .bankOwner c => some (0x08, c)
  | .fence c => some (0x09, c) | .unfence c => some (0x0A, c) | .powerState c => some (0x0B, c) | .traceArm c => some (0x0C, c)
  | .unseal c => some (0x0D, c) | .selftest c _ => some (0x0E, c) | .march c => some (0x0F, c) | .faultRead c => some (0x10, c)
  | .faultDump c => some (0x11, c) | .timeSet c => some (0x12, c) | .tableLoad c => some (0x13, c) | .isolate c => some (0x14, c)
  | .reset c => some (0x15, c) | .clkResume c => some (0x16, c) | .stepClock c _ => some (0x17, c) | .seqSet c => some (0x18, c)
  | .stdWrite c => some (0x19, c)
  | _ => none

/-- The row that carries out a command of an opcode; `failing` and `e` are what a SELFTEST and a STEP_CLOCK meet. -/
def cmdRow (failing : Nat) (e : SwitchEnd) (c : Cmd) : Option Instr :=
  match c.op with
  | 0x01 => some (.imgLoad c) | 0x02 => some (.imgVerify c) | 0x03 => some (.run c) | 0x04 => some (.halt c) | 0x05 => some (.stepFrames c)
  | 0x06 => some (.stateRead c) | 0x07 => some (.stateWrite c) | 0x08 => some (.bankOwner c) | 0x09 => some (.fence c)
  | 0x0A => some (.unfence c) | 0x0B => some (.powerState c) | 0x0C => some (.traceArm c) | 0x0D => some (.unseal c)
  | 0x0E => some (.selftest c failing) | 0x0F => some (.march c) | 0x10 => some (.faultRead c) | 0x11 => some (.faultDump c)
  | 0x12 => some (.timeSet c) | 0x13 => some (.tableLoad c) | 0x14 => some (.isolate c) | 0x15 => some (.reset c) | 0x16 => some (.clkResume c)
  | 0x17 => some (.stepClock c e) | 0x18 => some (.seqSet c) | 0x19 => some (.stdWrite c)
  | _ => none

/-- A command of the opcode can be taken, its reserved bytes are zero, the device is not in SAFE or CLK_HALT as far as that matters to the
opcode, and no load and no command in progress keeps it from starting (R292, R387, R388, R391, R392). -/
abbrev accepted (op : Nat) (c : Cmd) (s : State) : Prop :=
  c.op = op ∧ c.rsv = 0 ∧ takes s c.port = true ∧ cmdFaulted s c = false ∧ loadBusy s op = false ∧ cmdBusy s op = false

/-- No flag and no parameter is given. -/
abbrev bare (c : Cmd) : Prop := c.flags = 0 ∧ c.p0 = 0 ∧ c.p1 = 0 ∧ c.p2 = 0 ∧ noP3 c = true

/-- SEQ_STS.STATE reads IDLE, READY or PAUSED; PAUSED held back for the markers of the ended flight reads LOCK (R78). -/
abbrev rests (s : State) : Prop := s.seq.st = .idle ∨ s.seq.st = .ready ∨ (s.seq.st = .paused ∧ s.seq.markHold = false)

/-- A device that runs alone may start (R81, R143, R144, R189, R191, R253, R293, R313, R327, R360): READY or PAUSED with every marker settled and no
divergence, SEQ and BAS on, every placed basin loaded and not fenced, no member lost, Run with no transition under way, no holdover, no ramp, relock,
march of a scheduled bank or other start under way. -/
abbrev runnable (s : State) : Prop :=
  grpFormed s = false ∧ (members s = [] ∨ members s = [s.dev.devid]) ∧
    (s.seq.st = .ready ∨ (s.seq.st = .paused ∧ s.seq.markHold = false ∧ s.seq.diverged = false)) ∧ unitOn s 8 = true ∧ unitOn s 14 = true ∧
    (∀ b < nBasins s, rbit s oCfgPlaced b = true → rbit s oCfgFenced b = false ∧ rbit s oCfgLoaded b = true) ∧ s.grp.lost = 0 ∧
    rfld s oPwrSts 3 0 = 0 ∧ rbit s oTimSts 1 = false ∧ s.clk.ramp = false ∧ s.clk.relock = false ∧ rbit s oCkgSts 8 = true ∧
    (∀ k ∈ s.dmc.marching, k.2 = true → ownMode s k.1 ≠ 1) ∧ s.seq.runPend = none

/-- A handover to DMC_OWN[k] with value `v` was accepted: mode, width, lane and owner of every bank of the new gang, the old gang's other
banks unowned, the refusal record of k cleared, nothing else changed but that a patrol pass begins in banks that were unowned (R125-R127, R139). -/
def handedOver (k : Nat) (v : Word) (s t : State) : Prop :=
  { t with regs := s.regs, dmc := { t.dmc with patrolPtr := s.dmc.patrolPtr, patrolAt := s.dmc.patrolAt, patrolMs := s.dmc.patrolMs } } = s ∧
    (∀ j, ¬ (k ≤ j ∧ j ≤ k + fld v 22 20) ∨ ownMode s j ≠ 0 → mget 0 t.dmc.patrolPtr j = mget 0 s.dmc.patrolPtr j) ∧
    (∀ j < fld v 22 20 + 1, ownMode t (k + j) = fld v 25 24 ∧ ownGw t (k + j) = fld v 22 20 + 1 ∧ ownLane t (k + j) = j ∧
      rfld t (oDmcOwn (k + j)) 10 0 = (if fld v 25 24 = 1 then fld v 10 0 else 0)) ∧
    (∀ j ∈ oldGang s k, k + fld v 22 20 + 1 ≤ j → ownMode t j = 0) ∧
    rfld t (oDmcOwn k) 31 28 = 0 ∧
    ∀ off, (∀ j < fld v 22 20 + 1, off ≠ oDmcOwn (k + j)) → (∀ j ∈ oldGang s k, off ≠ oDmcOwn j) → rget t off = rget s off

/-- A handover to DMC_OWN[k] was refused for `cause` (R127). -/
def handoverRefused (k cause : Nat) (s t : State) : Prop :=
  restSame s t ∧ rbit t (oDmcOwn k) 31 = true ∧ rfld t (oDmcOwn k) 30 28 = cause ∧ rfld t (oDmcOwn k) 27 0 = rfld s (oDmcOwn k) 27 0 ∧
    rbit t oDmcSts 2 = true ∧ regsBut [oDmcOwn k, oDmcSts] s t

/-- A load ends without a release (R245, CFG_LOAD): nothing is loaded, placed or loading, and the record names phase, check code and section. -/
def loadGone (phase code sec : Nat) (s t : State) : Prop :=
  rget t oCfgLoad = BitVec.ofNat 32 (2 ^ 31 + phase * 2 ^ 30 + code * 2 ^ 16 + sec) ∧ rget t oCfgLoaded = 0#32 ∧
    rget t oCfgPlaced = 0#32 ∧ rbit t oCfgSts 2 = false ∧ t.lkp.load = none ∧ t.lkp.digest = [] ∧ t.lkp.maxMhz = 0 ∧
    regsBut [oCfgLoad, oCfgLoaded, oCfgPlaced, oCfgSts] s t ∧ { t with regs := s.regs, lkp := s.lkp } = s

/-- A power-on reset of `s` with no persistent write under way (R280, R281): registers outside the standing block at their reset values, standing registers kept, no
unit with anything in it, the host's memory and the queue as they were. -/
def poweredOn (s t : State) : Prop :=
  (∀ off, off / 0x10000 ≠ 6 → rget t off = cardReset off) ∧ (∀ i < 256, rget t (oStd i) = rget s (oStd i)) ∧ t.seq = State.reset.seq ∧
    t.lkp = State.reset.lkp ∧ t.saf = State.reset.saf ∧ t.fab = [] ∧ t.hold = State.reset.hold ∧ t.dmc = State.reset.dmc ∧
    t.host.mem = s.host.mem ∧ t.pending = s.pending

/-- A warm, PERST_N or group reset of `s` has taken effect (R281, R282, R284), of kind and source `k` and `src`. -/
def resetDone (k src : Nat) (s t : State) : Prop :=
  t.seq.st = .idle ∧ t.seq.F = 0 ∧ t.lkp.run = [] ∧ t.lkp.load = none ∧ rfld t oCfgBoot 3 0 = 4 ∧ rget t oCfgLoaded = 0#32 ∧ rget t oSafSts = 0#32 ∧
    t.saf.safe = false ∧ t.saf.log = s.saf.log ∧ t.xch.entries = [] ∧ t.gau.fifo = [] ∧ t.rst.cause = 64 * k + src ∧ t.rst.test = s.rst.test ∧
    t.hold.cells = s.hold.cells ∧ t.dmc.cells = s.dmc.cells ∧ clockFrac t = clockFrac s ∧ (s.std.busy = none → ∀ i < 256, rget t (oStd i) = rget s (oStd i))

/-- Bank `k` of design memory is in service and idle: its memory clock runs, nothing is scheduled in this cycle, it has made no access in it, none
waits there and no patrol read is behind its pace (R134, R139). -/
def bankFree (s : State) (k : Nat) : Bool :=
  memClockOn s && decide (k < nBanks s) && ownMode s k ≠ 0 && !bankOff s k && !bankBusy s k && !bankTaken s k && (schedAt s k).isNone && !patrolBehind s k &&
    s.dmc.waiting.all (·.bank ≠ k)

/-- The endpoint holds every credit and every reply buffer: no BAR2 word waits there, no request of the host is under way (R339). -/
def hostQuiet (s : State) : Bool :=
  s.bnw.queue.isEmpty && (s.bnw.sent ++ s.bnw.dead ++ svcSent s ++ jobSent s).all fun x => x.master ≠ 0 && x.src ≠ 46

/-- The bank and the word of a BAR2 offset (R130). -/
def bar2Bank (off : Nat) : Nat := off % 0x6000000 / 0x40000
def bar2WordOf (off : Nat) : Nat := off % 0x40000 / 8

/-- DRAM bank `d` has nothing to do ahead of an access that arrives: no request waits, no refresh is due, no write-back is outstanding (R155). -/
def dramIdle (s : State) (d : Nat) : Bool :=
  decide (bankQueue s d = []) && mget 0 s.hold.refDue d = 0 && s.hold.writeback.all fun e => lineBank s (e.1 / 8) ≠ d

/-- Nothing waits at the DRAM banks of the `n` bytes at `a`. -/
def bytesIdle (s : State) (a n : Nat) : Bool := (List.range n).all fun i => dramIdle s (lineBank s ((a + i) / 64))

/-- The state that a step answers, where it answers one. -/
def nextOf (r : Res) : Option State :=
  match r with
  | .next s => some s
  | .fault _ => none
  | .refused _ => none

end Sys2Proof.Machine
end

