-- ==== Sys2Proof/Certificates/Slice0/Obligations.lean ====
section
/-!
DEFINITION. The statements for the provers, on the rules of the spec.  A clause says what a command or an event does in every state that meets its
conditions; `leadsTo` allows the replies and reports of the lockkeeper that follow it.
-/
open Sys2Proof Sys2Proof.Machine

/-- A step takes the command or event at the front of the queue and runs it on the rest of the queue. -/
def Obligations.StepTakesFront : Prop :=
  ∀ (c : Instr) (q : List Instr) (s : State), s.pending = c :: q → step s = exec c { s with pending := q }

/-- Every step keeps the canonical form of the memories, the register file and the maps of clusters, basins, sluices and links. -/
def Obligations.StepKeepsCanonical : Prop :=
  ∀ s t : State, Canonical s = true → step s = .next t → Canonical t = true

/-- No command or event touches the queue of what waits after it. -/
def Obligations.ExecKeepsQueue : Prop :=
  ∀ (i : Instr) (s t : State), Canonical s = true → exec i s = .next t → t.pending = s.pending

/-- The machine after a power-on reset is in canonical form and its queue is empty. What the cards give for reset: the sequencer IDLE at
frame 0 of group step 0, flights of 4,096 frames, a lock phase of 64 steps with its service window open, a horizon of 256 steps, a stall
timeout of 4,096 units; no fault, no safe state, nothing loaded. -/
def Obligations.ResetState : Prop :=
  (Canonical State.reset = true ∧ State.reset.pending = []) ∧
  (let s := State.reset
  s.seq.st = .idle ∧ s.seq.F = 0 ∧ s.seq.gsc = 0 ∧ seqStsView s = 0#32 ∧ rget s oSeqCfg = 0x8#32 ∧ rget s oSeqFlight = 0x1000#32 ∧
    rget s oSeqLock = 0x10040#32 ∧ rget s oSeqHorizon = 0x100#32 ∧ rget s oSeqStallTmo = 0x1000#32 ∧ rget s oCfgLoaded = 0#32 ∧
    rget s oCfgPlaced = 0#32 ∧ s.saf.safe = false ∧ s.saf.log = [] ∧ s.xch.entries = [] ∧ s.gau.fifo = [] ∧ s.trc.staging = [] ∧
    s.req = [] ∧ s.dmc.waiting = [] ∧ s.lkp.run = [] ∧ s.bnw.taken = [] ∧ (∀ n < 12, rfld s (oLnkSts n) 2 0 = 0))

/-- With nothing waiting, one crystal cycle passes (the model's choice, log entry 5): 40 ns on the device's own clock and, while the memory
clock runs, on design memory's; the network clock advances by 40 ns · (1 + trim), in units of 2^-32 ns, unless the TIM unit's clock is
gated; nothing else changes but the time at which 1PPS_OUT went high. -/
def Obligations.IdleStepIsOneCycle : Prop :=
  ∀ s : State, s.pending = [] → s.tim.ns < 1000000000 → s.tim.frac < 2 ^ 32 → s.tim.sec < 2 ^ 48 - 1 →
    s.tim.trim.natAbs ≤ 50000 * 65536000 →
    ∃ t, step s = .next t ∧
      clockFrac t = clockFrac s +
        (if rbit s oCkgEn0 6 then (40 * 2 ^ 32 + 40 * 2 ^ 32 * s.tim.trim / (65536000 * 1000000000)).toNat else 0) ∧
      t.tim.ns < 1000000000 ∧ t.tim.frac < 2 ^ 32 ∧ (rbit s oCkgEn0 6 = false → t.tim.high = s.tim.high) ∧
      t = { s with tim := { s.tim with sec := t.tim.sec, ns := t.tim.ns, frac := t.tim.frac, high := t.tim.high,
                                       mono := s.tim.mono + 40 },
                   dmc := { s.dmc with time := s.dmc.time + (if memClockOn s then 40 else 0) } }

/-- A BAR0 access that is not 4 bytes wide and aligned to 4 bytes: a read completes as an Unsupported Request, a write is discarded; an
aligned access of 4 bytes carries the register in little-endian order, a standing register as its check leaves it. Accesses that meet the
test block are FaultsAndMonitors's. -/
def Obligations.RegisterAccessForm : Prop :=
  (∀ (s : State) (off len : Nat) (hs : List Happening), endpointDown s = false → testBlock off len = false → len ≠ 4 ∨ off % 4 ≠ 0 →
    leadsTo (.bar0Read off len hs) s
      { strikes hs s with host := { (strikes hs s).host with cpl := ⟨.unsupported, false, 0, off, []⟩ :: (strikes hs s).host.cpl } }) ∧
  (∀ (s : State) (off : Nat) (data : List Byte) (e : SwitchEnd) (clash : Bool), testBlock off data.length = false →
    data.length ≠ 4 ∨ off % 4 ≠ 0 →
    leadsTo (.registerWrite off data ⟨e, clash⟩) s s) ∧
  (∀ (s : State) (off : Nat) (b0 b1 b2 b3 : Byte) (e : SwitchEnd) (clash : Bool), off % 4 = 0 → off < 0x3F00000 →
    leadsTo (.registerWrite off [b0, b1, b2, b3] ⟨e, clash⟩) s (hostWrite off (b3 ++ b2 ++ b1 ++ b0) e s clash)) ∧
  (∀ (s : State) (off : Nat), off % 4 = 0 → off < 0x4000000 → hostSees s off = true →
    let v := if 0x60000 ≤ off ∧ off < 0x60400 then (stdRead ((off - 0x60000) / 4) s).1 else regView s off
    ∃ t, exec (.bar0Read off 4 []) s = .next t ∧
      t.host.cpl = ⟨.ok, false, 0, off, [v.extractLsb' 0 8, v.extractLsb' 8 8, v.extractLsb' 16 8, v.extractLsb' 24 8]⟩ :: s.host.cpl)

/-- A read of a register clears its RC fields and changes no other register but the latches of SEQ_FRAME_LO, SEQ_GSC_LO and TIM_NS; no
memory and no unit changes. The highest occupancy that XCH_PART_USE shows begins anew at the occupancy of the read. A read of a standing
register gives its stored value, or the shipped one where its check fails, sets STD_CMP.CE or UE, and rewrites nothing. Reads of
SEQ_FRAME_LO, SEQ_GSC_LO and TIM_NS return the low part and latch the high part: F[47:32], GSC[63:32], the seconds. -/
def Obligations.ReadEffects : Prop :=
  ((∀ (s : State) (off : Nat) (c : Card), off % 4 = 0 → off < 0x4000000 → hostSees s off = true → (off < 0x60000 ∨ 0x60400 ≤ off) →
    off ∉ [oSeqFrameLo, oSeqGscLo, oTimNs] → (∀ j < 64, off ≠ oXchPartUse j) → cardAt off = some c →
    ∃ u, leadsTo (.bar0Read off 4 []) s u ∧ rget u off = rget s off &&& ~~~(BitVec.ofNat 32 c.rc) ∧ regsBut [off] s u ∧
      { u with regs := s.regs, host := { u.host with cpl := s.host.cpl } } = s) ∧
  (∀ (s : State) (j : Nat), j < 64 → hostSees s (oXchPartUse j) = true →
    ∃ u, leadsTo (.bar0Read (oXchPartUse j) 4 []) s u ∧ rfld u (oXchPartUse j) 29 18 = (partUsed s j + 63) / 64 % 4096 ∧
      regsBut [oXchPartUse j] s u ∧ { u with regs := s.regs, host := { u.host with cpl := s.host.cpl } } = s) ∧
  (∀ (s : State) (i : Nat), i < 256 → hostSees s (oStd i) = true →
    let e := mget .clean s.std.ecc i
    ∃ u, leadsTo (.bar0Read (oStd i) 4 []) s u ∧
      u.host.cpl = ⟨.ok, false, 0, oStd i, leBytes 4 (if e = .double then stdShipped i else stdStored s i).toNat⟩ :: s.host.cpl ∧
      rbit u (oStdCmp i) 28 = (rbit s (oStdCmp i) 28 || decide (e = .single)) ∧
      rbit u (oStdCmp i) 29 = (rbit s (oStdCmp i) 29 || decide (e = .double)) ∧
      (∀ b, b ≠ 28 → b ≠ 29 → rbit u (oStdCmp i) b = rbit s (oStdCmp i) b) ∧ regsBut [oStdCmp i] s u ∧
      { u with regs := s.regs, host := { u.host with cpl := s.host.cpl } } = s)) ∧
  ((∀ s : State, hostSees s oSeqFrameLo = true → ∃ t, exec .seqFrameLoRead s = .next t ∧
    t.host.cpl = ⟨.ok, false, 0, oSeqFrameLo, leBytes 4 (s.seq.F.toNat % 2 ^ 32)⟩ :: s.host.cpl ∧
    rget t oSeqFrameHi = BitVec.ofNat 32 (s.seq.F.toNat / 2 ^ 32) ∧ regsBut [oSeqFrameHi] s t ∧
    { t with regs := s.regs, host := { t.host with cpl := s.host.cpl } } = s) ∧
  (∀ s : State, hostSees s oSeqGscLo = true → ∃ t, exec .seqGscLoRead s = .next t ∧
    t.host.cpl = ⟨.ok, false, 0, oSeqGscLo, leBytes 4 (s.seq.gsc.toNat % 2 ^ 32)⟩ :: s.host.cpl ∧
    rget t oSeqGscHi = BitVec.ofNat 32 (s.seq.gsc.toNat / 2 ^ 32) ∧ regsBut [oSeqGscHi] s t ∧
    { t with regs := s.regs, host := { t.host with cpl := s.host.cpl } } = s) ∧
  (∀ s : State, hostSees s oTimNs = true → ∃ t, exec .timNsRead s = .next t ∧
    t.host.cpl = ⟨.ok, false, 0, oTimNs, leBytes 4 (s.tim.ns % 2 ^ 32)⟩ :: s.host.cpl ∧
    rget t oTimSecLo = BitVec.ofNat 32 s.tim.sec ∧ rget t oTimSecHi = BitVec.ofNat 32 (s.tim.sec / 2 ^ 32 % 2 ^ 16) ∧
    regsBut [oTimSecLo, oTimSecHi] s t ∧ { t with regs := s.regs, host := { t.host with cpl := s.host.cpl } } = s))

/-- A write of a register without a rule of its own, by the access types of its fields: RW bits take the value written, W1C bits clear where
a 1 is written, every other bit keeps what it held; no other register and no other part of the machine changes. -/
def Obligations.WriteByAccessType : Prop :=
  ∀ (s : State) (off : Nat) (c : Card) (v : Word) (e : SwitchEnd),
    off ∈ [oSeqSts, oSeqOvr, oSeqStallTmo, oSeqInt, oSafSts, oSafReact, oSafFnmask, oSafInt, oXchCtl, oGauInt, oGauEdgeCtl, oCkgSts,
      oPwrSts, oCfgSts, oTimSts, oTimServo, oTimStepNs, oTrcSts, oTrcInt, oLkpSts, oLkpOwnSel, oRingSts, oStdSts, oDmcMarchSts] →
    cardAt off = some c → hostReaches s off = true →
    ∃ w, leadsTo (.registerWrite off (leBytes 4 v.toNat) ⟨e, false⟩) s (rset off w s) ∧
      ∀ i < 32, bit w i = if nbit c.rw i then bit v i else if nbit c.w1c i then bit (rget s off) i && !bit v i else bit (rget s off) i

/-- A host write of a register that the lockkeeper owns is dropped whole, counted in LKP_HOST_WR_LOST, and recorded with its address in
LKP_HOST_WR_REC where no record is held; a write that only clears a field which stays the host's, of DMC_OWN or DMC_MARCH_STS, is not. A
write that meets one of the lockkeeper in the same cycle, of a register that it writes without owning it, is dropped in the same way, with
REASON 1. -/
def Obligations.OwnedWriteDropped : Prop :=
  ∀ (s : State) (off : Nat) (v : Word) (e : SwitchEnd) (clash : Bool), off % 4 = 0 → off < 0x4000000 → hostSees s off = true →
    (lkpOwns s off = true ∧ hostPart off v = false) ∨ (lkpOwns s off = false ∧ clash = true ∧ lkpShares off = true) →
    ∃ u, leadsTo (.registerWrite off (leBytes 4 v.toNat) ⟨e, clash⟩) s u ∧
      (rget u oLkpHostWrLost).toNat = min ((rget s oLkpHostWrLost).toNat + 1) (2 ^ 32 - 1) ∧
      rget u oLkpHostWrRec = (if rbit s oLkpHostWrRec 31 then rget s oLkpHostWrRec
        else BitVec.ofNat 32 (2 ^ 31 + (if lkpOwns s off then 0 else 2 ^ 30) + off / 4 % 2 ^ 24)) ∧
      regsBut [oLkpHostWrLost, oLkpHostWrRec] s u ∧ restSame s u

/-- A write of SEQ_HALT.REQ while the group runs and no halt is placed places one at the first multiple of 256 that lies at least 256 steps
after this step, and votes it to the group; in IDLE, READY, PAUSED, CLK_HALT and SAFE it is ignored. CFG_RST: WARM requests a warm reset of
kind 4, also where RECOVER is written with it, unless a broader reset is under way; RECOVER starts a recovery restart, which in FLIGHT, LOCK
and STALL requests a halt first. -/
def Obligations.HaltAndResetRequests : Prop :=
  ((∀ s : State, hostReaches s oSeqHalt = true → seqRuns s = true → s.seq.halt = none →
    ∃ e0, e0 % 256 = 0 ∧ s.seq.gsc.toNat + 256 ≤ e0 ∧ e0 < s.seq.gsc.toNat + 512 ∧
      leadsTo .seqHaltReq s (sendExpress 7 (e0 / 256)
        { s with seq := { s.seq with haltReq := true, halt := some e0, haltSrc := s.dev.devid } })) ∧
  (∀ s : State, hostReaches s oSeqHalt = true → seqRuns s = false → leadsTo .seqHaltReq s s)) ∧
  ((∀ (r : Bool) (s : State), hostReaches s oCfgRst = true → rfld s oCfgBoot 3 0 = 7 → s.rst.group = none →
    exec (.cfgRstWarm r) s = .next { s with rst := { s.rst with warm := some 4 } }) ∧
  (∀ (r : Bool) (s : State), hostReaches s oCfgRst = true → rfld s oCfgBoot 3 0 ≠ 7 ∨ s.rst.group ≠ none →
    exec (.cfgRstWarm r) s = .next s) ∧
  (∀ s : State, hostReaches s oCfgRst = true → s.rst.recov = 0 → seqRuns s = false →
    leadsTo .cfgRstRecover s { s with rst := { s.rst with recov := 1 } }) ∧
  (∀ s : State, hostReaches s oCfgRst = true → s.rst.recov = 0 → seqRuns s = true → s.seq.halt = none →
    leadsTo .cfgRstRecover s (sendExpress 7 (alignUp (s.seq.gsc.toNat + 256) 256 / 256)
      { s with rst := { s.rst with recov := 1 },
               seq := { s.seq with haltReq := true, halt := some (alignUp (s.seq.gsc.toNat + 256) 256), haltSrc := s.dev.devid } })) ∧
  (∀ s : State, hostReaches s oCfgRst = true → s.rst.recov ≠ 0 → leadsTo .cfgRstRecover s s))

/-- An accepted handover write of DMC_OWN[k] gives every bank of the new gang the mode, the width, its lane and the owner written; banks of
the old gang outside the new one become unowned; the refusal record of k is cleared; nothing else changes. A refused handover write changes
no mode, owner or gang: it sets REFUSED and, as CAUSE, the first condition that failed, and DMC_STS.OWN_REF; a write with bit 31 at 1 only
clears the refusal record. BANK_OWNER makes a handover write: OK with the new DMC_OWN[k] where it is accepted, DENIED where it is refused;
with bit 31 of its value at 1 it only clears the refusal record. Where it goes beyond the rules cited it rests on the model's choices of log
entries 13 and 28. -/
def Obligations.BankHandover : Prop :=
  (∀ (k : Nat) (v : Word) (s : State), k < 384 → hostReaches s (oDmcOwn k) = true → ownCause k (clrBit v 31) s = 0 →
    ∃ t, exec (.dmcOwnHandover k v) s = .next t ∧ handedOver k v s t) ∧
  ((∀ (k : Nat) (v : Word) (s : State), k < 384 → hostReaches s (oDmcOwn k) = true → ownCause k (clrBit v 31) s ≠ 0 →
    ∃ t, exec (.dmcOwnHandover k v) s = .next t ∧ handoverRefused k (ownCause k (clrBit v 31) s) s t) ∧
  (∀ (k : Nat) (v : Word) (s : State), k < 384 → hostSees s (oDmcOwn k) = true →
    exec (.dmcOwnRefusalClear k v) s = .next (rset (oDmcOwn k) (rget s (oDmcOwn k) &&& 0x0FFFFFFF#32) s))) ∧
  (∀ (c : Cmd) (s : State), accepted 0x08 c s → c.flags = 0 → c.p0 < 2 ^ 32 → c.p1 < nBanks s → c.p2 = 0 → noP3 c = true → unitOn s 15 = true →
    let v := BitVec.ofNat 32 c.p0
    (nbit c.p0 31 = false → ownCause c.p1 v s = 0 → ∃ t, handedOver c.p1 v s t ∧
      exec (.bankOwner c) s = .next (reply c 0 (rget t (oDmcOwn c.p1)).toNat 0 0 t)) ∧
    (nbit c.p0 31 = false → ownCause c.p1 v s ≠ 0 → ∃ t, handoverRefused c.p1 (ownCause c.p1 v s) s t ∧
      exec (.bankOwner c) s = .next (reply c 5 (rget t (oDmcOwn c.p1)).toNat 0 0 t)) ∧
    (nbit c.p0 31 = true →
      exec (.bankOwner c) s = .next (reply c 0 (rget s (oDmcOwn c.p1) &&& 0x0FFFFFFF#32).toNat 0 0
        (rset (oDmcOwn c.p1) (rget s (oDmcOwn c.p1) &&& 0x0FFFFFFF#32) s))))

/-- A handover write fails on the first of four conditions: every basin that loses or gains a bank is fenced or the sequencer stands in
IDLE, READY or PAUSED; the values are valid; no gang is split; no bank of the new gang has failed. -/
def Obligations.HandoverConditions : Prop :=
  ∀ (k : Nat) (v : Word) (s : State),
    let n := fld v 22 20 + 1
    let new := (List.range n).map (k + ·)
    let still (b : Nat) : Prop := rbit s oCfgFenced b = true ∨ rests s
    let owner (j : Nat) : Option Nat := if fld v 25 24 = 1 ∧ j < k + n then some (fld v 10 0) else none
    let c1 := ∀ j ∈ new ++ oldGang s k, j < nBanks s → portOwner s j ≠ owner j →
      ∀ cl, portOwner s j = some cl ∨ owner j = some cl → cl / 64 < nBasins s → still (cl / 64)
    let c2 := fld v 25 24 ≠ 3 ∧ (fld v 25 24 = 1 → fld v 10 6 < nBasins s) ∧ k + n ≤ nBanks s
    let c3 := ∀ j ∈ new, ownGw s j = 1 ∨ j - ownLane s j = k
    let c4 := ∀ j ∈ new, rbit s (oDmcRepair j) 31 = false
    (ownCause k v s = 1 ↔ ¬c1) ∧ (ownCause k v s = 2 ↔ c1 ∧ ¬c2) ∧ (ownCause k v s = 3 ↔ c1 ∧ c2 ∧ ¬c3) ∧
      (ownCause k v s = 4 ↔ c1 ∧ c2 ∧ c3 ∧ ¬c4) ∧ (ownCause k v s = 0 ↔ c1 ∧ c2 ∧ c3 ∧ c4)

/-- A region-table write of sluice q takes effect where the sluice's basin is fenced or the group rests, the region lies within hold memory
and does not meet the region of an armed trace unit; else it is ignored and HLD_STS.CFG_ERR set. -/
def Obligations.RegionTableWrite : Prop :=
  ∀ (q r : Nat) (size : Bool) (v : Word) (s : State), q < nSluices s → r < 16 →
    hostReaches s (if size then oHldRgnSize q r else oHldRgnBase q r) = true →
    let w := v &&& 0x1FFFFFF#32
    let base := if size then rfld s (oHldRgnBase q r) 24 0 else w.toNat
    let n := if size then w.toNat else rfld s (oHldRgnSize q r) 24 0
    let still := rbit s oCfgFenced (q / 4) = true ∨ rests s
    let fits := n = 0 ∨ 4096 * (base + n) ≤ holdBytes s
    let clear := rfld s oTrcSts 18 16 = 0 ∨ n = 0 ∨ base + n ≤ rfld s oTrcBase 24 0 ∨
      rfld s oTrcBase 24 0 + rfld s oTrcSize 23 0 ≤ base
    (still ∧ fits ∧ clear →
      exec (.hldRegionWrite q r size v) s = .next (rset (if size then oHldRgnSize q r else oHldRgnBase q r) w s)) ∧
    (¬(still ∧ fits ∧ clear) → exec (.hldRegionWrite q r size v) s = .next (rset oHldSts (setBit (rget s oHldSts) 9) s))

/-- LNK_CTL[n].EN written 1 on a link that stands in DOWN: the link tries, DETECT, where its PLL is judged stable, and stays in DOWN where
it is not; EN written 0 on a link in training: DOWN; RETRAIN written with EN at 1 on a link that is not UP: RETRAIN reads 1 and the link
stands in DETECT. -/
def Obligations.LinkControl : Prop :=
  (∀ (n : Nat) (s : State), n < 12 → hostReaches s (oLnkCtl n) = true → rbit s (oLnkCtl n) 0 = false → rfld s (oLnkSts n) 2 0 = 0 →
    ∃ u, leadsTo (.lnkCtlEnWrite n true) s u ∧ rbit u (oLnkCtl n) 0 = true ∧
      rfld u (oLnkSts n) 2 0 = (if rfld s (oCkgPll (n / 4 + 1)) 31 30 = 3 then 1 else 0) ∧
      regsBut [oLnkCtl n, oLnkSts n] s u ∧ { u with regs := s.regs, lnk := s.lnk } = s) ∧
  (∀ (n : Nat) (s : State), n < 12 → hostReaches s (oLnkCtl n) = true → rbit s (oLnkCtl n) 0 = true → rfld s (oLnkSts n) 2 0 ≠ 6 →
    ∃ u, leadsTo (.lnkCtlEnWrite n false) s u ∧ rbit u (oLnkCtl n) 0 = false ∧ rfld u (oLnkSts n) 2 0 = 0 ∧
      regsBut [oLnkCtl n, oLnkSts n] s u) ∧
  (∀ (n : Nat) (s : State), n < 12 → hostReaches s (oLnkCtl n) = true → rfld s (oLnkSts n) 2 0 ≠ 6 →
    ∃ u, leadsTo (.lnkCtlRetrain n true) s u ∧ rbit u (oLnkCtl n) 0 = true ∧ rbit u (oLnkCtl n) 1 = true ∧
      rfld u (oLnkSts n) 2 0 = (if rfld s (oCkgPll (n / 4 + 1)) 31 30 = 3 then 1 else 0) ∧ regsBut [oLnkCtl n, oLnkSts n] s u)

/-- LKG_CFG: FORM written 1 from 0 takes the fields written and starts formation (FORMING 1, FAIL 0); FORM written 0 in IDLE dissolves the
group, in any other state it is ignored and sets CFG_ERR. LKG_MODE written on the lead, or on a device that runs alone, in IDLE, READY or
PAUSED takes the value and goes to every other member; in any other state it is ignored and sets LKG_STS.CFG_ERR. -/
def Obligations.GroupRegisters : Prop :=
  ((∀ (v : Word) (s : State), hostReaches s oLkgCfg = true → rbit s oLkgCfg 0 = false →
    ∃ u, leadsTo (.lkgForm v) s u ∧ rget u oLkgCfg = (v &&& 0xFFFF0003#32) ||| 1#32 ∧ rbit u oLkgSts 1 = true ∧ rbit u oLkgSts 2 = false ∧
      rfld u oLkgSts 31 28 = 0 ∧ regsBut [oLkgCfg, oLkgSts] s u ∧ restSame s u) ∧
  (∀ (v : Word) (s : State), hostReaches s oLkgCfg = true → rbit s oLkgCfg 0 = true → s.seq.st = .idle →
    ∃ u, leadsTo (.lkgDissolve v) s u ∧ rbit u oLkgCfg 0 = false ∧ rbit u oLkgSts 0 = false ∧ rbit u oLkgSts 1 = false ∧
      rfld u oSeqHorizon 23 16 = 0 ∧ regsBut [oLkgCfg, oLkgSts, oSeqHorizon] s u ∧ restSame s u) ∧
  (∀ (v : Word) (s : State), hostReaches s oLkgCfg = true → rbit s oLkgCfg 0 = true → s.seq.st ≠ .idle →
    ∃ u, leadsTo (.lkgDissolve v) s u ∧ rget u oLkgCfg = rget s oLkgCfg ∧ rbit u oLkgSts 5 = true ∧ rbit u oLkgSts 0 = rbit s oLkgSts 0 ∧
      regsBut [oLkgSts] s u ∧ restSame s u)) ∧
  ((∀ (v : Word) (s : State), hostReaches s oLkgMode = true → rests s →
    exec (.lkgModeWrite v) s = .next (ringSendAll (.mode (bit v 0)) (rset oLkgMode (v &&& 1#32) s))) ∧
  (∀ (v : Word) (s : State), hostReaches s oLkgMode = true → ¬ rests s →
    exec (.lkgModeWrite v) s = .next (rset oLkgSts (setBit (rget s oLkgSts) 5) s)))

/-- An index that the host owns takes the value written while PI − CI modulo 2^32 stays within the record count of the ring, and keeps its
value otherwise (a gauge ring then sets GAU_STS.CFG_ERR). A write of a ring's LO register (an exchange ring, the return ring, a gauge ring,
a command or a reply ring), while EN is 0 or where it changes neither ADDR_LO nor LOG2N, with LOG2N within the ring's limits, is taken, and
setting EN makes both indices 0; any other is ignored, and one of a gauge ring sets GAU_STS.CFG_ERR. A write of XCH_DONE for a flow in
service makes the flow idle; for any other flow it is ignored and sets XCH_STS.BAD_DONE. -/
def Obligations.RingRegisters : Prop :=
  ((∀ (r : Nat) (v : Word) (s : State), r < 64 → hostReaches s (oXchRingCi r) = true →
    exec (.xchRingCiWrite r v) s = .next
      (if (rget s (oXchRingPi r) - v).toNat ≤ 2 ^ rfld s (oXchRingLo r) 4 0 then rset (oXchRingCi r) v s else s)) ∧
  (∀ (v : Word) (s : State), hostReaches s oXchRetPi = true →
    exec (.xchRetPiWrite v) s = .next
      (if (v - rget s oXchRetCi).toNat ≤ 2 ^ rfld s oXchRetLo 4 0 then rset oXchRetPi v s else s)) ∧
  (∀ (r : Nat) (v : Word) (s : State), r < 2 → hostReaches s (oGauRingCi r) = true →
    exec (.gauRingCiWrite r v) s = .next
      (if (rget s (oGauRingPi r) - v).toNat ≤ 2 ^ rfld s (oGauRingLo r) 4 0 then rset (oGauRingCi r) v s
       else rset oGauSts (setBit (rget s oGauSts) 5) s)) ∧
  (∀ (i : Nat) (v : Word) (s : State), i < 16 → hostReaches s (oLkpCrPi i) = true →
    exec (.lkpCrPiWrite i v) s = .next
      (if (v - rget s (oLkpCrCi i)).toNat ≤ 2 ^ rfld s (oLkpCrLo i) 4 0 then rset (oLkpCrPi i) v s else s)) ∧
  (∀ (i : Nat) (v : Word) (s : State), i < 16 → hostReaches s (oLkpRrCi i) = true →
    exec (.lkpRrCiWrite i v) s = .next
      (if (rget s (oLkpRrPi i) - v).toNat ≤ 2 ^ rfld s (oLkpRrLo i) 4 0 then rset (oLkpRrCi i) v s else s))) ∧
  (∀ (i : Instr) (lo pi ci lmin lmax : Nat) (v : Word) (s : State),
    (∃ r < 64, i = .xchRingLoWrite r v ∧ (lo, pi, ci, lmin, lmax) = (oXchRingLo r, oXchRingPi r, oXchRingCi r, 6, 20)) ∨
    (i = .xchRetLoWrite v ∧ (lo, pi, ci, lmin, lmax) = (oXchRetLo, oXchRetPi, oXchRetCi, 6, 20)) ∨
    (∃ r < 2, i = .gauRingLoWrite r v ∧ (lo, pi, ci, lmin, lmax) = (oGauRingLo r, oGauRingPi r, oGauRingCi r, 6, 20)) ∨
    (∃ n < 16, i = .lkpCrLoWrite n v ∧ (lo, pi, ci, lmin, lmax) = (oLkpCrLo n, oLkpCrPi n, oLkpCrCi n, 4, 12)) ∨
    (∃ n < 16, i = .lkpRrLoWrite n v ∧ (lo, pi, ci, lmin, lmax) = (oLkpRrLo n, oLkpRrPi n, oLkpRrCi n, 4, 12)) →
    hostReaches s lo = true →
    let old := rget s lo
    let ok := lmin ≤ fld v 4 0 ∧ fld v 4 0 ≤ lmax ∧ (bit old 8 = false ∨ (fld v 31 12 = fld old 31 12 ∧ fld v 4 0 = fld old 4 0))
    (ok → ∃ t, exec i s = .next t ∧ rfld t lo 31 12 = fld v 31 12 ∧ rfld t lo 4 0 = fld v 4 0 ∧ rbit t lo 8 = bit v 8 ∧
      (bit v 8 = true ∧ bit old 8 = false → rget t pi = 0#32 ∧ rget t ci = 0#32) ∧
      (bit v 8 = false ∨ bit old 8 = true → rget t pi = rget s pi ∧ rget t ci = rget s ci) ∧
      regsBut [lo, pi, ci] s t ∧ { t with regs := s.regs, lkp := s.lkp } = s) ∧
    (¬ok → exec i s = .next (if lo = oGauRingLo 0 ∨ lo = oGauRingLo 1 then rset oGauSts (setBit (rget s oGauSts) 5) s else s))) ∧
  ((∀ (v : Word) (s : State), hostReaches s oXchDone = true → flowSt s (fld v 13 0) = .service →
    ∃ t, exec (.xchDoneWrite v) s = .next t ∧ flowSt t (fld v 13 0) = .idle ∧ (∀ f, f ≠ fld v 13 0 → flowSt t f = flowSt s f) ∧
      { t with xch := { t.xch with flows := s.xch.flows } } = s) ∧
  (∀ (v : Word) (s : State), hostReaches s oXchDone = true → flowSt s (fld v 13 0) ≠ .service →
    exec (.xchDoneWrite v) s = .next (rset oXchSts (setBit (rget s oXchSts) 7) s)))

/-- A write of GAU_LANE[n] in IDLE, READY or PAUSED writes REC, XPOL and MODE; at any other time it writes REC alone, and sets
GAU_STS.CFG_ERR exactly where it carries another MODE or XPOL. A write of GAU_ZDMAP[z] is ignored with CFG_ERR where it names a lane outside
bank z div 4, where it names a lane that another enabled input already serves, or outside those states. The gauge unit's ticks. In the
first, the staged drive and expected values of every lane are committed and an IN lane takes its sample, Z where its high-Z-detect input
reads 1. In the second, the pin of an OUT or IO lane takes the committed drive, and the compare's raw result is held back as the frame's
verdict; the verdict of the frame 64 before is released with its code, its counts and, for FAIL, the counts of its lanes. -/
def Obligations.LaneWrites : Prop :=
  ((∀ (n : Nat) (v : Word) (s : State), n < 512 → hostReaches s (oGauLane n) = true →
    rests s →
    exec (.gauLaneWrite n v) s = .next (rset (oGauLane n) (v &&& 0x1F#32) s)) ∧
  (∀ (n : Nat) (v : Word) (s : State), n < 512 → hostReaches s (oGauLane n) = true → ¬ rests s →
    ∃ t, exec (.gauLaneWrite n v) s = .next t ∧ laneRec t n = bit v 4 ∧ laneMode t n = laneMode s n ∧ laneXpol t n = laneXpol s n ∧
      rbit t oGauSts 5 = (rbit s oGauSts 5 || decide (fld v 3 0 ≠ rfld s (oGauLane n) 3 0)) ∧
      regsBut [oGauLane n, oGauSts] s t ∧ restSame s t) ∧
  (∀ (z : Nat) (v : Word) (s : State), z < 64 → hostReaches s (oGauZdmap z) = true →
    let ok := rests s ∧ fld v 8 0 / 32 = z / 4 ∧
      (∀ y < 64, y ≠ z → rbit s (oGauZdmap y) 9 = true → rfld s (oGauZdmap y) 8 0 ≠ fld v 8 0)
    (ok → exec (.gauZdmapWrite z v) s = .next (rset (oGauZdmap z) (v &&& 0x3FF#32) s)) ∧
    (¬ok → exec (.gauZdmapWrite z v) s = .next (rset oGauSts (setBit (rget s oGauSts) 5) s)))) ∧
  ((∀ (hs : List Happening) (n : Nat) (s : State), stepClock s = true → s.seq.st = .flight → s.seq.pos = rfld s oSeqCfg 10 0 → noneDue s →
    unitOn s 12 = true → n < nLanes s → rfld s (oGauLane n) 1 0 ≠ 0 →
    let l := getLane s n
    let level (v : V4) : Prop := ∃ u, leadsTo (.firstTickStep hs) s u ∧ (getLane u n).smp = v
    (∃ u, leadsTo (.firstTickStep hs) s u ∧ (getLane u n).drv = l.sdrv.getD l.drv ∧ (getLane u n).exp = l.sexp.getD l.exp ∧
      (getLane u n).sdrv = none ∧ (getLane u n).sexp = none) ∧
    (rfld s (oGauLane n) 1 0 = 2 → s.saf.safe = false → s.gau.live = true → rfld s oPwrSts 2 0 < 3 → rfld s oCfgBoot 3 0 ≠ 0 →
      (laneZd s n = none → pinAt hs n = .low → level .zero) ∧ (laneZd s n = none → pinAt hs n = .high → level .one) ∧
      (∀ z, laneZd s n = some z → zdAt hs z = .high → level .z) ∧
      (∀ z, laneZd s n = some z → zdAt hs z = .low → pinAt hs n = .high → level .one))) ∧
  (∀ (hs : List Happening) (n : Nat) (s : State), stepClock s = true → s.seq.st = .flight → s.seq.pos = rfld s oSeqCfg 10 0 + 1 → noneDue s →
    unitOn s 12 = true → n < nLanes s → rfld s (oGauLane n) 1 0 = 1 ∨ rfld s (oGauLane n) 1 0 = 3 →
    ∃ u, leadsTo (.secondTickStep hs) s u ∧ (getLane u n).pin = (match (getLane s n).drv, rfld s (oGauLane n) 3 2 with
      | .zero, _ | .x, 1 => .low
      | .one, _ | .x, 2 => .high
      | .z, _ | .x, 3 => .released
      | .x, _ => lanePin s n)) ∧
  (∀ (hs : List Happening) (s : State), stepClock s = true → s.seq.st = .flight → s.seq.pos = rfld s oSeqCfg 10 0 + 1 → noneDue s → unitOn s 12 = true →
    ∃ u, leadsTo (.secondTickStep hs) s u ∧ (u.seq.st = .safe ∨ ∃ v ∈ u.gau.held, v.frame = s.seq.F.toNat ∧
      ∀ n, n ∈ v.fails ↔ n < nLanes s ∧ (laneMode s n = 2 ∨ laneMode s n = 3) ∧
        let e := (getLane s n).exp
        let m := (getLane s n).smp
        ((e = .zero ∧ m = .one) ∨ (e = .one ∧ m = .zero) ∨
          (laneZd s n ≠ none ∧ (((e = .zero ∨ e = .one) ∧ m = .z) ∨ (e = .z ∧ (m = .zero ∨ m = .one))))))) ∧
  (∀ (hs : List Happening) (v : Verdict) (s : State), stepClock s = true → s.seq.st = .flight → s.seq.pos = rfld s oSeqCfg 10 0 + 1 → noneDue s →
    unitOn s 12 = true → s.gau.held.filter (fun x => decide (64 ≤ frDist x.frame s.seq.F.toNat)) = [v] → frDist v.frame s.seq.F.toNat = 64 →
    let code := if isTainted s v.frame then 2 else if v.unconf then 3 else if v.fails ≠ [] then 1 else 0
    ∃ u, leadsTo (.secondTickStep hs) s u ∧ (u.seq.st = .safe ∨
      ((rget u (oGauCnt code)).toNat = min ((rget s (oGauCnt code)).toNat + 1) (2 ^ 32 - 1) ∧ (∀ d < 4, d ≠ code → rget u (oGauCnt d) = rget s (oGauCnt d)) ∧
        rget u oGauVerF = BitVec.ofNat 32 v.frame ∧ v ∉ u.gau.held ∧
        (code = 1 → rbit u oGauSts 0 = true ∧ (v.fails.Nodup → ∀ n ∈ v.fails, n < 512 →
          (rget u (oGauFcnt n)).toNat = min ((rget s (oGauFcnt n)).toNat + 1) (2 ^ 32 - 1))) ∧
        (code = 2 → rbit u oGauSts 1 = true) ∧ (code = 3 → rbit u oGauSts 2 = true)))))

/-- A write of TRC_CTL with ARM at 1 arms the disarmed unit: WP and RP 0, ARMED, a start record staged; where arming is refused ARM stays 0
and CFG_ERR is set; while the unit is armed the write is ignored with CFG_ERR. Arming is not refused exactly where the sequencer stands in
READY or PAUSED, the region is not empty, lies within hold memory and meets no enabled sluice region, the stall reserve fits, and no named
comparator has a reserved MATCH value. A write of TRC_CTL with ARM at 0 disarms in any state, through a stop record; while the unit is
disarmed it writes the other fields. TRC_RP takes a value that frees units up to TRC_WP, and keeps its own where the value lies beyond it;
the units between them go by the index modulo the region and the LAP bits. TRACE_ARM arms the disarmed unit where no rule refuses it, and
answers TRC_STS; where one does, it answers its status with TRC_STS; on an armed unit it is DENIED. With its flag at 0 it disarms through a
stop record. UNSEAL: a token whose hash with the image's digest and the group's number is the group's verifier sets the group's bit of
TRC_UNSEAL and is answered OK; any other counts one more failure and is DENIED; after eight failures every UNSEAL is DENIED; a group that no
image holds is BAD_PARAM. Where it goes beyond the rules cited it rests on the model's choices of log entry 22. -/
def Obligations.TraceControl : Prop :=
  ((∀ (v : Word) (s : State), hostReaches s oTrcCtl = true → rfld s oTrcSts 18 16 = 0 →
    armRefusal (v &&& 0xE0#32) (rset oTrcCtl (v &&& 0xE0#32) s) = 0 →
    ∃ t, exec (.trcArmWrite v) s = .next t ∧ rget t oTrcCtl = (v &&& 0xE0#32) ||| 1#32 ∧ rfld t oTrcSts 18 16 = 1 ∧ rget t oTrcWp = 0#32 ∧
      rget t oTrcRp = 0#32 ∧ t.trc.staging.length = s.trc.staging.length + 1 ∧ t.trc.region = [] ∧
      regsBut [oTrcCtl, oTrcSts, oTrcWp, oTrcRp] s t ∧
      { t with regs := s.regs, trc := s.trc, hold := { t.hold with jobs := s.hold.jobs } } = s) ∧
  (∀ (v : Word) (s : State), hostReaches s oTrcCtl = true → rfld s oTrcSts 18 16 = 0 →
    armRefusal (v &&& 0xE0#32) (rset oTrcCtl (v &&& 0xE0#32) s) ≠ 0 →
    ∃ t, exec (.trcArmWrite v) s = .next t ∧ rget t oTrcCtl = v &&& 0xE0#32 ∧ rbit t oTrcSts 1 = true ∧ rfld t oTrcSts 18 16 = 0 ∧
      regsBut [oTrcCtl, oTrcSts] s t ∧ restSame s t) ∧
  (∀ (v : Word) (s : State), hostReaches s oTrcCtl = true → rfld s oTrcSts 18 16 ≠ 0 →
    exec (.trcArmWrite v) s = .next (rset oTrcSts (setBit (rget s oTrcSts) 1) s)) ∧
  (∀ (ctl : Word) (s : State), Canonical s = true → (armRefusal ctl s = 0 ↔
    rests s ∧ s.seq.st ≠ .idle ∧ rfld s oTrcSize 23 0 ≠ 0 ∧
      4096 * (rfld s oTrcBase 24 0 + rfld s oTrcSize 23 0) ≤ holdBytes s ∧
      (∀ q < 128, ∀ r < 16, rfld s (oHldRgnSize q r) 24 0 ≠ 0 →
        rfld s oTrcBase 24 0 + rfld s oTrcSize 23 0 ≤ rfld s (oHldRgnBase q r) 24 0 ∨
          rfld s (oHldRgnBase q r) 24 0 + rfld s (oHldRgnSize q r) 24 0 ≤ rfld s oTrcBase 24 0) ∧
      (bit ctl 5 = true → trcReserve s ≤ 512 * 1024) ∧
      ∀ i < 8, bit (rget s oTrcStart ||| rget s oTrcStop) (8 + i) = true → rfld s (oTrcDacP i) 22 20 ≤ 4))) ∧
  ((∀ (v : Word) (s : State), hostReaches s oTrcCtl = true → rfld s oTrcSts 18 16 ≠ 0 →
    ∃ t, exec (.trcDisarmWrite v) s = .next t ∧ rbit t oTrcCtl 0 = false ∧ rfld t oTrcSts 18 16 = 0 ∧ t.trc.cap = none ∧
      t.trc.staging.length = s.trc.staging.length + (if s.trc.lost.isSome then 2 else 1) ∧ regsBut [oTrcCtl, oTrcSts] s t ∧
      { t with regs := s.regs, trc := s.trc } = s) ∧
  (∀ (v : Word) (s : State), hostReaches s oTrcCtl = true → rfld s oTrcSts 18 16 = 0 →
    exec (.trcDisarmWrite v) s = .next (rset oTrcCtl (v &&& 0xE0#32) s)) ∧
  (∀ (v : Word) (s : State), hostReaches s oTrcRp = true → rbit s oTrcCtl 6 = true → exec (.trcRpWrite v) s = .next s) ∧
  (∀ (v : Word) (d : Nat) (s : State), hostReaches s oTrcRp = true → rbit s oTrcCtl 6 = false →
    regionDist (rset oTrcRp (v &&& 0xBFFFFFFF#32) s) = some d → d ≤ regionUsed s → fld v 29 0 < 128 * rfld s oTrcSize 23 0 →
    ∃ t, exec (.trcRpWrite v) s = .next t ∧ rget t oTrcRp = v &&& 0xBFFFFFFF#32 ∧ regsBut [oTrcRp] s t ∧
      { t with regs := s.regs, trc := { t.trc with region := s.trc.region } } = s) ∧
  (∀ (v : Word) (s : State), hostReaches s oTrcRp = true →
    (∀ d, regionDist (rset oTrcRp (v &&& 0xBFFFFFFF#32) s) = some d → regionUsed s < d) → exec (.trcRpWrite v) s = .next s) ∧
  (∀ (s : State) (wp rp : Nat) (a b : Bool), rget s oTrcWp = BitVec.ofNat 32 (wp + a.toNat * 2 ^ 31) →
    rget s oTrcRp = BitVec.ofNat 32 (rp + b.toNat * 2 ^ 31) → wp < 128 * rfld s oTrcSize 23 0 → rp < 128 * rfld s oTrcSize 23 0 →
    wp < 2 ^ 30 → rp < 2 ^ 30 →
    (a = b → regionDist s = if rp ≤ wp then some (wp - rp) else none) ∧
    (a ≠ b → regionDist s = if wp ≤ rp then some (128 * rfld s oTrcSize 23 0 + wp - rp) else none))) ∧
  (∀ (c : Cmd) (s : State), accepted 0x0C c s → c.p0 = 0 → c.p1 = 0 → c.p2 = 0 → noP3 c = true → unitOn s 7 = true →
    (c.flags = 1 → rfld s oTrcSts 18 16 = 0 → armRefusal (rget s oTrcCtl) s = 0 →
      ∃ t, exec (.traceArm c) s = .next (reply c 0 (rget t oTrcSts).toNat 0 0 t) ∧ rget t oTrcCtl = setBit (rget s oTrcCtl) 0 ∧
        rfld t oTrcSts 18 16 = 1 ∧ rget t oTrcWp = 0#32 ∧ rget t oTrcRp = 0#32 ∧ t.trc.region = [] ∧
        t.trc.staging.length = s.trc.staging.length + 1 ∧ regsBut [oTrcCtl, oTrcSts, oTrcWp, oTrcRp] s t ∧
        { t with regs := s.regs, trc := s.trc, hold := { t.hold with jobs := s.hold.jobs } } = s) ∧
    (c.flags = 1 → rfld s oTrcSts 18 16 = 0 → armRefusal (rget s oTrcCtl) s ≠ 0 →
      exec (.traceArm c) s = .next (reply c (armRefusal (rget s oTrcCtl) s) (rget s oTrcSts).toNat 0 0 s)) ∧
    (c.flags = 1 → rfld s oTrcSts 18 16 ≠ 0 → exec (.traceArm c) s = .next (reply c 5 0 0 0 s)) ∧
    (c.flags = 0 → ∃ t, exec (.traceArm c) s = .next (reply c 0 (rget t oTrcSts).toNat 0 0 t) ∧ rbit t oTrcCtl 0 = false ∧
      trcArmed t = false ∧ regsBut [oTrcCtl, oTrcSts] s t ∧ { t with regs := s.regs, trc := s.trc } = s)) ∧
  (∀ (c : Cmd) (g : SealGrp) (s : State), accepted 0x0D c s → c.flags = 0 → c.p0 < 16 → c.p1 = 0 → c.p2 = 0 →
    s.trc.seals.find? (·.1 = c.p0) = some (c.p0, g) → unitOn s 7 = true →
    let h := sha256 (c.p3.take 32 ++ List.replicate (32 - c.p3.length) 0#8 ++ s.lkp.digest ++ [BitVec.ofNat 8 c.p0])
    (rfld s oTrcUnseal 19 16 < 8 → h = g.verifier → ∃ t, exec (.unseal c) s = .next (reply c 0 (rget t oTrcUnseal).toNat 0 0 t) ∧
      rget t oTrcUnseal = setBit (rget s oTrcUnseal) c.p0 ∧ t.trc.opens = s.trc.opens ++ [c.p0] ∧ regsBut [oTrcUnseal] s t ∧
      { t with regs := s.regs, trc := s.trc } = s) ∧
    (rfld s oTrcUnseal 19 16 < 8 → h ≠ g.verifier → ∃ t, exec (.unseal c) s = .next (reply c 5 (rget t oTrcUnseal).toNat 0 0 t) ∧
      rfld t oTrcUnseal 19 16 = rfld s oTrcUnseal 19 16 + 1 ∧ regsBut [oTrcUnseal] s t ∧ restSame s t) ∧
    (8 ≤ rfld s oTrcUnseal 19 16 → exec (.unseal c) s = .next (reply c 5 0 0 0 s)) ∧
    ∀ d : Cmd, accepted 0x0D d s → d.p0 ∉ s.trc.seals.map (·.1) → exec (.unseal d) s = .next (reply d 2 0 0 0 s))

/-- A write of CKG_STEP.MHZ with another value: accepted in IDLE, READY and PAUSED while no ramp and no relock is in progress, for a
multiple of 25 from 400 to 1,600 within the loaded image's limit, and no restore of the rate; then the divider steps to 1/16, the step
domain switches to the crystal and the step PLL relocks; else it is ignored and sets CKG_STS.CFG_ERR. CLK_RESUME in CLK_HALT on a device
that runs alone, with the step PLL stable and no ramp under way, starts the ramp at 1/16; in another state it is DENIED, without lock BUSY.
STEP_CLOCK with an acceptable frequency changes the step clock as a write of CKG_STEP does, and is answered when the change is over. Where
it goes beyond the rules cited it rests on the model's choices of log entry 28. -/
def Obligations.StepClock : Prop :=
  ((∀ (mhz : Nat) (s : State), hostReaches s oCkgStep = true → mhz < 2048 → mhz ≠ rfld s oCkgStep 26 16 →
    rests s → s.clk.ramp = false → s.clk.relock = false → s.seq.restore = false →
    rfld s (oCkgPll 0) 31 30 = 0 ∨ rfld s (oCkgPll 0) 31 30 = 3 → rbit s oCkgSts 7 = true → 400 ≤ mhz → mhz ≤ 1600 →
    mhz % 25 = 0 → s.lkp.maxMhz = 0 ∨ mhz ≤ s.lkp.maxMhz →
    ∃ u, leadsTo (.ckgStepMhzWrite mhz .clean) s u ∧ rfld u oCkgStep 26 16 = mhz ∧ u.seq = { s.seq with ratio := 1 } ∧
      u.clk.stepXtal = true ∧ u.clk.relock = true ∧ rfld u (oCkgPll 0) 31 30 = 1 ∧ rbit u oCkgSts 8 = false ∧
      regsBut [oCkgStep, oCkgPll 0, oCkgSts] s u ∧ { u with regs := s.regs, seq := s.seq, clk := s.clk } = s) ∧
  (∀ (mhz : Nat) (e : SwitchEnd) (s : State), hostReaches s oCkgStep = true → mhz < 2048 → mhz ≠ rfld s oCkgStep 26 16 →
    (mhz < 400 ∨ 1600 < mhz ∨ mhz % 25 ≠ 0 ∨ (s.lkp.maxMhz ≠ 0 ∧ s.lkp.maxMhz < mhz) ∨ ¬rests s ∨ s.clk.ramp = true ∨
      s.clk.relock = true ∨ s.seq.restore = true ∨ rfld s (oCkgPll 0) 31 30 = 1 ∨ rfld s (oCkgPll 0) 31 30 = 2) →
    leadsTo (.ckgStepMhzWrite mhz e) s (rset oCkgSts (setBit (rget s oCkgSts) 6) s)) ∧
  (∀ s : State, hostReaches s oCkgStep = true → s.seq.emerg = false → leadsTo .ckgStepRestore s s) ∧
  (∀ s : State, hostReaches s oCkgStep = true → s.seq.emerg = true →
    let e : GEvent := ⟨6, s.dev.devid, .gsc (alignUp (s.seq.gsc.toNat + 256) 256)⟩
    leadsTo .ckgStepRestore s (sendExpress 6 (alignUp (s.seq.gsc.toNat + 256) 256 / 256)
      (addEvent e (rset oCkgStep (setBit (rget s oCkgStep) 9) s))))) ∧
  ((∀ (c : Cmd) (s : State), accepted 0x16 c s → bare c → grpFormed s = false → s.seq.st = .clkHalt →
    (rbit s oCkgSts 8 = true → s.clk.ramp = false → leadsTo (.clkResume c) s
      { s with lkp := { s.lkp with run := s.lkp.run ++ [c] }, clk := { s.clk with resume := true, ramp := true },
               seq := { s.seq with ratio := 1 } }) ∧
    (rbit s oCkgSts 8 = false ∨ s.clk.ramp = true → leadsTo (.clkResume c) s (reply c 3 0 0 0 s))) ∧
  (∀ (c : Cmd) (s : State), accepted 0x16 c s → bare c → s.seq.st ≠ .clkHalt → leadsTo (.clkResume c) s (reply c 5 0 0 0 s)) ∧
  (∀ (c : Cmd) (mhz : Nat) (s : State), accepted 0x17 c s → c.flags = 0 → c.p0 = mhz * 2 ^ 16 → c.p1 = 0 → c.p2 = 0 → noP3 c = true → mhz < 2048 →
    grpFormed s = false → 400 ≤ mhz → mhz ≤ 1600 → mhz % 25 = 0 → s.lkp.maxMhz = 0 ∨ mhz ≤ s.lkp.maxMhz →
    (rests s → s.clk.ramp = false → s.clk.relock = false → s.seq.restore = false →
      rfld s (oCkgPll 0) 31 30 = 0 ∨ rfld s (oCkgPll 0) 31 30 = 3 → rbit s oCkgSts 7 = true → ∃ u, leadsTo (.stepClock c .clean) s u ∧ rfld u oCkgStep 26 16 = mhz ∧
      u.seq = { s.seq with ratio := 1 } ∧ u.clk.stepXtal = true ∧ u.clk.relock = true ∧ rfld u (oCkgPll 0) 31 30 = 1 ∧
      rbit u oCkgSts 8 = false ∧ u.lkp.run = s.lkp.run ++ [c] ∧ regsBut [oCkgStep, oCkgPll 0, oCkgSts] s u ∧
      { u with regs := s.regs, seq := s.seq, clk := s.clk, lkp := s.lkp } = s) ∧
    (¬rests s → leadsTo (.stepClock c .clean) s (reply c 5 0 0 0 s)) ∧
    (rests s → s.clk.ramp = true ∨ s.clk.relock = true ∨ s.seq.restore = true ∨ rfld s (oCkgPll 0) 31 30 = 1 ∨ rfld s (oCkgPll 0) 31 30 = 2 →
      leadsTo (.stepClock c .clean) s (reply c 3 0 0 0 s))) ∧
  (∀ (c : Cmd) (e : SwitchEnd) (s : State), accepted 0x17 c s → c.flags = 0 → c.p0 = 1 → c.p1 = 0 → c.p2 = 0 → noP3 c = true → grpFormed s = false →
    (s.seq.emerg = false → leadsTo (.stepClock c e) s (reply c 0 (ckgStepView s).toNat 0 0 s)) ∧
    (s.seq.emerg = true →
      let e0 := alignUp (s.seq.gsc.toNat + 256) 256
      leadsTo (.stepClock c e) s (sendExpress 6 (e0 / 256) (addEvent ⟨6, s.dev.devid, .gsc e0⟩
        (rset oCkgStep (setBit (rget s oCkgStep) 9) { s with lkp := { s.lkp with run := s.lkp.run ++ [c] } }))))))

/-- A write of CKG_EN1 sets a basin's enable at once; it clears the enable of a fenced basin, at once where nothing is under way at its node
and else when that has drained, and for a basin that is not fenced leaves it at 1 and sets EN_REF; bits of basins that are not there stay. A
write of CKG_EN0 sets at once the enables it may set; it clears none of a unit that a run needs, and sets EN_REF. Where it goes beyond the
rules cited it rests on the model's choices of log entry 51. -/
def Obligations.ClockEnables : Prop :=
  (∀ (v : Word) (s : State), hostReaches s oCkgEn1 = true → s.bnw.draining = [] → (∀ b < nBasins s, nodeQuiet s b = true) →
    (∀ c ∈ s.lkp.run, c.op ≠ 0x09) →
    ∃ u, leadsTo (.ckgEnWrite true v) s u ∧
      (∀ b < 32, rbit u oCkgEn1 b =
        if b < nBasins s then (bit v b || (rbit s oCkgEn1 b && !rbit s oCfgFenced b)) else rbit s oCkgEn1 b) ∧
      (rbit u oCkgSts 5 = true ↔ rbit s oCkgSts 5 = true ∨
        ∃ b < nBasins s, rbit s oCkgEn1 b = true ∧ bit v b = false ∧ rbit s oCfgFenced b = false) ∧
      regsBut [oCkgEn1, oCkgSts] s u ∧ { u with regs := s.regs, bnw := { u.bnw with control := s.bnw.control } } = s) ∧
  (∀ (b : Nat) (s : State), hostReaches s oCkgEn1 = true → s.bnw.draining = [] → b < nBasins s → rbit s oCkgEn1 b = true →
    rbit s oCfgFenced b = true → nodeQuiet s b = false →
    leadsTo (.ckgEnWrite true (clrBit (rget s oCkgEn1) b)) s { s with bnw := { s.bnw with
      draining := [(b, .gate)], control := s.bnw.control ++ [(0, 32, b)] } }) ∧
  (∀ (v : Word) (s : State), hostReaches s oCkgEn0 = true → (∀ i < 32, enWritable s i = true → rbit s oCkgEn0 i = true → bit v i = true) →
    ∃ u, leadsTo (.ckgEnWrite false v) s u ∧ (∀ i < 32, rbit u oCkgEn0 i = (rbit s oCkgEn0 i || (enWritable s i && bit v i))) ∧
      regsBut [oCkgEn0, oHldStackSts 0, oHldStackSts 1, oHldStackSts 2, oHldStackSts 3] s u ∧ restSame s u) ∧
  (∀ (k : Nat) (s : State), hostReaches s oCkgEn0 = true → k ∈ [8, 9, 11, 12, 13, 14, 15] → seqRuns s = true → unitPresent s k = true →
    rbit s oCkgEn0 k = true →
    leadsTo (.ckgEnWrite false (clrBit (rget s oCkgEn0) k)) s (rset oCkgSts (setBit (rget s oCkgSts) 5) s))

/-- TIM_CTL: another SRC than 0b11, outside a formed group's configuration, becomes the source, clears the servo's lock, holdover and
integral term; SRC 0b11 is ignored and sets TIM_STS.CFG_ERR; STEP_EN and PPS_EN take the value in every case. TIM_TRIM takes the value
written, clamped to TMAX, while the clock is free-running; with any other source it is ignored and sets CFG_ERR. TIME_SET in IDLE and READY,
on a clock whose source is not its group, steps the clock to the time given: TIM_STS shows STEPPED and VALID and no LOCK, TIM_LASTSTEP the
size. While the group runs, and in PAUSED, it is BUSY; with the group as the source it is DENIED. Where it goes beyond the rules cited it
rests on the model's choices of log entry 25. -/
def Obligations.TimeControl : Prop :=
  ((∀ (v : Word) (s : State), hostReaches s oTimCtl = true → fld v 1 0 ≠ rfld s oTimCtl 1 0 → fld v 1 0 ≠ 3 → rbit s oLkgCfg 0 = false →
    ∃ u, leadsTo (.timCtlWrite v) s u ∧ rfld u oTimCtl 3 0 = fld v 3 0 ∧ rbit u oTimSts 0 = false ∧ rbit u oTimSts 1 = false ∧
      u.tim.integ = 0 ∧ u.tim.trim = s.tim.trim ∧ clockFrac u = clockFrac s ∧ regsBut [oTimCtl, oTimSts] s u ∧
      { u with regs := s.regs, tim := s.tim } = s) ∧
  (∀ (v : Word) (s : State), hostReaches s oTimCtl = true → rfld s oTimCtl 1 0 ≠ 3 → fld v 1 0 = 3 →
    ∃ u, leadsTo (.timCtlWrite v) s u ∧ rfld u oTimCtl 1 0 = rfld s oTimCtl 1 0 ∧ rfld u oTimCtl 3 2 = fld v 3 2 ∧ rbit u oTimSts 5 = true ∧
      regsBut [oTimCtl, oTimSts] s u ∧ restSame s u) ∧
  (∀ (v : Word) (s : State), hostReaches s oTimTrim = true → rfld s oTimCtl 1 0 = 0 →
    let max : Int := (min 50000 (rfld s oCkgTol 9 0 * 500) : Nat)
    exec (.timTrimWrite v) s = .next { s with tim := { s.tim with
      trim := (if v.toInt < -max then -max else if max < v.toInt then max else v.toInt) * 65536000 } }) ∧
  (∀ (v : Word) (s : State), hostReaches s oTimTrim = true → rfld s oTimCtl 1 0 ≠ 0 →
    exec (.timTrimWrite v) s = .next (rset oTimSts (setBit (rget s oTimSts) 5) s))) ∧
  (∀ (c : Cmd) (s : State), accepted 0x12 c s → c.flags = 0 → c.p0 < 2 ^ 48 → c.p1 < 1000000000 → c.p2 = 0 → noP3 c = true → unitOn s 6 = true →
    (rfld s oTimCtl 1 0 ≠ 1 → s.seq.st = .idle ∨ s.seq.st = .ready →
      ∃ t, leadsTo (.timeSet c) s (reply c 0 (timStsView t).toNat 0 0 t) ∧ t.tim.sec = c.p0 ∧ t.tim.ns = c.p1 ∧ t.tim.frac = 0 ∧
        rbit t oTimSts 0 = false ∧ rbit t oTimSts 2 = true ∧ rbit t oTimSts 3 = true ∧ t.tim.trim = s.tim.trim ∧
        regsBut [oTimSts, oTimLaststep] s t ∧ { t with regs := s.regs, tim := s.tim } = s) ∧
    (rfld s oTimCtl 1 0 ≠ 1 → seqRuns s = true ∨ s.seq.st = .paused → leadsTo (.timeSet c) s (reply c 3 0 0 0 s)) ∧
    (rfld s oTimCtl 1 0 = 1 → leadsTo (.timeSet c) s (reply c 5 0 0 0 s)))

/-- A write of a listed code to SAF_INJECT raises it with INJ 1, location none and the frame current at the write; any other value, and any
write in SAFE, is ignored. -/
def Obligations.FaultInjection : Prop :=
  (∀ (v : Word) (s : State), hostReaches s oSafInject = true → s.saf.safe = false → faultListed (fld v 15 0) = true →
    leadsTo (.safInjectWrite v) s (raiseAll [{ code := fld v 15 0, lk := 0, locv := 0, frame := frameNow s, inj := true }] s)) ∧
  (∀ (v : Word) (s : State), hostReaches s oSafInject = true → s.saf.safe = true ∨ faultListed (fld v 15 0) = false →
    leadsTo (.safInjectWrite v) s s) ∧
  (∀ (v : Word) (s : State), hostReaches s oSafInject = true → s.saf.safe = false → s.seq.st = .ready ∨ s.seq.st = .idle →
    fld v 15 0 ∈ [0x1003, 0x4003, 0x7001, 0x9003] → rget s oSafReact = 0#32 → s.saf.log = [] → s.saf.arm = true →
    ∃ u, leadsTo (.safInjectWrite v) s u ∧
      u.saf.log = [{ code := fld v 15 0, react := 0, frame := none, inj := true, rep := 0, lkind := 0, locv := 0, tsn := tsnOf s }] ∧
      u.saf.first = u.saf.log.head? ∧ rbit u oSafSts (fld v 15 0 / 4096) = true ∧ u.saf.safe = false ∧ u.seq = s.seq ∧
      regsBut [oSafSts, oSafInt] s u)

/-- A direct write of a standing register with PW fields other than the stored ones: at 100,000 writes it is refused (REFUSED, ENDUR); else
the count rises by 1, BUSY becomes 1 and the old value reads on until the array has been written; while another write is under way it is
discarded and sets DROP. A write of one without a PW field changes nothing then. The persistent write under way ends: the register holds the
value with good check bits, and both BUSY bits read 0. STD_WRITE: equal PW fields are answered OK and write nothing; while a write is under
way it is BUSY; at 100,000 writes ENDURANCE; else the write begins and the command stays in progress until the array has been written. -/
def Obligations.StandingRegisters : Prop :=
  ((∀ (i : Nat) (v : Word) (s : State), i < 256 → hostReaches s (oStd i) = true → stdPw i = 0#32 → s.std.busy = none →
    exec (.stdRegisterWrite i v) s = .next s) ∧
  (∀ (i : Nat) (v : Word) (s : State), i < 256 → hostReaches s (oStd i) = true → s.std.busy.isSome = true →
    exec (.stdRegisterWrite i v) s = .next (rset oStdSts (setBit (rget s oStdSts) 1) s)) ∧
  (∀ (i : Nat) (v : Word) (s : State), i < 256 → hostReaches s (oStd i) = true → stdPw i ≠ 0#32 → s.std.busy = none →
    mget .clean s.std.ecc i ≠ .double → v &&& stdPw i = stdStored s i &&& stdPw i → exec (.stdRegisterWrite i v) s = .next s) ∧
  (∀ (i : Nat) (v : Word) (s : State), i < 256 → hostReaches s (oStd i) = true → stdPw i ≠ 0#32 → s.std.busy = none →
    v &&& stdPw i ≠ stdStored s i &&& stdPw i → 100000 ≤ rfld s (oStdCmp i) 16 0 →
    ∃ t, exec (.stdRegisterWrite i v) s = .next t ∧ rbit t (oStdCmp i) 30 = true ∧ rbit t oStdSts 2 = true ∧
      rfld t (oStdCmp i) 16 0 = rfld s (oStdCmp i) 16 0 ∧ regsBut [oStdCmp i, oStdSts] s t ∧ restSame s t) ∧
  (∀ (i : Nat) (v : Word) (s : State), i < 256 → hostReaches s (oStd i) = true → stdPw i ≠ 0#32 → s.std.busy = none →
    v &&& stdPw i ≠ stdStored s i &&& stdPw i → rfld s (oStdCmp i) 16 0 < 100000 →
    ∃ t, exec (.stdRegisterWrite i v) s = .next t ∧ rfld t (oStdCmp i) 16 0 = rfld s (oStdCmp i) 16 0 + 1 ∧
      rbit t (oStdCmp i) 31 = true ∧ rbit t oStdSts 0 = true ∧
      t.std.busy = some (i, (v &&& stdPw i) ||| (stdStored s i &&& ~~~(stdPw i))) ∧ rget t (oStd i) = rget s (oStd i) ∧
      regsBut [oStdCmp i, oStdSts] s t ∧ { t with regs := s.regs, std := { t.std with busy := s.std.busy } } = s)) ∧
  (∀ (i : Nat) (w : Word) (s : State), i < 256 → s.std.busy = some (i, w) → (∀ c ∈ s.lkp.run, c.op ≠ 0x19) →
    ∃ t, exec .stdWriteComplete s = .next t ∧ rget t (oStd i) = w ∧ mget .clean t.std.ecc i = .clean ∧ t.std.busy = none ∧
      rbit t (oStdCmp i) 31 = false ∧ rbit t oStdSts 0 = false ∧ regsBut [oStd i, oStdCmp i, oStdSts] s t ∧
      { t with regs := s.regs, std := { t.std with busy := s.std.busy, ecc := s.std.ecc } } = s) ∧
  (∀ (c : Cmd) (s : State), accepted 0x19 c s → c.flags = 0 → c.p0 < 256 → c.p1 < 2 ^ 32 → c.p2 = 0 → noP3 c = true → stdPw c.p0 ≠ 0#32 →
    let v := BitVec.ofNat 32 c.p1
    let same : Prop := v &&& stdPw c.p0 = stdStored s c.p0 &&& stdPw c.p0
    (s.std.busy.isSome = true → exec (.stdWrite c) s = .next (reply c 3 (rget s (oStdCmp c.p0)).toNat 0 0 s)) ∧
    (s.std.busy = none → mget .clean s.std.ecc c.p0 ≠ .double → same →
      exec (.stdWrite c) s = .next (reply c 0 (rget s (oStdCmp c.p0)).toNat 0 0 s)) ∧
    (s.std.busy = none → ¬same → 100000 ≤ rfld s (oStdCmp c.p0) 16 0 →
      ∃ t, exec (.stdWrite c) s = .next (reply c 11 (rget t (oStdCmp c.p0)).toNat 0 0 t) ∧ rbit t (oStdCmp c.p0) 30 = true ∧
        rbit t oStdSts 2 = true ∧ regsBut [oStdCmp c.p0, oStdSts] s t ∧ restSame s t) ∧
    (s.std.busy = none → ¬same → rfld s (oStdCmp c.p0) 16 0 < 100000 →
      ∃ t, exec (.stdWrite c) s = .next t ∧ t.lkp.run = s.lkp.run ++ [c] ∧ rbit t (oStdCmp c.p0) 31 = true ∧ rbit t oStdSts 0 = true ∧
        rfld t (oStdCmp c.p0) 16 0 = rfld s (oStdCmp c.p0) 16 0 + 1 ∧
        t.std.busy = some (c.p0, (v &&& stdPw c.p0) ||| (stdStored s c.p0 &&& ~~~(stdPw c.p0))) ∧ rget t (oStd c.p0) = rget s (oStd c.p0) ∧
        regsBut [oStdCmp c.p0, oStdSts] s t))

/-- The reply of a command: into the reply ring of its port (32 bytes at the producer index, which advances by 1), or into the mailbox
(LKP_MBOX_RPL, GO cleared, DONE set); it carries PHASE, the opcode, the status, the TAG and the three results, little-endian; the command is
in progress no longer. LKP_MBOX_CTL.GO reads 1 after it is written 1. -/
def Obligations.Replies : Prop :=
  ((∀ (c : Cmd) (st r0 r1 r2 : Nat) (s : State), c.port < 16 → rbit s (oLkpRrLo c.port) 8 = true →
    let a := (rget s (oLkpRrHi c.port)).toNat * 2 ^ 32 + rfld s (oLkpRrLo c.port) 31 12 * 4096 +
      32 * ((rget s (oLkpRrPi c.port)).toNat % 2 ^ rfld s (oLkpRrLo c.port) 4 0)
    let phase := 1 - (rget s (oLkpRrPi c.port)).toNat / 2 ^ rfld s (oLkpRrLo c.port) 4 0 % 2
    let t := reply c st r0 r1 r2 s
    rget t (oLkpRrPi c.port) = rget s (oLkpRrPi c.port) + 1 ∧ t.lkp.run = s.lkp.run.erase c ∧ regsBut [oLkpRrPi c.port] s t ∧
      (List.range 32).map (fun i => mget 0#8 t.host.mem (a + i)) =
        leBytes 4 (phase * 2 ^ 31 + c.op % 256 * 2 ^ 16 + st) ++ leBytes 4 c.tag ++ leBytes 8 r0 ++ leBytes 8 r1 ++ leBytes 8 r2 ∧
      ∀ x, x < a ∨ a + 32 ≤ x → mget 0#8 t.host.mem x = mget 0#8 s.host.mem x) ∧
  (∀ (c : Cmd) (st r0 r1 r2 : Nat) (s : State), c.port = 16 →
    let t := reply c st r0 r1 r2 s
    let bs := leBytes 4 (c.op % 256 * 2 ^ 16 + st) ++ leBytes 4 c.tag ++ leBytes 8 r0 ++ leBytes 8 r1 ++ leBytes 8 r2
    (∀ w < 8, rget t (oLkpMboxRpl w) = BitVec.ofNat 32 (leNat ((bs.drop (4 * w)).take 4))) ∧ rbit t oLkpMboxCtl 0 = false ∧
      rbit t oLkpMboxCtl 1 = true ∧ t.lkp.run = s.lkp.run.erase c ∧ t.host.mem = s.host.mem)) ∧
  (∀ s : State, hostReaches s oLkpMboxCtl = true →
    exec .lkpMboxGo s = .next (rset oLkpMboxCtl (setBit (rget s oLkpMboxCtl) 0) s))

/-- A command that cannot be taken changes nothing; one with a nonzero reserved byte is answered BAD_PARAM before anything else is looked
at; in SAFE, HALT, ISOLATE, SELFTEST and CLK_RESUME of correct form are answered FAULTED, and in CLK_HALT a HALT is; while an IMG_LOAD is in
progress another one and an UNFENCE are answered BUSY, whatever else their state would give (R0 of a refused IMG_LOAD names no section). The
lockkeeper takes the next port's command and carries it out as the row of its opcode does; an opcode that is not in the table is answered
BAD_OPCODE. The port served is the first after the one served last, in the order of the 16 rings and the mailbox, that is ready: a ring with
both EN bits set, a command posted, room in its reply ring and no command in progress; the mailbox with GO set and none in progress. Where
it goes beyond the rules cited it rests on the model's choices of log entry 28. -/
def Obligations.CommandsTaken : Prop :=
  ((∀ (i : Instr) (op : Nat) (c : Cmd) (s : State), cmdOf i = some (op, c) → takes s c.port = false → doneAs i s s) ∧
  (∀ (i : Instr) (op : Nat) (c : Cmd) (s : State), cmdOf i = some (op, c) → takes s c.port = true → c.rsv ≠ 0 →
    doneAs i s (reply c 2 (if c.op = 0x01 ∨ c.op = 0x02 then 0xFFFF0000 else 0) 0 0 s)) ∧
  (∀ (i : Instr) (op : Nat) (c : Cmd) (s : State), cmdOf i = some (op, c) → op ∈ [0x04, 0x0E, 0x14, 0x16] → c.op = op → c.rsv = 0 →
    bare c → takes s c.port = true → (op = 0x14 → unitOn s 9 = true) → (op = 0x04 → unitOn s 8 = true) → s.seq.st = .safe → doneAs i s (reply c 10 0 0 0 s)) ∧
  (∀ (c : Cmd) (s : State), c.op = 0x04 → c.rsv = 0 → bare c → takes s c.port = true → unitOn s 8 = true → s.seq.st = .clkHalt →
    leadsTo (.halt c) s (reply c 10 0 0 0 s)) ∧
  (∀ (c : Cmd) (s : State), c.rsv = 0 → takes s c.port = true → s.seq.st ≠ .safe → s.seq.st ≠ .clkHalt → loading s = true →
    (c.op = 0x01 → imgForm c = true → leadsTo (.imgLoad c) s (reply c 3 0xFFFF0000 0 0 s)) ∧
    (c.op = 0x0A → c.flags = 0 → c.p0 < 2 ^ nBasins s → c.p1 = 0 → c.p2 = 0 → noP3 c = true → unitOn s 14 = true →
      (∀ b < nBasins s, nbit c.p0 b = true → rbit s oCkgEn1 b = true) → exec (.unfence c) s = .next (reply c 3 0 0 0 s)))) ∧
  (∀ (failing : Nat) (e : SwitchEnd) (s : State) (i : Nat), rbit s oLkpSts 31 = true → endpointDown s = false → nextPort s = some i →
    let c := portCmd s i
    let s1 := { s with lkp := { s.lkp with turn := i } }
    let s2 := if i < 16 then rset (oLkpCrCi i) (rget s (oLkpCrCi i) + 1) s1 else s1
    (∀ x, cmdRow failing e c = some x → ∃ v, exec x s2 = .next v ∧ leadsTo (.commandTaken failing e) s v) ∧
      (cmdRow failing e c = none → leadsTo (.commandTaken failing e) s (reply c 1 0 0 0 s2))) ∧
  ((∀ (s : State) (i : Nat), nextPort s = some i → i < 17 ∧ portReady s i = true ∧
    ∀ d < 17, d < (i + 16 - s.lkp.turn % 17) % 17 → portReady s ((s.lkp.turn + 1 + d) % 17) = false) ∧
  (∀ (s : State) (i : Nat), i < 16 → (portReady s i = true ↔
    rbit s (oLkpCrLo i) 8 = true ∧ rbit s (oLkpRrLo i) 8 = true ∧ rget s (oLkpCrPi i) ≠ rget s (oLkpCrCi i) ∧
      (rget s (oLkpRrPi i) - rget s (oLkpRrCi i)).toNat < 2 ^ rfld s (oLkpRrLo i) 4 0 ∧ ∀ c ∈ s.lkp.run, c.port ≠ i)) ∧
  (∀ s : State, portReady s 16 = true ↔ rbit s oLkpMboxCtl 0 = true ∧ ∀ c ∈ s.lkp.run, c.port ≠ 16))

/-- IMG_LOAD in IDLE, READY or PAUSED: the sequencer enters IDLE, CFG_STS.LOADING reads 1, and the check phase is in progress; in FLIGHT,
LOCK and STALL it returns BUSY. IMG_VERIFY of correct form is in progress and changes nothing else. -/
def Obligations.LoadTaken : Prop :=
  (∀ (c : Cmd) (s : State), accepted 0x01 c s → c.flags = 0 → noP3 c = true → c.p2 % 4096 = 0 → rests s → s.lkp.march = none →
    ∃ u, leadsTo (.imgLoad c) s u ∧ u.seq.st = .idle ∧ u.seq.halt = none ∧ u.seq.F = s.seq.F ∧ u.seq.gsc = s.seq.gsc ∧
      rget u oCfgSts = setBit (rget s oCfgSts) 2 ∧ u.lkp = { s.lkp with run := s.lkp.run ++ [c], load := some ⟨c, false, []⟩ } ∧
      regsBut [oCfgSts] s u ∧ { u with regs := s.regs, seq := s.seq, lkp := s.lkp } = s) ∧
  (∀ (c : Cmd) (s : State), accepted 0x01 c s → c.flags = 0 → noP3 c = true → c.p2 % 4096 = 0 → seqActive s = true →
    leadsTo (.imgLoad c) s (reply c 3 0xFFFF0000 0 0 s)) ∧
  (∀ (c : Cmd) (s : State), accepted 0x02 c s → c.flags = 0 → noP3 c = true → c.p2 % 4096 = 0 → seqActive s = false → s.lkp.march = none →
    exec (.imgVerify c) s = .next { s with lkp := { s.lkp with run := s.lkp.run ++ [c] } })

/-- The check phase of an IMG_LOAD ends in the write phase, or, where a check fails, with nothing loaded and the check's code, status and
section in the record and the reply, the run of the image before being over; the check phase of an IMG_VERIFY ends in its reply, which names
the placement, and writes nothing. A load in its write phase ends with FAULTED when the step clock has not been judged stable in time, and a
host-memory read error in the check phase ends it with TIMEOUT at the section being read: nothing is loaded then. An IMG_VERIFY that meets
one is answered TIMEOUT. The release of an image whose write phase is complete: READY, the placed basins loaded and unfenced, every other
fenced, the global set-reset and LOADING at 0; it waits while the step PLL is not judged stable or a sluice request is under way; a section
whose CRC fails now ends the load, with nothing loaded. Where it goes beyond the rules cited it rests on the model's choices of log entry
21. -/
def Obligations.LoadEnds : Prop :=
  ((∀ (l : LoadSt) (s : State), s.lkp.load = some l → l.write = false → s.seq.st ≠ .safe → imageCheck s (cmdImg s l.cmd) l.cmd.p2 = none →
    ∃ u, leadsTo (.checkPhaseEnd false) s u ∧
      u.lkp.load = some { l with write := true, place := (placement s (cmdImg s l.cmd)).getD [] } ∧ u.lkp.digest = []) ∧
  (∀ (l : LoadSt) (s : State) (code st sec : Nat), s.lkp.load = some l → l.write = false → s.seq.st ≠ .safe →
    imageCheck s (cmdImg s l.cmd) l.cmd.p2 = some (code, st, sec) →
    ∃ v, loadGone 0 code sec (runEnd s) v ∧ leadsTo (.checkPhaseEnd false) s (reply l.cmd st (code + sec * 2 ^ 16) 0 0 v)) ∧
  (∀ (c : Cmd) (s : State), s.lkp.run.find? (·.op = 0x02) = some c → imageCheck s (cmdImg s c) c.p2 = none →
    leadsTo (.checkPhaseEnd true) s
      (reply c 0 (0xFFFF * 2 ^ 16) (placeMask ((placement s (cmdImg s c)).getD [])).toNat 0 s)) ∧
  (∀ (c : Cmd) (s : State) (code st sec : Nat), s.lkp.run.find? (·.op = 0x02) = some c →
    imageCheck s (cmdImg s c) c.p2 = some (code, st, sec) →
    leadsTo (.checkPhaseEnd true) s (reply c st (code + sec * 2 ^ 16) 0 0 s))) ∧
  ((∀ (l : LoadSt) (s : State), s.lkp.load = some l → l.write = true → rbit s oCkgSts 8 = false →
    ∃ v, loadGone 1 0 0xFFFF s v ∧ leadsTo .loadRelockTimeout s (reply l.cmd 10 (0xFFFF * 2 ^ 16) 0 0 v)) ∧
  (∀ (l : LoadSt) (sec : Nat) (s : State), s.lkp.load = some l → l.write = false →
    ∃ v, loadGone 0 0 sec (runEnd s) v ∧ leadsTo (.hostReadError (.load sec)) s (reply l.cmd 8 (sec * 2 ^ 16) 0 0 v)) ∧
  (∀ (c : Cmd) (sec : Nat) (s : State), s.lkp.run.find? (·.op = 0x02) = some c →
    leadsTo (.hostReadError (.verify sec)) s (reply c 8 (sec * 2 ^ 16) 0 0 s)) ∧
  (∀ (i : Nat) (s : State), i < 16 → rbit s (oLkpCrLo i) 8 = true → rbit s (oLkpRrLo i) 8 = true →
    ∃ u, leadsTo (.hostReadError (.ring i)) s u ∧ rbit u (oLkpCrLo i) 8 = false ∧ rbit u (oLkpRrLo i) 8 = false ∧
      rbit u oLkpSts i = true ∧ (∀ c ∈ u.lkp.run, c.port ≠ i) ∧ regsBut [oLkpCrLo i, oLkpRrLo i, oLkpSts] s u)) ∧
  ((∀ (l : LoadSt) (s v : State), s.lkp.load = some l → l.write = true → s.seq.st ≠ .safe → rbit s oCkgSts 8 = true → s.req = [] →
    writeImage l none s = (v, none) →
    ∃ u, leadsTo .imageRelease s (reply l.cmd 0 (0xFFFF * 2 ^ 16) (placeMask l.place).toNat 0 u) ∧
      u.seq = { v.seq with st := .ready, diverged := false } ∧ rget u oCfgPlaced = placeMask l.place ∧
      rget u oCfgLoaded = placeMask l.place ∧ rget u oCfgFenced = ~~~(placeMask l.place) ∧ rbit u oCfgSts 1 = false ∧
      rbit u oCfgSts 2 = false ∧ rbit u oCfgLoad 31 = false ∧ u.lkp.load = none ∧
      u.grp = { v.grp with lost := if v.grp.lost = 2 then 0 else v.grp.lost } ∧
      regsBut [oCfgPlaced, oCfgLoaded, oCfgFenced, oCfgSts, oCfgLoad] v u ∧
      { u with regs := v.regs, seq := v.seq, lkp := v.lkp, grp := v.grp } = v) ∧
  (∀ (l : LoadSt) (s v : State) (sec : Nat) (crc : Bool), s.lkp.load = some l → l.write = true → s.seq.st ≠ .safe → rbit s oCkgSts 8 = true →
    s.req = [] → writeImage l none s = (v, some (sec, crc)) →
    ∃ w, loadGone 1 2 sec v w ∧ leadsTo .imageRelease s (reply l.cmd 2 (2 + sec * 2 ^ 16) 0 0 w)) ∧
  (∀ (l : LoadSt) (s : State), s.lkp.load = some l → l.write = true → s.seq.st ≠ .safe → rbit s oCkgSts 8 = false ∨ s.req ≠ [] →
    leadsTo .imageRelease s s))

/-- RUN and STEP_FRAMES, taken on a device that runs alone in READY or PAUSED, are pending until their instant: the one asked for, or the
first whole microsecond at least 100 µs ahead; nothing else changes. RUN is refused in the order of R391: an instant less than 100 µs ahead
BAD_PARAM, IDLE DENIED, a placed basin that is fenced DENIED, FLIGHT, LOCK and STALL BUSY. -/
def Obligations.RunAccepted : Prop :=
  (∀ (s : State) (c : Cmd) (sec ns : Nat), runnable s →
    ((sec = 0 ∧ ns = 0) ∨ (sec < 2 ^ 48 ∧ ns < 1000000000 ∧ nowNs s + 100000 ≤ sec * 1000000000 + ns)) →
    ∃ at_, (sec = 0 ∧ ns = 0 → at_ % 1000 = 0 ∧ nowNs s + 100000 ≤ at_ ∧ at_ < nowNs s + 101000) ∧
      (¬(sec = 0 ∧ ns = 0) → at_ = sec * 1000000000 + ns) ∧
      (accepted 0x03 c s → c.flags < 2 → c.p0 = sec → c.p1 = ns → c.p2 = 0 → noP3 c = true →
        exec (.run c) s = .next { s with
          lkp := { s.lkp with run := s.lkp.run ++ [c] }
          seq := { s.seq with runPend := some ⟨decide (c.flags = 1), 0, at_ / 1000000000, at_ % 1000000000⟩ } }) ∧
      (accepted 0x05 c s → c.flags = 0 → 1 ≤ c.p0 → c.p0 < 2 ^ 32 → c.p1 = sec → c.p2 = ns → noP3 c = true →
        exec (.stepFrames c) s = .next { s with
          lkp := { s.lkp with run := s.lkp.run ++ [c] }
          seq := { s.seq with runPend := some ⟨true, c.p0, at_ / 1000000000, at_ % 1000000000⟩ } })) ∧
  (∀ (s : State) (c : Cmd), accepted 0x03 c s → c.flags < 2 → c.p2 = 0 → noP3 c = true → grpFormed s = false →
    (c.p0 ≠ 0 ∨ c.p1 ≠ 0 → c.p0 * 1000000000 + c.p1 < nowNs s + 100000 ∨ 1000000000 ≤ c.p1 → exec (.run c) s = .next (reply c 2 0 0 0 s)) ∧
      (c.p0 = 0 → c.p1 = 0 → unitOn s 8 = true → unitOn s 14 = true →
        (s.seq.st = .idle ∨ (∃ b < nBasins s, rbit s oCfgPlaced b = true ∧ rbit s oCfgFenced b = true) →
          exec (.run c) s = .next (reply c 5 0 0 0 s)) ∧
        (runnable { s with seq := { s.seq with st := .ready, runPend := none } } → seqRuns s = true →
          exec (.run c) s = .next (reply c 3 0 0 0 s))))

/-- At the start instant a device that runs alone and may run starts: a RUN from READY at F = 0 and GSC = 0 with the counters of the SEQ
block cleared, every path empty and the design state as it was; so does a RUN without CONTINUE from PAUSED; with CONTINUE from PAUSED at the
frame and the step where it stood. Before the instant nothing happens; where the device may no longer run, the start is cancelled. That
nothing happens in any other state is the model's choice, log entry 8. Where it goes beyond the rules cited it rests on the model's choices
of log entry 18. -/
def Obligations.RunStarts : Prop :=
  (∀ (s : State) (r : RunPend), Canonical s = true → s.seq.runPend = some r →
    runnable { s with seq := { s.seq with runPend := none } } → s.seq.st = .ready ∨ (s.seq.st = .paused ∧ r.cont = false) →
    r.sec * 1000000000 + r.ns ≤ nowNs s → ∃ u,
      leadsTo .runStartInstant s u ∧ u.seq.st = .flight ∧ u.seq.F = 0 ∧ u.seq.gsc = 0 ∧ u.seq.pos = 0 ∧ u.seq.fltPos = 0 ∧ u.seq.fltNum = 0 ∧
        u.seq.runPend = none ∧ u.seq.stepf = decide (r.steps ≠ 0) ∧ u.seq.left = BitVec.ofNat 32 r.steps ∧ rget u oSeqOvrMax = 0#32 ∧
        rget u oSeqStallCnt = 0#32 ∧ rget u oSeqStallCyc = 0#32 ∧
        ∀ cl, (getCl u cl).ds = (getCl s cl).ds ∧ (getCl u cl).instr = (getCl s cl).instr ∧ (getCl u cl).staged = [] ∧
          (getCl u cl).memOps = []) ∧
  (∀ (s : State) (r : RunPend), s.seq.runPend = some r → runnable { s with seq := { s.seq with runPend := none } } → s.seq.st = .paused →
    r.cont = true → r.sec * 1000000000 + r.ns ≤ nowNs s → s.seq.ret ≠ .flight ∨ s.seq.pos ≠ 0 ∨ s.seq.fltPos ≠ 0 →
    ∃ u, leadsTo .runStartInstant s u ∧ u.seq = { s.seq with
      st := s.seq.ret, ret := .flight, stepf := decide (r.steps ≠ 0), left := BitVec.ofNat 32 r.steps, runPend := none } ∧
      u.fab = s.fab ∧ u.bas = s.bas ∧ u.slu = s.slu ∧ u.dmc = s.dmc ∧ u.hold = s.hold ∧ u.xch = s.xch ∧ u.gau = s.gau) ∧
  (∀ (s : State) (r : RunPend), s.seq.runPend = some r → runnable { s with seq := { s.seq with runPend := none } } → s.seq.st = .paused →
    r.cont = true → r.sec * 1000000000 + r.ns ≤ nowNs s → s.seq.ret = .flight → s.seq.pos = 0 → s.seq.fltPos = 0 →
    ∃ u, leadsTo .runStartInstant s u ∧ u.seq = { s.seq with
      st := .flight, stepf := decide (r.steps ≠ 0), left := BitVec.ofNat 32 r.steps, runPend := none, mode := rbit s oLkgMode 0, frameStall := 0 } ∧
      u.fab = s.fab ∧ u.bas = s.bas ∧ u.slu = s.slu ∧ u.dmc = s.dmc ∧ u.hold = s.hold ∧ u.xch = s.xch ∧ u.gau = s.gau) ∧
  (∀ (s : State) (r : RunPend), s.seq.runPend = some r → nowNs s < r.sec * 1000000000 + r.ns → leadsTo .runStartInstant s s) ∧
  (∀ (s : State) (r : RunPend), s.seq.runPend = some r → r.sec * 1000000000 + r.ns ≤ nowNs s → s.seq.st = .safe ∨ s.seq.st = .clkHalt →
    grpFormed s = false → unitOn s 8 = true → unitOn s 14 = true →
    ∃ u, leadsTo .runStartInstant s u ∧ u.seq = { s.seq with runPend := none } ∧ restSame { s with seq := u.seq, lkp := u.lkp, host := u.host } u)

/-- HALT: in FLIGHT, LOCK and STALL without a halt placed, one is placed at the first multiple of 256 at least 256 steps ahead and voted,
and the command waits; with one placed, or while PAUSED is held back for markers, it waits too; in IDLE, READY and PAUSED it does nothing
and returns OK with F and GSC; a start still pending is cancelled first. Where it goes beyond the rules cited it rests on the model's
choices of log entry 28. -/
def Obligations.HaltCommand : Prop :=
  (∀ (c : Cmd) (s : State), accepted 0x04 c s → bare c → s.seq.runPend = none → unitOn s 8 = true → seqRuns s = true → s.seq.halt = none →
    let e0 := alignUp (s.seq.gsc.toNat + 256) 256
    leadsTo (.halt c) s (sendExpress 7 (e0 / 256)
      { s with lkp := { s.lkp with run := s.lkp.run ++ [c] }, seq := { s.seq with halt := some e0, haltSrc := s.dev.devid } })) ∧
  (∀ (c : Cmd) (s : State), accepted 0x04 c s → bare c → s.seq.runPend = none → unitOn s 8 = true →
    (seqRuns s = true ∧ s.seq.halt ≠ none) ∨ pauseHeld s = true → leadsTo (.halt c) s { s with lkp := { s.lkp with run := s.lkp.run ++ [c] } }) ∧
  (∀ (c : Cmd) (s : State), accepted 0x04 c s → bare c → s.seq.runPend = none → unitOn s 8 = true → rests s →
    leadsTo (.halt c) s (reply c 0 s.seq.F.toNat s.seq.gsc.toNat 0 s)) ∧
  (∀ (c p : Cmd) (r : RunPend) (s : State), accepted 0x04 c s → bare c → s.seq.runPend = some r → grpFormed s = false → rests s →
    unitOn s 8 = true → s.lkp.run.find? (fun x => x.op = 0x03 || x.op = 0x05) = some p →
    leadsTo (.halt c) s
      (reply c 0 s.seq.F.toNat s.seq.gsc.toNat 0 (reply p 5 0 0 0 { s with seq := { s.seq with runPend := none } })))

/-- STATE_READ of a data store, of instruction words, of routing words or of a WAIT map: the buffer takes the items in order, R0 is their
number; nothing else changes but the reply. One of design memory whose bank is free reads its words there, one after the other; where the
bank's clock stands still, its patrol read is due or an operation of it is under way, the request for the first word waits and the command
is in progress. STATE_WRITE of a data store, where its conditions hold (in CLK_HALT too, DEDUCED, log entry 39): every entry of the range
takes the buffer's value at once, every other entry of every cluster keeps its own. Of instruction words, routing words or a WAIT map, of a
fenced basin while the sequencer stands in READY or PAUSED: each item reads as the buffer has it, each item outside the range as it did, and
no other object changes. Where it goes beyond the rules cited it rests on the model's choices of log entries 29 and 39. -/
def Obligations.StateAccess : Prop :=
  ((∀ (c : Cmd) (s : State), accepted 0x06 c s → (accessJob c).space < 4 → accessForm s false c = true →
    accessUnit s (accessJob c) = true → stubAnswers s (accessNode (accessJob c)) 1 = false →
    rests s ∨ s.seq.st = .clkHalt ∨ s.seq.st = .safe ∨ rbit s oCfgFenced (accessBasin (accessJob c)) = true →
    let j := accessJob c
    let k := getCl s (j.obj / 64)
    let ph := physOf s (j.obj / 64) (j.obj % 64)
    let vs := (List.range j.count).map fun i =>
      match j.space with
      | 0 => v4code (dsGet k ph (j.first + i))
      | 1 => (mget 0#64 k.instr (1024 * ph + (j.first + i))).toNat
      | 2 => (mget 0#256 (getCl s j.obj).rw (routeNo s (j.first + i))).toNat
      | _ => (mget 0#16 (getSlu s j.obj).waitMap (j.first + i)).toNat
    ∃ r1, leadsTo (.stateRead c) s (reply c 0 j.count r1 0 (hostPut c.p2 (bufBytes j vs) s)) ∧
      (j.space = 3 → r1 = 0)) ∧
  (∀ (c : Cmd) (s : State), accepted 0x06 c s → (accessJob c).space = 4 → accessForm s false c = true → accessUnit s (accessJob c) = true →
    stubAnswers s 47 1 = false → (∀ x ∈ s.dmc.replies, x.master ≠ 1) → s.lkp.access = [] → s.bnw.queue = [] →
    seqRuns s = false ∨ (accessJob c).count = 1 →
    let j := accessJob c
    bankFree s j.obj = true → (∀ i < j.count, dmEcc s j.obj (j.first + i) = .clean) →
    ∃ u, leadsTo (.stateRead c) s (reply c 0 j.count 0 0
        (hostPut c.p2 ((List.range j.count).flatMap fun i => leBytes 8 (dmWord s j.obj (j.first + i)).toNat) (started c u))) ∧
      { u with dmc := { u.dmc with cycle := s.dmc.cycle, used := s.dmc.used } } = s) ∧
  (∀ (c : Cmd) (s : State), accepted 0x06 c s → (accessJob c).space = 4 → accessForm s false c = true → accessUnit s (accessJob c) = true →
    stubAnswers s 47 1 = false → (∀ x ∈ s.dmc.replies, x.master ≠ 1) → schedAt s (accessJob c).obj = none → s.lkp.access = [] →
    memClockOn s = false ∨ bankBusy s (accessJob c).obj = true ∨ patrolBehind s (accessJob c).obj = true →
    let j := accessJob c
    ∃ u, leadsTo (.stateRead c) s u ∧ u.lkp.run = s.lkp.run ++ [c] ∧
      u.lkp.access = [⟨c, false, j.obj, j.first, j.count, j.buf, 0, [], true⟩] ∧
      u.dmc.waiting = s.dmc.waiting ++ [⟨1, 4096 * (c.port + 1) + c.tag % 4096, 0, none, .read, j.obj, j.first, 0#64,
        BitVec.allOnes 64, false, false, .direct, s.dmc.cycle⟩] ∧ u.regs = s.regs ∧ memSame s u)) ∧
  ((∀ (c : Cmd) (s : State), accepted 0x07 c s → (accessJob c).space = 0 → accessForm s true c = true → accessUnit s (accessJob c) = true →
    stubAnswers s (accessNode (accessJob c)) 1 = false →
    (rests s ∧ s.seq.st ≠ .idle) ∨ s.seq.st = .clkHalt ∨ rbit s oCfgFenced (accessBasin (accessJob c)) = true →
    grpFormed s = false → s.seq.diverged = false →
    let j := accessJob c
    let cl := j.obj / 64
    let ph := physOf s cl (j.obj % 64)
    ∃ v, leadsTo (.stateWrite c) s (reply c 0 j.count 0 0 v) ∧
      (∀ p e, e < 2048 → dsGet (getCl v cl) p e =
        if p = ph ∧ j.first ≤ e ∧ e < j.first + j.count then v4of (bufItem s j (e - j.first)) else dsGet (getCl s cl) p e) ∧
      (∀ x, x ≠ cl → getCl v x = getCl s x) ∧ { v with fab := s.fab } = s) ∧
  (∀ (c : Cmd) (s : State), accepted 0x07 c s → (accessJob c).space ∈ [1, 2, 3] → accessForm s true c = true → accessUnit s (accessJob c) = true →
    stubAnswers s (accessNode (accessJob c)) 1 = false → rfld s oSeqCfg 10 0 ≤ 1024 →
    rests s → s.seq.st ≠ .idle → rbit s oCfgFenced (accessBasin (accessJob c)) = true → grpFormed s = false → s.seq.diverged = false →
    let j := accessJob c
    ∃ v, leadsTo (.stateWrite c) s (reply c 0 j.count 0 0 v) ∧ (∀ i < j.count, readItem j i v = (bufItem s j i, 0)) ∧
      (∀ i, i < j.first ∨ j.first + j.count ≤ i → readItem { j with first := 0 } i v = readItem { j with first := 0 } i s) ∧
      (∀ x, x ≠ (if j.space = 1 then j.obj / 64 else j.obj) ∨ j.space = 3 → getCl v x = getCl s x) ∧
      (∀ q, q ≠ j.obj ∨ j.space ≠ 3 → getSlu v q = getSlu s q) ∧ { v with fab := s.fab, slu := s.slu } = s) ∧
  (∀ (c : Cmd) (s : State), accepted 0x07 c s → (accessJob c).space = 0 → accessForm s true c = true → accessUnit s (accessJob c) = true →
    seqActive s = true → rbit s oCfgFenced (accessBasin (accessJob c)) = false → leadsTo (.stateWrite c) s (reply c 5 0 0 0 s)))

/-- FENCE of one basin that is present and not fenced: a fence control goes to its node, which, where nothing is under way there, is fenced
and acknowledges the drain, and the reply comes at once (DEDUCED, log entry 51); else the node drains, and the end of the drain fences it
and brings the reply. A forced fence abandons what the node has accepted, whose requesters end in TIMEOUT, sends them a credit restore, and
is answered TIMEOUT. UNFENCE of basins that are placed and loaded, in READY or PAUSED, clears their bits of CFG_FENCED; where one is not, or
in another state, it is DENIED and no basin changes. Where it goes beyond the rules cited it rests on the model's choices of log entries 26
and 51. -/
def Obligations.Fencing : Prop :=
  ((∀ (c : Cmd) (b : Nat) (s : State), accepted 0x09 c s → c.flags = 0 → c.p0 = 2 ^ b → c.p1 = 0 → c.p2 = 0 → noP3 c = true → b < nBasins s →
    unitOn s 14 = true → rbit s oCkgEn1 b = true → rbit s oCfgFenced b = false → rests s → s.bnw.draining = [] → nodeQuiet s b = true →
    exec (.fence c) s = .next (reply c 0 (setBit (rget s oCfgFenced) b).toNat 0 0
      (rset oCfgFenced (setBit (rget s oCfgFenced) b)
        { s with lkp := { s.lkp with run := s.lkp.run ++ [c] },
                 bnw := { s.bnw with forced := false, control := s.bnw.control ++ [(0, 32, b), (1, b, 32)] } }))) ∧
  (∀ (c : Cmd) (b : Nat) (s : State), accepted 0x09 c s → c.flags = 0 → c.p0 = 2 ^ b → c.p1 = 0 → c.p2 = 0 → noP3 c = true → b < nBasins s →
    unitOn s 14 = true → rbit s oCkgEn1 b = true → rbit s oCfgFenced b = false → rests s → s.bnw.draining = [] → nodeQuiet s b = false →
    exec (.fence c) s = .next { s with lkp := { s.lkp with run := s.lkp.run ++ [c] },
                                       bnw := { s.bnw with draining := [(b, .fence)], forced := false,
                                                           control := s.bnw.control ++ [(0, 32, b)] } }) ∧
  (∀ (c : Cmd) (b : Nat) (s : State), b < 32 → s.bnw.draining = [(b, .fence)] → nodeQuiet s b = true → s.bnw.forced = false →
    s.lkp.run.find? (·.op = 0x09) = some c →
    leadsTo (.drainComplete b) s (reply c 0 (setBit (rget s oCfgFenced) b).toNat 0 0
      (rset oCfgFenced (setBit (rget s oCfgFenced) b) { s with bnw := { s.bnw with
        draining := [], forced := false, control := s.bnw.control ++ [(1, b, 32)] } }))) ∧
  (∀ (c : Cmd) (b : Nat) (s : State), b < 32 → s.bnw.draining = [(b, .fence)] → s.lkp.run.find? (·.op = 0x09) = some c →
    (∀ x ∈ s.bnw.taken, x.dst = b → x.master ≠ 1) → ∃ v, leadsTo (.drainTimeout b) s (reply c 8 (setBit (rget s oCfgFenced) b).toNat 0 0 v) ∧ rbit v oCfgFenced b = true ∧
      rbit v oBnwSts 3 = true ∧ (∀ x ∈ v.bnw.taken, x.dst ≠ b) ∧ regsBut [oCfgFenced, oBnwSts, oBnwTmoCnt, oBnwTmorec] s v ∧
      ∀ x ∈ s.bnw.taken, x.dst = b → x ∈ s.bnw.sent → x ∈ v.bnw.dead ∧ (2, b, x.src) ∈ v.bnw.control)) ∧
  (∀ (c : Cmd) (s : State), accepted 0x0A c s → c.flags = 0 → c.p0 < 2 ^ nBasins s → c.p1 = 0 → c.p2 = 0 → noP3 c = true → unitOn s 14 = true →
    (∀ b < nBasins s, nbit c.p0 b = true → rbit s oCkgEn1 b = true) →
    let ok := (rests s ∧ s.seq.st ≠ .idle) ∧
      ∀ b < nBasins s, nbit c.p0 b = true → rbit s oCfgPlaced b = true ∧ rbit s oCfgLoaded b = true
    (ok → ∃ v, exec (.unfence c) s = .next (reply c 0 (rget s oCfgFenced &&& ~~~(BitVec.ofNat 32 c.p0)).toNat 0 0 v) ∧
      rget v oCfgFenced = rget s oCfgFenced &&& ~~~(BitVec.ofNat 32 c.p0) ∧ regsBut [oCfgFenced] s v ∧ restSame s v) ∧
    (¬ok → exec (.unfence c) s = .next (reply c 5 0 0 0 s)))

/-- The sequencer's four steps, where no group-wide event is due: an evaluation step and a first tick step advance the position in the frame
and GSC by 1, while the step clock runs; a second tick step advances F, the flight position and GSC, and the next step is step 0 of the next
frame or, after the last frame of a flight, a placed halt or the last frame asked for, of a lock phase; a lock-phase step advances GSC. Hold
memory keeps every byte but those of words upset in the step, host memory every byte. The first tick step commits the frame's staged state
values: each entry that a value was staged for holds it, with good parity, every other state entry and every step-result entry keeps its
value, and nothing is staged or exported any longer. A basin that does not run changes nothing. Landings of an evaluation step: with LOCEN
an import entry of port 0 takes the exported value of the processor ROT places below; port 1 takes the source of the one slot that lands, or
what two of them resolve to, a contention counted, recorded and reported where both drive and differ; of more import writes than two the
later slots are dropped, with the overflow flagged and reported; under an uncorrectable routing word every import entry of the step takes X.
No other import entry changes. Where it goes beyond the rules cited it rests on the model's choices of log entry 42. -/
def Obligations.SequencerSteps : Prop :=
  ((∀ (hs : List Happening) (s : State), stepClock s = true → s.seq.st = .flight → s.seq.pos < rfld s oSeqCfg 10 0 → noneDue s →
    ∃ u, leadsTo (.evaluationStep hs) s u ∧ u.seq.pos = s.seq.pos + 1 ∧ u.seq.gsc = s.seq.gsc + 1 ∧ u.seq.F = s.seq.F ∧
      u.hold.cells = (strikes hs s).hold.cells ∧ u.host.mem = s.host.mem) ∧
  (∀ (hs : List Happening) (s : State), stepClock s = true → s.seq.st = .flight → s.seq.pos = rfld s oSeqCfg 10 0 → noneDue s →
    ∃ u, leadsTo (.firstTickStep hs) s u ∧ u.seq.pos = s.seq.pos + 1 ∧ u.seq.gsc = s.seq.gsc + 1 ∧ u.seq.F = s.seq.F ∧
      u.hold.cells = (strikes hs s).hold.cells ∧ u.host.mem = s.host.mem) ∧
  (∀ (hs : List Happening) (s : State), stepClock s = true → s.seq.st = .flight → s.seq.pos = rfld s oSeqCfg 10 0 + 1 → noneDue s →
    ∃ u, leadsTo (.secondTickStep hs) s u ∧ u.seq.pos = 0 ∧ u.seq.gsc = s.seq.gsc + 1 ∧ u.seq.F = s.seq.F + 1 ∧
      u.seq.fltPos = s.seq.fltPos + 1 ∧ u.hold.cells = (strikes hs s).hold.cells ∧ u.host.mem = s.host.mem ∧
      (u.seq.st = .safe ∨
        (u.seq.st = .lock ∧ u.seq.lockPos = 0 ∧ (s.seq.frames ≤ s.seq.fltPos + 1 ∨ (s.seq.stepf = true ∧ s.seq.left = 1) ∨
          ∃ e, s.seq.halt = some e ∧ e ≤ s.seq.gsc.toNat + 1)) ∨
        (u.seq.st = .flight ∧ s.seq.fltPos + 1 < s.seq.frames ∧ ¬(s.seq.stepf = true ∧ s.seq.left = 1) ∧
          ∀ e, s.seq.halt = some e → s.seq.gsc.toNat + 1 < e))) ∧
  (∀ (hs : List Happening) (s : State), stepClock s = true → s.seq.st = .lock → noneDue s →
    ∃ u, leadsTo (.lockPhaseStep hs) s u ∧ u.seq.gsc = s.seq.gsc + 1 ∧ u.seq.F = s.seq.F ∧
      u.hold.cells = (strikes hs s).hold.cells ∧ u.host.mem = s.host.mem ∧ (u.seq.st = .lock → u.seq.lockPos = s.seq.lockPos + 1) ∧
      (u.seq.st = .lock ∨ u.seq.st = .flight ∨ u.seq.st = .paused ∨ u.seq.st = .safe)) ∧
  (∀ (hs : List Happening) (s : State), stepClock s = false →
    leadsTo (.evaluationStep hs) s s ∧ leadsTo (.firstTickStep hs) s s ∧ leadsTo (.secondTickStep hs) s s ∧ leadsTo (.lockPhaseStep hs) s s)) ∧
  (∀ (hs : List Happening) (s : State), Canonical s = true → stepClock s = true → s.seq.st = .flight → s.seq.pos = rfld s oSeqCfg 10 0 → noneDue s →
    ∃ u, leadsTo (.firstTickStep hs) s u ∧
      ∀ cl, let st := (getCl s cl).staged
        (st.map (·.1)).Nodup → (∀ x ∈ st, x.1 / 2048 < 64) →
        (∀ p e v, basinRuns s (cl / 64) = true → p < 64 → 1792 ≤ e → e < 2048 → mget none st (2048 * p + e) = some v →
          dsGet (getCl u cl) (physOf s cl p) e = v ∧ mget false (getCl u cl).badPar (2048 * physOf s cl p + e) = false) ∧
        (∀ p e, p < 64 → e < 2048 → e < 1024 ∨ 1792 ≤ e → basinRuns s (cl / 64) = false ∨ mget none st (2048 * p + e) = none →
          dsGet (getCl u cl) (physOf s cl p) e = dsGet (getCl s cl) (physOf s cl p) e) ∧
        (basinRuns s (cl / 64) = true → (getCl u cl).staged = [] ∧ (getCl u cl).expo = [])) ∧
  (∀ (hs : List Happening) (s : State), Canonical s = true → stepClock s = true → s.seq.st = .flight → s.seq.pos < rfld s oSeqCfg 10 0 →
    rfld s oSeqCfg 10 0 ≤ 1024 → noneDue s →
    ∃ u, leadsTo (.evaluationStep hs) s u ∧
      ∀ cl p, cl / 64 < nBasins s → p < 64 →
        let s0 := strikes hs s
        let b := cl / 64
        let c := getCl s0 cl
        let w := mget 0#256 c.rw s.seq.pos
        let new (e : Nat) : V4 := dsGet (getCl u cl) (physOf s cl p) e
        let old (e : Nat) : V4 := dsGet (getCl s cl) (physOf s cl p) e
        let e0 := 1024 + s.seq.pos % 384
        let e1 := 1408 + s.seq.pos % 384
        let slots := (landSlots w p).take (2 - (rLocen w p).toNat)
        let src (k : Nat) : V4 := srcVal s0 b (rSrc w k)
        (∀ e, 1024 ≤ e → e < 1792 → basinRuns s b = false ∨ (e ≠ e0 ∧ e ≠ e1) → new e = old e) ∧
        (basinRuns s b = true → routeBad c s.seq.pos = true →
          new e0 = .x ∧ new e1 = .x ∧ rbit u (oBasReachSts b) 3 = true ∧ rbit u oSafSts 2 = true) ∧
        (basinRuns s b = true → routeBad c s.seq.pos = false →
          (rLocen w p = true → new e0 = expoVal c ((p + 64 - rRot w) % 64)) ∧
          (rLocen w p = false → new e0 = old e0) ∧
          (slots = [] → new e1 = old e1) ∧
          (∀ k, slots = [k] → new e1 = src k) ∧
          (∀ k l, slots = [k, l] → new e1 = (if src k = .z then src l else if src l = .z ∨ src k = src l then src k else .x)) ∧
          (∀ k l, slots = [k, l] → src k ≠ .z → src l ≠ .z → src k ≠ src l → rbit u (oBasReachSts b) 0 = true ∧
            rbit u (oBasContRec b) 31 = true ∧ rbit u oSafSts (if rbit s oSafCtl 0 then 13 else 2) = true ∧
            min ((rget s (oBasContHard b)).toNat + 1) (2 ^ 32 - 1) ≤ (rget u (oBasContHard b)).toNat) ∧
          (∀ k l, slots = [k, l] → src k ≠ .z → src k = src l →
            min ((rget s (oBasContBen b)).toNat + 1) (2 ^ 32 - 1) ≤ (rget u (oBasContBen b)).toNat) ∧
          (2 < (rLocen w p).toNat + (landSlots w p).length → rbit u (oBasReachSts b) 1 = true ∧ rbit u (cStat cl) 4 = true ∧
            rbit u oSafSts 2 = true ∧ min (rfld s (oBasImpOvf b) 15 0 + 1) 0xFFFF ≤ rfld u (oBasImpOvf b) 15 0)))

/-- In an evaluation step each processor of a running basin writes the result of its instruction to the entry of the step's number, and no
other entry outside the import entries 1,024 to 1,791 changes, in any cluster. Port sub-operations of an evaluation step, of a processor
whose sub-operation meets no other on its port, by the registers as they stood at the start of the step: ASHL and HSHL shift MA and HO,
WSET, HSET and XSET set their bits, a Z taken as X; RD and WR issue the access of a bank that the port owns, with enable 1 and a known
address, none with enable 0, and set MEM_OWN on one it does not own; HRD and HWR issue their request, or leave their tag null, of unknown
address or refused; WAIT frees its tag and fills the collect buffer; XSEND sends its fragment; GDRV stages its lane's values; PROBE and TRIG
offer theirs. A frame that the step's faults void in a safe state is not spoken of. What the instructions other than EVAL and ZBUF write to
entry s, of a word and operands without error: RCOL, HCOL and GSMP the bit they name, WAIT 1 where its reply has come and X else, PROBE and
TRIG their operand as it stands, WIRE its net, every other Z; an illegal word writes X and sets ILL, an uncorrectable one X and sets ECC_UE.
EXP exports the result. Where it goes beyond the rules cited it rests on the model's choices of log entries 46 and 54. -/
def Obligations.EvaluationWrites : Prop :=
  (∀ (hs : List Happening) (s : State), Canonical s = true → stepClock s = true → s.seq.st = .flight → s.seq.pos < rfld s oSeqCfg 10 0 →
    rfld s oSeqCfg 10 0 ≤ 1024 → noneDue s →
    ∃ u, leadsTo (.evaluationStep hs) s u ∧
      (∀ cl p, cl / 64 < nBasins s → basinRuns s (cl / 64) = true → p < 64 →
        dsGet (getCl u cl) (physOf s cl p) s.seq.pos = (procStep (strikes hs s) cl s.seq.pos p (procFaultOf hs cl p)).res) ∧
      ∀ cl p e, e < 2048 → e ≠ s.seq.pos → e < 1024 ∨ 1792 ≤ e → dsGet (getCl u cl) p e = dsGet (getCl s cl) p e) ∧
  (∀ (hs : List Happening) (s : State) (cl p : Nat), Canonical s = true → stepClock s = true → s.seq.st = .flight → s.seq.pos < rfld s oSeqCfg 10 0 →
    noneDue s → basinRuns s (cl / 64) = true → p < 64 → (procFaultOf hs cl p).port = none →
    let o (d i : Nat) : ProcOut := procStep (strikes hs s) d s.seq.pos i (procFaultOf hs d i)
    let c := getCl s cl
    let q := sluiceOf cl
    let op := (o cl p).op
    let a := argAt (o cl p).vs 0
    let val (j : Nat) : V4 := if argAt (o cl p).vs j = .z then .x else argAt (o cl p).vs j
    let aloneMem : Prop := ∀ i < 64, i ≠ p → ∀ k, (o cl i).op ≠ .rd k ∧ (o cl i).op ≠ .wr k
    let aloneSlu : Prop := ∀ d < 2048, ∀ i < 64, sluiceOf d = q → d ≠ cl ∨ i ≠ p →
      atSluice (o d i).op = false
    let known := v4nat? (plist c.ma 15)
    let off := v4nat? (plist c.ho 34)
    ∃ u, leadsTo (.evaluationStep hs) s u ∧
      (∀ n clr, op = .ashl n clr → (∀ i < 64, i ≠ p → ∀ m e, (o cl i).op ≠ .ashl m e) → ∀ j < 15, pget (getCl u cl).ma j =
        if j < n then val (n - 1 - j) else if clr then .zero else pget c.ma (j - n)) ∧
      (∀ n clr, op = .hshl n clr → (∀ i < 64, i ≠ p → ∀ m e, (o cl i).op ≠ .hshl m e) → ∀ j < 34, pget (getCl u cl).ho j =
        if j < n then val (n - 1 - j) else if clr then .zero else pget c.ho (j - n)) ∧
      (∀ n f, op = .wset n f → (∀ i < 64, i ≠ p → ∀ m e, (o cl i).op ≠ .wset m e) → ∀ j < 512, pget (getCl u cl).mwd j =
        if f ≤ j ∧ j < f + n then val (j - f) else pget c.mwd j) ∧
      (∀ n f, op = .hset n f → (∀ i < 64, i ≠ p → ∀ m e, (o cl i).op ≠ .hset m e) → ∀ j < 64, pget (getCl u cl).hwd j =
        if f ≤ j ∧ j < f + n then val (j - f) else pget c.hwd j) ∧
      (∀ n f, op = .xset n f → (∀ i < 64, i ≠ p → ∀ m e, (o cl i).op ≠ .xset m e) → ∀ j < 32, pget (getCl u cl).xfd j =
        if f ≤ j ∧ j < f + n then val (j - f) else pget c.xfd j) ∧
      (∀ k w, op = .rd k → aloneMem → a = .one → portOwns s cl k = true → known = some w → u.seq.st = .safe ∨
        (⟨.read, s.seq.spos, k, ownGw s k, w, c.mwd, false⟩ : MemOp) ∈ (getCl u cl).memOps) ∧
      (∀ k w, op = .wr k → aloneMem → a = .one → portOwns s cl k = true → known = some w → u.seq.st = .safe ∨
        (⟨.write, s.seq.spos, k, ownGw s k, w, c.mwd, false⟩ : MemOp) ∈ (getCl u cl).memOps) ∧
      (∀ k, op = .rd k ∨ op = .wr k → aloneMem → a = .zero → (∀ m ∈ c.memOps, m.issued ≠ s.seq.spos) →
        ∀ m ∈ (getCl u cl).memOps, m.issued ≠ s.seq.spos) ∧
      (∀ k, op = .rd k ∨ op = .wr k → aloneMem → a ≠ .zero → portOwns s cl k = false → rbit u (cStat cl) 7 = true ∧ rbit u oSafSts 3 = true) ∧
      (∀ k, op = .rd k ∨ op = .wr k → aloneMem → a ≠ .zero → portOwns s cl k = true → known = none →
        rfld u (cXev cl) 31 16 = min (rfld s (cXev cl) 31 16 + 1) 0xFFFF) ∧
      (∀ r t w, op = .hrd r t → aloneSlu → a = .one → getTag s q t = .free → off = some w → w < 512 * rfld s (oHldRgnSize q r) 24 0 →
        (s.req.filter (·.q = q)).length < 16 → u.seq.st = .safe ∨ (getTag u q t = .waiting ∧ ∃ x ∈ u.req, x.q = q ∧ x.tag = t ∧
          x.gsc = s.seq.gsc.toNat ∧ x.frame = s.seq.F.toNat ∧ x.write = false ∧ x.addr = 4096 * rfld s (oHldRgnBase q r) 24 0 + 8 * w ∧
          x.xen = false ∧ x.live = true ∧ x.served = false)) ∧
      (∀ r t w, op = .hwr r t → aloneSlu → a = .one → getTag s q t = .free → off = some w → w < 512 * rfld s (oHldRgnSize q r) 24 0 →
        (s.req.filter (·.q = q)).length < 16 → (∀ j < 64, pget c.hwd j = .zero ∨ pget c.hwd j = .one) →
        u.seq.st = .safe ∨ (getTag u q t = .waiting ∧ ∃ x ∈ u.req, x.q = q ∧ x.tag = t ∧ x.write = true ∧
          x.addr = 4096 * rfld s (oHldRgnBase q r) 24 0 + 8 * w ∧ x.poison = false ∧ x.live = true ∧ x.served = false ∧
          ∀ j < 64, x.data.getLsbD j = decide (pget c.hwd j = .one))) ∧
      (∀ r t, op = .hrd r t ∨ op = .hwr r t → aloneSlu → getTag s q t = .free → off = none → u.seq.st = .safe ∨ getTag u q t = .unknownAddr) ∧
      (∀ r t w, op = .hrd r t ∨ op = .hwr r t → aloneSlu → getTag s q t = .free → off = some w → a = .zero →
        u.seq.st = .safe ∨ getTag u q t = .null) ∧
      (∀ r t w, op = .hrd r t ∨ op = .hwr r t → aloneSlu → off = some w → a ≠ .zero → 512 * rfld s (oHldRgnSize q r) 24 0 ≤ w →
        (u.seq.st = .safe ∨ getTag u q t = .refused) ∧ rbit u oHldSts 5 = true ∧ rbit u (cStat cl) 6 = true ∧ rbit u oSafSts 4 = true ∧
        rfld u (oHldSluCnt q) 31 16 = min (rfld s (oHldSluCnt q) 31 16 + 1) 0xFFFF) ∧
      (∀ r t w, op = .hrd r t ∨ op = .hwr r t → aloneSlu → getTag s q t ≠ .free → off = some w → w < 512 * rfld s (oHldRgnSize q r) 24 0 →
        (u.seq.st = .safe ∨ getTag u q t = .refused) ∧ rbit u oHldSts 6 = true ∧ rbit u (cStat cl) 6 = true ∧ rbit u oSafSts 4 = true) ∧
      (∀ t d, op = .wait t → aloneSlu → getTag s q t = .data d → u.seq.st = .safe ∨ (getTag u q t = .free ∧
        ∀ i < 64, pget (getCollect u q t) i = if d.getLsbD i then .one else .zero)) ∧
      (∀ t, op = .wait t → aloneSlu → getTag s q t = .written ∨ getTag s q t = .null → u.seq.st = .safe ∨ (getTag u q t = .free ∧
        getCollect u q t = getCollect s q t)) ∧
      (∀ t, op = .wait t → aloneSlu → getTag s q t = .waiting → rbit u oHldSts 3 = true ∧ rbit u oSafSts 5 = true ∧
        (u.seq.st = .safe ∨ (getTag u q t = .free ∧ ∀ i < 64, pget (getCollect u q t) i = .x))) ∧
      (∀ n x, op = .xsend n x → (∀ d < 2048, ∀ i < 64, d / 64 = cl / 64 → d ≠ cl ∨ i ≠ p → ∀ m y, (o d i).op ≠ .xsend m y) → c.xsent = false →
        a ≠ .zero → sentHere s (cl / 64) s = 0 → u.seq.st = .safe ∨ ((getCl u cl).xsent = true ∧ ∃ f ∈ u.xch.frags, f.site = x ∧
          f.frame = s.seq.F.toNat ∧ f.idx = n ∧ f.src = cl ∧ f.data = c.xfd ∧ f.xen = decide (a ≠ .one) ∧ f.void = false)) ∧
      (∀ l, op = .gdrv l → laneBound s cl l = true → (∀ i < 64, i ≠ p → (o cl i).op ≠ .gdrv l) → u.seq.st = .safe ∨
        ((getLane u (64 * (cl / 64) + l)).sdrv = some a ∧ (getLane u (64 * (cl / 64) + l)).sexp = some (argAt (o cl p).vs 1))) ∧
      (∀ x, op = .probe x → (∀ d < 2048, ∀ i < 64, d ≠ cl ∨ i ≠ p → (o d i).op ≠ .probe x) → mget none s.trc.probe x = none →
        u.seq.st = .safe ∨ mget none u.trc.probe x = some a) ∧
      (∀ n, op = .trig n → a = .one → sealed s cl = false → u.seq.st = .safe ∨ mget .zero u.trc.trig n = .one) ∧
      (∀ m, c.memOps.filter (fun y => y.issued + dmLatency s = s.seq.spos + 1) = [m] → m.kind = .read →
        m.issued + 1 ≠ s.seq.spos → ∀ j < 512, pget (getCl u cl).mrd j = if j < 64 * m.width then pget m.data j else pget c.mrd j)) ∧
  (∀ (s : State) (cl st p : Nat),
    let c := getCl s cl
    let ph := physOf s cl p
    let w := mget 0#64 c.instr (1024 * ph + st)
    let ecc := mget .clean c.iEcc (1024 * ph + st)
    let op := decodeWord (nBanks s) (hasWharf s) w
    let r := procStep s cl st p {}
    let lane (l : Nat) : Nat := 64 * (cl / 64) + l
    (ecc = .double ∨ ecc = .poison → r.res = .x ∧ r.expo = some .x ∧ r.flags = [2] ∧ r.op = .nop) ∧
    (ecc = .clean ∨ ecc = .single → c.badPar = [] →
      (r.fixed = decide (ecc = .single)) ∧ (r.expo = if wExp w then some r.res else none) ∧
      (∀ i, op = .rcol i → r.res = pget c.mrd i) ∧
      (∀ i t, op = .hcol i t → r.res = pget (getCollect s (sluiceOf cl) t) i) ∧
      (∀ l, op = .gsmp l → laneBound s cl l = true → laneMode s (lane l) ≠ 0 → r.res = (getLane s (lane l)).smp) ∧
      (∀ l, op = .gsmp l ∨ op = .gdrv l → laneBound s cl l = false → 6 ∈ r.flags ∧ (op = .gsmp l → r.res = .x)) ∧
      (∀ t d, op = .wait t → getTag s (sluiceOf cl) t ∈ [.data d, .dataX, .written, .null] → r.res = .one) ∧
      (∀ t, op = .wait t → getTag s (sluiceOf cl) t ∈ [.free, .waiting, .unknownAddr, .refused] → r.res = .x) ∧
      (∀ x, op = .probe x ∨ op = .trig x → r.res = dsGet c ph (wA w)) ∧
      (∀ n pull, op = .wire n pull →
        let d := ([wA w, wB w, wC w, wD w].take n).map (dsGet c ph)
        ((∀ v ∈ d, v = .z) → r.res = if pull = 0 then .z else if pull = 1 then .zero else .one) ∧
        ((∃ v ∈ d, v ≠ .z) → (∀ v ∈ d, v = .z ∨ v = .zero) → r.res = .zero) ∧
        ((∃ v ∈ d, v ≠ .z) → (∀ v ∈ d, v = .z ∨ v = .one) → r.res = .one) ∧
        ((∃ v ∈ d, v ≠ .z ∧ v ≠ .zero) → (∃ v ∈ d, v ≠ .z ∧ v ≠ .one) → r.res = .x)) ∧
      (givesZ op = true → r.res = .z) ∧
      (op = .illegal → r.res = .x ∧ 5 ∈ r.flags)))

/-- An EVAL instruction whose word and operands carry no error gives 1 where its truth table gives 1 for every assignment of 0 and 1 to the
operands that hold X or Z, 0 where it gives 0 for every one, and X otherwise; with STATE = 1 operand d is 0. -/
def Obligations.EvaluatedExactly : Prop :=
  ∀ (s : State) (cl st p tt : Nat) (state : Bool),
    let c := getCl s cl
    let ph := physOf s cl p
    let w := mget 0#64 c.instr (1024 * ph + st)
    let ecc := mget .clean c.iEcc (1024 * ph + st)
    let r := (procStep s cl st p {}).res
    let agrees (b : Bool) (v : V4) : Prop := (v = .zero → b = false) ∧ (v = .one → b = true)
    let fits (a b d e : Bool) : Prop := agrees a (dsGet c ph (wA w)) ∧ agrees b (dsGet c ph (wB w)) ∧ agrees d (dsGet c ph (wC w)) ∧
      (if state then e = false else agrees e (dsGet c ph (wD w)))
    let out (a b d e : Bool) : Bool := nbit tt (a.toNat + 2 * b.toNat + 4 * d.toNat + 8 * e.toNat)
    ecc = .clean ∨ ecc = .single → decodeWord (nBanks s) (hasWharf s) w = .eval tt state → c.badPar = [] →
    (r = .one ↔ ∀ a b d e, fits a b d e → out a b d e = true) ∧ (r = .zero ↔ ∀ a b d e, fits a b d e → out a b d e = false) ∧ r ≠ .z

/-- ZBUF: the enable is b, inverted where POL is 1; Z where it is 0, the value of a with Z read as X where it is 1, X where it is X or Z. -/
def Obligations.ZbufResult : Prop :=
  ∀ (s : State) (cl : Nat) (pol : Bool) (a b wv : V4),
    (b = (if pol then V4.one else V4.zero) → resultOf s cl (.zbuf pol) [a, b] wv = .z) ∧
    (b = (if pol then V4.zero else V4.one) → resultOf s cl (.zbuf pol) [a, b] wv = if a = .z then .x else a) ∧
    (b = .x ∨ b = .z → resultOf s cl (.zbuf pol) [a, b] wv = .x)

/-- A stall begins in place of the step at which it takes effect, which executes after it, and counts in SEQ_STALL_CNT; each cycle counts; a
device reports release in the first cycle in which none of its conditions holds, and, alone, resumes at the first multiple of 256 that lies
at least 256 cycles later, where the stalled step comes next; SEQ_STALL_CYC counts each unit of 256 cycles of the stall as it is complete
(the model's choice, log entry 40, as is that the cycles of a stall before a frame's step 0 count in its duration). The timeout, at a
multiple of 256 no lower than the limit, makes a device that still holds report release and sets STALL_TMO. GSC and F stay. That nothing
happens in any other state is the model's choice, log entry 8. Where it goes beyond the rules cited it rests on the model's choices of log
entry 40. -/
def Obligations.Stalls : Prop :=
  (∀ s : State, s.seq.st ≠ .stall → leadsTo .stallCycle s s ∧ leadsTo .stallTimeout s s) ∧
  (∀ s : State, s.seq.st = .stall → s.seq.ownRel = none → stallHolds s = true → s.seq.resume = none →
    ∃ u, leadsTo .stallCycle s u ∧ u.seq = { s.seq with
        stallCyc := s.seq.stallCyc + 1, frameStall := s.seq.frameStall + (if s.seq.ret = .flight then 1 else 0) } ∧
      (rget u oSeqStallCyc).toNat = min ((rget s oSeqStallCyc).toNat + (if (s.seq.stallCyc + 1) % 256 = 0 then 1 else 0)) (2 ^ 32 - 1) ∧
      regsBut [oSeqStallCyc] s u ∧ { u with regs := s.regs, seq := s.seq, dmc := { u.dmc with cycle := s.dmc.cycle } } = s) ∧
  (∀ s : State, s.seq.st = .stall → s.seq.ownRel = none → stallHolds s = false → s.seq.resume = none → otherDevs s = [] →
    ∃ r, r % 256 = 0 ∧ s.seq.stallCyc + 256 ≤ r ∧ r < s.seq.stallCyc + 512 ∧
      ∃ u, leadsTo .stallCycle s u ∧ u.seq = { s.seq with
          stallCyc := s.seq.stallCyc + 1, ownRel := some s.seq.stallCyc, resume := some r,
          frameStall := s.seq.frameStall + (if s.seq.ret = .flight then 1 else 0) } ∧
        regsBut [oSeqStallCyc] s u ∧ { u with regs := s.regs, seq := s.seq, dmc := { u.dmc with cycle := s.dmc.cycle } } = s) ∧
  (∀ (r : Nat) (s : State), s.seq.st = .stall → s.seq.ownRel.isSome = true → s.seq.resume = some r → s.seq.stallCyc + 1 < r →
    ∃ u, leadsTo .stallCycle s u ∧ u.seq = { s.seq with
        stallCyc := s.seq.stallCyc + 1, frameStall := s.seq.frameStall + (if s.seq.ret = .flight then 1 else 0) } ∧
      (rget u oSeqStallCyc).toNat = min ((rget s oSeqStallCyc).toNat + (if (s.seq.stallCyc + 1) % 256 = 0 then 1 else 0)) (2 ^ 32 - 1) ∧
      regsBut [oSeqStallCyc] s u ∧ { u with regs := s.regs, seq := s.seq, dmc := { u.dmc with cycle := s.dmc.cycle } } = s) ∧
  (∀ (r : Nat) (s : State), s.seq.st = .stall → s.seq.ownRel.isSome = true → s.seq.resume = some r → r ≤ s.seq.stallCyc + 1 →
    ∃ u, leadsTo .stallCycle s u ∧ u.seq.st = s.seq.ret ∧ u.seq.stallEvs = [] ∧ u.seq.gsc = s.seq.gsc ∧ u.seq.F = s.seq.F ∧
      (rget u oSeqStallCyc).toNat = min ((rget s oSeqStallCyc).toNat + (if (s.seq.stallCyc + 1) % 256 = 0 then 1 else 0)) (2 ^ 32 - 1) ∧
      regsBut [oSeqStallCyc] s u ∧
      { u with regs := s.regs, seq := s.seq, dmc := { u.dmc with cycle := s.dmc.cycle } } = s) ∧
  (∀ s : State, s.seq.st = .stall → s.seq.ownRel = none → stallHolds s = true → rfld s oSeqStallTmo 23 0 ≠ 0 →
    256 * rfld s oSeqStallTmo 23 0 ≤ s.seq.stallCyc → s.seq.stallCyc % 256 = 0 →
    ∃ u, leadsTo .stallTimeout s u ∧ u.seq.ownRel = some s.seq.stallCyc ∧ rbit u oSeqSts 9 = true ∧ u.seq.gsc = s.seq.gsc ∧
      u.seq.F = s.seq.F ∧ u.hold.cells = s.hold.cells ∧ u.host.mem = s.host.mem) ∧
  (∀ (hs : List Happening) (s : State), stepClock s = true → s.seq.st = .flight → s.seq.pos < rfld s oSeqCfg 10 0 → ¬ noneDue s →
    (∀ e ∈ s.seq.events, evDue s e = true → 1 ≤ e.kind ∧ e.kind ≤ 4) →
    ∃ u, leadsTo (.evaluationStep hs) s u ∧ u.seq.st = .stall ∧ u.seq.ret = .flight ∧ u.seq.stallEvs = s.seq.events.filter (evDue s) ∧
      u.seq.stallCyc = 0 ∧ u.seq.gsc = s.seq.gsc ∧ u.seq.F = s.seq.F ∧ u.seq.pos = s.seq.pos ∧
      (rget u oSeqStallCnt).toNat = min ((rget s oSeqStallCnt).toNat + 1) (2 ^ 32 - 1) ∧
      regsBut [oSeqStallCnt, oSeqInt, oSeqLastEvt] s u ∧ u.fab = s.fab ∧ u.hold = s.hold ∧ u.dmc = s.dmc ∧ u.host = s.host)

/-- POWER_STATE: for another device it sends that device's ring wake and is answered OK; naming Run in Run it is answered OK; naming Run in
a deeper state it wakes the device with source 1; naming a deeper state where nothing of R322 stands against it, it sets BUSY and TARGET and
drains every basin that is not fenced. Where it goes beyond the rules cited it rests on the model's choices of log entry 56. -/
def Obligations.PowerStateCommand : Prop :=
  (∀ (c : Cmd) (d : Nat) (s : State), accepted 0x0B c s → c.flags = 0 → c.p0 = 256 * d → d < 64 → d ≠ s.dev.devid → c.p1 = 0 → c.p2 = 0 →
    noP3 c = true → rbit s oPwrSts 3 = false →
    leadsTo (.powerState c) s (reply c 0 (pwrStsView s).toNat 0 0 (ringSend d .wake s))) ∧
  (∀ (c : Cmd) (s : State), accepted 0x0B c s → c.flags = 0 → c.p0 = 0xFF00 → c.p1 = 0 → c.p2 = 0 → noP3 c = true → rbit s oPwrSts 3 = false →
    rfld s oPwrSts 2 0 = 0 → leadsTo (.powerState c) s (reply c 0 (pwrStsView s).toNat 0 0 s)) ∧
  (∀ (c : Cmd) (s : State), accepted 0x0B c s → c.flags = 0 → c.p0 = 0xFF00 → c.p1 = 0 → c.p2 = 0 → noP3 c = true → rbit s oPwrSts 3 = false →
    rfld s oPwrSts 2 0 ≠ 0 → s.pwr.exit = none →
    ∃ u, leadsTo (.powerState c) s u ∧ u.pwr.exit = some (1, tsnOf s, decide (4 ≤ rfld s oPwrSts 2 0)) ∧ rfld u oPwrSts 6 3 = 1 ∧
      rfld u oPwrSts 2 0 = rfld s oPwrSts 2 0 ∧ u.lkp.run = s.lkp.run ++ [c] ∧ u.seq = s.seq ∧
      regsBut [oPwrSts, oCkgPll 0, oCkgPll 1, oCkgPll 2, oCkgPll 3, oCkgPll 4, oCkgSts, oCfgBoot] s u ∧ u.hold = s.hold ∧ u.dmc = s.dmc) ∧
  (∀ (c : Cmd) (t : Nat) (s : State), accepted 0x0B c s → c.flags = 0 → c.p0 = 0xFF00 + t → c.p1 = 0 → c.p2 = 0 → noP3 c = true →
    rbit s oPwrSts 3 = false → rfld s oPwrSts 2 0 < t → t ≤ 5 → rests s → s.lkp.load = none → s.lkp.march = none →
    (3 ≤ t → s.xch.entries = [] ∧ ∀ f ∈ s.xch.flows, f.2 ≠ .service) →
    (t = 3 → rget s oCfgLoaded = 0#32 ∨ (rbit s oPwrCtl 0 = true ∧ saveValid s = true)) → (t = 4 → keptCount s ≤ 8) →
    (4 ≤ t → rfld s oPwrCtl 6 4 ≠ 0 ∧ (rfld s oPwrCtl 6 4 = 4 → rget s oPwrWakeTmr ≠ 0#32)) →
    s.bnw.draining = [] → (∀ x ∈ s.lkp.run, x.op ≠ 0x09) →
    ∃ u, leadsTo (.powerState c) s u ∧ rfld u oPwrSts 6 3 = 2 * t + 1 ∧ rfld u oPwrSts 2 0 = rfld s oPwrSts 2 0 ∧ c ∈ u.lkp.run ∧
      (∀ b < nBasins s, rbit u oCfgFenced b = true ∨ (b, DrainFor.power) ∈ u.bnw.draining) ∧
      u.pwr.fences = s.pwr.fences ++ (List.range (nBasins s)).filter (fun b => !rbit s oCfgFenced b) ∧
      u.hold.cells = s.hold.cells ∧ u.dmc.cells = s.dmc.cells ∧ u.host.mem = s.host.mem)

/-- SELFTEST at rest is answered OK where no mechanism fails and FAULTED with the failing ones otherwise; in CLK_HALT it is DENIED, while
the group runs BUSY; nothing else changes. MARCH: the banks named are under march and DMC_MARCH_STS shows BUSY, MODE and TARGET. Its end
gives the reply and DONE; a destructive march leaves every word of the named banks zero with good check bits, and one of stores or of
instruction stores, not preserving, unloads its basins. FAULT_READ writes the oldest records of the fault log, at most as many as asked for,
to the buffer, answers their number and how many stay, and removes them where its flag says so; FAULT_DUMP of a buffer of at least 128 KiB
writes the dump and answers its length, its reads of the standing registers setting CE and UE as any read does, else CAPACITY. The shadow of
every cluster replays processor F mod 64: where that processor's result differs from the right one its result stands, SHD_MIS is set, 0x1001
is reported, the first mismatch recorded in CLU_SHD and its position nominated in CLU_REPAIR, or position 64 where another processor
mismatched within 64 frames; where nothing fails the records stay. CLU_ECC counts the words that the step's fetches corrected. That nothing
happens in any other state is the model's choice, log entry 8. Where it goes beyond the rules cited it rests on the model's choices of log
entries 28, 30 and 45. -/
def Obligations.SelfTests : Prop :=
  (∀ (c : Cmd) (failing : Nat) (s : State), accepted 0x0E c s → bare c →
    (rests s → exec (.selftest c failing) s =
      .next (reply c (if failing % 512 = 0 then 0 else 10) (failing % 512) 0 0 s)) ∧
    (s.seq.st = .clkHalt → exec (.selftest c failing) s = .next (reply c 5 0 0 0 s)) ∧
    (seqActive s = true → exec (.selftest c failing) s = .next (reply c 3 0 0 0 s))) ∧
  ((∀ (c : Cmd) (s : State), accepted 0x0F c s → c.flags < 2 → 1 ≤ c.p0 → c.p0 < 8 → noP3 c = true → ¬(nbit c.p0 1 = true ∧ c.flags = 1) →
    (nbit c.p0 0 = true → 1 ≤ nfld c.p1 31 0 ∧ nfld c.p1 63 32 + nfld c.p1 31 0 ≤ nBanks s) → c.p2 < 2 ^ nBasins s → unitOn s 15 = true →
    (2 ≤ c.p0 → c.p2 ≠ 0 → unitOn s 14 = true ∧ ∀ b < nBasins s, nbit c.p2 b = true → rbit s oCkgEn1 b = true) →
    marchDenied s (marchJob s c) = false → s.lkp.march = none →
    ∃ t, exec (.march c) s = .next t ∧ t.lkp = { s.lkp with march := some c, run := s.lkp.run ++ [c] } ∧ rbit t oDmcMarchSts 31 = true ∧
      rfld t oDmcMarchSts 28 25 = 8 * c.flags + c.p0 ∧
      (∀ k, mget false t.dmc.marching k = (decide (k ∈ (marchJob s c).banks) || mget false s.dmc.marching k)) ∧
      regsBut [oDmcMarchSts] s t ∧ { t with regs := s.regs, lkp := s.lkp, dmc := { t.dmc with marching := s.dmc.marching } } = s) ∧
  (∀ (c : Cmd) (f : MarchFinds) (s : State), s.lkp.march = some c → c ∈ s.lkp.run →
    ∃ t, leadsTo (.marchComplete f) s (reply c 0 (rget t oDmcMarchSts).toNat 0 0 t) ∧ t.lkp.march = none ∧ rbit t oDmcMarchSts 31 = false ∧
      rbit t oDmcMarchSts 30 = true ∧ (∀ k ∈ (marchJob s c).banks, mget false t.dmc.marching k = false) ∧
      (nbit c.flags 0 = false → ∀ k ∈ (marchJob s c).banks, ∀ w < 32768, dmWord t k w = 0#64 ∧ dmEcc t k w = .clean) ∧
      (∀ b < nBasins s, nbit c.p2 b = true → nbit c.p0 1 = true ∨ (nbit c.p0 2 = true ∧ nbit c.flags 0 = false) →
        rbit t oCfgLoaded b = false) ∧
      t.seq.F = s.seq.F ∧ t.hold.cells = s.hold.cells ∧ t.host.mem = s.host.mem) ∧
  (∀ (f : MarchFinds) (s : State), s.lkp.march = none → leadsTo (.marchComplete f) s s)) ∧
  ((∀ (c : Cmd) (s : State), accepted 0x10 c s → c.flags < 2 → 1 ≤ c.p0 → c.p0 ≤ 1024 → c.p1 = 0 → noP3 c = true →
    let n := min c.p0 s.saf.log.length
    ∃ t, exec (.faultRead c) s = .next (reply c 0 n t.saf.log.length 0 t) ∧
      t.saf.log = (if c.flags = 1 then s.saf.log.drop n else s.saf.log) ∧
      (List.range (16 * n)).map (fun i => mget 0#8 t.host.mem (c.p2 + i)) = (s.saf.log.take n).flatMap recBytes ∧
      (∀ x, x < c.p2 ∨ c.p2 + 16 * n ≤ x → mget 0#8 t.host.mem x = mget 0#8 s.host.mem x) ∧
      { t with saf := { t.saf with log := s.saf.log }, host := { t.host with mem := s.host.mem } } = s) ∧
  (∀ (c : Cmd) (s : State), accepted 0x11 c s → c.flags = 0 → c.p1 = 0 → noP3 c = true → 0x20000 ≤ c.p0 →
    ∃ t, exec (.faultDump c) s = .next (reply c 0 (dumpBytes s).length 0 0 (hostPut c.p2 (dumpBytes s) t)) ∧ restSame s t ∧
      (∀ i < 256, regExists s (oStd i) = true →
        rbit t (oStdCmp i) 28 = (rbit s (oStdCmp i) 28 || decide (mget .clean s.std.ecc i = .single)) ∧
        rbit t (oStdCmp i) 29 = (rbit s (oStdCmp i) 29 || decide (mget .clean s.std.ecc i = .double))) ∧
      regsBut ((List.range 256).map oStdCmp) s t) ∧
  (∀ (c : Cmd) (s : State), accepted 0x11 c s → c.flags = 0 → c.p1 = 0 → noP3 c = true → c.p0 < 0x20000 →
    exec (.faultDump c) s = .next (reply c 7 0 0 0 s))) ∧
  (∀ (hs : List Happening) (s : State) (cl : Nat), Canonical s = true → stepClock s = true → s.seq.st = .flight → s.seq.pos < rfld s oSeqCfg 10 0 →
    rfld s oSeqCfg 10 0 ≤ 1024 → noneDue s → basinRuns s (cl / 64) = true →
    let lp := s.seq.F.toNat % 64
    let ph := physOf s cl lp
    let o (i : Nat) (f : ProcFault) : ProcOut := procStep (strikes hs s) cl s.seq.pos i f
    let mine := o lp (procFaultOf hs cl lp)
    ∃ u, leadsTo (.evaluationStep hs) s u ∧
      rfld u (cEcc cl) 15 0 = min (rfld s (cEcc cl) 15 0 + ((List.range 64).filter fun i => (o i (procFaultOf hs cl i)).fixed).length) 0xFFFF ∧
      ((procFaultOf hs cl lp).res = none → (procFaultOf hs cl lp).port = none → shadowFaultOf hs cl = false →
        rget u (cShd cl) = rget s (cShd cl) ∧ rget u (cRepair cl) = rget s (cRepair cl) ∧ rbit u (cStat cl) 0 = rbit s (cStat cl) 0) ∧
      (mine.res ≠ (o lp {}).res → rbit u (cStat cl) 0 = true ∧ rbit u oSafSts 1 = true ∧ dsGet (getCl u cl) ph s.seq.pos = mine.res ∧
        rget u (cShd cl) = (if rbit s (cShd cl) 31 then rget s (cShd cl)
          else BitVec.ofNat 32 (2 ^ 31 + ph * 2 ^ 24 + s.seq.pos * 2 ^ 14 + s.seq.F.toNat % 2 ^ 14)) ∧
        ((∀ e ∈ (getCl s cl).shd, e.1 = lp) → rget u (cRepair cl) =
          if rbit s (cRepair cl) 31 then rget s (cRepair cl) else BitVec.ofNat 32 (2 ^ 31 + 2 ^ 7 + ph)) ∧
        (∀ e ∈ (getCl s cl).shd, e.1 ≠ lp → frDist e.2 s.seq.F.toNat < 64 → rget u (cRepair cl) = BitVec.ofNat 32 (2 ^ 31 + 2 ^ 7 + 64))))

/-- TABLE_LOAD writes the entries of its buffer into the berth table or the flow table, at rest, with no call open and every flow idle; an
entry with a reserved bit, or a table that would leave a valid call site without a valid berth, is BAD_PARAM and loads nothing. -/
def Obligations.TableLoadCommand : Prop :=
  ∀ (c : Cmd) (s : State), accepted 0x13 c s → c.flags = 0 → c.p0 < 2 → noP3 c = true → 1 ≤ nfld c.p1 31 0 →
    nfld c.p1 63 32 + nfld c.p1 31 0 ≤ (if c.p0 = 1 then 16384 else 32768) → unitOn s 11 = true → rests s → s.xch.entries = [] → s.xch.flows = [] →
    let n := nfld c.p1 31 0
    let lo := nfld c.p1 63 32
    let e (i : Nat) : Nat := if c.p0 = 1 then hostNum s (c.p2 + 2 * i) 2 else hostNum s (c.p2 + 4 * i) 4
    let bad : Prop := ∃ i < n, if c.p0 = 1 then nfld (e i) 14 6 ≠ 0 else nbit (e i) 30 = true ∨ nfld (e i) 15 12 ≠ 0
    (bad → exec (.tableLoad c) s = .next (reply c 2 0 0 0 s)) ∧
    (¬bad → c.p0 = 1 → ∃ t, exec (.tableLoad c) s = .next (reply c 0 n 0 0 t) ∧
      (∀ i, mget 0#16 t.xch.flowTab i = if lo ≤ i ∧ i < lo + n then BitVec.ofNat 16 (e (i - lo)) else mget 0#16 s.xch.flowTab i) ∧
      { t with xch := { t.xch with flowTab := s.xch.flowTab } } = s) ∧
    (¬bad → c.p0 = 0 →
      let new (i : Nat) : Word := if lo ≤ i ∧ i < lo + n then BitVec.ofNat 32 (e (i - lo)) else mget 0#32 s.xch.berths i
      let lost : Prop := ∃ x ∈ s.xch.sites, siteValid x.2.toNat = true ∧ bit (new (siteBerth x.2.toNat)) 31 = false
      (lost → exec (.tableLoad c) s = .next (reply c 2 0 0 0 s)) ∧
      (¬lost → ∃ t, exec (.tableLoad c) s = .next (reply c 0 n 0 0 t) ∧ (∀ i, mget 0#32 t.xch.berths i = new i) ∧
        { t with xch := { t.xch with berths := s.xch.berths } } = s))

/-- ISOLATE closes the bypass and clears the enable of every fabric link; RESET of scope device requests a warm reset, of scope basin the
reset of a fenced basin, of scope group, on the lead, one instant at least 1 ms ahead, sent to every member. Where it goes beyond the rules
cited it rests on the model's choices of log entry 28. -/
def Obligations.IsolateAndReset : Prop :=
  (∀ (c : Cmd) (s : State), accepted 0x14 c s → bare c → unitOn s 9 = true → grpFormed s = false ∨ seqActive s = false →
    ∃ t, leadsTo (.isolate c) s (reply c 0 (rget t oRingSts).toNat 0 0 t) ∧ rget t oRingSts = setBit (rget s oRingSts) 3 ∧
      (∀ n < 12, rbit t (oLnkCtl n) 0 = false) ∧ t.hold.cells = s.hold.cells ∧ t.dmc.cells = s.dmc.cells ∧ t.host.mem = s.host.mem) ∧
  (∀ (c : Cmd) (s : State), accepted 0x15 c s → bare c → rfld s oCfgBoot 3 0 = 7 → s.rst.group = none →
    ∃ v, v = reply c 0 0 0 0 s ∧ leadsTo (.reset c) s { v with rst := { v.rst with warm := some 3 } }) ∧
  (∀ (c : Cmd) (b : Nat) (s : State), accepted 0x15 c s → c.flags = 0 → c.p0 = 2 + 256 * b → c.p1 = 0 → c.p2 = 0 → noP3 c = true →
    b < nBasins s → unitOn s 14 = true → rbit s oCkgEn1 b = true →
    (rbit s oCfgFenced b = true → rests s ∨ rbit s oCfgPlaced b = false →
      leadsTo (.reset c) s (reply c 0 0 0 0 { s with rst := { s.rst with basins := s.rst.basins ++ [b] } })) ∧
    (rbit s oCfgFenced b = false → leadsTo (.reset c) s (reply c 5 0 0 0 s))) ∧
  (∀ (c : Cmd) (s : State), accepted 0x15 c s → c.flags = 0 → c.p0 = 1 → c.p1 = 0 → c.p2 = 0 → noP3 c = true →
    (grpFormed s = true → leadDev s = s.dev.devid → ∃ u t, leadsTo (.reset c) s u ∧ nowNs s + 1000000 ≤ t ∧ t < nowNs s + 1001000 ∧ t % 1000 = 0 ∧
      u.rst = { s.rst with group := some (s.dev.devid, t / 1000000000, t % 1000000000) } ∧ u.lkp.run = s.lkp.run ++ [c] ∧ u.regs = s.regs) ∧
    (grpFormed s = false ∨ leadDev s ≠ s.dev.devid → leadsTo (.reset c) s (reply c 5 0 0 0 s)))

/-- SEQ_SET on a device that runs alone writes the registers its mask names and no other register, and is in progress until its reply, OK
with GSC, follows; values beyond their registers' limits are BAD_PARAM. Where it goes beyond the rules cited it rests on the model's choices
of log entry 28. -/
def Obligations.SeqSetCommand : Prop :=
  (∀ (c : Cmd) (s : State), accepted 0x18 c s → c.flags = 0 → c.p0 < 32 → (c.p3.drop 4).all (· = 0#8) = true → unitOn s 8 = true →
    grpFormed s = false → seqSetOk c.p0 (nfld c.p1 31 0) (nfld c.p1 63 32) (nfld c.p2 31 0) (nfld c.p2 63 32) (leNat (c.p3.take 4)) = true →
    ∃ t, leadsTo (.seqSet c) s t ∧ (∀ i off v, (i, off, v) ∈ [(0, oSeqFlight, nfld c.p1 31 0), (1, oSeqLock, nfld c.p1 63 32),
        (2, oSeqThrottle, nfld c.p2 31 0), (3, oSeqOvr, nfld c.p2 63 32), (4, oSeqStallTmo, leNat (c.p3.take 4))] →
        rget t off = if nbit c.p0 i then BitVec.ofNat 32 v else rget s off) ∧
      regsBut [oSeqFlight, oSeqLock, oSeqThrottle, oSeqOvr, oSeqStallTmo] s t ∧ t.seq.F = s.seq.F ∧ t.seq.gsc = s.seq.gsc ∧
      t.seq.st = s.seq.st ∧ t.hold = s.hold ∧ t.dmc = s.dmc) ∧
  (∀ (c : Cmd) (s : State), accepted 0x18 c s → c.flags = 0 →
    seqSetOk c.p0 (nfld c.p1 31 0) (nfld c.p1 63 32) (nfld c.p2 31 0) (nfld c.p2 63 32) (leNat (c.p3.take 4)) = false →
    leadsTo (.seqSet c) s (reply c 2 0 0 0 s))

/-- A host access of 4 or 8 aligned bytes to BAR2 that meets an idle bank with a good word: a read returns the bytes at once and changes
nothing else; a write through the plain window stores them with good check bits, through the set window sets, through the clear window
clears the bits that are 1, and no other word changes. A read of several words, in a device that does not run, is as many reads, in address
order (a word goes out when its credit and a reply buffer are free). Another form is an Unsupported Request, or discarded; so is every
access below Run or in Keep. A host access to hold memory whose DRAM banks are idle, on stacks that are available: a read of words without
error returns their bytes and changes nothing else; a write stores exactly its bytes, with good check bits, where it covers whole words or
the words it covers in part are without error. Beyond populated hold memory a read returns zeros and a write is discarded, with HLD_HSTS
showing it, while the part inside is performed. On a stack that is not available, and below Run, a read is an Unsupported Request and a
write is discarded, with HLD_HSTS.OFFLINE. -/
def Obligations.HostApertures : Prop :=
  ((∀ (off len : Nat) (s : State), endpointDown s = false → stubAnswers s 47 0 = false → hostQuiet s = true → (len = 4 ∧ off % 4 = 0) ∨ (len = 8 ∧ off % 8 = 0) →
    off < 0x12000000 → bankFree s (bar2Bank off) = true → dmEcc s (bar2Bank off) (bar2WordOf off) = .clean →
    leadsTo (.bar2Read off len) s (hostCpl .ok false 2 off
      (((leBytes 8 (dmWord s (bar2Bank off) (bar2WordOf off)).toNat).drop (off % 8)).take len) (bankAccess (bar2Bank off) s))) ∧
  (∀ (off n : Nat) (s : State), endpointDown s = false → stubAnswers s 47 0 = false → hostQuiet s = true → seqRuns s = false → off % 8 = 0 → 1 ≤ n → off + 8 * n ≤ 0x12000000 →
    (∀ i < n, bankFree s (bar2Bank (off + 8 * i)) = true ∧ dmEcc s (bar2Bank (off + 8 * i)) (bar2WordOf (off + 8 * i)) = .clean) →
    ∃ u, leadsTo (.bar2Read off (8 * n)) s u ∧
      u.host.cpl = ((List.range n).map fun i => ⟨.ok, false, 2, off + 8 * i,
        leBytes 8 (dmWord s (bar2Bank (off + 8 * i)) (bar2WordOf (off + 8 * i))).toNat⟩).reverse ++ s.host.cpl ∧
      { u with host := { u.host with cpl := s.host.cpl }, dmc := { u.dmc with cycle := s.dmc.cycle } } = s) ∧
  (∀ (off : Nat) (data : List Byte) (s : State), endpointDown s = false → stubAnswers s 47 0 = false → hostQuiet s = true →
    (data.length = 4 ∧ off % 4 = 0) ∨ (data.length = 8 ∧ off % 8 = 0) → off < 0x12000000 →
    let k := bar2Bank off
    let w := bar2WordOf off
    let v := BitVec.ofNat 64 (leNat data * 2 ^ (8 * (off % 8)))
    let m := BitVec.ofNat 64 ((2 ^ (8 * data.length) - 1) * 2 ^ (8 * (off % 8)))
    bankFree s k = true → issuesNext s k = false ∨ (data.length = 8 ∧ off < 0x6000000) →
    dmEcc s k w = .clean ∨ (data.length = 8 ∧ off < 0x6000000) →
    ∃ u, leadsTo (.bar2Write off data) s u ∧
      dmWord u k w = (if off < 0x6000000 then (dmWord s k w &&& ~~~m) ||| v else if off < 0xC000000 then dmWord s k w ||| v
        else dmWord s k w &&& ~~~v) ∧
      dmEcc u k w = .clean ∧
      (∀ a, a < 0x40000 * k + 8 * w ∨ 0x40000 * k + 8 * w + 8 ≤ a → mget 0#8 u.dmc.cells a = mget 0#8 s.dmc.cells a) ∧
      { u with dmc := { u.dmc with cells := s.dmc.cells, ecc := s.dmc.ecc, writeback := s.dmc.writeback, cycle := s.dmc.cycle,
                                   used := s.dmc.used } } = s) ∧
  (∀ (off len : Nat) (data : List Byte) (s : State), endpointDown s = false →
    hostWindow s = false ∨ (bar2Form off len = false ∧ bar2Form off data.length = false) →
    leadsTo (.bar2Read off len) s (hostCpl .unsupported false 2 off [] s) ∧ leadsTo (.bar2Write off data) s s)) ∧
  ((∀ (a len : Nat) (s : State), endpointDown s = false → hostWindow s = true → stubAnswers s 45 0 = false → s.hold.jobs = [] → 1 ≤ len →
    let n := holdInside s a len
    n = 0 ∨ holdOffline s a n = false → bytesIdle s a n = true → (∀ i < n, hdEcc s ((a + i) / 8) = .clean) →
    let bytes := ((List.range n).map fun i => mget 0#8 s.hold.cells (a + i)) ++ List.replicate (len - n) 0#8
    (n = len → leadsTo (.bar4Read a len) s (hostCpl .ok false 4 a bytes s)) ∧
    (n < len → ∃ u, leadsTo (.bar4Read a len) s u ∧ rbit u oHldHsts 3 = true ∧ u.host.cpl = ⟨.ok, false, 4, a, bytes⟩ :: s.host.cpl ∧
      regsBut [oHldHsts, oHldHaddr] s u ∧ { u with regs := s.regs, host := { u.host with cpl := s.host.cpl } } = s)) ∧
  (∀ (a : Nat) (data : List Byte) (s : State), endpointDown s = false → hostWindow s = true → stubAnswers s 45 0 = false → s.hold.jobs = [] → 1 ≤ data.length →
    let n := holdInside s a data.length
    n = 0 ∨ holdOffline s a n = false → bytesIdle s a n = true →
    (a % 8 = 0 ∧ n % 8 = 0) ∨ (∀ i < n, hdEcc s ((a + i) / 8) = .clean) →
    ∃ u, leadsTo (.bar4Write a data) s u ∧
      (∀ x, mget 0#8 u.hold.cells x = if a ≤ x ∧ x < a + n then data.getD (x - a) 0#8 else mget 0#8 s.hold.cells x) ∧
      (∀ i < n, hdEcc u ((a + i) / 8) = .clean) ∧
      (∀ j, (∀ i < n, (a + i) / 8 ≠ j) → hdEcc u j = hdEcc s j) ∧
      (n < data.length → rbit u oHldHsts 3 = true) ∧ (n = data.length → u.regs = s.regs) ∧ regsBut [oHldHsts, oHldHaddr] s u ∧
      { u with regs := s.regs, hold := { u.hold with cells := s.hold.cells, ecc := s.hold.ecc, writeback := s.hold.writeback } } = s) ∧
  (∀ (a len : Nat) (data : List Byte) (s : State), endpointDown s = false →
    (hostWindow s = false ∧ rbit s oCfgSts 4 = false) ∨
      (hostWindow s = true ∧ stubAnswers s 45 0 = false ∧ (holdInside s a len ≠ 0 ∧ holdOffline s a (holdInside s a len) = true) ∧
        holdInside s a data.length ≠ 0 ∧ holdOffline s a (holdInside s a data.length) = true) →
    (∃ u, leadsTo (.bar4Read a len) s u ∧ rbit u oHldHsts 4 = true ∧ u.host.cpl = ⟨.unsupported, false, 4, a, []⟩ :: s.host.cpl ∧
      regsBut [oHldHsts, oHldHaddr] s u ∧ u.hold = s.hold) ∧
    ∃ u, leadsTo (.bar4Write a data) s u ∧ rbit u oHldHsts 4 = true ∧ regsBut [oHldHsts, oHldHaddr] s u ∧ restSame s u))

/-- A service access waits in its bank's buffer; one that meets a scheduled access to another word waits and is counted in DMC_CONF of its
master; a read that meets a scheduled read of its word is answered with the same word; a write that meets one is deferred, one that meets a
scheduled write of its word is answered with code 1 and never performed, and a read that meets one is answered with code 2 and a value that
is free (log entry 1). A bank whose cycle is free performs the waiting access whose turn it is: a write stores the word with new check bits,
whatever its old ones; a set, clear or partial write of a good word changes the bits it names; a read of a good word is answered with it; an
unowned or offline bank answers with its code and performs nothing. A deferred write is performed in a free cycle. A write-back makes a word
of a single wrong bit good and changes no data; a patrol read of a good word only moves the pointer on, modulo 32,768, and a pass that ends
begins the next, with the period that DMC_PATROL then holds. A bank makes one access a cycle. Where it goes beyond the rules cited it rests
on the model's choices of log entry 16. -/
def Obligations.BankService : Prop :=
  (∀ (r0 : SvcReq) (s : State), r0.bank < nBanks s → r0.counted = false →
    let r := { r0 with cycle := s.dmc.cycle }
    (schedAt s r.bank = none → leadsTo (.dmcServiceRequest r0) s { s with dmc := { s.dmc with waiting := s.dmc.waiting ++ [r] } }) ∧
    (∀ m, schedAt s r.bank = some m →
      (m.addr ≠ r.word ∨ svcRmw r.op = true → ∃ u, leadsTo (.dmcServiceRequest r0) s u ∧
        u.dmc = { s.dmc with waiting := s.dmc.waiting ++ [{ r with counted := true }] } ∧
        (rget u (oDmcConf r.master)).toNat = min ((rget s (oDmcConf r.master)).toNat + 1) (2 ^ 32 - 1) ∧
        regsBut [oDmcConf r.master] s u ∧ { u with regs := s.regs, dmc := s.dmc } = s) ∧
      (m.addr = r.word → r.op = .read ∨ r.op = .readHalf → memReads m = true → bankOff s r.bank = false → ownMode s r.bank ≠ 0 →
        dmEcc s r.bank r.word = .clean → leadsTo (.dmcServiceRequest r0) s (svcReply r 0 (dmWord s r.bank r.word) s)) ∧
      (m.addr = r.word → r.op = .write → memReads m = true →
        leadsTo (.dmcServiceRequest r0) s { s with dmc := { s.dmc with deferred := s.dmc.deferred ++ [r] } }) ∧
      (m.addr = r.word → r.op = .write → memReads m = false → leadsTo (.dmcServiceRequest r0) s (svcReply r 1 0#64 s)) ∧
      (m.addr = r.word → r.op = .read ∨ r.op = .readHalf → memReads m = false →
        leadsTo (.dmcServiceRequest r0) s (svcReply r 2 (Config.freeValue s.freeCtr) { s with freeCtr := s.freeCtr + 1 })))) ∧
  ((∀ (k : Nat) (r : SvcReq) (s : State), memClockOn s = true → bankBusy s k = false → bankTaken s k = false → schedAt s k = none →
    patrolBehind s k = false → svcReady s k = some r → r.bank = k →
    (∀ c, svcRefused s k = some c → leadsTo (.dmcServiceAccess k) s
      (svcReply r c 0#64 (bankAccess k { s with dmc := { s.dmc with waiting := s.dmc.waiting.erase r } }))) ∧
    (svcRefused s k = none →
      (r.op = .write ∨ (svcRmw r.op = true ∧ dmEcc s k r.word = .clean) → ∃ v, leadsTo (.dmcServiceAccess k) s (svcReply r 0 0#64 v) ∧
        dmWord v k r.word = (match r.op with
          | .setBits => dmWord s k r.word ||| (r.data &&& r.mask)
          | .clearBits => dmWord s k r.word &&& ~~~(r.data &&& r.mask)
          | .partialW => (dmWord s k r.word &&& ~~~r.mask) ||| (r.data &&& r.mask)
          | .read | .readHalf | .write => r.data) ∧
        dmEcc v k r.word = (if r.op = .write ∧ r.poison = true then .poison else .clean) ∧
        (∀ a, a < 0x40000 * k + 8 * r.word ∨ 0x40000 * k + 8 * r.word + 8 ≤ a → mget 0#8 v.dmc.cells a = mget 0#8 s.dmc.cells a) ∧
        v.dmc.waiting = s.dmc.waiting.erase r ∧ { v with dmc := s.dmc } = s) ∧
      (r.op = .read ∨ r.op = .readHalf → dmEcc s k r.word = .clean → leadsTo (.dmcServiceAccess k) s
        (svcReply r 0 (dmWord s k r.word) (bankAccess k { s with dmc := { s.dmc with waiting := s.dmc.waiting.erase r } }))))) ∧
  (∀ (k : Nat) (r : SvcReq) (s : State), memClockOn s = true → schedAt s k = none → bankTaken s k = false → s.dmc.deferred.find? (·.bank = k) = some r → r.bank = k →
    r.op = .write → bankOff s k = false → ownMode s k ≠ 0 →
    ∃ v, leadsTo (.dmcDeferredWrite k) s (svcReply r 0 0#64 v) ∧ dmWord v k r.word = r.data ∧
      dmEcc v k r.word = (if r.poison then .poison else .clean) ∧
      (∀ a, a < 0x40000 * k + 8 * r.word ∨ 0x40000 * k + 8 * r.word + 8 ≤ a → mget 0#8 v.dmc.cells a = mget 0#8 s.dmc.cells a) ∧
      v.dmc.deferred = s.dmc.deferred.erase r ∧ { v with dmc := s.dmc } = s) ∧
  (∀ (k w : Nat) (s : State), mget false s.dmc.writeback (32768 * k + w) = true → schedAt s k = none → (∀ x ∈ s.dmc.deferred, x.bank ≠ k) →
    memClockOn s = true → bankTaken s k = false → dmEcc s k w = .single → ∃ u, exec (.dmcEccWriteback k w) s = .next u ∧ dmEcc u k w = .clean ∧
      mget false u.dmc.writeback (32768 * k + w) = false ∧ u.dmc.cells = s.dmc.cells ∧ (∀ j, j ≠ 32768 * k + w → mget .clean u.dmc.ecc j = mget .clean s.dmc.ecc j) ∧
      { u with dmc := { u.dmc with ecc := s.dmc.ecc, writeback := s.dmc.writeback, cycle := s.dmc.cycle, used := s.dmc.used } } = s) ∧
  (∀ (k : Nat) (s : State), k < nBanks s → ownMode s k ≠ 0 → bankOff s k = false → bankBusy s k = false → bankTaken s k = false →
    schedAt s k = none → memClockOn s = true → patrolYields s k = false → mget 0 s.dmc.patrolPtr k < 32768 → dmEcc s k (mget 0 s.dmc.patrolPtr k) = .clean →
    ∃ u, leadsTo (.dmcPatrolRead k) s u ∧ mget 0 u.dmc.patrolPtr k = (mget 0 s.dmc.patrolPtr k + 1) % 32768 ∧
      mget 0 u.dmc.patrolAt k = (if mget 0 s.dmc.patrolPtr k = 32767 then s.dmc.time else mget 0 s.dmc.patrolAt k) ∧
      (∀ j, j ≠ k → mget 0 u.dmc.patrolPtr j = mget 0 s.dmc.patrolPtr j ∧ mget 0 u.dmc.patrolAt j = mget 0 s.dmc.patrolAt j) ∧
      mget 1000 u.dmc.patrolMs k = (if mget 0 s.dmc.patrolPtr k = 32767 then rfld s oDmcPatrol 15 0 else mget 1000 s.dmc.patrolMs k) ∧
      { u with dmc := { u.dmc with patrolPtr := s.dmc.patrolPtr, patrolAt := s.dmc.patrolAt, patrolMs := s.dmc.patrolMs,
                                   cycle := s.dmc.cycle, used := s.dmc.used } } = s))

/-- A background check that falls behind sets its sticky bit and raises its event: the patrol 0x3003, the instruction scrub 0x1007, the hold
scrub 0x4006; no memory changes and the counts of frames and steps stay. A unit whose clock is gated raises no fault. -/
def Obligations.LateChecks : Prop :=
  (∀ s : State, unitOn s 15 = true → ∃ u, leadsTo .patrolLate s u ∧ rbit u oDmcSts 3 = true ∧ rbit u oSafSts 3 = true ∧ memSame s u ∧
    u.seq.F = s.seq.F ∧ u.seq.gsc = s.seq.gsc) ∧
  (∀ s : State, unitOn s 14 = true → ∃ u, leadsTo .instrScrubLate s u ∧ rbit u oSafSts 1 = true ∧ memSame s u ∧ u.seq.F = s.seq.F ∧
    u.seq.gsc = s.seq.gsc) ∧
  (∀ s : State, (unitOn s 15 = false → leadsTo .patrolLate s s) ∧ (unitOn s 14 = false → leadsTo .instrScrubLate s s) ∧
    (unitOn s 13 = false → leadsTo .holdScrubLate s s)) ∧
  (∀ s : State, unitOn s 13 = true → ∃ u, leadsTo .holdScrubLate s u ∧ rbit u oHldSts 2 = true ∧ rbit u oSafSts 4 = true ∧ memSame s u ∧ u.seq.F = s.seq.F ∧
    u.seq.gsc = s.seq.gsc)

/-- Hold memory: a DRAM bank issues a refresh that is postponed to its limit; else it performs the first request in line order, a write
storing its word, a read of a good word bringing it to the reply; with none waiting, no refresh due and no write-back of its own it does
nothing. With neither, an access of the last class that waits performs its line, and the turn passes to the party after its own (DESIGN
CHOICE, log entry 57). A refresh due behind requests waits. A scrub read of a good word in an idle bank moves its pointer on. A sluice's
reply comes to its tag while its stack is not in self-refresh: the slot is free, a tag that waits takes the reply, HLD_MAXLAT keeps the
largest time; where no request of the tag is served nothing happens. A stack whose initialization ends reads READY, and every word of it is
poisoned; its temperature decides the doubled refresh. That nothing happens in any other state is the model's choice, log entry 8. Where it
goes beyond the rules cited it rests on the model's choices of log entries 7, 52 and 57. -/
def Obligations.HoldAndSluices : Prop :=
  ((∀ (d : Nat) (s : State), stackOn s (d % nStacks s) = true → s.hold.jobs = [] → refreshForced s d = true → ∃ u, leadsTo (.holdAccessComplete d) s u ∧
    mget 0 u.hold.refDue d = mget 0 s.hold.refDue d - 1 ∧ (∀ j, j ≠ d → mget 0 u.hold.refDue j = mget 0 s.hold.refDue j) ∧
    { u with hold := { u.hold with refDue := s.hold.refDue } } = s) ∧
  (∀ (d : Nat) (r : SluReq) (s : State), stackOn s (d % nStacks s) = true → s.hold.jobs = [] → refreshForced s d = false →
    (bankQueue s d).head? = some r →
    (∀ x ∈ bankQueue s d, x.seen = true) →
    (r.write = true → ∃ u, leadsTo (.holdAccessComplete d) s u ∧ hdWord u (r.addr / 8) = r.data ∧
      hdEcc u (r.addr / 8) = (if r.poison then .poison else .clean) ∧
      (∀ x, x / 8 ≠ r.addr / 8 → mget 0#8 u.hold.cells x = mget 0#8 s.hold.cells x) ∧
      u.req = s.req.map (fun y => if y = r then { y with served := true, reply := .written } else y) ∧
      { u with req := s.req, hold := s.hold } = s) ∧
    (r.write = false → hdEcc s (r.addr / 8) = .clean → leadsTo (.holdAccessComplete d) s { s with
      req := s.req.map (fun y => if y = r then
        { y with served := true, reply := if r.xen then .dataX else .data (hdWord s (r.addr / 8)) } else y) })) ∧
  (∀ (d : Nat) (s : State), s.hold.jobs = [] → stackOn s (d % nStacks s) = false ∨ dramIdle s d = true →
    leadsTo (.holdAccessComplete d) s s) ∧
  (∀ (d : Nat) (s : State), stackOn s (d % nStacks s) = true → bankQueue s d ≠ [] →
    ∃ u, exec (.holdRefreshDue d) s = .next u ∧ mget 0 u.hold.refDue d = mget 0 s.hold.refDue d + 1 ∧
      (∀ j, j ≠ d → mget 0 u.hold.refDue j = mget 0 s.hold.refDue j) ∧ { u with hold := { u.hold with refDue := s.hold.refDue } } = s) ∧
  (∀ (d : Nat) (s : State), stackOn s (d % nStacks s) = false ∨ bankQueue s d = [] → exec (.holdRefreshDue d) s = .next s) ∧
  (∀ (i : Nat) (s : State), i < nStacks s → stackOn s i = true →
    let n := stackWord s i (mget 0 s.hold.scrubPtr i)
    s.hold.jobs = [] → dramIdle s (lineBank s (n / 8)) = true → hdEcc s n = .clean ∨ hdEcc s n = .poison → ∃ u, leadsTo (.holdScrubRead i) s u ∧
      mget 0 u.hold.scrubPtr i = (mget 0 s.hold.scrubPtr i + 1) % 0xC0000000 ∧ u.hold.cells = s.hold.cells ∧ u.hold.ecc = s.hold.ecc ∧
      { u with hold := s.hold } = s) ∧
  (∀ (d n : Nat) (j : HoldJob) (s : State), stackOn s (d % nStacks s) = true → refreshForced s d = false → bankQueue s d = [] →
    bankDue s d = false → nextJob s d = some (j, n) → (s.hold.jobs.map (·.id)).Nodup → j.why = .host ∨ j.why = .barge → (∀ x ∈ s.hold.jobs, x.lines ≠ []) →
    ∃ u, leadsTo (.holdAccessComplete d) s u ∧ mget 0 u.hold.turn d = (jobParty j + 1) % 3 ∧ (∀ e ≠ d, mget 0 u.hold.turn e = mget 0 s.hold.turn e) ∧
      (∀ x ∈ u.hold.jobs, x.id = j.id → x.lines = j.lines.erase n) ∧ (j.lines.erase n = [] → ∀ x ∈ u.hold.jobs, x.id ≠ j.id) ∧
      u.req = s.req)) ∧
  ((∀ (q t : Nat) (r : SluReq) (s : State), servedReq s q t = some r → rbit s (oHldStackSts (lineStack s (r.addr / 64))) 3 = false →
    r.live = true → getTag s q t = .waiting →
    ∃ u, exec (.sluiceReplyArrival q t) s = .next u ∧ u.req = s.req.erase r ∧ getTag u q t = r.reply ∧
      (∀ q' t', q' ≠ q ∨ t' ≠ t → getTag u q' t' = getTag s q' t') ∧
      rfld u oHldMaxlat 15 0 = max (rfld s oHldMaxlat 15 0) (min (s.tim.mono - r.ns) 0xFFFF) ∧ regsBut [oHldMaxlat] s u ∧
      { u with regs := s.regs, req := s.req, slu := s.slu } = s) ∧
  (∀ (q t : Nat) (s : State), (∀ r ∈ s.req, r.q = q → r.tag = t → r.served = false) ∨
      (∃ r, servedReq s q t = some r ∧ rbit s (oHldStackSts (lineStack s (r.addr / 64))) 3 = true) →
    exec (.sluiceReplyArrival q t) s = .next s) ∧
  (∀ (i : Nat) (s : State), i < nStacks s → rbit s (oHldStackSts i) 1 = true → ∃ u, exec (.holdStackReady i) s = .next u ∧
    rget u (oHldStackSts i) = setBit (clrBit (rget s (oHldStackSts i)) 1) 0 ∧
    (∀ n, n / 8 % nStacks s = i → hdEcc u n = .poison ∧ hdWord u n = 0#64) ∧
    (∀ n, n / 8 % nStacks s ≠ i → hdEcc u n = hdEcc s n ∧ hdWord u n = hdWord s n) ∧ regsBut [oHldStackSts i] s u ∧
    { u with regs := s.regs, hold := s.hold } = s) ∧
  (∀ (i temp : Nat) (s : State), i < nStacks s → ∃ u, exec (.holdRefreshDoubling i temp) s = .next u ∧
    rbit u (oHldStackSts i) 2 = decide (85 < temp) ∧ rfld u (oHldStackSts i) 15 8 = min temp 255 ∧ regsBut [oHldStackSts i] s u ∧ restSame s u))

/-- The oldest fragment reaches the matching store: it fills its place in the open entry of its key, or opens an entry in its partition,
with its values at index·W onward; one whose site is invalid or does not require it, one that is there already, and one that finds its
partition full are discarded with XCH_STS showing which. A key holds for one execution of a frame; a fragment of a run that has ended opens
an entry whose call is resolved. With no fragment under way nothing happens. At the close point of a frame no call of it stays open or
complete; before its second tick step, or while one of its fragments is under way, nothing happens. A record of the delivery engine goes
into the ring of its group, 64 bytes at the producer index, a taint notice first; the flow is then in service, blocking, or idle again where
it needs no completion. That nothing happens in any other state is the model's choice, log entry 8. Where it goes beyond the rules cited it
rests on the model's choices of log entries 32 and 38. -/
def Obligations.WharfCalls : Prop :=
  ((∀ s : State, s.xch.frags = [] → leadsTo .xchFragmentArrival s s) ∧
  (∀ (f : Fragment) (rest : List Fragment) (s : State), s.xch.frags = f :: rest → f.void = false →
    let e := siteEntry s f.site
    let key (x : XEntry) : Bool := x.site = f.site && x.frame = f.frame && x.pass = f.pass && !x.void && (x.st = .opened || x.st = .complete)
    (siteValid e = true → nbit (siteReq e) f.idx = true → s.xch.entries.find? key = none → partFree s (sitePart e) ≠ 0 →
      (f.idx + 1) * siteW e ≤ 128 → ∃ u x, leadsTo .xchFragmentArrival s u ∧ u.xch.entries = s.xch.entries ++ [x] ∧ u.xch.frags = rest ∧
        x.site = f.site ∧ x.frame = f.frame ∧ x.pass = f.pass ∧ x.resolved = f.ended ∧ x.part = sitePart e ∧ x.mask = 2 ^ f.idx ∧ x.unk = f.xen ∧ x.void = false ∧
        x.st = (if 2 ^ f.idx = siteReq e then .complete else .opened) ∧
        (∀ j < siteW e, pget x.pay (f.idx * siteW e + j) = pget f.data j) ∧ regsBut [oXchPartUse (sitePart e)] s u) ∧
    (∀ x, siteValid e = true → nbit (siteReq e) f.idx = true → s.xch.entries.find? key = some x → nbit x.mask f.idx = false →
      (f.idx + 1) * siteW e ≤ 128 → ∃ u y, leadsTo .xchFragmentArrival s u ∧ u.xch.frags = rest ∧
        u.xch.entries = s.xch.entries.map (fun z => if z.id = x.id then y else z) ∧ y.mask = x.mask + 2 ^ f.idx ∧
        y.unk = (x.unk || f.xen) ∧ y.st = (if x.st = .opened ∧ x.mask + 2 ^ f.idx = siteReq e then .complete else x.st) ∧
        (∀ j < siteW e, pget y.pay (f.idx * siteW e + j) = pget f.data j) ∧ { u with xch := s.xch } = s) ∧
    (siteValid e = false ∨ nbit (siteReq e) f.idx = false →
      ∃ u, leadsTo .xchFragmentArrival s u ∧ rbit u oXchSts 1 = true ∧ rbit u oSafSts 8 = true ∧ memSame s u) ∧
    (∀ x, siteValid e = true → nbit (siteReq e) f.idx = true → s.xch.entries.find? key = some x → nbit x.mask f.idx = true →
      ∃ u, leadsTo .xchFragmentArrival s u ∧ rbit u oXchSts 2 = true ∧ rbit u oSafSts 8 = true ∧ memSame s u) ∧
    (siteValid e = true → nbit (siteReq e) f.idx = true → s.xch.entries.find? key = none → partFree s (sitePart e) = 0 →
      ∃ u, leadsTo .xchFragmentArrival s u ∧ rbit u oXchSts 0 = true ∧ rbit u oSafSts 8 = true ∧
        (rget u oXchLoss).toNat = min ((rget s oXchLoss).toNat + 1) (2 ^ 32 - 1) ∧ memSame s u))) ∧
  ((∀ (f : Nat) (s : State), frLt f s.seq.F.toNat = true → (∀ g ∈ s.xch.frags, g.frame = f → g.void = true) →
    ∃ u, leadsTo (.xchClosePoint f) s u ∧ (∀ e ∈ u.xch.entries, e.frame = f → e.void = false → e.st ≠ .opened ∧ e.st ≠ .complete) ∧
      memSame s u) ∧
  (∀ (f : Nat) (s : State), frLt f s.seq.F.toNat = false ∨ (∃ g ∈ s.xch.frags, g.frame = f ∧ g.void = false) → leadsTo (.xchClosePoint f) s s) ∧
  (∀ (f : Nat) (t : List Nat) (s : State), unitOn s 11 = true → s.xch.notices = f :: t →
    let q := xchRing (rfld s oXchCtl 5 0)
    ringRoom s q = true → ∃ u, exec .xchDeliveryWrite s = .next u ∧ u.xch = { s.xch with notices := t } ∧ rget u q.pi = rget s q.pi + 1 ∧
      hostGet u (ringBase s q + 64 * ((rget s q.pi).toNat % ringN s q)) 64 =
        leBytes 4 (ringPhase s q * 2 ^ 31 + 2 * 2 ^ 28) ++ leBytes 4 0 ++ leBytes 8 (f % 2 ^ 48) ++ leBytes 48 0 ∧
      regsBut [q.pi] s u) ∧
  (∀ (f r w : Nat) (e : XEntry) (s : State), unitOn s 11 = true → s.xch.notices = [] → s.xch.visit = some (r, w) → w ≠ 0 →
    nextFlow s s.xch.grp r = some f → mget 0 s.xch.deficit s.xch.grp ≠ 0 → flowHead s f = some e →
    let q := xchRing r
    ∃ u, exec .xchDeliveryWrite s = .next u ∧ rget u q.pi = rget s q.pi + 1 ∧
      hostGet u (ringBase s q + 64 * ((rget s q.pi).toNat % ringN s q)) 64 = callBytes s (ringPhase s q) e ∧
      (∀ x, x < ringBase s q + 64 * ((rget s q.pi).toNat % ringN s q) ∨ ringBase s q + 64 * ((rget s q.pi).toNat % ringN s q) + 64 ≤ x →
        mget 0#8 u.host.mem x = mget 0#8 s.host.mem x) ∧
      flowSt u f = (if callBlocks s e then (if e.resolved then flowSt s f else .blocking) else if flowAuto s f then flowSt s f else .service) ∧
      mget 0 u.xch.deficit s.xch.grp = mget 0 s.xch.deficit s.xch.grp - 1 ∧ u.xch.grp = s.xch.grp ∧ regsBut [q.pi, oXchFired] s u) ∧
  (∀ s : State, unitOn s 11 = false → exec .xchDeliveryWrite s = .next s))

/-- A loss record goes out, 64 bytes into its ring, and leaves the queue. A return record is consumed: its value goes to the call in RETURN
of its handle; one whose call was resolved before sets LATE_RET, one whose handle no call has sets BAD_RET; without a record nothing
happens. The gauge unit's records: the oldest fail record whose verdict is released, and the oldest staged edge record, go into their rings
while those have room. An edge that is enabled, `sub` ns after the last crystal cycle, is staged with its time interpolated, or counted as
merged within 2 ns of the last, or, without budget, counted as discarded. A drain write, and its retry, put the one staged record, of at
most 256 bytes, into the trace region at the write pointer, where the region has room and its stacks are available and the DRAM banks of its
lines idle; no other byte of hold memory changes, the pointer moves on by the record's units, and staging is empty. With nothing staged, or
while a drain write waits for its banks, nothing happens. That nothing happens in any other state is the model's choice, log entry 8. Where
it goes beyond the rules cited it rests on the model's choices of log entries 32 and 33. -/
def Obligations.Records : Prop :=
  ((∀ (x : Nat × Nat × Nat) (s : State), unitOn s 11 = true →
    let ringOf (x : Nat × Nat × Nat) : Nat := grpRing s (flowGroup s (berthFlow s (siteBerth (siteEntry s x.1))))
    let q := xchRing (ringOf x)
    s.xch.losses.find? (fun y => ringRoom s (xchRing (ringOf y))) = some x →
    ∃ u, exec .xchLossRecordWrite s = .next u ∧ u.xch = { s.xch with losses := s.xch.losses.erase x } ∧ rget u q.pi = rget s q.pi + 1 ∧
      (hostGet u (ringBase s q + 64 * ((rget s q.pi).toNat % ringN s q) + 8) 8) = leBytes 8 (x.2.1 % 2 ^ 48) ∧
      (hostGet u (ringBase s q + 64 * ((rget s q.pi).toNat % ringN s q) + 24) 8) = leBytes 8 x.2.2 ∧ regsBut [q.pi] s u) ∧
  (∀ s : State, unitOn s 11 = false ∨ s.xch.losses = [] → exec .xchLossRecordWrite s = .next s) ∧
  (∀ s : State, unitOn s 11 = true → rbit s oXchRetLo 8 = true → rget s oXchRetPi ≠ rget s oXchRetCi →
    let a := ringBase s retRing + 32 * ((rget s oXchRetCi).toNat % 2 ^ rfld s oXchRetLo 4 0)
    let h := leNat (hostGet s a 4)
    let v : BitVec 128 := BitVec.ofNat 128 (leNat (hostGet s (a + 16) 16))
    let waits (e : XEntry) : Bool := e.st = .ret && e.handle = h
    (∀ e, s.xch.entries.find? waits = some e → e.value = none →
      ∃ u, leadsTo .xchReturnRecordRead s u ∧ rget u oXchRetCi = rget s oXchRetCi + 1 ∧
        (∀ y ∈ u.xch.entries, y.id = e.id → y.value = some v) ∧ regsBut [oXchRetCi] s u ∧ { u with regs := s.regs, xch := s.xch } = s) ∧
    (s.xch.entries.find? waits = none → h ∈ s.xch.lateH →
      ∃ u, leadsTo .xchReturnRecordRead s u ∧ rget u oXchRetCi = rget s oXchRetCi + 1 ∧ rbit u oXchSts 5 = true ∧
        regsBut [oXchRetCi, oXchSts] s u ∧ restSame s u) ∧
    (s.xch.entries.find? waits = none → h ∉ s.xch.lateH →
      ∃ u, leadsTo .xchReturnRecordRead s u ∧ rget u oXchRetCi = rget s oXchRetCi + 1 ∧ rbit u oXchSts 6 = true ∧
        regsBut [oXchRetCi, oXchSts] s u ∧ restSame s u)) ∧
  (∀ s : State, unitOn s 11 = false ∨ rbit s oXchRetLo 8 = false ∨ rget s oXchRetPi = rget s oXchRetCi → leadsTo .xchReturnRecordRead s s)) ∧
  ((∀ (r : FailRec) (t : List FailRec) (s : State), s.gau.fifo = r :: t → r.code.isSome = true → unitOn s 12 = true → s.gau.lost = none →
    ringRoom s (gauRing 0) = true →
    let a := ringBase s (gauRing 0) + 32 * ((rget s (oGauRingPi 0)).toNat % ringN s (gauRing 0))
    ∃ u, exec .gauFailRecordWrite s = .next u ∧ u.gau = { s.gau with fifo := t } ∧ rget u (oGauRingPi 0) = rget s (oGauRingPi 0) + 1 ∧
      hostGet u a 32 = failBytes (ringPhase s (gauRing 0)) r ∧ (∀ x, x < a ∨ a + 32 ≤ x → mget 0#8 u.host.mem x = mget 0#8 s.host.mem x) ∧
      regsBut [oGauRingPi 0] s u) ∧
  (∀ s : State, (∀ r, s.gau.fifo.head? = some r → r.code = none) ∨ unitOn s 12 = false ∨ ringRoom s (gauRing 0) = false →
    exec .gauFailRecordWrite s = .next s) ∧
  (∀ (r : EdgeRec) (t : List EdgeRec) (s : State), s.gau.edgeBuf = r :: t → unitOn s 12 = true → ringRoom s (gauRing 1) = true →
    let a := ringBase s (gauRing 1) + 16 * ((rget s (oGauRingPi 1)).toNat % ringN s (gauRing 1))
    ∃ u, exec .gauEdgeRecordWrite s = .next u ∧ u.gau = { s.gau with edgeBuf := t } ∧ rget u (oGauRingPi 1) = rget s (oGauRingPi 1) + 1 ∧
      hostGet u a 16 = leBytes 4 (ringPhase s (gauRing 1) * 2 ^ 31 + r.ovf.toNat * 2 ^ 30 + r.mrg.toNat * 2 ^ 29 + r.pol.toNat * 2 ^ 28 + r.input) ++
        leBytes 4 r.tsn ++ leBytes 4 r.sec ++ leBytes 4 r.flo ∧
      (∀ x, x < a ∨ a + 16 ≤ x → mget 0#8 u.host.mem x = mget 0#8 s.host.mem x) ∧ regsBut [oGauRingPi 1] s u) ∧
  (∀ s : State, s.gau.edgeBuf = [] ∨ unitOn s 12 = false ∨ ringRoom s (gauRing 1) = false → exec .gauEdgeRecordWrite s = .next s) ∧
  (∀ (i : Nat) (rising : Bool) (sub : Nat) (s : State), i < 16 → unitOn s 12 = true → clockRuns s = true → rbit s oGauEdgeCtl (2 * i + (if rising then 0 else 1)) = true →
    let e := mget EdgeIn.fresh s.gau.edges i
    let t := s.tim.mono + sub
    let budget := min 64 (e.budget + (t - e.refill) / 20)
    ((∃ l, e.last = some l ∧ l ≤ t ∧ t < l + 2) → ∃ u, exec (.edgeCapture i ⟨rising, sub⟩) s = .next u ∧ u.gau.edgeBuf = s.gau.edgeBuf ∧
      (rget u (oGauEdgeMerged i)).toNat = min ((rget s (oGauEdgeMerged i)).toNat + 1) (2 ^ 32 - 1) ∧
      (mget EdgeIn.fresh u.gau.edges i).mrg = true ∧ regsBut [oGauEdgeMerged i] s u) ∧
    ((∀ l, e.last = some l → l + 2 ≤ t) → 0 < budget → s.gau.edgeBuf.length < 4096 →
      ∃ u r, exec (.edgeCapture i ⟨rising, sub⟩) s = .next u ∧ u.gau.edgeBuf = s.gau.edgeBuf ++ [r] ∧ r.input = i ∧ r.pol = rising ∧ r.ovf = e.ovf ∧
        r.mrg = e.mrg ∧ r.tsn = clockAt s (1000 * sub) / 2 ^ 32 % 2 ^ 32 ∧ r.sec = clockAt s (1000 * sub) / 2 ^ 32 / 1000000000 ∧ (mget EdgeIn.fresh u.gau.edges i).budget = budget - 1 ∧
        (mget EdgeIn.fresh u.gau.edges i).last = some t ∧ u.regs = s.regs) ∧
    ((∀ l, e.last = some l → l + 2 ≤ t) → budget = 0 ∨ 4096 ≤ s.gau.edgeBuf.length →
      ∃ u, exec (.edgeCapture i ⟨rising, sub⟩) s = .next u ∧ u.gau.edgeBuf = s.gau.edgeBuf ∧ rbit u oGauSts 4 = true ∧
        (rget u (oGauEdgeOvf i)).toNat = min ((rget s (oGauEdgeOvf i)).toNat + 1) (2 ^ 32 - 1) ∧
        regsBut [oGauEdgeOvf i, oGauSts, oGauInt] s u)) ∧
  (∀ (i : Nat) (rising : Bool) (sub : Nat) (s : State), unitOn s 12 = false ∨ clockRuns s = false ∨ 16 ≤ i ∨
      rbit s oGauEdgeCtl (2 * i + (if rising then 0 else 1)) = false →
    exec (.edgeCapture i ⟨rising, sub⟩) s = .next s)) ∧
  ((∀ s : State, s.trc.staging = [] → leadsTo .trcDrainWrite s s ∧ leadsTo .trcDrainRetry s s) ∧
  (∀ (i : Instr) (r : TrcRec) (s : State), i ∈ [Instr.trcDrainWrite, .trcDrainRetry] → s.hold.jobs = [] → s.trc.staging = [r] → s.trc.sent = 0 → unitOn s 7 = true →
    rbit s oTrcCtl 6 = false → r.bytes.length % 32 = 0 → 0 < r.bytes.length → r.bytes.length ≤ 256 →
    let size := 128 * rfld s oTrcSize 23 0
    let wp := fld (rget s oTrcWp) 29 0
    let n := r.bytes.length
    let at_ (j : Nat) : Nat := 4096 * rfld s oTrcBase 24 0 + (32 * wp + j) % (32 * size)
    size ≤ 2 ^ 30 → wp < size → regionUsed s + n / 32 ≤ size → (∀ j < n, stackOn s (at_ j / 64 % nStacks s) = true ∧ dramIdle s (lineBank s (at_ j / 64)) = true) →
    ∃ u, leadsTo i s u ∧ u.trc.staging = [] ∧ u.trc.sent = 0 ∧ u.trc.region = s.trc.region ++ [n / 32] ∧
      (∀ j < n, mget 0#8 u.hold.cells (at_ j) = r.bytes.getD j 0#8) ∧
      (∀ x, (∀ j < n, at_ j ≠ x) → mget 0#8 u.hold.cells x = mget 0#8 s.hold.cells x) ∧
      fld (rget u oTrcWp) 29 0 = (wp + n / 32) % size ∧
      bit (rget u oTrcWp) 31 = (bit (rget s oTrcWp) 31 != decide (size ≤ wp + n / 32)) ∧ rget u oTrcRp = rget s oTrcRp) ∧
  (∀ (j : HoldJob) (s : State), j ∈ s.hold.jobs → j.why = .trace → leadsTo .trcDrainWrite s s ∧ leadsTo .trcDrainRetry s s))

/-- Link training, state by state: each event moves its link from the state it belongs to on to the next, or back to DOWN with its FAIL
code, and in any other state does nothing; a link in DOWN whose enable is set and whose PLL is stable tries again at the retry timer; an UP
link that is lost goes DOWN, with 0x6007 for a group link. That nothing happens in any other state is the model's choice, log entry 8. Where
it goes beyond the rules cited it rests on the model's choices of log entry 34. -/
def Obligations.LinkTraining : Prop :=
  (∀ (n : Nat) (s : State), n < 12 → unitOn s 9 = true →
    (rfld s (oLnkSts n) 2 0 = 1 → ∃ u, exec (.linkSignalDetected n) s = .next u ∧ rfld u (oLnkSts n) 2 0 = 2 ∧
      regsBut [oLnkSts n, oStdCmp (64 + 2 * n), oStdCmp (65 + 2 * n)] s u ∧
      { u with regs := s.regs, std := s.std } = s) ∧
    (rfld s (oLnkSts n) 2 0 = 2 → ∃ u, exec (.linkTrainDone n) s = .next u ∧ rfld u (oLnkSts n) 2 0 = 3 ∧
      rfld u (oLnkSts n) 31 3 = rfld s (oLnkSts n) 31 3 ∧ regsBut [oLnkSts n] s u ∧ restSame s u) ∧
    (rfld s (oLnkSts n) 2 0 = 3 → ∃ u, exec (.linkAlignDone n) s = .next u ∧ rfld u (oLnkSts n) 2 0 = 4 ∧
      rfld u (oLnkSts n) 31 3 = rfld s (oLnkSts n) 31 3 ∧ (getLnk u n).ident = some (s.dev.devid, n, rfld s oLkgCfg 31 16) ∧
      regsBut [oLnkSts n] s u ∧ { u with regs := s.regs, lnk := s.lnk } = s) ∧
    (∀ i st, (i, st) ∈ [(Instr.linkDetectTimeout n, 1), (Instr.linkTrainTimeout n, 2), (Instr.linkAlignTimeout n, 3)] → rfld s (oLnkSts n) 2 0 = st →
      ∃ u, exec i s = .next u ∧ rfld u (oLnkSts n) 2 0 = 0 ∧ rfld u (oLnkSts n) 23 20 = st ∧ rbit u (oLnkCtl n) 1 = false ∧
        regsBut [oLnkSts n, oLnkCtl n] s u) ∧
    (∀ i st, (i, st) ∈ [(Instr.linkSignalDetected n, 1), (Instr.linkTrainDone n, 2), (Instr.linkAlignDone n, 3), (Instr.linkDetectTimeout n, 1),
      (Instr.linkTrainTimeout n, 2), (Instr.linkAlignTimeout n, 3)] → rfld s (oLnkSts n) 2 0 ≠ st → exec i s = .next s) ∧
    (rfld s (oLnkSts n) 2 0 = 0 → ∃ u, exec (.linkRetryTimer n) s = .next u ∧
      rfld u (oLnkSts n) 2 0 = (if rbit s (oLnkCtl n) 0 ∧ rfld s (oCkgPll (n / 4 + 1)) 31 30 = 3 then 1 else 0) ∧ regsBut [oLnkSts n] s u) ∧
    (rfld s (oLnkSts n) 2 0 ≠ 0 → exec (.linkRetryTimer n) s = .next s)) ∧
  (∀ (n dev link group : Nat) (s : State), n < 12 → unitOn s 9 = true → rfld s (oLnkSts n) 2 0 = 4 → dev < 64 → link < 12 → group < 2 ^ 16 →
    let pass : Prop := lnkGroup s n = false ∨ (group = rfld s oLkgCfg 31 16 ∧ dev ∈ members s ∧ dev ≠ s.dev.devid)
    ∃ u, exec (.linkIdentReceived n dev link group) s = .next u ∧ rget u (oLnkPeer n) = BitVec.ofNat 32 (2 ^ 31 + dev * 2 ^ 24 + link * 2 ^ 20 + group) ∧
      (pass → rfld u (oLnkSts n) 2 0 = 5) ∧ (¬pass → rfld u (oLnkSts n) 2 0 = 0 ∧ rfld u (oLnkSts n) 23 20 = 4)) ∧
  (∀ (n ps : Nat) (s : State), n < 12 → unitOn s 9 = true → rfld s (oLnkSts n) 2 0 = 5 →
    let cable := (ps - 55000 + 624) / 625 + 1
    (cable ≤ 255 → ps < 2 ^ 20 → ∃ u, exec (.linkMeasureDone n ps) s = .next u ∧ rfld u (oLnkSts n) 2 0 = 6 ∧
      rget u (oLnkDly n) = BitVec.ofNat 32 (cable * 2 ^ 24 + ps) ∧ regsBut [oLnkSts n, oLnkDly n, oLnkCtl n] s u) ∧
    (255 < cable → ∃ u, exec (.linkMeasureDone n ps) s = .next u ∧ rfld u (oLnkSts n) 2 0 = 0 ∧ rfld u (oLnkSts n) 23 20 = 5 ∧
      rfld u (oLnkDly n) 19 0 = ps % 2 ^ 20 ∧ rfld u (oLnkDly n) 31 20 = rfld s (oLnkDly n) 31 20)) ∧
  (∀ (n fail : Nat) (s : State), n < 12 → unitOn s 9 = true → rfld s (oLnkSts n) 2 0 = 6 → 0 < fail → fail < 16 →
    ∃ u, leadsTo (.linkDown n fail) s u ∧ rfld u (oLnkSts n) 2 0 = 0 ∧ rfld u (oLnkSts n) 23 20 = fail ∧
      (lnkGroup s n = true → rbit u (oLnkSts n) 6 = true ∧ rbit u oSafSts 6 = true) ∧ memSame s u) ∧
  (∀ (n fail : Nat) (s : State), rfld s (oLnkSts n) 2 0 ≠ 6 → leadsTo (.linkDown n fail) s s)

/-- What an UP link receives: a group of slots enters the elastic buffer at the next position of its number; a corrected codeword is
counted, an uncorrectable one counted, flagged and reported; a flit in order is acknowledged and the next expected, any other negatively
acknowledged; an acknowledgment takes the flits before it out of the replay buffer, and the flits that wait go out while it has room; a
control word whose copies both fail is counted and reported as 0x7002, and a halt vote places its halt, but one that comes after its step
marks the device diverged. An acknowledgment leaves in the control lane of a group without a position. Done-markers on an UP group link: the
marker of the frame whose window is open settles that window and nothing else; the marker of another frame is a frame mismatch, after which
the group counts as diverged; a window that closes without its marker is a lock fault of its frame. That nothing happens in any other state
is the model's choice, log entry 8. Where it goes beyond the rules cited it rests on the model's choices of log entries 43, 53 and 55. -/
def Obligations.LinkTraffic : Prop :=
  ((∀ (n ctl : Nat) (vals : List V4) (s : State), n < 12 → unitOn s 9 = true → rfld s (oLnkSts n) 2 0 = 6 →
    nfld ctl 59 58 = 1 → nfld ctl 57 47 < rfld s oSeqCfg 10 0 + 2 →
    let pos := nfld ctl 57 47
    let l := getLnk s n
    let v := rxPosition s n pos
    (l.buf.filter fun e => decide (s.seq.spos ≤ e.v + linkLat s n)).length < 384 →
    v % (rfld s oSeqCfg 10 0 + 2) = pos ∧ l.rxV ≤ v ∧ v < l.rxV + rfld s oSeqCfg 10 0 + 2 ∧
      exec (.linkGroupReceived n ctl vals) s = .next (setLnk n { l with
        rxV := v + 1, buf := l.buf ++ [⟨v, ppack 896 (vals ++ List.replicate (448 - vals.length) .z), false⟩] } s)) ∧
  (∀ (n ctl : Nat) (vals : List V4) (s : State),
    rfld s (oLnkSts n) 2 0 ≠ 6 ∨ nfld ctl 59 58 ≠ 1 ∨ rfld s oSeqCfg 10 0 + 2 ≤ nfld ctl 57 47 →
    exec (.linkGroupReceived n ctl vals) s = .next s) ∧
  (∀ (n : Nat) (s : State), n < 12 → unitOn s 9 = true → 4 ≤ rfld s (oLnkSts n) 2 0 →
    leadsTo (.linkCodewordReceived n .clean) s s ∧
      (∃ u, leadsTo (.linkCodewordReceived n .corrected) s u ∧ rfld u (oLnkFec n) 15 0 = min (rfld s (oLnkFec n) 15 0 + 1) 0xFFFF ∧
        regsBut [oLnkFec n] s u ∧ restSame s u) ∧
      ∀ ps flit, ∃ u, leadsTo (.linkCodewordReceived n (.uncorrectable ps flit)) s u ∧ rfld u (oLnkFec n) 31 16 = min (rfld s (oLnkFec n) 31 16 + 1) 0xFFFF ∧
        rbit u (oLnkSts n) 7 = true ∧ rbit u oSafSts 7 = true ∧ memSame s u) ∧
  (∀ (n seq : Nat) (ok : Bool) (s : State), n < 12 → unitOn s 9 = true → rfld s (oLnkSts n) 2 0 = 6 →
    (let next := ((getLnk s n).rxSeq + 1) % 4096
     ok = true → seq % 4096 = (getLnk s n).rxSeq → ∃ u, leadsTo (.linkFlitReceived n seq ok) s u ∧ (getLnk u n).rxSeq = next ∧
      (getLnk u n).ack = some (false, next) ∧ (getLnk u n).tx.toNat / 2 ^ 896 = 3 * 2 ^ 44 + next * 2 ^ 31 ∧
      (getLnk u n).unacked = (getLnk s n).unacked ∧ { u with lnk := s.lnk } = s) ∧
    (let next := (getLnk s n).rxSeq
     ok = false ∨ seq % 4096 ≠ next → next < 4096 → ∃ u, leadsTo (.linkFlitReceived n seq ok) s u ∧ (getLnk u n).rxSeq = next ∧
      (getLnk u n).ack = some (true, next) ∧ (getLnk u n).tx.toNat / 2 ^ 896 = 3 * 2 ^ 44 + 2 ^ 43 + next * 2 ^ 31 ∧
      (getLnk u n).unacked = (getLnk s n).unacked ∧ { u with lnk := s.lnk } = s) ∧
    (let keep := (getLnk s n).unacked.dropWhile fun x => decide (0 < (seq + 4096 - x) % 4096) && decide ((seq + 4096 - x) % 4096 ≤ 128)
     let out := min (getLnk s n).txWait (128 - keep.length)
     let sent : List Nat := keep ++ (List.range out).map fun i => ((getLnk s n).txSeq + i) % 4096
     (∀ nak, nak = false ∨ keep = [] → ∃ u, leadsTo (.linkAckReceived n nak seq) s u ∧ (getLnk u n).unacked = sent ∧
        (getLnk u n).txWait = (getLnk s n).txWait - out ∧ (getLnk u n).replays = 0 ∧ { u with lnk := s.lnk } = s) ∧
      ((getLnk s n).replays < 15 → keep ≠ [] → ∃ u, leadsTo (.linkAckReceived n true seq) s u ∧ (getLnk u n).unacked = sent ∧
        (getLnk u n).txWait = (getLnk s n).txWait - out ∧
        (getLnk u n).replays = (if keep.length < (getLnk s n).unacked.length then 1 else (getLnk s n).replays + 1) ∧
        rfld u (oLnkRetry n) 15 0 = min (rfld s (oLnkRetry n) 15 0 + keep.length) 0xFFFF ∧ regsBut [oLnkRetry n] s u ∧
        { u with lnk := s.lnk, regs := s.regs } = s))) ∧
  (∀ (n kind src seq arg : Nat) (s : State), n < 12 → unitOn s 9 = true → rfld s (oLnkSts n) 2 0 = 6 → lnkGroup s n = true →
    (∃ u, leadsTo (.expressWordReceived n kind src seq arg false) s u ∧ rbit u (oLnkSts n) 10 = true ∧
      rfld u (oLnkRetry n) 31 16 = min (rfld s (oLnkRetry n) 31 16 + 1) 0xFFFF ∧ rbit u oSafSts 7 = true ∧ memSame s u) ∧
    (src = s.dev.devid ∨ seq ∈ mget [] s.grp.seen src → kind ≠ 10 → leadsTo (.expressWordReceived n kind src seq arg true) s s) ∧
    (src ≠ s.dev.devid → seq ∉ mget [] s.grp.seen src → seqRuns s = true → s.seq.halt = none →
      let e := 256 * nearest 34 arg (s.seq.gsc.toNat / 256)
      haltDone s e = false → e ≠ s.seq.gsc.toNat → ∃ u, leadsTo (.expressWordReceived n 7 src seq arg true) s u ∧
        u.seq = { s.seq with halt := some e, haltSrc := src } ∧ seq ∈ mget [] u.grp.seen src ∧ u.regs = s.regs) ∧
    (src ≠ s.dev.devid → seq ∉ mget [] s.grp.seen src → seqRuns s = true →
      haltDone s (256 * nearest 34 arg (s.seq.gsc.toNat / 256)) = true → ∃ u, leadsTo (.expressWordReceived n 7 src seq arg true) s u ∧
        u.seq.diverged = true ∧ rbit u oSeqSts 14 = true ∧ rbit u oSafSts 6 = true ∧ memSame s u))) ∧
  (∀ (n f : Nat) (t : List Nat) (s : State), n < 12 → unitOn s 9 = true → rfld s (oLnkSts n) 2 0 = 6 → lnkGroup s n = true →
    (getLnk s n).marks = f :: t →
    (s.seq.markHold = false → leadsTo (.doneMarkerReceived n (f % 2 ^ 32) false false) s (setLnk n { getLnk s n with marks := t } s)) ∧
    (∀ fLo taint, fLo % 2 ^ 32 ≠ f % 2 ^ 32 → ∃ u, leadsTo (.doneMarkerReceived n fLo taint false) s u ∧ u.seq.diverged = true ∧
      rbit u (oLnkSts n) 8 = true ∧ rbit u oLkgSts 3 = true ∧ rbit u oSafSts 6 = true ∧ memSame s u) ∧
    (∃ u, leadsTo (.markerWindowClose n) s u ∧ rbit u (oLnkSts n) 8 = true ∧ rbit u oLkgSts 3 = true ∧ rbit u oSafSts 6 = true ∧
      (getLnk u n).marks = t ∧ memSame s u))

/-- Group formation ends: FORMED where the configuration holds, every group link is UP, every member is reached over UP links and the time
is locked; FAIL with the first cause, with 4 where the configuration breaks a rule this device sees, or with 5 when its time is over. A ring
message for another device is passed on; the lead's mode message sets LKG_MODE, a member's report is kept; a message of another group does
nothing, and a device in bypass hears none. A port that retrains shows it in RING_STS, and the messages lost are sent again. That nothing
happens in any other state is the model's choice, log entry 8. Where it goes beyond the rules cited it rests on the model's choices of log
entries 17 and 34. -/
def Obligations.GroupAndRing : Prop :=
  (∀ (links : List GLink) (s : State), unitOn s 9 = true → rbit s oLkgSts 1 = true → formMismatch s = false →
    (∀ n < 12, lnkGroup s n = true → rfld s (oLnkSts n) 2 0 = 6) → rfld s oTimCtl 1 0 = 0 ∨ rbit s oTimSts 0 = true →
    members s ≠ [s.dev.devid] → stretchWanted s = 0 →
    (∀ d ∈ members s, mget none (pathsFrom (groupLinks s links) s.dev.devid (members s).length) d ≠ none) →
    ∃ u, leadsTo (.groupFormationComplete 0 links) s u ∧ rbit u oLkgSts 0 = true ∧ rbit u oLkgSts 1 = false ∧ rbit u oLkgSts 2 = false ∧
      u.grp.topo = groupLinks s links ∧ u.grp.pathPs = worstPath (members s) (groupLinks s links) ∧ regsBut [oLkgSts, oSeqHorizon] s u ∧
      { u with regs := s.regs, grp := s.grp } = s) ∧
  (∀ (links : List GLink) (s : State), unitOn s 9 = true → rbit s oLkgSts 1 = true → formMismatch s = false →
    rfld s oTimCtl 1 0 = 0 ∨ rbit s oTimSts 0 = true → members s = [s.dev.devid] → stretchWanted s = 0 →
    ∃ u, leadsTo (.groupFormationComplete 0 links) s u ∧ rbit u oLkgSts 0 = true ∧ rbit u oLkgSts 1 = false ∧ rbit u oLkgSts 2 = false ∧
      regsBut [oLkgSts, oSeqHorizon] s u ∧ { u with regs := s.regs, grp := s.grp } = s) ∧
  (∀ (ferr : Nat) (links : List GLink) (s : State), unitOn s 9 = true → rbit s oLkgSts 1 = true → formMismatch s = true ∨ 1 ≤ ferr → ferr ≤ 5 →
    ∃ u, leadsTo (.groupFormationComplete ferr links) s u ∧ rbit u oLkgSts 2 = true ∧ rbit u oLkgSts 1 = false ∧
      rfld u oLkgSts 31 28 = (if formMismatch s then 4 else ferr) ∧ rbit u oLkgSts 0 = rbit s oLkgSts 0 ∧ regsBut [oLkgSts] s u ∧ restSame s u) ∧
  (∀ s : State, unitOn s 9 = true → rbit s oLkgSts 1 = true →
    ∃ u, exec .groupFormationTimeout s = .next u ∧ rbit u oLkgSts 2 = true ∧ rbit u oLkgSts 1 = false ∧ rfld u oLkgSts 31 28 = 5 ∧
      regsBut [oLkgSts] s u ∧ restSame s u) ∧
  (∀ s : State, rbit s oLkgSts 1 = false → exec .groupFormationTimeout s = .next s) ∧
  (∀ (src dst gid : Nat) (m : RingMsg) (e : SwitchEnd) (s : State), bypassed s = false → dst ≠ s.dev.devid →
    leadsTo (.ringMessageReceived src dst gid m e) s { s with grp := { s.grp with ringOut := (gid % 2 ^ 16, dst, m) :: s.grp.ringOut } }) ∧
  (∀ (src dst gid : Nat) (m : RingMsg) (e : SwitchEnd) (s : State), bypassed s = true → leadsTo (.ringMessageReceived src dst gid m e) s s) ∧
  (∀ (src gid : Nat) (m : RingMsg) (e : SwitchEnd) (s : State), bypassed s = false → m ≠ .wake →
    grpFormed s = false ∨ gid % 2 ^ 16 ≠ rfld s oLkgCfg 31 16 ∨ src ∉ otherDevs s →
    leadsTo (.ringMessageReceived src s.dev.devid gid m e) s s) ∧
  (∀ (src : Nat) (stall : Bool) (e : SwitchEnd) (s : State), bypassed s = false → rbit s oLkpSts 31 = true → grpFormed s = true → src ∈ otherDevs s →
    (src = leadDev s → leadsTo (.ringMessageReceived src s.dev.devid (rfld s oLkgCfg 31 16) (.mode stall) e) s (rset oLkgMode (if stall then 1#32 else 0#32) s)) ∧
    ∀ (st power : Nat) (lock hold fenced apart : Bool) (digest : List Byte),
      leadsTo (.ringMessageReceived src s.dev.devid (rfld s oLkgCfg 31 16) (.report st lock digest power hold fenced apart) e) s
        { s with lkp := { s.lkp with
          reports := (src, ⟨seqOfCode st, lock, digest, power, hold, fenced, apart⟩) :: s.lkp.reports.filter (·.1 ≠ src) } }) ∧
  (∀ (port lost : Nat) (up : Bool) (s : State), bypassed s = false → port < 2 →
    ∃ u, exec (.ringPortRetrain port up lost) s = .next u ∧
      rget u oRingSts = setBit (if up ∧ rfld s (oCkgPll 1) 31 30 = 3 then setBit (rget s oRingSts) port else clrBit (rget s oRingSts) port) 2 ∧
      u.grp = { s.grp with ringOut := s.grp.ringOut.take lost ++ s.grp.ringOut } ∧
      regsBut [oRingSts, oStdCmp 88] s u ∧ { u with regs := s.regs, grp := s.grp, std := s.std } = s)

/-- Network time: a reply heard on a trained ring port gives that port's delay, and on the upstream port the offset, the master and its
hops, and ends holdover; an accepted edge on 1PPS_IN gives its sample, one within half a second of the last none; a source that is lost
leaves the clock in holdover at the integral term; the crystal cycle in which the nanoseconds field carries advances the second and raises
1PPS_OUT. In any other state nothing happens. That nothing happens in any other state is the model's choice, log entry 8. Where it goes
beyond the rules cited it rests on the model's choices of log entries 5 and 25. -/
def Obligations.TimeEvents : Prop :=
  (∀ (p : Nat) (t1 t2 t3 : Int) (sub master hops gid : Nat) (valid : Bool) (s : State), rfld s oTimCtl 1 0 = 1 → p < 2 → bypassed s = false →
    rbit s oRingSts p = true → unitOn s 6 = true → gid = rfld s oLkgCfg 31 16 → rbit s oCkgSts 7 = true → master < 64 → hops < 63 →
    let t4 : Int := clockPs s sub
    t1 ≤ t4 → t2 ≤ t3 →
    let o : Int := ((t2 - t1) - (t4 - t3)) / 2 - signedFld 16 (rfld s (oTimAsym p) 15 0)
    ∃ u, leadsTo (.timeBeaconExchange p t1 t2 t3 sub master hops gid valid) s u ∧
      mget 0 u.tim.delay p = ((t2 - t1) + (t4 - t3)) / 2 ∧ mget (64, 64) u.tim.ports p = (master, hops) ∧
      ((∀ x ∈ s.tim.ports, x.1 = p) → rfld u oTimSts 25 20 = master ∧ rfld u oTimSts 19 14 = hops + 1 ∧
        rbit u oTimSts 8 = decide (p = 1) ∧ rbit u oTimSts 1 = false ∧ rget u oTimOffset = satWord o) ∧
      (∀ m h, s.tim.ports.find? (·.1 = 1 - p) = some (1 - p, m, h) → m < master ∨ (m = master ∧ h < hops) →
        (∀ x ∈ s.tim.ports, x.1 = 1 - p) → u.regs = s.regs ∧ clockFrac u = clockFrac s ∧ u.tim.trim = s.tim.trim) ∧
      regsBut [oTimSts, oTimOffset, oTimLaststep] s u ∧ { u with regs := s.regs, tim := s.tim } = s) ∧
  (∀ (p : Nat) (t1 t2 t3 : Int) (sub master hops gid : Nat) (valid : Bool) (s : State),
    rfld s oTimCtl 1 0 ≠ 1 ∨ 1 < p ∨ bypassed s = true ∨ rbit s oRingSts p = false ∨ unitOn s 6 = false ∨ gid ≠ rfld s oLkgCfg 31 16 ∨
      rbit s oCkgSts 7 = false →
    leadsTo (.timeBeaconExchange p t1 t2 t3 sub master hops gid valid) s s) ∧
  (∀ (sub : Nat) (s : State), rfld s oTimCtl 1 0 = 2 → rbit s oCkgSts 7 = true → unitOn s 6 = true →
    (∀ t, s.tim.pps = some t → t + 500000000000 ≤ 1000 * s.tim.mono + sub) →
    ∃ u, leadsTo (.ppsInEdge sub) s u ∧ u.tim.pps = some (1000 * s.tim.mono + sub) ∧ rbit u oTimSts 1 = false ∧
      regsBut [oTimSts, oTimOffset, oTimLaststep] s u ∧ { u with regs := s.regs, tim := s.tim } = s) ∧
  (∀ (sub : Nat) (s : State), rfld s oTimCtl 1 0 ≠ 2 ∨ rbit s oCkgSts 7 = false ∨ unitOn s 6 = false ∨
      (∃ t, s.tim.pps = some t ∧ 1000 * s.tim.mono + sub < t + 500000000000) →
    leadsTo (.ppsInEdge sub) s s) ∧
  (∀ s : State, rfld s oTimCtl 1 0 ≠ 0 → unitOn s 6 = true →
    let max : Int := (min 50000 (rfld s oCkgTol 9 0 * 500) : Nat) * 65536000
    ∃ u, leadsTo .timeSourceLost s u ∧ rbit u oTimSts 0 = false ∧ rbit u oTimSts 1 = true ∧ rbit u oTimSts 4 = true ∧
      u.tim.trim = (if s.tim.integ < -max then -max else if max < s.tim.integ then max else s.tim.integ) ∧ clockFrac u = clockFrac s ∧
      regsBut [oTimSts] s u ∧ { u with regs := s.regs, tim := s.tim } = s) ∧
  (∀ s : State, rfld s oTimCtl 1 0 = 0 ∨ unitOn s 6 = false → leadsTo .timeSourceLost s s) ∧
  (∀ s : State, rbit s oCkgEn0 6 = true →
    let at_ := clockAt s 40000
    let next := (s.tim.sec + 1) * 1000000000 * 2 ^ 32
    (next ≤ at_ → at_ < next + 1000000000 * 2 ^ 32 → s.tim.sec < 2 ^ 48 - 1 →
      ∃ u, exec .ppsOutPulse s = .next u ∧ u.tim.sec = s.tim.sec + 1 ∧ (1000000000 * u.tim.sec + u.tim.ns) * 2 ^ 32 + u.tim.frac = at_ ∧
        u.tim.ns < 1000000000 ∧ u.tim.mono = s.tim.mono + 40 ∧ (rbit s oTimCtl 3 = true → u.tim.high = some u.tim.mono) ∧
        (rbit s oTimCtl 3 = false → u.tim.high = s.tim.high) ∧
        { u with tim := s.tim, dmc := { u.dmc with time := s.dmc.time } } = s) ∧
    (at_ < next → exec .ppsOutPulse s = .next s)) ∧
  (∀ s : State, rbit s oCkgEn0 6 = false → exec .ppsOutPulse s = .next s)

/-- A request barge: one of the right form from a requester that holds a credit lies in its target's reserved buffer, and is served and
replied to when the target serves it; the stub of a node that is fenced, gated or absent answers FENCED and counts it; a malformed one is
counted in BNW_BAD and gets no reply; one of a reserved master ID is counted and answered FENCED; without a credit none is sent. A remote
request takes one of the buffers that the peer of its link holds free for its master; without a link it is answered FENCED. Of a request
that has come over a link, the link is remembered. Replies and timeouts: a reply ends the request it answers, a FENCED one of a host write
sets BNW_STS.FENCED; a reply arrives behind the older ones of its source, destination and priority; a malformed one is discarded and
counted. The reply to a request that came over a link goes back over it; the reply to a remote request gives its buffer at the peer back. A
request that waits for BNW_TMO is counted and recorded, and keeps its tag out of use until its reply, which is then discarded and counted in
BNW_LATE, or a credit restore from its target; a host read that times out completes as a Completer Abort. A control barge is consumed into
its sender's entry of the sink. That nothing happens in any other state is the model's choice, log entry 8. Where it goes beyond the rules
cited it rests on the model's choices of log entries 26 and 48. -/
def Obligations.Barges : Prop :=
  ((∀ (b : Barge) (via : Nat) (s : State), b ∉ s.bnw.taken → b.cls = 0 → bargeCredit s b = true → bargeForm b = true → b.master < 8 →
    b.remote = false ∨ b.master = 6 →
    let inbound := if b.master = 6 then s.bnw.inbound ++ [(via, b)] else s.bnw.inbound
    (stubAnswers s b.dst b.master = false →
      leadsTo (.bargeRequestArrival b ⟨false, via⟩) s
        { s with bnw := { s.bnw with sent := s.bnw.sent ++ [b], taken := s.bnw.taken ++ [b], inbound := inbound } } ∧
      (b.op = 4 → ∃ u, leadsTo (.bargeRequestArrival b ⟨true, via⟩) s u ∧ u.bnw.sent = s.bnw.sent ++ [b] ∧ u.bnw.taken = s.bnw.taken ∧
        u.bnw.inbound = inbound ∧
        u.bnw.replies = { b with cls := 1, dst := b.src, src := b.dst, status := 0, code := 0, ndata := 0, data := [] } :: s.bnw.replies ∧
        { u with bnw := s.bnw } = s)) ∧
    (∀ served, stubAnswers s b.dst b.master = true → ∃ u, leadsTo (.bargeRequestArrival b ⟨served, via⟩) s u ∧ u.bnw.taken = s.bnw.taken ∧
      u.bnw.inbound = inbound ∧
      u.bnw.replies = { b with cls := 1, dst := b.src, src := b.dst, status := 1, code := 0, ndata := 0, data := [] } :: s.bnw.replies ∧
      (rget u oBnwFencedCnt).toNat = min ((rget s oBnwFencedCnt).toNat + 1) (2 ^ 32 - 1) ∧ regsBut [oBnwFencedCnt] s u ∧
      { u with regs := s.regs, bnw := s.bnw } = s)) ∧
  (∀ (b : Barge) (served : Bool) (via : Nat) (s : State), b ∉ s.bnw.taken → b.cls ≠ 1 → b.cls ≠ 2 → bargeCredit s b = true → bargeForm b = false →
    ∃ u, leadsTo (.bargeRequestArrival b ⟨served, via⟩) s u ∧ rfld u oBnwBad 15 0 = min (rfld s oBnwBad 15 0 + 1) 0xFFFF ∧ rbit u oBnwSts 4 = true ∧
      u.bnw.replies = s.bnw.replies ∧ u.bnw.taken = s.bnw.taken ∧ regsBut [oBnwBad, oBnwSts] s u ∧ { u with regs := s.regs, bnw := s.bnw } = s) ∧
  (∀ (b : Barge) (served : Bool) (via : Nat) (s : State), b ∉ s.bnw.taken → bargeCredit s b = false →
    leadsTo (.bargeRequestArrival b ⟨served, via⟩) s s) ∧
  (∀ (b : Barge) (via : Nat) (s : State), b ∈ s.bnw.taken → b.remote = false → b.op = 0 → b.dst = 46 → b.master ≠ 0 →
    ∃ u, leadsTo (.bargeRequestArrival b ⟨true, via⟩) s u ∧ u.bnw.taken = s.bnw.taken.erase b ∧
      (∃ r, u.bnw.replies = r :: s.bnw.replies ∧ r.status = 0 ∧ r.code = 0 ∧ r.tag = b.tag ∧ r.data = (List.range b.len).map fun i => mget 0#8 s.host.mem (b.addr + i)) ∧
      { u with bnw := s.bnw } = s) ∧
  (∀ (b : Barge) (served : Bool) (via : Nat) (s : State), b ∉ s.bnw.taken → b.cls = 0 → bargeCredit s b = true → bargeForm b = true → 8 ≤ b.master →
    ∃ u, leadsTo (.bargeRequestArrival b ⟨served, via⟩) s u ∧ rfld u oBnwBad 15 0 = min (rfld s oBnwBad 15 0 + 1) 0xFFFF ∧ rbit u oBnwSts 4 = true ∧
      u.bnw.taken = s.bnw.taken ∧
      u.bnw.replies = { b with cls := 1, dst := b.src, src := b.dst, status := 1, code := 0, ndata := 0, data := [] } :: s.bnw.replies ∧
      regsBut [oBnwBad, oBnwSts] s u ∧ { u with regs := s.regs, bnw := s.bnw } = s) ∧
  (∀ (b : Barge) (served : Bool) (via : Nat) (s : State), b ∉ s.bnw.taken → b.cls = 0 → bargeCredit s b = true → bargeForm b = true → b.master < 6 →
    b.remote = true →
    (∀ n, remoteLink b.dev s = some n → mget 0 (getLnk s n).bufs b.master ≠ 0 → ∃ u, leadsTo (.bargeRequestArrival b ⟨served, via⟩) s u ∧
      u.bnw = { s.bnw with sent := s.bnw.sent ++ [b], held := s.bnw.held ++ [(n, b)] } ∧
      mget 0 (getLnk u n).bufs b.master = mget 0 (getLnk s n).bufs b.master - 1 ∧
      (getLnk u n).unacked.length + (getLnk u n).txWait = (getLnk s n).unacked.length + (getLnk s n).txWait + 1 + b.ndata ∧
      { u with bnw := s.bnw, lnk := s.lnk } = s) ∧
    (∀ n, remoteLink b.dev s = some n → mget 0 (getLnk s n).bufs b.master = 0 → leadsTo (.bargeRequestArrival b ⟨served, via⟩) s
      { s with bnw := { s.bnw with sent := s.bnw.sent ++ [b], taken := s.bnw.taken ++ [b] } }) ∧
    (remoteLink b.dev s = none → ∃ u, leadsTo (.bargeRequestArrival b ⟨served, via⟩) s u ∧ u.bnw.taken = s.bnw.taken ∧
      u.bnw.replies = { b with cls := 1, dst := b.src, src := b.dst, status := 1, code := 0, ndata := 0, data := [] } :: s.bnw.replies ∧
      { u with bnw := s.bnw } = s))) ∧
  ((∀ (r b : Barge) (s : State), r.cls = 1 → bargeForm r = true → replyBehind s r = false → s.bnw.sent.find? (repliesTo r) = some b →
    (∀ x ∈ s.bnw.held, x.2 ≠ b) → nodeFenced s r.dst = false →
    let done : State := { s with bnw := { s.bnw with sent := s.bnw.sent.erase b, replies := s.bnw.replies.erase r } }
    (2 ≤ b.master → b.master ≠ 6 → leadsTo (.bargeReplyArrival r) s done) ∧
    (b.master = 0 → b.op ≠ 0 → r.status = 1 → leadsTo (.bargeReplyArrival r) s (rset oBnwSts (setBit (rget s oBnwSts) 1) done)) ∧
    (b.master = 0 → b.op = 0 → r.status = 1 → r.code = 0 → ∃ u, leadsTo (.bargeReplyArrival r) s u ∧ rbit u oBnwSts 1 = true ∧ u.bnw = done.bnw ∧
      u.host.cpl = ⟨.ok, false, bargeBar b, b.addr, List.replicate b.len 0#8⟩ :: s.host.cpl ∧ regsBut [oBnwSts] s u)) ∧
  (∀ (r b : Barge) (s : State), r.cls = 1 → bargeForm r = true → replyBehind s r = false → s.bnw.sent.find? (repliesTo r) = none →
    s.bnw.dead.find? (repliesTo r) = some b → (∀ x ∈ s.bnw.held, x.2 ≠ b) →
    ∃ u, leadsTo (.bargeReplyArrival r) s u ∧ (rget u oBnwLate).toNat = min ((rget s oBnwLate).toNat + 1) (2 ^ 32 - 1) ∧
      u.bnw = { s.bnw with dead := s.bnw.dead.erase b, replies := s.bnw.replies.erase r } ∧ regsBut [oBnwLate] s u ∧
      { u with regs := s.regs, bnw := s.bnw } = s) ∧
  (∀ (b : Barge) (s : State), b ∈ s.bnw.sent → b.master ≠ 1 →
    ∃ u, leadsTo (.bargeTimeout b) s u ∧ u.bnw = { s.bnw with sent := s.bnw.sent.erase b, dead := s.bnw.dead ++ [b] } ∧
      (rget u oBnwTmoCnt).toNat = min ((rget s oBnwTmoCnt).toNat + 1) (2 ^ 32 - 1) ∧ rbit u oBnwSts 0 = true ∧ rbit u oBnwTmorec 31 = true ∧
      (rbit s oBnwTmorec 31 = true → rget u oBnwTmorec = rget s oBnwTmorec) ∧ (b.master = 0 → rbit u oBnwSts 2 = true) ∧
      u.host.cpl = (if b.master = 0 ∧ b.op = 0 then [⟨.abort, false, bargeBar b, b.addr, []⟩] else []) ++ s.host.cpl ∧
      regsBut [oBnwTmoCnt, oBnwSts, oBnwTmorec] s u) ∧
  (∀ (b : Barge) (s : State), b ∉ s.bnw.sent → b ∉ svcSent s → b ∉ jobSent s → leadsTo (.bargeTimeout b) s s) ∧
  (∀ (kind frm dst : Nat) (s : State), kind < 3 → frm < 48 → dst < 48 →
    let dead := if kind = 2 then s.bnw.dead.filter fun b => !(b.dst = frm && b.src = dst) else s.bnw.dead
    (∀ x ∈ s.bnw.control.find? (·.2 = (frm, dst)), x.1 = kind) →
    exec (.controlBargeArrival kind frm dst) s = .next { s with bnw := { s.bnw with
      control := s.bnw.control.erase (kind, frm, dst), sink := (kind, frm, dst) :: s.bnw.sink.filter (·.2 ≠ (frm, dst)), dead := dead } }) ∧
  (∀ (kind frm dst k : Nat) (s : State), s.bnw.control.find? (·.2 = (frm, dst)) = some (k, frm, dst) → k ≠ kind →
    exec (.controlBargeArrival kind frm dst) s = .next s) ∧
  (∀ (r : Barge) (s : State), r.cls ≠ 1 ∨ replyBehind s r = true → leadsTo (.bargeReplyArrival r) s s) ∧
  (∀ (r : Barge) (s : State), r.cls = 1 → replyBehind s r = false → bargeForm r = false → ∃ u, leadsTo (.bargeReplyArrival r) s u ∧
    rfld u oBnwBad 15 0 = min (rfld s oBnwBad 15 0 + 1) 0xFFFF ∧ rbit u oBnwSts 4 = true ∧
    u.bnw = { s.bnw with replies := s.bnw.replies.erase r } ∧ regsBut [oBnwBad, oBnwSts] s u ∧ { u with regs := s.regs, bnw := s.bnw } = s) ∧
  (∀ (r b : Barge) (n : Nat) (s : State), r.cls = 1 → bargeForm r = true → replyBehind s r = false → s.bnw.sent.find? (repliesTo r) = some b →
    nodeFenced s r.dst = false → b.master = 6 → (∀ x ∈ s.bnw.held, x.2 ≠ b) → s.bnw.inbound.find? (·.2 = b) = some (n, b) → rfld s (oLnkSts n) 2 0 = 6 →
    ∃ u, leadsTo (.bargeReplyArrival r) s u ∧ u.bnw = { s.bnw with
        sent := s.bnw.sent.erase b, replies := s.bnw.replies.erase r, inbound := s.bnw.inbound.erase (n, b) } ∧
      (getLnk u n).unacked.length + (getLnk u n).txWait = (getLnk s n).unacked.length + (getLnk s n).txWait + 1 + r.ndata ∧
      { u with bnw := s.bnw, lnk := s.lnk } = s) ∧
  (∀ (r b : Barge) (n : Nat) (s : State), r.cls = 1 → bargeForm r = true → replyBehind s r = false → s.bnw.sent.find? (repliesTo r) = some b →
    2 ≤ b.master → b.master ≠ 6 → s.bnw.held.filter (·.2 = b) = [(n, b)] →
    ∃ u, leadsTo (.bargeReplyArrival r) s u ∧ u.bnw = { s.bnw with
        sent := s.bnw.sent.erase b, replies := s.bnw.replies.erase r, held := s.bnw.held.filter (·.2 ≠ b) } ∧
      mget 0 (getLnk u n).bufs b.master = mget 0 (getLnk s n).bufs b.master + 1 ∧ { u with bnw := s.bnw, lnk := s.lnk } = s))

/-- A fault is logged with its class flag; with the class reaction and the floor at log that is all, and below safe state while the
sequencer is IDLE or READY. A code that is not listed is none. A code whose reaction is safe state closes the step gate, whatever the device
does; the temperature monitors raise 0x0008 and 0xA002, and 0x0008 requests one emergency halving; a rail that trips sets its RAIL_BAD bit,
but for one that is off or at retention by design. That nothing happens in any other state is the model's choice, log entry 8. Where it goes
beyond the rules cited it rests on the model's choices of log entry 41. -/
def Obligations.FaultsAndMonitors : Prop :=
  (∀ (code lk loc f : Nat) (s : State), faultListed code = false → leadsTo (.faultReport code lk loc f) s s) ∧
  (∀ (code lk loc f : Nat) (s : State), faultListed code = true → code ≠ 0x2001 →
    code < 0x1000 ∨ ((s.seq.st = .idle ∨ s.seq.st = .ready) ∧ reactOf s code ≠ 3) →
    ∃ u, leadsTo (.faultReport code lk loc f) s u ∧ rbit u oSafSts (code / 4096) = true ∧ u.saf.safe = s.saf.safe ∧ u.seq = s.seq ∧
      (s.saf.log = [] → ∃ r, u.saf.log = [r] ∧ r.code = code ∧ r.lkind = lk ∧ r.locv = loc % 2 ^ 28 ∧ r.inj = false ∧ r.rep = 0) ∧
      regsBut [oSafSts, oSafInt, oSafLogSts] s u) ∧
  (∀ (tj : Nat) (s : State), 115 ≤ tj → rfld s oPwrSts 2 0 = 0 →
    ∃ u, leadsTo (.tempCritical tj) s u ∧ rfld u oSafMon 31 24 = min tj 255 ∧ u.saf.safe = true ∧ rbit u oSafSts 10 = true ∧
      (s.saf.safe = false → u.seq.st = .safe) ∧ memSame s u) ∧
  (∀ (tj : Nat) (s : State), tj < 115 → leadsTo (.tempCritical tj) s s) ∧
  (∀ (tj : Nat) (s : State), rfld s oSafTlim 7 0 ≤ tj → s.seq.emerg = false → (∀ e ∈ s.seq.events, e.kind ≠ 6) →
    ∃ u, leadsTo (.tempEmergency tj) s u ∧ rfld u oSafMon 31 24 = min tj 255 ∧ rbit u oSafSts 0 = true ∧ u.saf.safe = s.saf.safe ∧
      (⟨6, s.dev.devid, .gsc (alignUp (s.seq.gsc.toNat + 256) 256)⟩ : GEvent) ∈ u.seq.events ∧ u.seq.st = s.seq.st ∧ memSame s u) ∧
  (∀ (tj : Nat) (s : State), tj < rfld s oSafTlim 7 0 → leadsTo (.tempEmergency tj) s s) ∧
  (∀ (r f : Nat) (s : State), railChecked s r = true → ∃ u, leadsTo (.railMonitorTrip r f) s u ∧ rbit u oSafMon r = true ∧ rbit u oSafSts 10 = true ∧ memSame s u) ∧
  (∀ (r f : Nat) (s : State), 8 ≤ r ∨ (rfld s oPwrSts 2 0 = 4 ∨ rfld s oPwrSts 2 0 = 5) ∧ r ∈ [0, 1, 2, 4, 5] → leadsTo (.railMonitorTrip r f) s s)

/-- The watchdog and the recovery restart: a missed watchdog raises 0xB002 and, with none under way, starts a recovery restart; a second
miss during one leads to the safe state; nothing running, the device enters Keep, where the lockkeeper is not READY and commands in flight
end in TIMEOUT; the firmware running again, CFG_STS counts the restart and Keep is left; a pause that does not come is 0xB002 and the safe
state. That nothing happens in any other state is the model's choice, log entry 8. Where it goes beyond the rules cited it rests on the
model's choices of log entry 24. -/
def Obligations.RecoveryRestart : Prop :=
  (∀ s : State, rfld s oPwrSts 2 0 = 0 →
    ∃ u, leadsTo .watchdogMissed s u ∧ rbit u oSafSts 11 = true ∧ (s.rst.recov = 0 → u.rst.recov = 1) ∧
      u.rst.missed = true ∧ (s.rst.recov ≠ 0 → u.rst.recov = s.rst.recov) ∧
      (s.rst.recov ≠ 0 → s.rst.missed = true → u.saf.safe = true ∧ (s.saf.safe = false → u.seq.st = .safe)) ∧ memSame s u) ∧
  (∀ s : State, s.rst.recov = 1 → seqActive s = false → s.lkp.load = none → ∃ u, leadsTo .recoveryKeepEntry s u ∧ u.rst.recov = 2 ∧ rbit u oCfgSts 4 = true ∧
    rbit u oLkpSts 31 = false ∧ u.lkp.run = [] ∧ u.seq = { s.seq with runPend := none } ∧
    (∀ i < nStacks s, rbit u (oHldStackSts i) 3 = true)) ∧
  (∀ s : State, s.rst.recov ≠ 1 ∨ seqActive s = true → leadsTo .recoveryKeepEntry s s) ∧
  (∀ s : State, s.rst.recov = 1 → seqActive s = true → rfld s oPwrSts 2 0 = 0 → s.saf.safe = false →
    ∃ u, leadsTo .recoveryPauseTimeout s u ∧ u.seq.st = .safe ∧ u.saf.safe = true ∧ rbit u oSafSts 11 = true ∧ memSame s u) ∧
  (∀ s : State, s.rst.recov = 2 → ∃ u, leadsTo .recoveryRestartDone s u ∧ u.rst = { s.rst with recov := 0, missed := false } ∧
    (rfld s oCfgBoot 3 0 = 7 → rbit u oLkpSts 31 = true) ∧
    rfld u oCfgSts 31 24 = min (rfld s oCfgSts 31 24 + 1) 255 ∧ rbit u oCfgSts 4 = false ∧ rbit u oCfgSts 3 = true ∧ u.seq = s.seq ∧ memSame s u) ∧
  (∀ s : State, s.rst.recov ≠ 2 → leadsTo .recoveryRestartDone s s)

/-- A PLL: a lock detected begins its judging; the third window in a row within the CKG_TOL of its beginning makes it judged stable, the
third in a row outside it loses the lock; no window ends without the crystal; a judging that does not end sets FAIL, and begins again, or
stops a boot in stage PLL. That nothing happens in any other state is the model's choice, log entry 8. -/
def Obligations.PllJudging : Prop :=
  (∀ (i : Nat) (ppm : Int) (e : SwitchEnd) (cut : List (Nat × Nat × Nat)) (s : State), i < 5 → rbit s oCkgSts 7 = true → rfld s (oCkgPll i) 31 30 = 1 →
    ∃ u, leadsTo (.pllWindowEnd i ppm true ⟨e, cut⟩) s u ∧ rfld u (oCkgPll i) 31 30 = 2 ∧ mget 0 u.clk.pass i = 0 ∧
      mget 100 u.clk.tol i = rfld s oCkgTol 9 0 ∧ regsBut [oCkgPll i] s u ∧ { u with regs := s.regs, clk := s.clk } = s) ∧
  (∀ (i : Nat) (ppm : Int) (lock : Bool) (cut : List (Nat × Nat × Nat)) (s : State), i < 5 → rbit s oCkgSts 7 = true → rfld s (oCkgPll i) 31 30 = 2 →
    (ppm.natAbs ≤ mget 100 s.clk.tol i → mget 0 s.clk.pass i = 2 →
      ∃ u, leadsTo (.pllWindowEnd i ppm lock ⟨.clean, cut⟩) s u ∧ rfld u (oCkgPll i) 31 30 = 3 ∧ (i = 0 → rbit u oCkgSts 8 = true) ∧ memSame s u) ∧
    (ppm.natAbs ≤ mget 100 s.clk.tol i → mget 0 s.clk.pass i < 2 → ∃ u, leadsTo (.pllWindowEnd i ppm lock ⟨.clean, cut⟩) s u ∧
      rfld u (oCkgPll i) 31 30 = 2 ∧ mget 0 u.clk.pass i = mget 0 s.clk.pass i + 1 ∧ regsBut [oCkgPll i] s u) ∧
    (mget 100 s.clk.tol i < ppm.natAbs → ∃ u, leadsTo (.pllWindowEnd i ppm lock ⟨.clean, cut⟩) s u ∧
      rfld u (oCkgPll i) 31 30 = 2 ∧ mget 0 u.clk.pass i = 0 ∧ regsBut [oCkgPll i] s u)) ∧
  (∀ (i : Nat) (ppm : Int) (lock : Bool) (cut : List (Nat × Nat × Nat)) (s : State), i < 5 → rbit s oCkgSts 7 = true → rfld s (oCkgPll i) 31 30 = 3 →
    (ppm.natAbs ≤ mget 100 s.clk.tol i ∨ mget 0 s.clk.fails i < 2 → ∃ u, leadsTo (.pllWindowEnd i ppm lock ⟨.clean, cut⟩) s u ∧
      rfld u (oCkgPll i) 31 30 = 3 ∧ regsBut [oCkgPll i] s u) ∧
    (mget 100 s.clk.tol i < ppm.natAbs → mget 0 s.clk.fails i = 2 → ∃ u, leadsTo (.pllWindowEnd i ppm lock ⟨.clean, cut⟩) s u ∧
      rfld u (oCkgPll i) 31 30 = 1 ∧ rbit u (oCkgPll i) 28 = true ∧ rbit u oSafSts 9 = true)) ∧
  (∀ (i : Nat) (ppm : Int) (lock : Bool) (e : SwitchEnd) (cut : List (Nat × Nat × Nat)) (s : State), 4 < i ∨ rbit s oCkgSts 7 = false ∨ rfld s (oCkgPll i) 31 30 = 0 →
    leadsTo (.pllWindowEnd i ppm lock ⟨e, cut⟩) s s) ∧
  (∀ (i : Nat) (s : State), i < 5 → rfld s (oCkgPll i) 31 30 = 1 ∨ rfld s (oCkgPll i) 31 30 = 2 →
    ∃ u, exec (.pllJudgeTimeout i) s = .next u ∧ rbit u (oCkgPll i) 29 = true ∧
      (rfld s oCfgBoot 3 0 = 3 → rfld u oCfgBoot 3 0 = 15 ∧ rbit u oCfgBoot 8 = true) ∧
      (rfld s oCfgBoot 3 0 ≠ 3 → rfld u (oCkgPll i) 31 30 = 1) ∧ regsBut [oCkgPll i, oCfgBoot, oCkgSts] s u ∧ memSame s u) ∧
  (∀ (i : Nat) (s : State), rfld s (oCkgPll i) 31 30 = 0 ∨ rfld s (oCkgPll i) 31 30 = 3 → exec (.pllJudgeTimeout i) s = .next s)

/-- Clocks lost: the step PLL's lock loss opens the gust divider to 1/16, raises 0x9001 and, in a run, halts the device in CLK_HALT at once;
the hold PLL's moves the unit domain to the crystal and the stacks into self-refresh; a link PLL's takes its four links DOWN, and with link
PLL 0 the ring ports; the crystal's takes every PLL's lock with it. Gust control: each hold of a ramp ends in the next sixteenth of the step
clock; after the last the ramp is over, a frequency change with it, and a CLK_RESUME leaves the group PAUSED. The unit domain's divider
climbs by one at each of its steps. That nothing happens in any other state is the model's choice, log entry 8. Where it goes beyond the
rules cited it rests on the model's choices of log entry 19. -/
def Obligations.ClockLossAndRamps : Prop :=
  ((∀ (cut : List (Nat × Nat × Nat)) (s : State), rfld s (oCkgPll 0) 31 30 = 3 → ∃ u, leadsTo (.stepPllLockLoss cut) s u ∧ rfld u (oCkgPll 0) 31 30 = 1 ∧ rbit u (oCkgPll 0) 28 = true ∧
    rbit u oCkgSts 8 = false ∧ rbit u oSafSts 9 = true ∧ u.seq.ratio = 1 ∧ memSame s u ∧
    (seqRuns s = true → s.saf.safe = false → rfld s oSafReact 19 18 ≠ 3 → u.seq.st = .clkHalt)) ∧
  (∀ s : State, rfld s (oCkgPll 4) 31 30 = 3 → rbit s oCkgSts 7 = true → ∃ u, leadsTo (.holdPllLockLoss .clean) s u ∧ rfld u (oCkgPll 4) 31 30 = 1 ∧
    rbit u (oCkgPll 4) 28 = true ∧ rbit u oSafSts 9 = true ∧ u.clk.unitXtal = true ∧ u.clk.unitDiv = 1 ∧
    (∀ i < nStacks s, rbit u (oHldStackSts i) 3 = true) ∧ memSame s u) ∧
  (∀ (j : Nat) (s : State), j < 3 → rfld s (oCkgPll (j + 1)) 31 30 = 3 → ∃ u, leadsTo (.linkPllLockLoss j) s u ∧
    rfld u (oCkgPll (j + 1)) 31 30 = 1 ∧ rbit u (oCkgPll (j + 1)) 28 = true ∧ rbit u oSafSts 9 = true ∧
    (∀ i < 4, rfld u (oLnkSts (4 * j + i)) 2 0 = 0) ∧ (j = 0 → rbit u oRingSts 0 = false ∧ rbit u oRingSts 1 = false) ∧ memSame s u) ∧
  (∀ (i : Nat) (cut : List (Nat × Nat × Nat)) (e : SwitchEnd) (s : State), (rfld s (oCkgPll 0) 31 30 ≠ 3 → leadsTo (.stepPllLockLoss cut) s s) ∧
    (rfld s (oCkgPll 4) 31 30 ≠ 3 → leadsTo (.holdPllLockLoss e) s s) ∧
    (i < 3 → rfld s (oCkgPll (i + 1)) 31 30 ≠ 3 → leadsTo (.linkPllLockLoss i) s s)) ∧
  (∀ (e : SwitchEnd) (cut : List (Nat × Nat × Nat)) (s : State), rbit s oCkgSts 7 = true → ∃ u, leadsTo (.crystalLost ⟨e, cut⟩) s u ∧ rbit u oCkgSts 7 = false ∧ rbit u oCkgSts 3 = true ∧
    rbit u oCkgSts 0 = true ∧ rbit u oSafSts 9 = true ∧ (∀ i < 5, rfld u (oCkgPll i) 31 30 ≠ 3) ∧ rbit u oTimSts 1 = true ∧ memSame s u)) ∧
  ((∀ s : State, s.clk.ramp = true → s.seq.ratio < 16 → leadsTo .gustRampHoldEnd s { s with seq := { s.seq with ratio := s.seq.ratio + 1 } }) ∧
  (∀ s : State, s.clk.ramp = true → 16 ≤ s.seq.ratio → s.clk.relock = false → s.clk.resume = false → leadsTo .gustRampHoldEnd s
    { s with clk := { s.clk with ramp := false }, seq := { s.seq with ratio := if s.seq.emerg then 8 else 16 } }) ∧
  (∀ s : State, s.clk.ramp = true → 16 ≤ s.seq.ratio → s.clk.relock = false → s.clk.resume = true → s.saf.safe = false →
    s.seq.tickPend = false →
    ∃ u, leadsTo .gustRampHoldEnd s u ∧ u.seq.st = .paused ∧ u.seq.halt = none ∧ u.clk.ramp = false ∧ u.clk.resume = false) ∧
  (∀ s : State, s.clk.ramp = true → 16 ≤ s.seq.ratio → s.clk.relock = true → s.clk.resume = false →
    ∃ u, leadsTo .gustRampHoldEnd s u ∧ u.clk = { s.clk with ramp := false, relock := false } ∧
      u.seq = { s.seq with ratio := if s.seq.emerg then 8 else 16 } ∧
      u.lkp.run.filter (fun c => c.op = 0x17 && !nbit c.p0 0) =
        (s.lkp.run.filter (fun c => c.op = 0x17 && !nbit c.p0 0)).drop 1) ∧
  (∀ s : State, s.clk.ramp = false → leadsTo .gustRampHoldEnd s s) ∧
  (∀ s : State, exec .unitDividerStep s = .next (if s.clk.unitDiv < 16 then { s with clk := { s.clk with unitDiv := s.clk.unitDiv + 1 } } else s)))

/-- A power-on reset puts every register outside the standing block at its reset value and every unit's logic at its reset state; the
standing registers and the host's memory are kept; the same holds of an overvoltage of VIN, whose end is another. A warm reset, a PERST_N
reset and a group reset take effect: the sequencer is IDLE, nothing is loaded, no command is in progress, the boot goes on at stage FW;
network time, the fault log, hold and design memory and the standing registers' values are kept. PERST_N held low holds the boot at FW and
the link of the endpoint down, and its level is remembered through an overvoltage. A basin's reset unloads it and clears its ports, lanes
and registers. That nothing happens in any other state is the model's choice, log entry 8. Where it goes beyond the rules cited it rests on
the model's choices of log entries 7 and 24. -/
def Obligations.Resets : Prop :=
  ((∀ (pins : Nat) (s : State), s.std.busy = none → ∃ u, exec (.powerOnReset pins) s = .next u ∧ poweredOn s u ∧ u.dev = { s.dev with pins := pins % 64 } ∧
    u.rst.ovp = false ∧ u.rst.perst = s.rst.perst ∧ u.host.link = false) ∧
  (∀ s : State, s.std.busy = none → ∃ u, exec .vinOvervoltage s = .next u ∧ poweredOn s u ∧ u.dev = s.dev ∧ u.rst.ovp = true ∧ u.rst.perst = s.rst.perst) ∧
  (∀ s : State, s.std.busy = none → s.rst.ovp = true → ∃ u, exec .vinOvervoltageEnd s = .next u ∧ poweredOn s u ∧ u.dev = s.dev ∧ u.rst.ovp = false ∧
    u.rst.perst = s.rst.perst) ∧
  (∀ s : State, s.rst.ovp = false → exec .vinOvervoltageEnd s = .next s)) ∧
  ((∀ (k : Nat) (s : State), s.rst.warm = some k → s.rst.group = none → rfld s oPwrSts 2 0 = 0 → ∃ u, exec .warmResetEffect s = .next u ∧ resetDone k 0 s u) ∧
  (∀ s : State, s.rst.group ≠ none → exec .warmResetEffect s = .next { s with rst := { s.rst with warm := none } }) ∧
  (∀ s : State, s.rst.warm = none → exec .warmResetEffect s = .next s) ∧
  (∀ s : State, s.rst.perst = false → s.rst.ovp = false → 4 ≤ rfld s oCfgBoot 3 0 → rfld s oPwrSts 2 0 < 3 → s.pwr.off = false →
    ∃ u, exec .perstNAssert s = .next u ∧ resetDone 2 0 s u ∧
    u.rst.perst = true ∧ u.rst.held = true ∧ u.host.link = false ∧ u.host.conf = []) ∧
  (∀ s : State, s.rst.perst = false → s.rst.ovp = false → rfld s oCfgBoot 3 0 < 4 → rfld s oPwrSts 2 0 < 4 ∨ s.pwr.exit ≠ none →
    exec .perstNAssert s = .next { s with
      rst := { s.rst with perst := true, held := true }, host := { s.host with link := false, conf := [] } }) ∧
  (∀ s : State, ∃ u, exec .perstNRelease s = .next u ∧ u.rst = { s.rst with perst := false, held := false } ∧
    (u.host.link = true ↔ s.host.link = true ∨
      (s.rst.ovp = false ∧ s.rst.testEn = false ∧ rfld s oCfgBoot 3 0 ≠ 0 ∧ rfld s oPwrSts 2 0 < 4)) ∧
    { u with rst := s.rst, host := { u.host with link := s.host.link } } = s) ∧
  (∀ (lead sec ns : Nat) (s : State), s.rst.group = some (lead, sec, ns) → rfld s oPwrSts 2 0 = 0 →
    (sec * 1000000000 + ns ≤ nowNs s → ∃ u, exec (.groupResetInstant false) s = .next u ∧ resetDone 5 lead s u) ∧
    (sec * 1000000000 + ns ≤ nowNs s → ∃ u, exec (.groupResetInstant true) s = .next u ∧ resetDone 3 0 s u) ∧
    (∀ m, nowNs s < sec * 1000000000 + ns → exec (.groupResetInstant m) s = .next s) ∧
    (∀ c, groupResetCmd s = some c → allAcked s 0x15 = false → sec * 1000000000 + ns ≤ nowNs s + 200000 →
      ∃ u, exec .groupResetCancel s = .next u ∧ u.rst = { s.rst with group := none } ∧ u.lkp.run = s.lkp.run.erase c ∧ u.seq = s.seq) ∧
    (allAcked s 0x15 = true → exec .groupResetCancel s = .next s)) ∧
  (∀ (b : Nat) (s : State), b < 32 → b ∈ s.rst.basins → (∀ r ∈ s.req, r.q / 4 = b → r.served = true) → ∃ u, exec (.basinResetEffect b) s = .next u ∧
    rbit u oCfgLoaded b = false ∧ u.rst.basins = s.rst.basins.erase b ∧ getBas u b = Basin.fresh ∧ (∀ r ∈ u.req, r.q / 4 = b → r.live = false) ∧
    u.seq = s.seq ∧ memSame s u) ∧
  (∀ (b : Nat) (s : State), b ∉ s.rst.basins → exec (.basinResetEffect b) s = .next s) ∧
  (∀ s : State, s.rst.perst = false → s.rst.ovp = true → exec .perstNAssert s = .next { s with
    rst := { s.rst with perst := true }, host := { s.host with link := false, conf := [] } }))

/-- The boot, stage by stage: PWR, OSC (the pins park and the straps are read), XTAL (the PLLs start), PLL, FW (a firmware whose digest
fails stops it), TEST, ARM, READY with its duration, its cause and the ring ports that trained; an event of another stage than the boot's
does nothing. That nothing happens in any other state is the model's choice, log entry 8. Where it goes beyond the rules cited it rests on
the model's choices of log entry 2. -/
def Obligations.BootStages : Prop :=
  (∀ s : State, rfld s oCfgBoot 3 0 = 0 → s.rst.ovp = false → rfld s oPwrSts 2 0 = 0 → ∃ u, exec .powerGood s = .next u ∧
    rfld u oCfgBoot 3 0 = 1 ∧ (u.host.link = true ↔ s.host.link = true ∨ (s.rst.perst = false ∧ s.rst.testEn = false)) ∧
    (mget .clean s.std.ecc 22 ≠ .double → u.std.pps = rget s (oStd 22)) ∧ (mget .clean s.std.ecc 18 ≠ .double → u.std.park = rget s (oStd 18)) ∧
    u.seq = s.seq ∧ memSame s u) ∧
  (∀ s : State, rfld s oCfgBoot 3 0 = 1 → exec (.bootOscDone true []) s = .next { s with
    rst := { s.rst with testEn := true }, host := { s.host with link := false } } ∧
    (s.rst.testEn = false → ∃ u, exec (.bootOscDone false []) s = .next u ∧
    rfld u oCfgBoot 3 0 = 2 ∧ u.dev = { s.dev with devid := s.dev.pins % 64 } ∧ u.seq = s.seq ∧ memSame s u)) ∧
  (∀ s : State, rfld s oCfgBoot 3 0 = 2 → (∃ u, leadsTo (.bootXtalDone .clean) s u ∧ rfld u oCfgBoot 3 0 = 3 ∧ rbit u oCkgSts 7 = true ∧
    (∀ i < 5, rfld u (oCkgPll i) 31 30 = 1) ∧ memSame s u) ∧ leadsTo (.bootXtalDone .noSource) s (rset oCkgSts (setBit (rget s oCkgSts) 4) s)) ∧
  (∀ s : State, rfld s oCfgBoot 3 0 = 4 → s.rst.held = false →
    (∃ u, exec (.bootFwDone false) s = .next u ∧ rfld u oCfgBoot 3 0 = 15 ∧ rbit u oCfgBoot 9 = true ∧ regsBut [oCfgBoot] s u ∧ restSame s u) ∧
    (s.rst.test = false → ∃ u, exec (.bootFwDone true) s = .next u ∧ rfld u oCfgBoot 3 0 = 6 ∧
      rget u oLkpFw = BitVec.ofNat 32 ((Config.firmwareMajor.val + 1) * 2 ^ 16) ||| Config.firmwareMinor.zeroExtend 32 ∧
      regsBut [oCfgBoot, oLkpFw] s u ∧ restSame s u) ∧
    (s.rst.test = true → rfld s (oCkgPll 0) 31 30 = 3 → ∃ u, exec (.bootFwDone true) s = .next u ∧ rfld u oCfgBoot 3 0 = 5 ∧ u.clk.ramp = true ∧ u.seq.ratio = 1)) ∧
  (∀ (f : MarchFinds) (s : State), rfld s oCfgBoot 3 0 = 5 → s.clk.ramp = false → rfld s (oCkgPll 0) 31 30 = 3 → (∀ i < nStacks s, rbit s (oHldStackSts i) 0 = true) →
    ∃ u, leadsTo (.bootTestDone f []) s u ∧ rfld u oCfgBoot 3 0 = 6 ∧ u.rst.test = false) ∧
  (∀ (ms ports : Nat) (s : State), rfld s oCfgBoot 3 0 = 6 → ∃ u, exec (.bootArmDone ms ports []) s = .next u ∧ rfld u oCfgBoot 3 0 = 7 ∧
    rfld u oCfgBoot 31 16 = ms % 65536 ∧ rget u oCfgCause = BitVec.ofNat 32 (s.rst.cause / 64 * 2 ^ 28 + s.rst.cause % 64 * 2 ^ 22) ∧
    (bypassed s = false → rbit u oRingSts 0 = nbit ports 0 ∧ rbit u oRingSts 1 = nbit ports 1) ∧
    rbit u oLkpSts 31 = true ∧ u.seq = s.seq ∧ memSame s u) ∧
  (∀ (st ms ports : Nat) (ok : Bool) (e : SwitchEnd) (f : MarchFinds) (bad : List Nat) (s : State), rfld s oCfgBoot 3 0 = st →
    (st ≠ 0 → exec .powerGood s = .next s) ∧ (st ≠ 1 → exec (.bootOscDone ok []) s = .next s) ∧ (st ≠ 2 → leadsTo (.bootXtalDone e) s s) ∧
    (st ≠ 4 → exec (.bootFwDone ok) s = .next s) ∧ (st ≠ 5 → leadsTo (.bootTestDone f bad) s s) ∧ (st ≠ 6 → exec (.bootArmDone ms ports []) s = .next s))

/-- The power ladder: an entry whose conditions hold ends in its target state, and hold memory that is not kept loses its contents; a
maskable wake source that is enabled begins the exit, or stops an entry, and is recorded as its source, of two in one cycle the lower; one
that comes later has no effect; the exit ends in Run with PWR_LASTWAKE written and the basins it had fenced unfenced. The power cap and the
thermal throttle: VIN below 24 V begins the cap and its end clears this device's request; a sample above 400 W asks for the stretch that
brings the power to the limit; a sample of the junction at START or above raises the thermal request by STEP, one 3 °C below it lowers it.
That nothing happens in any other state is the model's choice, log entry 8. Where it goes beyond the rules cited it rests on the model's
choices of log entries 7 and 23. -/
def Obligations.PowerLadder : Prop :=
  ((∀ s : State, entryReady s = true → s.saf.safe = false → ∃ u, leadsTo .powerEntryComplete s u ∧ rfld u oPwrSts 6 0 = rfld s oPwrSts 6 4 ∧
    (rfld s oPwrSts 6 4 ≤ 2 → s.clk.unitXtal = true ∨ rfld s (oCkgPll 4) 31 30 = 3 → u.seq = s.seq ∧ u.hold.cells = s.hold.cells ∧ u.dmc.cells = s.dmc.cells ∧
      ∀ i < nStacks s, rbit u (oHldStackSts i) 3 = true) ∧
    (3 ≤ rfld s oPwrSts 6 4 → rbit s oPwrCtl 0 = false → u.hold.cells = [])) ∧
  (∀ s : State, entryReady s = false → leadsTo .powerEntryComplete s s) ∧
  (∀ s : State, exec .gauFlushTimeout s = .next (if rbit s oPwrSts 3 = true ∧ 3 ≤ rfld s oPwrSts 6 4 then
      rcount oGauFfLost 31 0 (s.gau.fifo.filter fun r => !r.loss).length { s with gau := { s.gau with fifo := [], lost := none } } else s)) ∧
  (∀ (i : Instr) (src : Nat) (s : State), (i, src) ∈ [(Instr.wakeNAsserted, 2), (Instr.ringWake, 3), (Instr.wakeTimerExpiry, 4)] →
    (rbit s oPwrCtl (src + 2) = false → leadsTo i s s) ∧
    (rbit s oPwrCtl (src + 2) = true → rfld s oPwrSts 2 0 ≠ 0 ∨ (rbit s oPwrSts 3 = true ∧ src ≠ 4) → s.pwr.exit = none → s.rst.ovp = false →
      src ≠ 4 ∨ rget s oPwrWakeTmr ≠ 0#32 →
      ∃ u, leadsTo i s u ∧ u.pwr.exit = some (src, tsnOf s, decide (4 ≤ rfld s oPwrSts 2 0)) ∧ rfld u oPwrSts 6 3 = 1 ∧
        u.pwr.stopped = (rbit s oPwrSts 3 && decide (rfld s oPwrSts 2 0 < rfld s oPwrSts 6 4)) ∧ rfld u oPwrSts 2 0 = rfld s oPwrSts 2 0 ∧ memSame s u) ∧
    (∀ e t c, s.pwr.exit = some (e, t, c) → t ≠ tsnOf s → leadsTo i s s) ∧
    (∀ e c, s.pwr.exit = some (e, tsnOf s, c) → e ≠ 0 → e ≠ src → rbit s oPwrCtl (src + 2) = true → s.rst.ovp = false →
      src ≠ 4 ∨ (rget s oPwrWakeTmr ≠ 0#32 ∧ rfld s oPwrSts 2 0 ≠ 0) → ∃ u, leadsTo i s u ∧ u.pwr.exit = some (min e src, tsnOf s, c) ∧
      memSame s u ∧ u.seq = s.seq)) ∧
  (∀ (src tsn : Nat) (coarse : Bool) (s : State), s.pwr.exit = some (src, tsn, coarse) → src < 5 →
    (exitClocks s = true → (rfld s oPwrSts 2 0 = 5 → rfld s oCfgBoot 3 0 = 7) → s.pwr.safeDue = false → s.pwr.warmDue = false →
      ∃ u, leadsTo .powerExitComplete s u ∧ rfld u oPwrSts 6 0 = 0 ∧ u.pwr.exit = none ∧ u.pwr.fences = [] ∧
        (∀ b ∈ s.pwr.fences, b < 32 → rbit u oCfgFenced b = false) ∧ rget u oPwrLastwakeTsn = BitVec.ofNat 32 tsn ∧
        rbit u oPwrLastwake 31 = true) ∧
    (exitClocks s = false → leadsTo .powerExitComplete s s)) ∧
  (∀ s : State, s.pwr.exit = none → leadsTo .powerExitComplete s s)) ∧
  ((∀ (mv : Nat) (s : State), mv < 24000 → leadsTo (.vinBelow24v mv) s (rset oPwrSts (setBit (rget s oPwrSts) 9) (rput oPwrVin 15 0 mv s))) ∧
  (∀ (mv : Nat) (s : State), 24000 ≤ mv → leadsTo (.vinBelow24v mv) s s) ∧
  (∀ (mv : Nat) (s : State), 24500 ≤ mv → rbit s oPwrSts 9 = true → ∃ u, leadsTo (.powerCapEnd mv) s u ∧ rbit u oPwrSts 9 = false ∧
    rfld u oPwrVin 15 0 = min 65535 mv ∧ u.seq.pcap = 0 ∧ regsBut [oPwrSts, oPwrVin] s u) ∧
  (∀ (mv : Nat) (s : State), mv < 24500 ∨ rbit s oPwrSts 9 = false → leadsTo (.powerCapEnd mv) s s) ∧
  (∀ (p mv : Nat) (s : State), rbit s oPwrSts 9 = false →
    leadsTo (.powerCapSample p mv) s (rput oPwrVin 31 16 (min 65535 p) (rput oPwrVin 15 0 (min 65535 mv) s))) ∧
  (∀ (p mv : Nat) (s : State), rbit s oPwrSts 9 = true → rbit s oLkpSts 31 = true → 400 < p →
    let fs := s.seq.frames * (rfld s oSeqCfg 10 0 + 2) + s.seq.len
    ∃ u, leadsTo (.powerCapSample p mv) s u ∧ 400 * (fs + u.seq.pcap) ≤ (fs + s.seq.eff) * p + 399 ∧ u.seq.pcap ≤ 1048575 ∧
      (u.seq.pcap = 1048575 ∨ (fs + s.seq.eff) * p ≤ 400 * (fs + u.seq.pcap)) ∧ rfld u oPwrVin 31 16 = min 65535 p ∧ regsBut [oPwrVin] s u) ∧
  (∀ (tj : Nat) (s : State), rbit s oLkpSts 31 = true → ∃ u, leadsTo (.thermalThrottleSample tj) s u ∧ rfld u oSafMon 31 24 = min tj 255 ∧
    u.seq.therm = (if rfld s oPwrTherm 7 0 ≤ tj then min 1048575 (s.seq.therm + rfld s oPwrTherm 27 8)
      else if tj + 3 ≤ rfld s oPwrTherm 7 0 then s.seq.therm - rfld s oPwrTherm 27 8 else s.seq.therm) ∧ regsBut [oSafMon] s u))
end

