-- ==== Sys2Proof/Laws/Maps.lean ====
section
/-!
SUPPORT. Laws of the sparse maps: what a key holds after an operation, and that every operation keeps the canonical form.
-/
namespace Sys2Proof.Machine

section
variable {α : Type} [DecidableEq α]

@[simp] theorem mget_nil (d : α) (k : Nat) : mget d [] k = d := rfl

theorem mget_mdel_same (d : α) (m : List (Nat × α)) (k : Nat) : mget d (mdel m k) k = d := by
  induction m with
  | nil => rfl
  | cons a t ih =>
    by_cases h : a.1 = k
    · simp [mdel, h, ih]
    · simp [mdel, h, mget, ih]

theorem mget_mdel_other (d : α) (m : List (Nat × α)) (k j : Nat) (hj : j ≠ k) : mget d (mdel m k) j = mget d m j := by
  induction m with
  | nil => rfl
  | cons a t ih =>
    by_cases h : a.1 = k
    · have : ¬ a.1 = j := fun e => hj (by omega)
      simp [mdel, h, ih, mget]
      intro e; omega
    · by_cases h2 : a.1 = j <;> simp [mdel, h, mget, ih]

theorem mget_mins_same (d : α) (m : List (Nat × α)) (k : Nat) (v : α) (h : ∀ p ∈ m, p.1 ≠ k) : mget d (mins m k v) k = v := by
  induction m with
  | nil => simp [mins, mget]
  | cons a t ih =>
    have ha : ¬ a.1 = k := h a (by simp)
    by_cases hk : k < a.1
    · simp [mins, hk, mget]
    · simp [mins, hk, mget, ha, ih (fun p hp => h p (by simp [hp]))]

theorem mget_mins_other (d : α) (m : List (Nat × α)) (k j : Nat) (v : α) (hj : j ≠ k) :
    mget d (mins m k v) j = mget d m j := by
  induction m with
  | nil => simp [mins, mget]; intro e; omega
  | cons a t ih =>
    by_cases hk : k < a.1
    · simp [mins, hk, mget]; intro e; omega
    · by_cases h2 : a.1 = j <;> simp [mins, hk, mget, ih]

theorem mdel_keys (m : List (Nat × α)) (k : Nat) : ∀ p ∈ mdel m k, p.1 ≠ k := by
  induction m with
  | nil => simp [mdel]
  | cons a t ih =>
    by_cases h : a.1 = k
    · simpa [mdel, h] using ih
    · intro p hp
      simp [mdel, h] at hp
      rcases hp with rfl | hp
      · exact h
      · exact ih p hp

/-- A key written holds the value written. -/
@[simp] theorem mget_mset_same (d : α) (m : List (Nat × α)) (k : Nat) (v : α) : mget d (mset d m k v) k = v := by
  unfold mset
  split
  · rename_i h; rw [h]; exact mget_mdel_same d m k
  · exact mget_mins_same d _ k v (mdel_keys m k)

/-- Every other key holds what it held. -/
theorem mget_mset_other (d : α) (m : List (Nat × α)) (k j : Nat) (v : α) (hj : j ≠ k) :
    mget d (mset d m k v) j = mget d m j := by
  unfold mset
  split
  · exact mget_mdel_other d m k j hj
  · rw [mget_mins_other d _ k j v hj, mget_mdel_other d m k j hj]

theorem mget_mset (d : α) (m : List (Nat × α)) (k j : Nat) (v : α) :
    mget d (mset d m k v) j = if j = k then v else mget d m j := by
  split
  · rename_i h; rw [h]; exact mget_mset_same d m k v
  · rename_i h; exact mget_mset_other d m k j v h

/-- Every key rises strictly from `lo` on, and none is listed at its unlisted value. -/
def rises {α : Type} (d : Nat → α) : Nat → List (Nat × α) → Prop
  | _, [] => True
  | lo, p :: t => lo ≤ p.1 ∧ p.2 ≠ d p.1 ∧ rises d (p.1 + 1) t

theorem mwfBy_iff (d : Nat → α) (lo : Nat) (m : List (Nat × α)) : mwfBy d lo m = true ↔ rises d lo m := by
  induction m generalizing lo with
  | nil => simp [mwfBy, rises]
  | cons a t ih => simp [mwfBy, rises, ih, and_assoc]

theorem mwfFrom_iff (d : α) (lo : Nat) (m : List (Nat × α)) : mwfFrom d lo m = true ↔ rises (fun _ => d) lo m := by
  induction m generalizing lo with
  | nil => simp [mwfFrom, rises]
  | cons a t ih => simp [mwfFrom, rises, ih, and_assoc]

theorem mwf_iff (d : α) (m : List (Nat × α)) : mwf d m = true ↔ rises (fun _ => d) 0 m := mwfFrom_iff d 0 m

/-- A write reads back at no other key, whatever value the reader takes for an unlisted key. -/
theorem mget_mset_other_any (d d' : α) (m : List (Nat × α)) (k j : Nat) (v : α) (hj : j ≠ k) :
    mget d (mset d' m k v) j = mget d m j := by
  unfold mset
  split
  · exact mget_mdel_other d m k j hj
  · rw [mget_mins_other d _ k j v hj, mget_mdel_other d m k j hj]

/-! The canonical form as a proposition. -/

omit [DecidableEq α] in
theorem rises_mono {d : Nat → α} {lo lo' : Nat} {m : List (Nat × α)} (h : rises d lo m) (hl : lo' ≤ lo) : rises d lo' m := by
  cases m with
  | nil => trivial
  | cons a t => exact ⟨le_trans hl h.1, h.2⟩

omit [DecidableEq α] in
theorem rises_filter {d : Nat → α} (p : Nat × α → Bool) {lo : Nat} {m : List (Nat × α)} (h : rises d lo m) :
    rises d lo (m.filter p) := by
  induction m generalizing lo with
  | nil => trivial
  | cons a t ih =>
    by_cases hp : p a
    · rw [List.filter_cons_of_pos hp]; exact ⟨h.1, h.2.1, ih h.2.2⟩
    · rw [List.filter_cons_of_neg hp]; exact rises_mono (ih h.2.2) (by have := h.1; omega)

theorem mdel_eq_filter (m : List (Nat × α)) (k : Nat) : mdel m k = m.filter fun p => decide (p.1 ≠ k) := by
  induction m with
  | nil => rfl
  | cons a t ih => by_cases h : a.1 = k <;> simp [mdel, h, ih]

omit [DecidableEq α] in
theorem rises_mins {d : Nat → α} {lo k : Nat} {v : α} {m : List (Nat × α)} (h : rises d lo m) (hk : lo ≤ k)
    (hne : ∀ p ∈ m, p.1 ≠ k) (hv : v ≠ d k) : rises d lo (mins m k v) := by
  induction m generalizing lo with
  | nil => exact ⟨hk, hv, trivial⟩
  | cons a t ih =>
    unfold mins
    split
    · exact ⟨hk, hv, ⟨by assumption, h.2⟩⟩
    · have : a.1 ≠ k := hne a (by simp)
      refine ⟨h.1, h.2.1, ih h.2.2 (by omega) (fun p hp => hne p (by simp [hp]))⟩

/-- A write keeps the canonical form, by the unlisted value of its own key. -/
theorem rises_mset_key {d : Nat → α} {m : List (Nat × α)} (h : rises d 0 m) (k : Nat) (v : α) : rises d 0 (mset (d k) m k v) := by
  unfold mset
  split
  · rw [mdel_eq_filter]; exact rises_filter _ h
  · refine rises_mins ?_ (Nat.zero_le k) (mdel_keys m k) ‹_›
    rw [mdel_eq_filter]; exact rises_filter _ h

omit [DecidableEq α] in
theorem rises_mkeep {d : Nat → α} {lo : Nat} {m : List (Nat × α)} (h : rises d lo m) (p : Nat → Bool) : rises d lo (mkeep p m) :=
  rises_filter _ h

theorem mwf_mset {d : α} {m : List (Nat × α)} (h : mwf d m = true) (k : Nat) (v : α) : mwf d (mset d m k v) = true :=
  (mwf_iff d _).2 (rises_mset_key ((mwf_iff d m).1 h) k v)

theorem mwf_mkeep {d : α} {m : List (Nat × α)} (h : mwf d m = true) (p : Nat → Bool) : mwf d (mkeep p m) = true :=
  (mwf_iff d _).2 (rises_mkeep ((mwf_iff d m).1 h) p)

theorem mwf_mmapv {d : α} {m : List (Nat × α)} (h : mwf d m = true) (f : α → α) : mwf d (mmapv d f m) = true := by
  rw [mwf_iff] at h ⊢
  unfold mmapv
  generalize (0 : Nat) = lo at h
  induction m generalizing lo with
  | nil => trivial
  | cons a t ih =>
    simp only [List.map_cons]
    by_cases hf : f a.2 = d
    · rw [List.filter_cons_of_neg (by simp [hf])]
      exact rises_mono (ih _ h.2.2) (by have := h.1; omega)
    · rw [List.filter_cons_of_pos (by simp [hf])]
      exact ⟨h.1, hf, ih _ h.2.2⟩

theorem mwf_msetAll {d : α} {m : List (Nat × α)} (h : mwf d m = true) (kvs : List (Nat × α)) : mwf d (msetAll d m kvs) = true := by
  unfold msetAll
  induction kvs generalizing m with
  | nil => exact h
  | cons a t ih => exact ih (mwf_mset h a.1 a.2)

omit [DecidableEq α] in
theorem rises_append {d : Nat → α} {lo hi : Nat} {a b : List (Nat × α)} (ha : rises d lo a) (hb : rises d hi b) (hlo : lo ≤ hi)
    (hlt : ∀ p ∈ a, p.1 < hi) : rises d lo (a ++ b) := by
  induction a generalizing lo with
  | nil => exact rises_mono hb hlo
  | cons x t ih =>
    refine ⟨ha.1, ha.2.1, ih ha.2.2 ?_ (fun p hp => hlt p (by simp [hp]))⟩
    have := hlt x (by simp); omega

omit [DecidableEq α] in
theorem rises_range {d : Nat → α} {v : α} (lo n : Nat) (hv : ∀ k, v ≠ d k) :
    rises d lo ((List.range n).map fun i => (lo + i, v)) := by
  induction n generalizing lo with
  | zero => trivial
  | succ n ih =>
    rw [List.range_succ_eq_map]
    refine ⟨by simp, hv _, ?_⟩
    have := ih (lo + 1)
    simpa [List.map_map, Function.comp_def, Nat.add_assoc, Nat.add_comm 1] using this

omit [DecidableEq α] in
theorem rises_raise {d : Nat → α} {lo hi : Nat} {m : List (Nat × α)} (h : rises d lo m) (hk : ∀ p ∈ m, hi ≤ p.1) :
    rises d hi m := by
  cases m with
  | nil => trivial
  | cons a t => exact ⟨hk a (by simp), h.2⟩

theorem mwf_mfill {d : α} {m : List (Nat × α)} (h : mwf d m = true) (lo n : Nat) (v : α) : mwf d (mfill d m lo n v) = true := by
  rw [mwf_iff] at h ⊢
  unfold mfill
  have hhi : rises (fun _ => d) (lo + n) (mkeep (fun k => decide (lo + n ≤ k)) m) := by
    refine rises_raise (rises_mkeep h _) ?_
    intro p hp
    have := List.mem_filter.1 hp
    simpa using this.2
  have hlow : rises (fun _ => d) 0 (mkeep (fun k => decide (k < lo)) m) := rises_mkeep h _
  have hl : ∀ p ∈ mkeep (fun k => decide (k < lo)) m, p.1 < lo := by
    intro p hp
    have := List.mem_filter.1 hp
    simpa using this.2
  rw [List.append_assoc]
  refine rises_append (hi := lo) hlow ?_ (Nat.zero_le lo) hl
  split
  · exact rises_mono hhi (by omega)
  · refine rises_append (hi := lo + n) (rises_range lo n (fun _ => ‹_›)) hhi (by omega) ?_
    intro p hp
    rw [List.mem_map] at hp
    obtain ⟨i, hi, rfl⟩ := hp
    have := List.mem_range.1 hi
    simp; omega

end

end Sys2Proof.Machine
end

