-- ==== Sys2Proof/Laws/State.lean ====
section
/-!
SUPPORT. What each update of the State leaves as it was, field by field.
-/
namespace Sys2Proof.Machine

@[simp] theorem rset_pending (o : Nat) (w : Word) (s : State) : (rset o w s).pending = s.pending := rfl
@[simp] theorem rset_dev (o : Nat) (w : Word) (s : State) : (rset o w s).dev = s.dev := rfl
@[simp] theorem rset_seq (o : Nat) (w : Word) (s : State) : (rset o w s).seq = s.seq := rfl
@[simp] theorem rset_fab (o : Nat) (w : Word) (s : State) : (rset o w s).fab = s.fab := rfl
@[simp] theorem rset_bas (o : Nat) (w : Word) (s : State) : (rset o w s).bas = s.bas := rfl
@[simp] theorem rset_slu (o : Nat) (w : Word) (s : State) : (rset o w s).slu = s.slu := rfl
@[simp] theorem rset_req (o : Nat) (w : Word) (s : State) : (rset o w s).req = s.req := rfl
@[simp] theorem rset_hold (o : Nat) (w : Word) (s : State) : (rset o w s).hold = s.hold := rfl
@[simp] theorem rset_dmc (o : Nat) (w : Word) (s : State) : (rset o w s).dmc = s.dmc := rfl
@[simp] theorem rset_lnk (o : Nat) (w : Word) (s : State) : (rset o w s).lnk = s.lnk := rfl
@[simp] theorem rset_grp (o : Nat) (w : Word) (s : State) : (rset o w s).grp = s.grp := rfl
@[simp] theorem rset_xch (o : Nat) (w : Word) (s : State) : (rset o w s).xch = s.xch := rfl
@[simp] theorem rset_gau (o : Nat) (w : Word) (s : State) : (rset o w s).gau = s.gau := rfl
@[simp] theorem rset_saf (o : Nat) (w : Word) (s : State) : (rset o w s).saf = s.saf := rfl
@[simp] theorem rset_tim (o : Nat) (w : Word) (s : State) : (rset o w s).tim = s.tim := rfl
@[simp] theorem rset_trc (o : Nat) (w : Word) (s : State) : (rset o w s).trc = s.trc := rfl
@[simp] theorem rset_host (o : Nat) (w : Word) (s : State) : (rset o w s).host = s.host := rfl
@[simp] theorem rset_clk (o : Nat) (w : Word) (s : State) : (rset o w s).clk = s.clk := rfl
@[simp] theorem rset_bnw (o : Nat) (w : Word) (s : State) : (rset o w s).bnw = s.bnw := rfl
@[simp] theorem rset_lkp (o : Nat) (w : Word) (s : State) : (rset o w s).lkp = s.lkp := rfl
@[simp] theorem rset_pwr (o : Nat) (w : Word) (s : State) : (rset o w s).pwr = s.pwr := rfl
@[simp] theorem rset_rst (o : Nat) (w : Word) (s : State) : (rset o w s).rst = s.rst := rfl
@[simp] theorem rset_std (o : Nat) (w : Word) (s : State) : (rset o w s).std = s.std := rfl
@[simp] theorem rset_freeCtr (o : Nat) (w : Word) (s : State) : (rset o w s).freeCtr = s.freeCtr := rfl

@[simp] theorem rmod_pending (o : Nat) (f : Word → Word) (s : State) : (rmod o f s).pending = s.pending := rfl
@[simp] theorem rmod_dev (o : Nat) (f : Word → Word) (s : State) : (rmod o f s).dev = s.dev := rfl
@[simp] theorem rmod_seq (o : Nat) (f : Word → Word) (s : State) : (rmod o f s).seq = s.seq := rfl
@[simp] theorem rmod_fab (o : Nat) (f : Word → Word) (s : State) : (rmod o f s).fab = s.fab := rfl
@[simp] theorem rmod_bas (o : Nat) (f : Word → Word) (s : State) : (rmod o f s).bas = s.bas := rfl
@[simp] theorem rmod_slu (o : Nat) (f : Word → Word) (s : State) : (rmod o f s).slu = s.slu := rfl
@[simp] theorem rmod_req (o : Nat) (f : Word → Word) (s : State) : (rmod o f s).req = s.req := rfl
@[simp] theorem rmod_hold (o : Nat) (f : Word → Word) (s : State) : (rmod o f s).hold = s.hold := rfl
@[simp] theorem rmod_dmc (o : Nat) (f : Word → Word) (s : State) : (rmod o f s).dmc = s.dmc := rfl
@[simp] theorem rmod_lnk (o : Nat) (f : Word → Word) (s : State) : (rmod o f s).lnk = s.lnk := rfl
@[simp] theorem rmod_grp (o : Nat) (f : Word → Word) (s : State) : (rmod o f s).grp = s.grp := rfl
@[simp] theorem rmod_xch (o : Nat) (f : Word → Word) (s : State) : (rmod o f s).xch = s.xch := rfl
@[simp] theorem rmod_gau (o : Nat) (f : Word → Word) (s : State) : (rmod o f s).gau = s.gau := rfl
@[simp] theorem rmod_saf (o : Nat) (f : Word → Word) (s : State) : (rmod o f s).saf = s.saf := rfl
@[simp] theorem rmod_tim (o : Nat) (f : Word → Word) (s : State) : (rmod o f s).tim = s.tim := rfl
@[simp] theorem rmod_trc (o : Nat) (f : Word → Word) (s : State) : (rmod o f s).trc = s.trc := rfl
@[simp] theorem rmod_host (o : Nat) (f : Word → Word) (s : State) : (rmod o f s).host = s.host := rfl
@[simp] theorem rmod_clk (o : Nat) (f : Word → Word) (s : State) : (rmod o f s).clk = s.clk := rfl
@[simp] theorem rmod_bnw (o : Nat) (f : Word → Word) (s : State) : (rmod o f s).bnw = s.bnw := rfl
@[simp] theorem rmod_lkp (o : Nat) (f : Word → Word) (s : State) : (rmod o f s).lkp = s.lkp := rfl
@[simp] theorem rmod_pwr (o : Nat) (f : Word → Word) (s : State) : (rmod o f s).pwr = s.pwr := rfl
@[simp] theorem rmod_rst (o : Nat) (f : Word → Word) (s : State) : (rmod o f s).rst = s.rst := rfl
@[simp] theorem rmod_std (o : Nat) (f : Word → Word) (s : State) : (rmod o f s).std = s.std := rfl
@[simp] theorem rmod_freeCtr (o : Nat) (f : Word → Word) (s : State) : (rmod o f s).freeCtr = s.freeCtr := rfl

@[simp] theorem rput_pending (o hi lo v : Nat) (s : State) : (rput o hi lo v s).pending = s.pending := rfl
@[simp] theorem rput_dev (o hi lo v : Nat) (s : State) : (rput o hi lo v s).dev = s.dev := rfl
@[simp] theorem rput_seq (o hi lo v : Nat) (s : State) : (rput o hi lo v s).seq = s.seq := rfl
@[simp] theorem rput_fab (o hi lo v : Nat) (s : State) : (rput o hi lo v s).fab = s.fab := rfl
@[simp] theorem rput_bas (o hi lo v : Nat) (s : State) : (rput o hi lo v s).bas = s.bas := rfl
@[simp] theorem rput_slu (o hi lo v : Nat) (s : State) : (rput o hi lo v s).slu = s.slu := rfl
@[simp] theorem rput_req (o hi lo v : Nat) (s : State) : (rput o hi lo v s).req = s.req := rfl
@[simp] theorem rput_hold (o hi lo v : Nat) (s : State) : (rput o hi lo v s).hold = s.hold := rfl
@[simp] theorem rput_dmc (o hi lo v : Nat) (s : State) : (rput o hi lo v s).dmc = s.dmc := rfl
@[simp] theorem rput_lnk (o hi lo v : Nat) (s : State) : (rput o hi lo v s).lnk = s.lnk := rfl
@[simp] theorem rput_grp (o hi lo v : Nat) (s : State) : (rput o hi lo v s).grp = s.grp := rfl
@[simp] theorem rput_xch (o hi lo v : Nat) (s : State) : (rput o hi lo v s).xch = s.xch := rfl
@[simp] theorem rput_gau (o hi lo v : Nat) (s : State) : (rput o hi lo v s).gau = s.gau := rfl
@[simp] theorem rput_saf (o hi lo v : Nat) (s : State) : (rput o hi lo v s).saf = s.saf := rfl
@[simp] theorem rput_tim (o hi lo v : Nat) (s : State) : (rput o hi lo v s).tim = s.tim := rfl
@[simp] theorem rput_trc (o hi lo v : Nat) (s : State) : (rput o hi lo v s).trc = s.trc := rfl
@[simp] theorem rput_host (o hi lo v : Nat) (s : State) : (rput o hi lo v s).host = s.host := rfl
@[simp] theorem rput_clk (o hi lo v : Nat) (s : State) : (rput o hi lo v s).clk = s.clk := rfl
@[simp] theorem rput_bnw (o hi lo v : Nat) (s : State) : (rput o hi lo v s).bnw = s.bnw := rfl
@[simp] theorem rput_lkp (o hi lo v : Nat) (s : State) : (rput o hi lo v s).lkp = s.lkp := rfl
@[simp] theorem rput_pwr (o hi lo v : Nat) (s : State) : (rput o hi lo v s).pwr = s.pwr := rfl
@[simp] theorem rput_rst (o hi lo v : Nat) (s : State) : (rput o hi lo v s).rst = s.rst := rfl
@[simp] theorem rput_std (o hi lo v : Nat) (s : State) : (rput o hi lo v s).std = s.std := rfl
@[simp] theorem rput_freeCtr (o hi lo v : Nat) (s : State) : (rput o hi lo v s).freeCtr = s.freeCtr := rfl

@[simp] theorem rflag_pending (o i : Nat) (s : State) : (rflag o i s).pending = s.pending := rfl
@[simp] theorem rflag_dev (o i : Nat) (s : State) : (rflag o i s).dev = s.dev := rfl
@[simp] theorem rflag_seq (o i : Nat) (s : State) : (rflag o i s).seq = s.seq := rfl
@[simp] theorem rflag_fab (o i : Nat) (s : State) : (rflag o i s).fab = s.fab := rfl
@[simp] theorem rflag_bas (o i : Nat) (s : State) : (rflag o i s).bas = s.bas := rfl
@[simp] theorem rflag_slu (o i : Nat) (s : State) : (rflag o i s).slu = s.slu := rfl
@[simp] theorem rflag_req (o i : Nat) (s : State) : (rflag o i s).req = s.req := rfl
@[simp] theorem rflag_hold (o i : Nat) (s : State) : (rflag o i s).hold = s.hold := rfl
@[simp] theorem rflag_dmc (o i : Nat) (s : State) : (rflag o i s).dmc = s.dmc := rfl
@[simp] theorem rflag_lnk (o i : Nat) (s : State) : (rflag o i s).lnk = s.lnk := rfl
@[simp] theorem rflag_grp (o i : Nat) (s : State) : (rflag o i s).grp = s.grp := rfl
@[simp] theorem rflag_xch (o i : Nat) (s : State) : (rflag o i s).xch = s.xch := rfl
@[simp] theorem rflag_gau (o i : Nat) (s : State) : (rflag o i s).gau = s.gau := rfl
@[simp] theorem rflag_saf (o i : Nat) (s : State) : (rflag o i s).saf = s.saf := rfl
@[simp] theorem rflag_tim (o i : Nat) (s : State) : (rflag o i s).tim = s.tim := rfl
@[simp] theorem rflag_trc (o i : Nat) (s : State) : (rflag o i s).trc = s.trc := rfl
@[simp] theorem rflag_host (o i : Nat) (s : State) : (rflag o i s).host = s.host := rfl
@[simp] theorem rflag_clk (o i : Nat) (s : State) : (rflag o i s).clk = s.clk := rfl
@[simp] theorem rflag_bnw (o i : Nat) (s : State) : (rflag o i s).bnw = s.bnw := rfl
@[simp] theorem rflag_lkp (o i : Nat) (s : State) : (rflag o i s).lkp = s.lkp := rfl
@[simp] theorem rflag_pwr (o i : Nat) (s : State) : (rflag o i s).pwr = s.pwr := rfl
@[simp] theorem rflag_rst (o i : Nat) (s : State) : (rflag o i s).rst = s.rst := rfl
@[simp] theorem rflag_std (o i : Nat) (s : State) : (rflag o i s).std = s.std := rfl
@[simp] theorem rflag_freeCtr (o i : Nat) (s : State) : (rflag o i s).freeCtr = s.freeCtr := rfl

@[simp] theorem rputb_pending (o i : Nat) (b : Bool) (s : State) : (rputb o i b s).pending = s.pending := rfl
@[simp] theorem rputb_dev (o i : Nat) (b : Bool) (s : State) : (rputb o i b s).dev = s.dev := rfl
@[simp] theorem rputb_seq (o i : Nat) (b : Bool) (s : State) : (rputb o i b s).seq = s.seq := rfl
@[simp] theorem rputb_fab (o i : Nat) (b : Bool) (s : State) : (rputb o i b s).fab = s.fab := rfl
@[simp] theorem rputb_bas (o i : Nat) (b : Bool) (s : State) : (rputb o i b s).bas = s.bas := rfl
@[simp] theorem rputb_slu (o i : Nat) (b : Bool) (s : State) : (rputb o i b s).slu = s.slu := rfl
@[simp] theorem rputb_req (o i : Nat) (b : Bool) (s : State) : (rputb o i b s).req = s.req := rfl
@[simp] theorem rputb_hold (o i : Nat) (b : Bool) (s : State) : (rputb o i b s).hold = s.hold := rfl
@[simp] theorem rputb_dmc (o i : Nat) (b : Bool) (s : State) : (rputb o i b s).dmc = s.dmc := rfl
@[simp] theorem rputb_lnk (o i : Nat) (b : Bool) (s : State) : (rputb o i b s).lnk = s.lnk := rfl
@[simp] theorem rputb_grp (o i : Nat) (b : Bool) (s : State) : (rputb o i b s).grp = s.grp := rfl
@[simp] theorem rputb_xch (o i : Nat) (b : Bool) (s : State) : (rputb o i b s).xch = s.xch := rfl
@[simp] theorem rputb_gau (o i : Nat) (b : Bool) (s : State) : (rputb o i b s).gau = s.gau := rfl
@[simp] theorem rputb_saf (o i : Nat) (b : Bool) (s : State) : (rputb o i b s).saf = s.saf := rfl
@[simp] theorem rputb_tim (o i : Nat) (b : Bool) (s : State) : (rputb o i b s).tim = s.tim := rfl
@[simp] theorem rputb_trc (o i : Nat) (b : Bool) (s : State) : (rputb o i b s).trc = s.trc := rfl
@[simp] theorem rputb_host (o i : Nat) (b : Bool) (s : State) : (rputb o i b s).host = s.host := rfl
@[simp] theorem rputb_clk (o i : Nat) (b : Bool) (s : State) : (rputb o i b s).clk = s.clk := rfl
@[simp] theorem rputb_bnw (o i : Nat) (b : Bool) (s : State) : (rputb o i b s).bnw = s.bnw := rfl
@[simp] theorem rputb_lkp (o i : Nat) (b : Bool) (s : State) : (rputb o i b s).lkp = s.lkp := rfl
@[simp] theorem rputb_pwr (o i : Nat) (b : Bool) (s : State) : (rputb o i b s).pwr = s.pwr := rfl
@[simp] theorem rputb_rst (o i : Nat) (b : Bool) (s : State) : (rputb o i b s).rst = s.rst := rfl
@[simp] theorem rputb_std (o i : Nat) (b : Bool) (s : State) : (rputb o i b s).std = s.std := rfl
@[simp] theorem rputb_freeCtr (o i : Nat) (b : Bool) (s : State) : (rputb o i b s).freeCtr = s.freeCtr := rfl

@[simp] theorem rcount_pending (o hi lo k : Nat) (s : State) : (rcount o hi lo k s).pending = s.pending := rfl
@[simp] theorem rcount_dev (o hi lo k : Nat) (s : State) : (rcount o hi lo k s).dev = s.dev := rfl
@[simp] theorem rcount_seq (o hi lo k : Nat) (s : State) : (rcount o hi lo k s).seq = s.seq := rfl
@[simp] theorem rcount_fab (o hi lo k : Nat) (s : State) : (rcount o hi lo k s).fab = s.fab := rfl
@[simp] theorem rcount_bas (o hi lo k : Nat) (s : State) : (rcount o hi lo k s).bas = s.bas := rfl
@[simp] theorem rcount_slu (o hi lo k : Nat) (s : State) : (rcount o hi lo k s).slu = s.slu := rfl
@[simp] theorem rcount_req (o hi lo k : Nat) (s : State) : (rcount o hi lo k s).req = s.req := rfl
@[simp] theorem rcount_hold (o hi lo k : Nat) (s : State) : (rcount o hi lo k s).hold = s.hold := rfl
@[simp] theorem rcount_dmc (o hi lo k : Nat) (s : State) : (rcount o hi lo k s).dmc = s.dmc := rfl
@[simp] theorem rcount_lnk (o hi lo k : Nat) (s : State) : (rcount o hi lo k s).lnk = s.lnk := rfl
@[simp] theorem rcount_grp (o hi lo k : Nat) (s : State) : (rcount o hi lo k s).grp = s.grp := rfl
@[simp] theorem rcount_xch (o hi lo k : Nat) (s : State) : (rcount o hi lo k s).xch = s.xch := rfl
@[simp] theorem rcount_gau (o hi lo k : Nat) (s : State) : (rcount o hi lo k s).gau = s.gau := rfl
@[simp] theorem rcount_saf (o hi lo k : Nat) (s : State) : (rcount o hi lo k s).saf = s.saf := rfl
@[simp] theorem rcount_tim (o hi lo k : Nat) (s : State) : (rcount o hi lo k s).tim = s.tim := rfl
@[simp] theorem rcount_trc (o hi lo k : Nat) (s : State) : (rcount o hi lo k s).trc = s.trc := rfl
@[simp] theorem rcount_host (o hi lo k : Nat) (s : State) : (rcount o hi lo k s).host = s.host := rfl
@[simp] theorem rcount_clk (o hi lo k : Nat) (s : State) : (rcount o hi lo k s).clk = s.clk := rfl
@[simp] theorem rcount_bnw (o hi lo k : Nat) (s : State) : (rcount o hi lo k s).bnw = s.bnw := rfl
@[simp] theorem rcount_lkp (o hi lo k : Nat) (s : State) : (rcount o hi lo k s).lkp = s.lkp := rfl
@[simp] theorem rcount_pwr (o hi lo k : Nat) (s : State) : (rcount o hi lo k s).pwr = s.pwr := rfl
@[simp] theorem rcount_rst (o hi lo k : Nat) (s : State) : (rcount o hi lo k s).rst = s.rst := rfl
@[simp] theorem rcount_std (o hi lo k : Nat) (s : State) : (rcount o hi lo k s).std = s.std := rfl
@[simp] theorem rcount_freeCtr (o hi lo k : Nat) (s : State) : (rcount o hi lo k s).freeCtr = s.freeCtr := rfl

@[simp] theorem setCl_pending (k : Nat) (c : Cluster) (s : State) : (setCl k c s).pending = s.pending := rfl
@[simp] theorem setCl_dev (k : Nat) (c : Cluster) (s : State) : (setCl k c s).dev = s.dev := rfl
@[simp] theorem setCl_regs (k : Nat) (c : Cluster) (s : State) : (setCl k c s).regs = s.regs := rfl
@[simp] theorem setCl_seq (k : Nat) (c : Cluster) (s : State) : (setCl k c s).seq = s.seq := rfl
@[simp] theorem setCl_bas (k : Nat) (c : Cluster) (s : State) : (setCl k c s).bas = s.bas := rfl
@[simp] theorem setCl_slu (k : Nat) (c : Cluster) (s : State) : (setCl k c s).slu = s.slu := rfl
@[simp] theorem setCl_req (k : Nat) (c : Cluster) (s : State) : (setCl k c s).req = s.req := rfl
@[simp] theorem setCl_hold (k : Nat) (c : Cluster) (s : State) : (setCl k c s).hold = s.hold := rfl
@[simp] theorem setCl_dmc (k : Nat) (c : Cluster) (s : State) : (setCl k c s).dmc = s.dmc := rfl
@[simp] theorem setCl_lnk (k : Nat) (c : Cluster) (s : State) : (setCl k c s).lnk = s.lnk := rfl
@[simp] theorem setCl_grp (k : Nat) (c : Cluster) (s : State) : (setCl k c s).grp = s.grp := rfl
@[simp] theorem setCl_xch (k : Nat) (c : Cluster) (s : State) : (setCl k c s).xch = s.xch := rfl
@[simp] theorem setCl_gau (k : Nat) (c : Cluster) (s : State) : (setCl k c s).gau = s.gau := rfl
@[simp] theorem setCl_saf (k : Nat) (c : Cluster) (s : State) : (setCl k c s).saf = s.saf := rfl
@[simp] theorem setCl_tim (k : Nat) (c : Cluster) (s : State) : (setCl k c s).tim = s.tim := rfl
@[simp] theorem setCl_trc (k : Nat) (c : Cluster) (s : State) : (setCl k c s).trc = s.trc := rfl
@[simp] theorem setCl_host (k : Nat) (c : Cluster) (s : State) : (setCl k c s).host = s.host := rfl
@[simp] theorem setCl_clk (k : Nat) (c : Cluster) (s : State) : (setCl k c s).clk = s.clk := rfl
@[simp] theorem setCl_bnw (k : Nat) (c : Cluster) (s : State) : (setCl k c s).bnw = s.bnw := rfl
@[simp] theorem setCl_lkp (k : Nat) (c : Cluster) (s : State) : (setCl k c s).lkp = s.lkp := rfl
@[simp] theorem setCl_pwr (k : Nat) (c : Cluster) (s : State) : (setCl k c s).pwr = s.pwr := rfl
@[simp] theorem setCl_rst (k : Nat) (c : Cluster) (s : State) : (setCl k c s).rst = s.rst := rfl
@[simp] theorem setCl_std (k : Nat) (c : Cluster) (s : State) : (setCl k c s).std = s.std := rfl
@[simp] theorem setCl_freeCtr (k : Nat) (c : Cluster) (s : State) : (setCl k c s).freeCtr = s.freeCtr := rfl

@[simp] theorem setBas_pending (k : Nat) (c : Basin) (s : State) : (setBas k c s).pending = s.pending := rfl
@[simp] theorem setBas_dev (k : Nat) (c : Basin) (s : State) : (setBas k c s).dev = s.dev := rfl
@[simp] theorem setBas_regs (k : Nat) (c : Basin) (s : State) : (setBas k c s).regs = s.regs := rfl
@[simp] theorem setBas_seq (k : Nat) (c : Basin) (s : State) : (setBas k c s).seq = s.seq := rfl
@[simp] theorem setBas_fab (k : Nat) (c : Basin) (s : State) : (setBas k c s).fab = s.fab := rfl
@[simp] theorem setBas_slu (k : Nat) (c : Basin) (s : State) : (setBas k c s).slu = s.slu := rfl
@[simp] theorem setBas_req (k : Nat) (c : Basin) (s : State) : (setBas k c s).req = s.req := rfl
@[simp] theorem setBas_hold (k : Nat) (c : Basin) (s : State) : (setBas k c s).hold = s.hold := rfl
@[simp] theorem setBas_dmc (k : Nat) (c : Basin) (s : State) : (setBas k c s).dmc = s.dmc := rfl
@[simp] theorem setBas_lnk (k : Nat) (c : Basin) (s : State) : (setBas k c s).lnk = s.lnk := rfl
@[simp] theorem setBas_grp (k : Nat) (c : Basin) (s : State) : (setBas k c s).grp = s.grp := rfl
@[simp] theorem setBas_xch (k : Nat) (c : Basin) (s : State) : (setBas k c s).xch = s.xch := rfl
@[simp] theorem setBas_gau (k : Nat) (c : Basin) (s : State) : (setBas k c s).gau = s.gau := rfl
@[simp] theorem setBas_saf (k : Nat) (c : Basin) (s : State) : (setBas k c s).saf = s.saf := rfl
@[simp] theorem setBas_tim (k : Nat) (c : Basin) (s : State) : (setBas k c s).tim = s.tim := rfl
@[simp] theorem setBas_trc (k : Nat) (c : Basin) (s : State) : (setBas k c s).trc = s.trc := rfl
@[simp] theorem setBas_host (k : Nat) (c : Basin) (s : State) : (setBas k c s).host = s.host := rfl
@[simp] theorem setBas_clk (k : Nat) (c : Basin) (s : State) : (setBas k c s).clk = s.clk := rfl
@[simp] theorem setBas_bnw (k : Nat) (c : Basin) (s : State) : (setBas k c s).bnw = s.bnw := rfl
@[simp] theorem setBas_lkp (k : Nat) (c : Basin) (s : State) : (setBas k c s).lkp = s.lkp := rfl
@[simp] theorem setBas_pwr (k : Nat) (c : Basin) (s : State) : (setBas k c s).pwr = s.pwr := rfl
@[simp] theorem setBas_rst (k : Nat) (c : Basin) (s : State) : (setBas k c s).rst = s.rst := rfl
@[simp] theorem setBas_std (k : Nat) (c : Basin) (s : State) : (setBas k c s).std = s.std := rfl
@[simp] theorem setBas_freeCtr (k : Nat) (c : Basin) (s : State) : (setBas k c s).freeCtr = s.freeCtr := rfl

@[simp] theorem setSlu_pending (k : Nat) (c : Sluice) (s : State) : (setSlu k c s).pending = s.pending := rfl
@[simp] theorem setSlu_dev (k : Nat) (c : Sluice) (s : State) : (setSlu k c s).dev = s.dev := rfl
@[simp] theorem setSlu_regs (k : Nat) (c : Sluice) (s : State) : (setSlu k c s).regs = s.regs := rfl
@[simp] theorem setSlu_seq (k : Nat) (c : Sluice) (s : State) : (setSlu k c s).seq = s.seq := rfl
@[simp] theorem setSlu_fab (k : Nat) (c : Sluice) (s : State) : (setSlu k c s).fab = s.fab := rfl
@[simp] theorem setSlu_bas (k : Nat) (c : Sluice) (s : State) : (setSlu k c s).bas = s.bas := rfl
@[simp] theorem setSlu_req (k : Nat) (c : Sluice) (s : State) : (setSlu k c s).req = s.req := rfl
@[simp] theorem setSlu_hold (k : Nat) (c : Sluice) (s : State) : (setSlu k c s).hold = s.hold := rfl
@[simp] theorem setSlu_dmc (k : Nat) (c : Sluice) (s : State) : (setSlu k c s).dmc = s.dmc := rfl
@[simp] theorem setSlu_lnk (k : Nat) (c : Sluice) (s : State) : (setSlu k c s).lnk = s.lnk := rfl
@[simp] theorem setSlu_grp (k : Nat) (c : Sluice) (s : State) : (setSlu k c s).grp = s.grp := rfl
@[simp] theorem setSlu_xch (k : Nat) (c : Sluice) (s : State) : (setSlu k c s).xch = s.xch := rfl
@[simp] theorem setSlu_gau (k : Nat) (c : Sluice) (s : State) : (setSlu k c s).gau = s.gau := rfl
@[simp] theorem setSlu_saf (k : Nat) (c : Sluice) (s : State) : (setSlu k c s).saf = s.saf := rfl
@[simp] theorem setSlu_tim (k : Nat) (c : Sluice) (s : State) : (setSlu k c s).tim = s.tim := rfl
@[simp] theorem setSlu_trc (k : Nat) (c : Sluice) (s : State) : (setSlu k c s).trc = s.trc := rfl
@[simp] theorem setSlu_host (k : Nat) (c : Sluice) (s : State) : (setSlu k c s).host = s.host := rfl
@[simp] theorem setSlu_clk (k : Nat) (c : Sluice) (s : State) : (setSlu k c s).clk = s.clk := rfl
@[simp] theorem setSlu_bnw (k : Nat) (c : Sluice) (s : State) : (setSlu k c s).bnw = s.bnw := rfl
@[simp] theorem setSlu_lkp (k : Nat) (c : Sluice) (s : State) : (setSlu k c s).lkp = s.lkp := rfl
@[simp] theorem setSlu_pwr (k : Nat) (c : Sluice) (s : State) : (setSlu k c s).pwr = s.pwr := rfl
@[simp] theorem setSlu_rst (k : Nat) (c : Sluice) (s : State) : (setSlu k c s).rst = s.rst := rfl
@[simp] theorem setSlu_std (k : Nat) (c : Sluice) (s : State) : (setSlu k c s).std = s.std := rfl
@[simp] theorem setSlu_freeCtr (k : Nat) (c : Sluice) (s : State) : (setSlu k c s).freeCtr = s.freeCtr := rfl

@[simp] theorem setLnk_pending (k : Nat) (c : Link) (s : State) : (setLnk k c s).pending = s.pending := rfl
@[simp] theorem setLnk_dev (k : Nat) (c : Link) (s : State) : (setLnk k c s).dev = s.dev := rfl
@[simp] theorem setLnk_regs (k : Nat) (c : Link) (s : State) : (setLnk k c s).regs = s.regs := rfl
@[simp] theorem setLnk_seq (k : Nat) (c : Link) (s : State) : (setLnk k c s).seq = s.seq := rfl
@[simp] theorem setLnk_fab (k : Nat) (c : Link) (s : State) : (setLnk k c s).fab = s.fab := rfl
@[simp] theorem setLnk_bas (k : Nat) (c : Link) (s : State) : (setLnk k c s).bas = s.bas := rfl
@[simp] theorem setLnk_slu (k : Nat) (c : Link) (s : State) : (setLnk k c s).slu = s.slu := rfl
@[simp] theorem setLnk_req (k : Nat) (c : Link) (s : State) : (setLnk k c s).req = s.req := rfl
@[simp] theorem setLnk_hold (k : Nat) (c : Link) (s : State) : (setLnk k c s).hold = s.hold := rfl
@[simp] theorem setLnk_dmc (k : Nat) (c : Link) (s : State) : (setLnk k c s).dmc = s.dmc := rfl
@[simp] theorem setLnk_grp (k : Nat) (c : Link) (s : State) : (setLnk k c s).grp = s.grp := rfl
@[simp] theorem setLnk_xch (k : Nat) (c : Link) (s : State) : (setLnk k c s).xch = s.xch := rfl
@[simp] theorem setLnk_gau (k : Nat) (c : Link) (s : State) : (setLnk k c s).gau = s.gau := rfl
@[simp] theorem setLnk_saf (k : Nat) (c : Link) (s : State) : (setLnk k c s).saf = s.saf := rfl
@[simp] theorem setLnk_tim (k : Nat) (c : Link) (s : State) : (setLnk k c s).tim = s.tim := rfl
@[simp] theorem setLnk_trc (k : Nat) (c : Link) (s : State) : (setLnk k c s).trc = s.trc := rfl
@[simp] theorem setLnk_host (k : Nat) (c : Link) (s : State) : (setLnk k c s).host = s.host := rfl
@[simp] theorem setLnk_clk (k : Nat) (c : Link) (s : State) : (setLnk k c s).clk = s.clk := rfl
@[simp] theorem setLnk_bnw (k : Nat) (c : Link) (s : State) : (setLnk k c s).bnw = s.bnw := rfl
@[simp] theorem setLnk_lkp (k : Nat) (c : Link) (s : State) : (setLnk k c s).lkp = s.lkp := rfl
@[simp] theorem setLnk_pwr (k : Nat) (c : Link) (s : State) : (setLnk k c s).pwr = s.pwr := rfl
@[simp] theorem setLnk_rst (k : Nat) (c : Link) (s : State) : (setLnk k c s).rst = s.rst := rfl
@[simp] theorem setLnk_std (k : Nat) (c : Link) (s : State) : (setLnk k c s).std = s.std := rfl
@[simp] theorem setLnk_freeCtr (k : Nat) (c : Link) (s : State) : (setLnk k c s).freeCtr = s.freeCtr := rfl

@[simp] theorem setLane_pending (k : Nat) (c : Lane) (s : State) : (setLane k c s).pending = s.pending := rfl
@[simp] theorem setLane_dev (k : Nat) (c : Lane) (s : State) : (setLane k c s).dev = s.dev := rfl
@[simp] theorem setLane_regs (k : Nat) (c : Lane) (s : State) : (setLane k c s).regs = s.regs := rfl
@[simp] theorem setLane_seq (k : Nat) (c : Lane) (s : State) : (setLane k c s).seq = s.seq := rfl
@[simp] theorem setLane_fab (k : Nat) (c : Lane) (s : State) : (setLane k c s).fab = s.fab := rfl
@[simp] theorem setLane_bas (k : Nat) (c : Lane) (s : State) : (setLane k c s).bas = s.bas := rfl
@[simp] theorem setLane_slu (k : Nat) (c : Lane) (s : State) : (setLane k c s).slu = s.slu := rfl
@[simp] theorem setLane_req (k : Nat) (c : Lane) (s : State) : (setLane k c s).req = s.req := rfl
@[simp] theorem setLane_hold (k : Nat) (c : Lane) (s : State) : (setLane k c s).hold = s.hold := rfl
@[simp] theorem setLane_dmc (k : Nat) (c : Lane) (s : State) : (setLane k c s).dmc = s.dmc := rfl
@[simp] theorem setLane_lnk (k : Nat) (c : Lane) (s : State) : (setLane k c s).lnk = s.lnk := rfl
@[simp] theorem setLane_grp (k : Nat) (c : Lane) (s : State) : (setLane k c s).grp = s.grp := rfl
@[simp] theorem setLane_xch (k : Nat) (c : Lane) (s : State) : (setLane k c s).xch = s.xch := rfl
@[simp] theorem setLane_saf (k : Nat) (c : Lane) (s : State) : (setLane k c s).saf = s.saf := rfl
@[simp] theorem setLane_tim (k : Nat) (c : Lane) (s : State) : (setLane k c s).tim = s.tim := rfl
@[simp] theorem setLane_trc (k : Nat) (c : Lane) (s : State) : (setLane k c s).trc = s.trc := rfl
@[simp] theorem setLane_host (k : Nat) (c : Lane) (s : State) : (setLane k c s).host = s.host := rfl
@[simp] theorem setLane_clk (k : Nat) (c : Lane) (s : State) : (setLane k c s).clk = s.clk := rfl
@[simp] theorem setLane_bnw (k : Nat) (c : Lane) (s : State) : (setLane k c s).bnw = s.bnw := rfl
@[simp] theorem setLane_lkp (k : Nat) (c : Lane) (s : State) : (setLane k c s).lkp = s.lkp := rfl
@[simp] theorem setLane_pwr (k : Nat) (c : Lane) (s : State) : (setLane k c s).pwr = s.pwr := rfl
@[simp] theorem setLane_rst (k : Nat) (c : Lane) (s : State) : (setLane k c s).rst = s.rst := rfl
@[simp] theorem setLane_std (k : Nat) (c : Lane) (s : State) : (setLane k c s).std = s.std := rfl
@[simp] theorem setLane_freeCtr (k : Nat) (c : Lane) (s : State) : (setLane k c s).freeCtr = s.freeCtr := rfl

@[simp] theorem hostPut_pending (a : Nat) (bs : List Byte) (s : State) : (hostPut a bs s).pending = s.pending := rfl
@[simp] theorem hostPut_dev (a : Nat) (bs : List Byte) (s : State) : (hostPut a bs s).dev = s.dev := rfl
@[simp] theorem hostPut_regs (a : Nat) (bs : List Byte) (s : State) : (hostPut a bs s).regs = s.regs := rfl
@[simp] theorem hostPut_seq (a : Nat) (bs : List Byte) (s : State) : (hostPut a bs s).seq = s.seq := rfl
@[simp] theorem hostPut_fab (a : Nat) (bs : List Byte) (s : State) : (hostPut a bs s).fab = s.fab := rfl
@[simp] theorem hostPut_bas (a : Nat) (bs : List Byte) (s : State) : (hostPut a bs s).bas = s.bas := rfl
@[simp] theorem hostPut_slu (a : Nat) (bs : List Byte) (s : State) : (hostPut a bs s).slu = s.slu := rfl
@[simp] theorem hostPut_req (a : Nat) (bs : List Byte) (s : State) : (hostPut a bs s).req = s.req := rfl
@[simp] theorem hostPut_hold (a : Nat) (bs : List Byte) (s : State) : (hostPut a bs s).hold = s.hold := rfl
@[simp] theorem hostPut_dmc (a : Nat) (bs : List Byte) (s : State) : (hostPut a bs s).dmc = s.dmc := rfl
@[simp] theorem hostPut_lnk (a : Nat) (bs : List Byte) (s : State) : (hostPut a bs s).lnk = s.lnk := rfl
@[simp] theorem hostPut_grp (a : Nat) (bs : List Byte) (s : State) : (hostPut a bs s).grp = s.grp := rfl
@[simp] theorem hostPut_xch (a : Nat) (bs : List Byte) (s : State) : (hostPut a bs s).xch = s.xch := rfl
@[simp] theorem hostPut_gau (a : Nat) (bs : List Byte) (s : State) : (hostPut a bs s).gau = s.gau := rfl
@[simp] theorem hostPut_saf (a : Nat) (bs : List Byte) (s : State) : (hostPut a bs s).saf = s.saf := rfl
@[simp] theorem hostPut_tim (a : Nat) (bs : List Byte) (s : State) : (hostPut a bs s).tim = s.tim := rfl
@[simp] theorem hostPut_trc (a : Nat) (bs : List Byte) (s : State) : (hostPut a bs s).trc = s.trc := rfl
@[simp] theorem hostPut_clk (a : Nat) (bs : List Byte) (s : State) : (hostPut a bs s).clk = s.clk := rfl
@[simp] theorem hostPut_bnw (a : Nat) (bs : List Byte) (s : State) : (hostPut a bs s).bnw = s.bnw := rfl
@[simp] theorem hostPut_lkp (a : Nat) (bs : List Byte) (s : State) : (hostPut a bs s).lkp = s.lkp := rfl
@[simp] theorem hostPut_pwr (a : Nat) (bs : List Byte) (s : State) : (hostPut a bs s).pwr = s.pwr := rfl
@[simp] theorem hostPut_rst (a : Nat) (bs : List Byte) (s : State) : (hostPut a bs s).rst = s.rst := rfl
@[simp] theorem hostPut_std (a : Nat) (bs : List Byte) (s : State) : (hostPut a bs s).std = s.std := rfl
@[simp] theorem hostPut_freeCtr (a : Nat) (bs : List Byte) (s : State) : (hostPut a bs s).freeCtr = s.freeCtr := rfl

theorem signal_cases (v : Nat) (s : State) : ∃ m p, signal v s = { s with host := { s.host with msix := m, pba := p } } := by
  unfold signal
  dsimp only
  split
  · exact ⟨_, _, rfl⟩
  · split <;> exact ⟨_, _, rfl⟩

@[simp] theorem signal_pending (v : Nat) (s : State) : (signal v s).pending = s.pending := by
  obtain ⟨m, p, e⟩ := signal_cases v s; rw [e]
@[simp] theorem signal_dev (v : Nat) (s : State) : (signal v s).dev = s.dev := by
  obtain ⟨m, p, e⟩ := signal_cases v s; rw [e]
@[simp] theorem signal_regs (v : Nat) (s : State) : (signal v s).regs = s.regs := by
  obtain ⟨m, p, e⟩ := signal_cases v s; rw [e]
@[simp] theorem signal_seq (v : Nat) (s : State) : (signal v s).seq = s.seq := by
  obtain ⟨m, p, e⟩ := signal_cases v s; rw [e]
@[simp] theorem signal_fab (v : Nat) (s : State) : (signal v s).fab = s.fab := by
  obtain ⟨m, p, e⟩ := signal_cases v s; rw [e]
@[simp] theorem signal_bas (v : Nat) (s : State) : (signal v s).bas = s.bas := by
  obtain ⟨m, p, e⟩ := signal_cases v s; rw [e]
@[simp] theorem signal_slu (v : Nat) (s : State) : (signal v s).slu = s.slu := by
  obtain ⟨m, p, e⟩ := signal_cases v s; rw [e]
@[simp] theorem signal_req (v : Nat) (s : State) : (signal v s).req = s.req := by
  obtain ⟨m, p, e⟩ := signal_cases v s; rw [e]
@[simp] theorem signal_hold (v : Nat) (s : State) : (signal v s).hold = s.hold := by
  obtain ⟨m, p, e⟩ := signal_cases v s; rw [e]
@[simp] theorem signal_dmc (v : Nat) (s : State) : (signal v s).dmc = s.dmc := by
  obtain ⟨m, p, e⟩ := signal_cases v s; rw [e]
@[simp] theorem signal_lnk (v : Nat) (s : State) : (signal v s).lnk = s.lnk := by
  obtain ⟨m, p, e⟩ := signal_cases v s; rw [e]
@[simp] theorem signal_grp (v : Nat) (s : State) : (signal v s).grp = s.grp := by
  obtain ⟨m, p, e⟩ := signal_cases v s; rw [e]
@[simp] theorem signal_xch (v : Nat) (s : State) : (signal v s).xch = s.xch := by
  obtain ⟨m, p, e⟩ := signal_cases v s; rw [e]
@[simp] theorem signal_gau (v : Nat) (s : State) : (signal v s).gau = s.gau := by
  obtain ⟨m, p, e⟩ := signal_cases v s; rw [e]
@[simp] theorem signal_saf (v : Nat) (s : State) : (signal v s).saf = s.saf := by
  obtain ⟨m, p, e⟩ := signal_cases v s; rw [e]
@[simp] theorem signal_tim (v : Nat) (s : State) : (signal v s).tim = s.tim := by
  obtain ⟨m, p, e⟩ := signal_cases v s; rw [e]
@[simp] theorem signal_trc (v : Nat) (s : State) : (signal v s).trc = s.trc := by
  obtain ⟨m, p, e⟩ := signal_cases v s; rw [e]
@[simp] theorem signal_clk (v : Nat) (s : State) : (signal v s).clk = s.clk := by
  obtain ⟨m, p, e⟩ := signal_cases v s; rw [e]
@[simp] theorem signal_bnw (v : Nat) (s : State) : (signal v s).bnw = s.bnw := by
  obtain ⟨m, p, e⟩ := signal_cases v s; rw [e]
@[simp] theorem signal_lkp (v : Nat) (s : State) : (signal v s).lkp = s.lkp := by
  obtain ⟨m, p, e⟩ := signal_cases v s; rw [e]
@[simp] theorem signal_pwr (v : Nat) (s : State) : (signal v s).pwr = s.pwr := by
  obtain ⟨m, p, e⟩ := signal_cases v s; rw [e]
@[simp] theorem signal_rst (v : Nat) (s : State) : (signal v s).rst = s.rst := by
  obtain ⟨m, p, e⟩ := signal_cases v s; rw [e]
@[simp] theorem signal_std (v : Nat) (s : State) : (signal v s).std = s.std := by
  obtain ⟨m, p, e⟩ := signal_cases v s; rw [e]
@[simp] theorem signal_freeCtr (v : Nat) (s : State) : (signal v s).freeCtr = s.freeCtr := by
  obtain ⟨m, p, e⟩ := signal_cases v s; rw [e]

@[simp] theorem setInt_pending (o n v : Nat) (s : State) : (setInt o n v s).pending = s.pending := by
  unfold setInt; dsimp only; split <;> simp
@[simp] theorem setInt_dev (o n v : Nat) (s : State) : (setInt o n v s).dev = s.dev := by
  unfold setInt; dsimp only; split <;> simp
@[simp] theorem setInt_seq (o n v : Nat) (s : State) : (setInt o n v s).seq = s.seq := by
  unfold setInt; dsimp only; split <;> simp
@[simp] theorem setInt_fab (o n v : Nat) (s : State) : (setInt o n v s).fab = s.fab := by
  unfold setInt; dsimp only; split <;> simp
@[simp] theorem setInt_bas (o n v : Nat) (s : State) : (setInt o n v s).bas = s.bas := by
  unfold setInt; dsimp only; split <;> simp
@[simp] theorem setInt_slu (o n v : Nat) (s : State) : (setInt o n v s).slu = s.slu := by
  unfold setInt; dsimp only; split <;> simp
@[simp] theorem setInt_req (o n v : Nat) (s : State) : (setInt o n v s).req = s.req := by
  unfold setInt; dsimp only; split <;> simp
@[simp] theorem setInt_hold (o n v : Nat) (s : State) : (setInt o n v s).hold = s.hold := by
  unfold setInt; dsimp only; split <;> simp
@[simp] theorem setInt_dmc (o n v : Nat) (s : State) : (setInt o n v s).dmc = s.dmc := by
  unfold setInt; dsimp only; split <;> simp
@[simp] theorem setInt_lnk (o n v : Nat) (s : State) : (setInt o n v s).lnk = s.lnk := by
  unfold setInt; dsimp only; split <;> simp
@[simp] theorem setInt_grp (o n v : Nat) (s : State) : (setInt o n v s).grp = s.grp := by
  unfold setInt; dsimp only; split <;> simp
@[simp] theorem setInt_xch (o n v : Nat) (s : State) : (setInt o n v s).xch = s.xch := by
  unfold setInt; dsimp only; split <;> simp
@[simp] theorem setInt_gau (o n v : Nat) (s : State) : (setInt o n v s).gau = s.gau := by
  unfold setInt; dsimp only; split <;> simp
@[simp] theorem setInt_saf (o n v : Nat) (s : State) : (setInt o n v s).saf = s.saf := by
  unfold setInt; dsimp only; split <;> simp
@[simp] theorem setInt_tim (o n v : Nat) (s : State) : (setInt o n v s).tim = s.tim := by
  unfold setInt; dsimp only; split <;> simp
@[simp] theorem setInt_trc (o n v : Nat) (s : State) : (setInt o n v s).trc = s.trc := by
  unfold setInt; dsimp only; split <;> simp
@[simp] theorem setInt_clk (o n v : Nat) (s : State) : (setInt o n v s).clk = s.clk := by
  unfold setInt; dsimp only; split <;> simp
@[simp] theorem setInt_bnw (o n v : Nat) (s : State) : (setInt o n v s).bnw = s.bnw := by
  unfold setInt; dsimp only; split <;> simp
@[simp] theorem setInt_lkp (o n v : Nat) (s : State) : (setInt o n v s).lkp = s.lkp := by
  unfold setInt; dsimp only; split <;> simp
@[simp] theorem setInt_pwr (o n v : Nat) (s : State) : (setInt o n v s).pwr = s.pwr := by
  unfold setInt; dsimp only; split <;> simp
@[simp] theorem setInt_rst (o n v : Nat) (s : State) : (setInt o n v s).rst = s.rst := by
  unfold setInt; dsimp only; split <;> simp
@[simp] theorem setInt_std (o n v : Nat) (s : State) : (setInt o n v s).std = s.std := by
  unfold setInt; dsimp only; split <;> simp
@[simp] theorem setInt_freeCtr (o n v : Nat) (s : State) : (setInt o n v s).freeCtr = s.freeCtr := by
  unfold setInt; dsimp only; split <;> simp

@[simp] theorem setInt_regs (o n v : Nat) (s : State) : (setInt o n v s).regs = (rset o (setBit (rget s o) (16 + n)) s).regs := by
  unfold setInt; dsimp only; split <;> simp

end Sys2Proof.Machine
end

