-- ==== Sys2Proof/Laws/Settle.lean ====
section
/-!
SUPPORT. Reading a register after a write; replies and reports change nothing but what `repliesOnly` names.
-/
namespace Sys2Proof.Machine

/-- A register written holds what was written. -/
@[simp] theorem rget_rset_same (off : Nat) (w : Word) (s : State) : rget (rset off w s) off = w := mget_mset_same _ _ _ _

/-- Another register holds what it held. -/
theorem rget_rset_other (off o : Nat) (w : Word) (s : State) (h : o ≠ off) : rget (rset off w s) o = rget s o := by
  unfold rget rset
  dsimp only
  induction s.regs with
  | nil =>
    unfold mset
    split
    · rfl
    · simp only [mdel, mins, mget]
      rw [if_neg (fun e => h e.symm)]
  | cons a t _ => exact mget_mset_other_any _ _ _ _ _ _ h

theorem rget_rset (off o : Nat) (w : Word) (s : State) : rget (rset off w s) o = if o = off then w else rget s o := by
  split
  · rename_i h; rw [h]; exact rget_rset_same off w s
  · rename_i h; exact rget_rset_other off o w s h

theorem repliesOnly.refl (s : State) : repliesOnly s s := ⟨rfl, fun _ _ => rfl⟩

theorem repliesOnly.trans {s t u : State} (h1 : repliesOnly s t) (h2 : repliesOnly t u) : repliesOnly s u := by
  refine ⟨?_, fun off h => (h2.2 off h).trans (h1.2 off h)⟩
  have a := h2.1
  rw [h1.1] at a
  exact a

theorem repliesOnly.ite {s a b : State} {c : Prop} [Decidable c] (ha : repliesOnly s a) (hb : repliesOnly s b) :
    repliesOnly s (if c then a else b) := by
  by_cases h : c
  · rw [if_pos h]; exact ha
  · rw [if_neg h]; exact hb

/-- A register of the replies written. -/
theorem repliesOnly.rset (off : Nat) (w : Word) (s : State) (h : replyOff off = true) : repliesOnly s (rset off w s) := by
  refine ⟨rfl, fun o ho => rget_rset_other off o w s ?_⟩
  intro e
  rw [e, h] at ho
  cases ho

theorem repliesOnly.signal (v : Nat) (s : State) : repliesOnly s (signal v s) := by
  unfold Machine.signal
  dsimp only
  split
  · exact .refl s
  · split <;> exact ⟨rfl, fun _ _ => rfl⟩

theorem repliesOnly.hostPut (a : Nat) (bs : List Byte) (s : State) : repliesOnly s (hostPut a bs s) := ⟨rfl, fun _ _ => rfl⟩

theorem repliesOnly.fold {β : Type} {f : State → β → State} (l : List β) (s : State) (hf : ∀ u x, x ∈ l → repliesOnly u (f u x)) :
    repliesOnly s (l.foldl f s) := by
  induction l generalizing s with
  | nil => exact .refl s
  | cons a t ih => exact (hf s a (by simp)).trans (ih _ fun u x hx => hf u x (by simp [hx]))

theorem replyOff_rrPi (i : Nat) (h : i < 16) : replyOff (oLkpRrPi i) = true := by
  unfold replyOff oLkpRrPi
  have h1 : 0x11000 ≤ 0x11018 + 32 * i := by omega
  have h2 : 0x11018 + 32 * i < 0x11200 := by omega
  have h3 : (0x11018 + 32 * i) % 32 = 24 := by omega
  simp [h1, h2, h3]

theorem replyOff_mboxRpl (w : Nat) (h : w < 8) : replyOff (oLkpMboxRpl w) = true := by
  unfold replyOff oLkpMboxRpl
  have h1 : 0x10140 ≤ 0x10140 + 4 * w := by omega
  have h2 : 0x10140 + 4 * w ≤ 0x10160 := by omega
  simp [h1, h2]

theorem repliesOnly.thenRmod {s t : State} (h : repliesOnly s t) (off : Nat) (f : Word → Word) (ho : replyOff off = true) :
    repliesOnly s (rmod off f t) := h.trans (.rset off _ t ho)

theorem repliesOnly.thenSignal {s t : State} (h : repliesOnly s t) (v : Nat) : repliesOnly s (Machine.signal v t) := h.trans (.signal v t)

/-- The reply of the mailbox (R389). -/
theorem repliesOnly.mbox (bs : List Byte) (s : State) : repliesOnly s (mboxReply bs s) := by
  have h1 := repliesOnly.fold (List.range 8) s (f := fun s w =>
    Machine.rset (oLkpMboxRpl w) (BitVec.ofNat 32 (leNat ((bs.drop (4 * w)).take 4))) s)
    (fun u x hx => repliesOnly.rset _ _ u (replyOff_mboxRpl x (List.mem_range.1 hx)))
  have h2 := h1.thenRmod oLkpMboxCtl (fun w => setBit (clrBit w 0) 1) (by decide)
  unfold mboxReply
  exact repliesOnly.ite h2 (h2.thenSignal 22)

/-- A record pushed on a reply ring. -/
theorem repliesOnly.push (i : Nat) (hi : i < 16) (bs : List Byte) (s : State) :
    repliesOnly s (ringPush (rrRing i) 32 i bs s) :=
  ((repliesOnly.hostPut _ _ s).thenRmod (oLkpRrPi i) (· + 1) (replyOff_rrPi i hi)).thenSignal i

/-- A reply changes what `repliesOnly` names and nothing else (R386-R389). -/
theorem repliesOnly.reply (c : Cmd) (st r0 r1 r2 : Nat) (s : State) : repliesOnly s (reply c st r0 r1 r2 s) := by
  have h1 : repliesOnly s { s with lkp := { s.lkp with run := s.lkp.run.erase c } } := ⟨rfl, fun _ _ => rfl⟩
  unfold Machine.reply
  by_cases hp : c.port < 16
  · rw [if_pos hp]
    exact repliesOnly.ite (h1.trans (.push c.port hp _ _)) h1
  · rw [if_neg hp]
    exact repliesOnly.ite (h1.trans (.mbox _ _)) h1

theorem repliesOnly.replyWhere (p : Cmd → Bool) (f : Cmd → State → State) (s : State) (hf : ∀ c u, repliesOnly u (f c u)) :
    repliesOnly s (replyWhere p f s) := repliesOnly.fold _ _ fun u c _ => hf c u

theorem repliesOnly.settlePaused (s : State) : repliesOnly s (settlePaused s) := by
  unfold Machine.settlePaused
  exact .ite (.replyWhere _ _ _ fun c u => .reply c _ _ _ _ u)
    (.ite (.replyWhere _ _ _ fun c u => .reply c _ _ _ _ u) (.refl s))

theorem repliesOnly.settleResume (s : State) : repliesOnly s (settleResume s) := by
  unfold Machine.settleResume
  exact .ite (.replyWhere _ _ _ fun c u => .reply c _ _ _ _ u)
    (.ite (.replyWhere _ _ _ fun c u => .reply c _ _ _ _ u) (.refl s))

theorem repliesOnly.settleRestore (s : State) : repliesOnly s (settleRestore s) := by
  unfold Machine.settleRestore
  exact .ite (.replyWhere _ _ _ fun c u => .reply c _ _ _ _ u)
    (.ite (.replyWhere _ _ _ fun c u => .reply c _ _ _ _ u) (.refl s))

theorem repliesOnly.settleAcks (s : State) : repliesOnly s (settleAcks s) := by
  have h1 : repliesOnly s (if allAcked s 0x18 then Machine.replyWhere (·.op = 0x18) (fun c => Machine.reply c stOk c.p2 0 0) s else s) :=
    .ite (.replyWhere _ _ _ fun c u => .reply c _ _ _ _ u) (.refl s)
  unfold Machine.settleAcks
  exact .ite (h1.trans (.replyWhere _ _ _ fun c u => .reply c _ _ _ _ u)) h1

theorem repliesOnly.reportState (s : State) : repliesOnly s (reportState s) := by
  unfold Machine.reportState
  dsimp only
  split
  · exact .refl s
  · unfold ringSend
    split <;> exact ⟨rfl, fun _ _ => rfl⟩

theorem bar2Pump_none {s : State} (h : s.bnw.queue = []) : bar2Pump s = s := by simp [bar2Pump, h, bar2Goes]

theorem accessPump_none {s : State} (h : s.lkp.access = []) : accessPump s = s := by simp [accessPump, h]

theorem settleLoad_stands {s : State} (h : s.lkp.load = none ∨ s.seq.st ≠ .safe) : settleLoad s = s := by
  unfold settleLoad
  split
  · rename_i l hl
    rcases h with h | h
    · rw [hl] at h; cases h
    · rw [if_neg h]
  · rfl

/-- What the lockkeeper does after an event is replies and a report, where no state access waits and no load is given up. -/
theorem repliesOnly_lkpSettle {s : State} (h : onlyReplies s) : repliesOnly s (lkpSettle s) := by
  unfold lkpSettle
  rw [settleLoad_stands h.2.2, bar2Pump_none h.2.1, accessPump_none h.1]
  exact ((((repliesOnly.settlePaused s).trans (.settleResume _)).trans (.settleRestore _)).trans (.settleAcks _)).trans (.reportState _)

/-- With no command in progress and no lead to report to it does nothing. -/
theorem lkpSettle_idle (s : State) (h : lkpIdle s = true) : lkpSettle s = s := by
  unfold lkpIdle at h
  simp only [Bool.and_eq_true, List.isEmpty_iff, Bool.or_eq_true, Bool.not_eq_true', decide_eq_true_eq] at h
  obtain ⟨⟨⟨⟨hr, ha⟩, hn⟩, hq⟩, hl⟩ := h
  have hn : s.lkp.load = none := Option.isNone_iff_eq_none.1 hn
  have w (p : Cmd → Bool) (f : Cmd → State → State) : replyWhere p f s = s := by simp [replyWhere, hr]
  have e1 : settlePaused s = s := by simp [settlePaused, w]
  have e2 : settleResume s = s := by simp [settleResume, w]
  have e3 : settleRestore s = s := by simp [settleRestore, w]
  have e4 : settleAcks s = s := by simp [settleAcks, w]
  have e5 : reportState s = s := by
    unfold reportState
    rcases hl with hl | hl <;> simp [hl]
  simp only [lkpSettle, settleLoad_stands (Or.inl hn), bar2Pump_none hq, accessPump_none ha, e1, e2, e3, e4, e5]

end Sys2Proof.Machine
end

