-- ==== Sys2Proof/Laws/Access.lean ====
section
/-!
SUPPORT. What an access of the host comes to once nothing hides its register: one lemma for reads, one for writes, and the register
rules block by block.
-/
namespace Sys2Proof.Machine

/-- Every element of a card's array lies within its span. -/
theorem cardHas_span {c : Card} {off : Nat} (h : cardHas c off = true) : c.base ≤ off ∧ off < c.base + c.s1 * c.n1 + 1 := by
  simp only [cardHas, Bool.and_eq_true, decide_eq_true_eq] at h
  obtain ⟨hb, h⟩ := h
  refine ⟨hb, ?_⟩
  split at h
  · simp at h
    omega
  · rename_i hs
    have hd : (off - c.base) / c.s1 < c.n1 := by
      split at h <;> simp only [Bool.and_eq_true, decide_eq_true_eq] at h
      · exact h.2
      · exact h.1.1
    have := (Nat.div_lt_iff_lt_mul (Nat.pos_of_ne_zero hs)).mp hd
    rw [Nat.mul_comm] at this
    omega

theorem cards_off_msix : (cards.all fun c => decide (c.base + c.s1 * c.n1 < 0x18000) || decide (0x18808 ≤ c.base)) = true := by
  decide +kernel

theorem cardAt_msix {off : Nat} (h1 : 0x18000 ≤ off) (h2 : off < 0x18808) : cardAt off = none := by
  rw [cardAt, List.find?_eq_none]
  intro c hc hh
  have h := List.all_eq_true.mp cards_off_msix c hc
  have := cardHas_span hh
  simp at h
  omega

theorem msixWord_none {s : State} {off : Nat} (h : regExists s off = true) : msixWord s off = none := by
  have hc : (cardAt off).isSome = true := by
    simp only [regExists, Bool.and_eq_true] at h
    exact h.1.1.1.1.1.1.1.1.1.1.1
  unfold msixWord
  have nor : ¬ (98304 ≤ off ∧ off < 100360) := fun h => by simp [cardAt_msix h.1 h.2] at hc
  rw [if_neg (by simp; omega), if_neg (by omega), if_neg (by omega)]

/-- Every part of what `hostSees` says. -/
theorem hostSees_parts {s : State} {off : Nat} (h : hostSees s off = true) :
    endpointDown s = false ∧ testBlock off 4 = false ∧ stoppedHides s off = false ∧ regExists s off = true ∧
      ∃ n, regNode off = some n ∧ stubAnswers s n 0 = false := by
  unfold hostSees at h
  split at h
  · rename_i n hn
    simp only [Bool.and_eq_true, Bool.not_eq_true'] at h
    exact ⟨h.1.1.1.1, h.1.1.1.2, h.1.1.2, h.1.2, n, hn, h.2⟩
  · simp at h

theorem hostWrite_sees {s : State} {off : Nat} (v : Word) (e : SwitchEnd) (h : hostSees s off = true) :
    hostWrite off v e s = ownedWrite off v e s := by
  obtain ⟨h1, h2, h3, h4, n, h5, h6⟩ := hostSees_parts h
  simp [hostWrite, h1, h3, h4, h5, h6]

theorem hostWrite_reaches {s : State} {off : Nat} (v : Word) (e : SwitchEnd) (h : hostReaches s off = true) :
    hostWrite off v e s = regWrite off v e s := by
  simp only [hostReaches, Bool.and_eq_true, Bool.not_eq_true'] at h
  rw [hostWrite_sees v e h.1]
  simp [ownedWrite, h.2]

theorem bar0Read_sees {s : State} {off : Nat} (h : hostSees s off = true) (hf : regForm off 4 = true) :
    bar0Read off 4 s = hostCpl .ok false 0 off (leBytes 4 (readValue s off).toNat) (readEffect off s) := by
  obtain ⟨h1, h2, h3, h4, n, h5, h6⟩ := hostSees_parts h
  simp [bar0Read, h1, h2, h3, h5, h6, hf, msixWord_none h4]

/-- A unit's node answers for itself only while the unit is on. -/
theorem hostSees_unit {s : State} {off n : Nat} (h : hostSees s off = true) (hn : regNode off = some n) (h32 : 32 ≤ n) (h46 : n ≠ 46) :
    unitOn s (n - 32) = true := by
  obtain ⟨_, _, _, _, m, h5, h6⟩ := hostSees_parts h
  rw [hn] at h5
  cases h5
  simp only [stubAnswers, nodeAlive, Bool.or_eq_false_iff] at h6
  have := h6.1.1
  rw [if_neg (by omega), if_neg h46] at this
  simp at this
  exact this.2

/-- A settled outcome leads to the state it was settled from. -/
theorem leadsTo_settled {i : Instr} {s u : State} (h : exec i s = settled u) : leadsTo i s u :=
  ⟨_, h, rfl, repliesOnly_lkpSettle⟩

theorem leNat_leBytes4 (v : Word) : BitVec.ofNat 32 (leNat (leBytes 4 v.toNat)) = v := by
  apply BitVec.eq_of_toNat_eq
  have := v.isLt
  simp [leBytes, leNat, List.range, List.range.loop, Nat.shiftRight_eq_div_pow]
  omega

/-- A register write of the host that reaches its register is the register's own rule. -/
theorem exec_registerWrite {s : State} {off : Nat} (v : Word) (e : SwitchEnd) (h : hostReaches s off = true) (hf : regForm off 4 = true) :
    exec (.registerWrite off (leBytes 4 v.toNat) ⟨e, false⟩) s = settled (regWrite off v e s) := by
  have hl : (leBytes 4 v.toNat).length = 4 := by simp [leBytes]
  have hs : hostSees s off = true := by simp only [hostReaches, Bool.and_eq_true] at h; exact h.1
  obtain ⟨h1, h2, -⟩ := hostSees_parts hs
  simp [exec, execRegisterWrite, bar0Write, h1, h2, hl, hf, leNat_leBytes4, hostWrite_reaches v e h]

end Sys2Proof.Machine
end

