-- ==== Sys2Proof/Laws/Keep.lean ====
section
/-!
SUPPORT. What every operation keeps: the queue, and the canonical form of every memory, of the register file and of the sparse
tables.  This file holds the property and how it passes through record updates, folds and choices.
-/
namespace Sys2Proof.Machine

/-- The queue is `q`, and every map is in canonical form. -/
structure Keeps (q : List Instr) (s : State) : Prop where
  queue : s.pending = q
  mem   : rises (fun _ => 0#8) 0 s.host.mem
  hold  : rises (fun _ => 0#8) 0 s.hold.cells
  dmc   : rises (fun _ => 0#8) 0 s.dmc.cells
  regs  : rises cardReset 0 s.regs
  fab   : rises (fun _ => Cluster.fresh) 0 s.fab
  bas   : rises (fun _ => Basin.fresh) 0 s.bas
  slu   : rises (fun _ => Sluice.fresh) 0 s.slu
  lnk   : rises (fun _ => Link.fresh) 0 s.lnk

theorem keeps_iff (s : State) : Keeps s.pending s ↔ Canonical s = true := by
  simp only [Canonical, Memory.wf, Bool.and_eq_true, mwf_iff, mwfBy_iff]
  exact ⟨fun h => ⟨⟨⟨⟨⟨⟨⟨h.mem, h.hold⟩, h.dmc⟩, h.regs⟩, h.fab⟩, h.bas⟩, h.slu⟩, h.lnk⟩,
    fun ⟨⟨⟨⟨⟨⟨⟨a, b⟩, c⟩, d⟩, e⟩, f⟩, g⟩, i⟩ => ⟨rfl, a, b, c, d, e, f, g, i⟩⟩

/-- Values changed key by key, and entries that become the unlisted value taken away. -/
theorem rises_map {α : Type} [DecidableEq α] {d : α} {lo : Nat} {m : List (Nat × α)} {g : Nat × α → Nat × α}
    (hg : ∀ e, (g e).1 = e.1) (h : rises (fun _ => d) lo m) :
    rises (fun _ => d) lo ((m.map g).filter fun e => decide (e.2 ≠ d)) := by
  induction m generalizing lo with
  | nil => trivial
  | cons a t ih =>
    simp only [List.map_cons]
    by_cases hf : (g a).2 = d
    · rw [List.filter_cons_of_neg (by simp [hf])]
      exact rises_mono (ih h.2.2) (by have := h.1; omega)
    · rw [List.filter_cons_of_pos (by simp [hf])]
      refine ⟨?_, hf, ?_⟩
      · rw [hg]; exact h.1
      · rw [hg]; exact ih h.2.2

variable {q : List Instr}

/-- A state with the same queue, memories, registers and tables. -/
theorem Keeps.same {s : State} (h : Keeps q s) (t : State) (e1 : t.pending = s.pending) (e2 : t.host.mem = s.host.mem)
    (e3 : t.hold.cells = s.hold.cells) (e4 : t.dmc.cells = s.dmc.cells) (e5 : t.regs = s.regs) (e6 : t.fab = s.fab)
    (e7 : t.bas = s.bas) (e8 : t.slu = s.slu) (e9 : t.lnk = s.lnk) : Keeps q t :=
  ⟨e1 ▸ h.queue, e2 ▸ h.mem, e3 ▸ h.hold, e4 ▸ h.dmc, e5 ▸ h.regs, e6 ▸ h.fab, e7 ▸ h.bas, e8 ▸ h.slu, e9 ▸ h.lnk⟩

/-- A state written field by field, its queue, memories, registers and tables those of a state that keeps them. -/
theorem Keeps.upd {s : State} {pending' : List Instr} {dev' : DevCfg} {regs' : List (Nat × Word)} {seq' : SeqState} {fab' : List (Nat × Cluster)} {bas' : List (Nat × Basin)} {slu' : List (Nat × Sluice)} {req' : List SluReq} {hold' : HoldState} {dmc' : DmcState} {lnk' : List (Nat × Link)} {grp' : GroupState} {xch' : XchState} {gau' : GauState} {saf' : SafState} {tim' : TimeState} {trc' : TrcState} {host' : HostState} {clk' : ClkState} {bnw' : BnwState} {lkp' : LkpState} {pwr' : PwrState} {rst' : RstState} {std' : StdState} {freeCtr' : Nat}
    (h : Keeps q s) (e1 : pending' = s.pending) (e2 : host'.mem = s.host.mem) (e3 : hold'.cells = s.hold.cells)
    (e4 : dmc'.cells = s.dmc.cells) (e5 : regs' = s.regs) (e6 : fab' = s.fab) (e7 : bas' = s.bas) (e8 : slu' = s.slu)
    (e9 : lnk' = s.lnk) :
    Keeps q (State.mk pending' dev' regs' seq' fab' bas' slu' req' hold' dmc' lnk' grp' xch' gau' saf' tim' trc' host' clk' bnw' lkp' pwr' rst' std' freeCtr') :=
  h.same _ e1 e2 e3 e4 e5 e6 e7 e8 e9

theorem Keeps.ite {c : Prop} [Decidable c] {a b : State} (ha : c → Keeps q a) (hb : ¬ c → Keeps q b) :
    Keeps q (if c then a else b) := by
  by_cases h : c
  · rw [if_pos h]; exact ha h
  · rw [if_neg h]; exact hb h

theorem Keeps.ite1 {β : Type} {c : Prop} [Decidable c] {a b : State × β} (ha : c → Keeps q a.1) (hb : ¬ c → Keeps q b.1) :
    Keeps q (if c then a else b).1 := by
  by_cases h : c
  · rw [if_pos h]; exact ha h
  · rw [if_neg h]; exact hb h

theorem Keeps.ite2 {β : Type} {c : Prop} [Decidable c] {a b : β × State} (ha : c → Keeps q a.2) (hb : ¬ c → Keeps q b.2) :
    Keeps q (if c then a else b).2 := by
  by_cases h : c
  · rw [if_pos h]; exact ha h
  · rw [if_neg h]; exact hb h

theorem Keeps.fst {β : Type} {p : State × β} {a : State} {b : β} (e : p = (a, b)) (h : Keeps q p.1) : Keeps q a := by
  rw [e] at h; exact h

theorem Keeps.snd {β : Type} {p : β × State} {a : State} {b : β} (e : p = (b, a)) (h : Keeps q p.2) : Keeps q a := by
  rw [e] at h; exact h

theorem Keeps.fold {β : Type} {f : State → β → State} {l : List β} {s : State} (h : Keeps q s)
    (hf : ∀ u x, Keeps q u → Keeps q (f u x)) : Keeps q (l.foldl f s) := by
  induction l generalizing s with
  | nil => exact h
  | cons a t ih => exact ih (hf _ _ h)

theorem Keeps.fold1 {β γ : Type} {f : State × γ → β → State × γ} {l : List β} {x : State × γ} (h : Keeps q x.1)
    (hf : ∀ u y, Keeps q u.1 → Keeps q (f u y).1) : Keeps q (l.foldl f x).1 := by
  induction l generalizing x with
  | nil => exact h
  | cons a t ih => exact ih (hf _ _ h)

theorem Keeps.fold2 {β γ : Type} {f : γ × State → β → γ × State} {l : List β} {x : γ × State} (h : Keeps q x.2)
    (hf : ∀ u y, Keeps q u.2 → Keeps q (f u y).2) : Keeps q (l.foldl f x).2 := by
  induction l generalizing x with
  | nil => exact h
  | cons a t ih => exact ih (hf _ _ h)

theorem Keeps.fold21 {β γ δ : Type} {f : γ × (State × δ) → β → γ × (State × δ)} {l : List β} {x : γ × (State × δ)} (h : Keeps q x.2.1)
    (hf : ∀ u y, Keeps q u.2.1 → Keeps q (f u y).2.1) : Keeps q (l.foldl f x).2.1 := by
  induction l generalizing x with
  | nil => exact h
  | cons a t ih => exact ih (hf _ _ h)

theorem Keeps.getD {o : Option State} {s : State} (ho : ∀ u, o = some u → Keeps q u) (h : Keeps q s) : Keeps q (o.getD s) := by
  cases o with
  | none => exact h
  | some u => exact ho u rfl

theorem Keeps.mapFab {s : State} {f : Cluster → Cluster} (h : Keeps q s) :
    Keeps q { s with fab := mmapv Cluster.fresh f s.fab } :=
  ⟨h.queue, h.mem, h.hold, h.dmc, h.regs, (mwf_iff _ _).1 (mwf_mmapv ((mwf_iff _ _).2 h.fab) f), h.bas, h.slu, h.lnk⟩

theorem Keeps.mapBas {s : State} {f : Basin → Basin} (h : Keeps q s) :
    Keeps q { s with bas := mmapv Basin.fresh f s.bas } :=
  ⟨h.queue, h.mem, h.hold, h.dmc, h.regs, h.fab, (mwf_iff _ _).1 (mwf_mmapv ((mwf_iff _ _).2 h.bas) f), h.slu, h.lnk⟩

theorem Keeps.mapLnk {s : State} {f : Link → Link} (h : Keeps q s) :
    Keeps q { s with lnk := mmapv Link.fresh f s.lnk } :=
  ⟨h.queue, h.mem, h.hold, h.dmc, h.regs, h.fab, h.bas, h.slu, (mwf_iff _ _).1 (mwf_mmapv ((mwf_iff _ _).2 h.lnk) f)⟩

theorem Keeps.mapSlu {s : State} {f : Sluice → Sluice} (h : Keeps q s) :
    Keeps q { s with slu := mmapv Sluice.fresh f s.slu } :=
  ⟨h.queue, h.mem, h.hold, h.dmc, h.regs, h.fab, h.bas, (mwf_iff _ _).1 (mwf_mmapv ((mwf_iff _ _).2 h.slu) f), h.lnk⟩

theorem Keeps.keepRegs {s : State} {p : Nat → Bool} (h : Keeps q s) : Keeps q { s with regs := mkeep p s.regs } :=
  { h with regs := rises_mkeep h.regs p }

/-- An outcome that is a next state keeps it. -/
def KeepsRes (q : List Instr) (r : Res) : Prop := ∀ t, r = .next t → Keeps q t

theorem KeepsRes.next {t : State} (h : Keeps q t) : KeepsRes q (.next t) := by
  intro u e; injection e with e; rw [← e]; exact h

theorem KeepsRes.ite {c : Prop} [Decidable c] {a b : Res} (ha : c → KeepsRes q a) (hb : ¬ c → KeepsRes q b) :
    KeepsRes q (if c then a else b) := by
  by_cases h : c
  · rw [if_pos h]; exact ha h
  · rw [if_neg h]; exact hb h

theorem rises_mmapv {α : Type} [DecidableEq α] {d : α} {m : List (Nat × α)} (f : α → α) (h : rises (fun _ => d) 0 m) :
    rises (fun _ => d) 0 (mmapv d f m) := (mwf_iff d _).1 (mwf_mmapv ((mwf_iff d m).2 h) f)

theorem rises_mset {α : Type} [DecidableEq α] {d : α} {m : List (Nat × α)} (k : Nat) (v : α) (h : rises (fun _ => d) 0 m) :
    rises (fun _ => d) 0 (mset d m k v) := rises_mset_key (d := fun _ => d) h k v

end Sys2Proof.Machine
end

