-- ==== Sys2Proof/Laws/KeepFabric.lean ====
section
/-!
SUPPORT. What every operation keeps (Laws/Keep.lean): the registers, the faults, the processors, the reach.
-/
namespace Sys2Proof.Machine

theorem rset_keeps {qq : List Instr} (off : Nat) (w : Word) (s : State) (hk : Keeps qq s) : Keeps qq (rset off w s) :=
  { hk with regs := rises_mset_key hk.regs off w }

theorem rmod_keeps {qq : List Instr} (off : Nat) (f : Word → Word) (s : State) (hk : Keeps qq s) :
    Keeps qq (rmod off f s) := by
  unfold rmod
  with_reducible repeat' (first | assumption | apply rset_keeps)

theorem rput_keeps {qq : List Instr} (off hi lo v : Nat) (s : State) (hk : Keeps qq s) :
    Keeps qq (rput off hi lo v s) := by
  unfold rput
  with_reducible repeat' (first | assumption | apply rmod_keeps)

theorem rflag_keeps {qq : List Instr} (off i : Nat) (s : State) (hk : Keeps qq s) :
    Keeps qq (rflag off i s) := by
  unfold rflag
  with_reducible repeat' (first | assumption | apply rmod_keeps)

theorem rputb_keeps {qq : List Instr} (off i : Nat) (b : Bool) (s : State) (hk : Keeps qq s) :
    Keeps qq (rputb off i b s) := by
  unfold rputb
  with_reducible repeat' (first | assumption | apply rmod_keeps)

theorem rcount_keeps {qq : List Instr} (off hi lo k : Nat) (s : State) (hk : Keeps qq s) :
    Keeps qq (rcount off hi lo k s) := by
  unfold rcount
  with_reducible repeat' (first | assumption | apply rmod_keeps)

theorem rclear_keeps {qq : List Instr} (lo hi : Nat) (s : State) (hk : Keeps qq s) : Keeps qq (rclear lo hi s) :=
  { hk with regs := rises_mkeep hk.regs fun k => k < lo || k ≥ hi }

theorem setCl_keeps {qq : List Instr} (cl : Nat) (c : Cluster) (s : State) (hk : Keeps qq s) : Keeps qq (setCl cl c s) :=
  { hk with fab := rises_mset _ _ hk.fab }

theorem setBas_keeps {qq : List Instr} (b : Nat) (x : Basin) (s : State) (hk : Keeps qq s) : Keeps qq (setBas b x s) :=
  { hk with bas := rises_mset _ _ hk.bas }

theorem setSlu_keeps {qq : List Instr} (q : Nat) (x : Sluice) (s : State) (hk : Keeps qq s) : Keeps qq (setSlu q x s) :=
  { hk with slu := rises_mset _ _ hk.slu }

theorem setLnk_keeps {qq : List Instr} (n : Nat) (x : Link) (s : State) (hk : Keeps qq s) : Keeps qq (setLnk n x s) :=
  { hk with lnk := rises_mset _ _ hk.lnk }

theorem setLane_keeps {qq : List Instr} (n : Nat) (x : Lane) (s : State) (hk : Keeps qq s) :
    Keeps qq (setLane n x s) := by
  unfold setLane
  with_reducible repeat' (first | assumption | fail_if_no_progress (refine Keeps.upd ?_ rfl rfl rfl rfl rfl rfl rfl rfl rfl))

theorem setTag_keeps {qq : List Instr} (q t : Nat) (x : TagSt) (s : State) (hk : Keeps qq s) :
    Keeps qq (setTag q t x s) := by
  unfold setTag
  with_reducible repeat' (first | assumption | apply setSlu_keeps)

theorem setCollect_keeps {qq : List Instr} (q t : Nat) (v : BitVec 128) (s : State) (hk : Keeps qq s) :
    Keeps qq (setCollect q t v s) := by
  unfold setCollect
  with_reducible repeat' (first | assumption | apply setSlu_keeps)

theorem stagePut_keeps {qq : List Instr} (bytes : List Byte) (f : Nat) (s : State) (hk : Keeps qq s) :
    Keeps qq (stagePut bytes f s) := by
  unfold stagePut
  with_reducible repeat' (first | assumption | fail_if_no_progress (refine Keeps.upd ?_ rfl rfl rfl rfl rfl rfl rfl rfl rfl))

theorem stageLoss_keeps {qq : List Instr} (s : State) (hk : Keeps qq s) :
    Keeps qq (stageLoss s) := by
  unfold stageLoss
  with_reducible repeat' (first | assumption | apply stagePut_keeps
                                | fail_if_no_progress (refine Keeps.upd ?_ rfl rfl rfl rfl rfl rfl rfl rfl rfl) | split)

theorem stageMarker_keeps {qq : List Instr} (rtype f arg count : Nat) (s : State) (hk : Keeps qq s) :
    Keeps qq (stageMarker rtype f arg count s) := by
  unfold stageMarker
  with_reducible repeat' (first | assumption | apply stageLoss_keeps | apply stagePut_keeps)

theorem takeFree_keeps {qq : List Instr} (s : State) (hk : Keeps qq s) :
    Keeps qq (takeFree s).2 := by
  unfold takeFree
  with_reducible repeat' (first | assumption | fail_if_no_progress (refine Keeps.upd ?_ rfl rfl rfl rfl rfl rfl rfl rfl rfl))

theorem takeFreeBit_keeps {qq : List Instr} (s : State) (hk : Keeps qq s) :
    Keeps qq (takeFreeBit s).2 := by
  unfold takeFreeBit
  with_reducible repeat' (first | assumption | apply takeFree_keeps)

theorem signal_keeps {qq : List Instr} (v : Nat) (s : State) (hk : Keeps qq s) :
    Keeps qq (signal v s) := by
  unfold signal
  with_reducible repeat' (first | assumption | refine Keeps.ite (fun _ => ?_) (fun _ => ?_)
                                | fail_if_no_progress (refine Keeps.upd ?_ rfl rfl rfl rfl rfl rfl rfl rfl rfl))

theorem setInt_keeps {qq : List Instr} (off n v : Nat) (s : State) (hk : Keeps qq s) :
    Keeps qq (setInt off n v s) := by
  unfold setInt
  with_reducible repeat' (first | assumption | refine Keeps.ite (fun _ => ?_) (fun _ => ?_) | apply rset_keeps | apply signal_keeps)

theorem seqInt_keeps {qq : List Instr} (n : Nat) (y0 : State) (hk : Keeps qq y0) :
    Keeps qq (seqInt n y0) := by
  unfold seqInt
  with_reducible repeat' (first | assumption | apply setInt_keeps)

theorem safInt_keeps {qq : List Instr} (n : Nat) (y0 : State) (hk : Keeps qq y0) :
    Keeps qq (safInt n y0) := by
  unfold safInt
  with_reducible repeat' (first | assumption | apply setInt_keeps)

theorem trcInt_keeps {qq : List Instr} (n : Nat) (y0 : State) (hk : Keeps qq y0) :
    Keeps qq (trcInt n y0) := by
  unfold trcInt
  with_reducible repeat' (first | assumption | apply setInt_keeps)

theorem gauInt_keeps {qq : List Instr} (n : Nat) (y0 : State) (hk : Keeps qq y0) :
    Keeps qq (gauInt n y0) := by
  unfold gauInt
  with_reducible repeat' (first | assumption | apply setInt_keeps)

theorem sendExpress_keeps {qq : List Instr} (kind arg : Nat) (s : State) (hk : Keeps qq s) :
    Keeps qq (sendExpress kind arg s) := by
  unfold sendExpress
  with_reducible repeat' (first | assumption | refine Keeps.ite (fun _ => ?_) (fun _ => ?_)
                                | fail_if_no_progress (refine Keeps.upd ?_ rfl rfl rfl rfl rfl rfl rfl rfl rfl))

theorem taintOne_keeps {qq : List Instr} (f : Nat) (s : State) (hk : Keeps qq s) :
    Keeps qq (taintOne f s) := by
  unfold taintOne
  with_reducible repeat' (first | assumption | refine Keeps.ite (fun _ => ?_) (fun _ => ?_) | apply stageMarker_keeps | apply sendExpress_keeps
                                | fail_if_no_progress (refine Keeps.upd ?_ rfl rfl rfl rfl rfl rfl rfl rfl rfl))

theorem taintFrame_keeps {qq : List Instr} (f : Nat) (s : State) (hk : Keeps qq s) :
    Keeps qq (taintFrame f s) := by
  unfold taintFrame
  with_reducible repeat' (first | assumption | apply taintOne_keeps | split)

theorem taintSpan_keeps {qq : List Instr} (a b : Nat) (s : State) (hk : Keeps qq s) :
    Keeps qq (taintSpan a b s) := by
  unfold taintSpan
  with_reducible repeat' (first | assumption | refine Keeps.ite (fun _ => ?_) (fun _ => ?_) | apply taintFrame_keeps
                                | refine Keeps.fold ?_ (fun _ _ _ => ?_))

theorem logFaultAs_keeps {qq : List Instr} (react : Nat) (r : Report) (s : State) (hk : Keeps qq s) :
    Keeps qq (logFaultAs react r s) := by
  unfold logFaultAs
  with_reducible repeat' (first | assumption | apply rflag_keeps | apply safInt_keeps | apply rcount_keeps
                                | fail_if_no_progress (refine Keeps.upd ?_ rfl rfl rfl rfl rfl rfl rfl rfl rfl) | split | dsimp only)

theorem logFault_keeps {qq : List Instr} (r : Report) (s : State) (hk : Keeps qq s) :
    Keeps qq (logFault r s) := by
  unfold logFault
  with_reducible repeat' (first | assumption | apply logFaultAs_keeps)

theorem raiseEvent_keeps {qq : List Instr} (code lk locv : Nat) (s : State) (hk : Keeps qq s) :
    Keeps qq (raiseEvent code lk locv s) := by
  unfold raiseEvent
  with_reducible repeat' (first | assumption | apply logFault_keeps)

theorem ringSend_keeps {qq : List Instr} (dst : Nat) (m : RingMsg) (s : State) (hk : Keeps qq s) :
    Keeps qq (ringSend dst m s) := by
  unfold ringSend
  with_reducible repeat' (first | assumption | refine Keeps.ite (fun _ => ?_) (fun _ => ?_)
                                | fail_if_no_progress (refine Keeps.upd ?_ rfl rfl rfl rfl rfl rfl rfl rfl rfl))

theorem ringSendAll_keeps {qq : List Instr} (m : RingMsg) (s : State) (hk : Keeps qq s) :
    Keeps qq (ringSendAll m s) := by
  unfold ringSendAll
  with_reducible repeat' (first | assumption | apply ringSend_keeps | refine Keeps.fold ?_ (fun _ _ _ => ?_))

theorem setBound_keeps {qq : List Instr} (s : State) (hk : Keeps qq s) :
    Keeps qq (setBound s) := by
  unfold setBound
  with_reducible repeat' (first | assumption | refine Keeps.ite (fun _ => ?_) (fun _ => ?_) | apply ringSendAll_keeps | apply rput_keeps)

theorem setPllSt_keeps {qq : List Instr} (i st : Nat) (y0 : State) (hk : Keeps qq y0) :
    Keeps qq (setPllSt i st y0) := by
  unfold setPllSt
  with_reducible repeat' (first | assumption | apply rput_keeps)

theorem setStage_keeps {qq : List Instr} (n : Nat) (y0 : State) (hk : Keeps qq y0) :
    Keeps qq (setStage n y0) := by
  unfold setStage
  with_reducible repeat' (first | assumption | apply rput_keeps)

theorem pllStart_keeps {qq : List Instr} (short : Bool) (i : Nat) (s : State) (hk : Keeps qq s) :
    Keeps qq (pllStart short i s) := by
  unfold pllStart
  with_reducible repeat' (first | assumption | refine Keeps.ite (fun _ => ?_) (fun _ => ?_) | apply setPllSt_keeps | apply rmod_keeps
                                | fail_if_no_progress (refine Keeps.upd ?_ rfl rfl rfl rfl rfl rfl rfl rfl rfl))

theorem wakeBegin_keeps {qq : List Instr} (src : Nat) (s : State) (hk : Keeps qq s) :
    Keeps qq (wakeBegin src s) := by
  unfold wakeBegin
  with_reducible repeat' (first | assumption | refine Keeps.ite (fun _ => ?_) (fun _ => ?_) | apply rput_keeps | apply pllStart_keeps
                                | apply setStage_keeps | refine Keeps.fold ?_ (fun _ _ _ => ?_)
                                | fail_if_no_progress (refine Keeps.upd ?_ rfl rfl rfl rfl rfl rfl rfl rfl rfl))

theorem setFlow_keeps {qq : List Instr} (f : Nat) (x : FlowSt) (s : State) (hk : Keeps qq s) :
    Keeps qq (setFlow f x s) := by
  unfold setFlow
  with_reducible repeat' (first | assumption | fail_if_no_progress (refine Keeps.upd ?_ rfl rfl rfl rfl rfl rfl rfl rfl rfl))

theorem putEntry_keeps {qq : List Instr} (e : XEntry) (s : State) (hk : Keeps qq s) :
    Keeps qq (putEntry e s) := by
  unfold putEntry
  with_reducible repeat' (first | assumption | fail_if_no_progress (refine Keeps.upd ?_ rfl rfl rfl rfl rfl rfl rfl rfl rfl))

theorem dropEntry_keeps {qq : List Instr} (id : Nat) (s : State) (hk : Keeps qq s) :
    Keeps qq (dropEntry id s) := by
  unfold dropEntry
  with_reducible repeat' (first | assumption | fail_if_no_progress (refine Keeps.upd ?_ rfl rfl rfl rfl rfl rfl rfl rfl rfl))

theorem takeHandle_keeps {qq : List Instr} (s : State) (hk : Keeps qq s) :
    Keeps qq (takeHandle s).2 := by
  unfold takeHandle
  with_reducible repeat' (first | assumption | fail_if_no_progress (refine Keeps.upd ?_ rfl rfl rfl rfl rfl rfl rfl rfl rfl))

theorem enterBerth_keeps {qq : List Instr} (e : XEntry) (s : State) (hk : Keeps qq s) :
    Keeps qq (enterBerth e s) := by
  unfold enterBerth
  with_reducible repeat' (first | assumption | apply takeHandle_keeps | apply putEntry_keeps | apply rcount_keeps
                                | fail_if_no_progress (refine Keeps.upd ?_ rfl rfl rfl rfl rfl rfl rfl rfl rfl) | split)

theorem leaveReturn_keeps {qq : List Instr} (e : XEntry) (s : State) (hk : Keeps qq s) :
    Keeps qq (leaveReturn e s) := by
  unfold leaveReturn
  with_reducible repeat' (first | assumption | apply setFlow_keeps | apply dropEntry_keeps)

theorem returnWritten_keeps {qq : List Instr} (id : Nat) (s : State) (hk : Keeps qq s) :
    Keeps qq (returnWritten id s) := by
  unfold returnWritten
  with_reducible repeat' (first | assumption | apply leaveReturn_keeps
                                | fail_if_no_progress (refine Keeps.upd ?_ rfl rfl rfl rfl rfl rfl rfl rfl rfl) | split | dsimp only)

theorem supersede_keeps {qq : List Instr} (s : State) (hk : Keeps qq s) :
    Keeps qq (supersede s) := by
  unfold supersede
  with_reducible repeat' (first | assumption | apply leaveReturn_keeps | refine Keeps.fold ?_ (fun _ _ _ => ?_))

theorem closeCall_keeps {qq : List Instr} (e : XEntry) (s : State) (hk : Keeps qq s) :
    Keeps qq (closeCall e s) := by
  unfold closeCall
  with_reducible repeat' (first | assumption | refine Keeps.ite (fun _ => ?_) (fun _ => ?_) | apply raiseEvent_keeps | apply rflag_keeps
                                | apply enterBerth_keeps | apply putEntry_keeps
                                | fail_if_no_progress (refine Keeps.upd ?_ rfl rfl rfl rfl rfl rfl rfl rfl rfl))

theorem closeCalls_keeps {qq : List Instr} (p : XEntry → Bool) (s : State) (hk : Keeps qq s) :
    Keeps qq (closeCalls p s) := by
  unfold closeCalls
  with_reducible repeat' (first | assumption | apply supersede_keeps | apply closeCall_keeps | refine Keeps.fold ?_ (fun _ _ _ => ?_))

theorem promote_keeps {qq : List Instr} (b : Nat) (y0 : Nat) (y1 : State) (hk : Keeps qq y1) :
    Keeps qq (promote b y0 y1) := by
  induction y0 generalizing y1 with
  | zero => exact hk
  | succ k ih =>
    unfold promote
    with_reducible repeat' (first | assumption | apply ih | apply enterBerth_keeps | split)

theorem xchVoid_keeps {qq : List Instr} (f : Nat) (s : State) (hk : Keeps qq s) :
    Keeps qq (xchVoid f s) := by
  unfold xchVoid
  with_reducible repeat' (first | assumption | apply closeCalls_keeps | fail_if_no_progress (refine Keeps.upd ?_ rfl rfl rfl rfl rfl rfl rfl rfl rfl))

theorem xchMarks_keeps {qq : List Instr} (s : State) (hk : Keeps qq s) :
    Keeps qq (xchMarks s) := by
  unfold xchMarks
  with_reducible repeat' (first | assumption | fail_if_no_progress (refine Keeps.upd ?_ rfl rfl rfl rfl rfl rfl rfl rfl rfl))

theorem fragsEnd_keeps {qq : List Instr} (s : State) (hk : Keeps qq s) :
    Keeps qq (fragsEnd s) := by
  unfold fragsEnd
  with_reducible repeat' (first | assumption | fail_if_no_progress (refine Keeps.upd ?_ rfl rfl rfl rfl rfl rfl rfl rfl rfl) | intro _)

theorem xchRunEnd_keeps {qq : List Instr} (s : State) (hk : Keeps qq s) :
    Keeps qq (xchRunEnd s) := by
  unfold xchRunEnd
  with_reducible repeat' (first | assumption | refine Keeps.ite (fun _ => ?_) (fun _ => ?_) | refine Keeps.fold ?_ (fun _ _ _ => ?_)
                                | refine Keeps.fold1 ?_ (fun _ _ _ => ?_) | apply setFlow_keeps | apply putEntry_keeps | apply dropEntry_keeps
                                | apply xchMarks_keeps | apply fragsEnd_keeps
                                | fail_if_no_progress (refine Keeps.upd ?_ rfl rfl rfl rfl rfl rfl rfl rfl rfl) | split | intro _)

theorem xchClear_keeps {qq : List Instr} (s : State) (hk : Keeps qq s) :
    Keeps qq (xchClear s) := by
  unfold xchClear
  with_reducible repeat' (first | assumption | fail_if_no_progress (refine Keeps.upd ?_ rfl rfl rfl rfl rfl rfl rfl rfl rfl))

theorem rises_putBytes {m : List (Nat × Byte)} (a : Nat) (bs : List Byte) (hm : rises (fun _ => 0#8) 0 m) :
    rises (fun _ => 0#8) 0 (putBytes m a bs) := by
  induction bs generalizing m a with
  | nil => exact hm
  | cons b t ih => exact ih _ (rises_mset _ _ hm)

theorem dmWrite_keeps {qq : List Instr} (k w : Nat) (v : BitVec 64) (poison : Bool) (s : State) (hk : Keeps qq s) :
    Keeps qq (dmWrite k w v poison s) := { hk with dmc := rises_putBytes _ _ hk.dmc }

theorem dmCheck_keeps {qq : List Instr} (src k w : Nat) (s : State) (hk : Keeps qq s) :
    Keeps qq (dmCheck src k w s).1 := by
  unfold dmCheck
  with_reducible repeat' (first | assumption | apply rflag_keeps | apply rcount_keeps | apply rset_keeps
                                | fail_if_no_progress (refine Keeps.upd ?_ rfl rfl rfl rfl rfl rfl rfl rfl rfl) | split)

theorem hdWrite_keeps {qq : List Instr} (n : Nat) (v : BitVec 64) (poison : Bool) (s : State) (hk : Keeps qq s) :
    Keeps qq (hdWrite n v poison s) := { hk with hold := rises_putBytes _ _ hk.hold }

theorem hdCheck_keeps {qq : List Instr} (src n : Nat) (s : State) (hk : Keeps qq s) :
    Keeps qq (hdCheck src n s).1 := by
  unfold hdCheck
  with_reducible repeat' (first | assumption | apply rflag_keeps | apply rcount_keeps | apply rset_keeps
                                | fail_if_no_progress (refine Keeps.upd ?_ rfl rfl rfl rfl rfl rfl rfl rfl rfl) | split)

theorem writeLands_keeps {qq : List Instr} (s0 : State) (cl : Nat) (m : MemOp) (s : State) (hk : Keeps qq s) :
    Keeps qq (writeLands s0 cl m s) := by
  unfold writeLands
  with_reducible repeat' (first | assumption | refine Keeps.ite (fun _ => ?_) (fun _ => ?_) | refine Keeps.fold ?_ (fun _ _ _ => ?_)
                                | refine Keeps.fold1 ?_ (fun _ _ _ => ?_) | apply setCl_keeps | apply dmWrite_keeps
                                | fail_if_no_progress (refine Keeps.upd ?_ rfl rfl rfl rfl rfl rfl rfl rfl rfl) | split | dsimp only | intro _)

theorem finishWrites_keeps {qq : List Instr} (p : Nat) (s : State) (hk : Keeps qq s) :
    Keeps qq (finishWrites p s) := by
  unfold finishWrites
  with_reducible repeat' (first | assumption | refine Keeps.fold ?_ (fun _ _ _ => ?_) | refine Keeps.fold1 ?_ (fun _ _ _ => ?_)
                                | apply writeLands_keeps | dsimp only | intro _)

theorem releaseVerdict_keeps {qq : List Instr} (v : Verdict) (s : State) (hk : Keeps qq s) :
    Keeps qq (releaseVerdict v s) := by
  unfold releaseVerdict
  with_reducible repeat' (first | assumption | apply rset_keeps | apply rcount_keeps | apply gauInt_keeps | apply rflag_keeps
                                | refine Keeps.fold ?_ (fun _ _ _ => ?_)
                                | fail_if_no_progress (refine Keeps.upd ?_ rfl rfl rfl rfl rfl rfl rfl rfl rfl) | split)

theorem gauRunEnd_keeps {qq : List Instr} (s : State) (hk : Keeps qq s) :
    Keeps qq (gauRunEnd s) := by
  unfold gauRunEnd
  with_reducible repeat' (first | assumption | apply releaseVerdict_keeps | refine Keeps.fold ?_ (fun _ _ _ => ?_)
                                | fail_if_no_progress (refine Keeps.upd ?_ rfl rfl rfl rfl rfl rfl rfl rfl rfl))

theorem storeLoss_keeps {qq : List Instr} (s : State) (hk : Keeps qq s) :
    Keeps qq (storeLoss s) := by
  unfold storeLoss
  with_reducible repeat' (first | assumption | fail_if_no_progress (refine Keeps.upd ?_ rfl rfl rfl rfl rfl rfl rfl rfl rfl) | split)

theorem pushFail_keeps {qq : List Instr} (r : FailRec) (s : State) (hk : Keeps qq s) :
    Keeps qq (pushFail r s) := by
  unfold pushFail
  with_reducible repeat' (first | assumption | apply gauInt_keeps | apply rflag_keeps | apply rcount_keeps
                                | fail_if_no_progress (refine Keeps.upd ?_ rfl rfl rfl rfl rfl rfl rfl rfl rfl) | split | dsimp only)

theorem downgrade_keeps {qq : List Instr} (a b : Nat) (s : State) (hk : Keeps qq s) :
    Keeps qq (downgrade a b s) := by
  unfold downgrade
  with_reducible repeat' (first | assumption | fail_if_no_progress (refine Keeps.upd ?_ rfl rfl rfl rfl rfl rfl rfl rfl rfl))

theorem lastEvt_keeps {qq : List Instr} (kind src g : Nat) (s : State) (hk : Keeps qq s) :
    Keeps qq (lastEvt kind src g s) := by
  unfold lastEvt
  with_reducible repeat' (first | assumption | apply rset_keeps)

theorem placeHalt_keeps {qq : List Instr} (e0 src : Nat) (s : State) (hk : Keeps qq s) :
    Keeps qq (placeHalt e0 src s) := by
  unfold placeHalt
  with_reducible repeat' (first | assumption | refine Keeps.ite (fun _ => ?_) (fun _ => ?_)
                                | fail_if_no_progress (refine Keeps.upd ?_ rfl rfl rfl rfl rfl rfl rfl rfl rfl))

theorem requestHalt_keeps {qq : List Instr} (s : State) (hk : Keeps qq s) :
    Keeps qq (requestHalt s) := by
  unfold requestHalt
  with_reducible repeat' (first | assumption | refine Keeps.ite (fun _ => ?_) (fun _ => ?_) | apply sendExpress_keeps | apply placeHalt_keeps)

theorem dropStaged_keeps {qq : List Instr} (s : State) (hk : Keeps qq s) : Keeps qq (dropStaged s) := Keeps.mapFab hk

theorem voidFrame_keeps {qq : List Instr} (s : State) (hk : Keeps qq s) :
    Keeps qq (voidFrame s) := by
  unfold voidFrame
  with_reducible repeat' (first | assumption | apply xchVoid_keeps | apply finishWrites_keeps | apply dropStaged_keeps
                                | fail_if_no_progress (refine Keeps.upd ?_ rfl rfl rfl rfl rfl rfl rfl rfl rfl) | dsimp only)

theorem clockLossHalt_keeps {qq : List Instr} (src : Nat) (s : State) (hk : Keeps qq s) :
    Keeps qq (clockLossHalt src s) := by
  unfold clockLossHalt
  with_reducible repeat' (first | assumption | refine Keeps.ite (fun _ => ?_) (fun _ => ?_) | apply voidFrame_keeps | apply lastEvt_keeps
                                | fail_if_no_progress (refine Keeps.upd ?_ rfl rfl rfl rfl rfl rfl rfl rfl rfl))

theorem clockLossOwn_keeps {qq : List Instr} (s : State) (hk : Keeps qq s) :
    Keeps qq (clockLossOwn s) := by
  unfold clockLossOwn
  with_reducible repeat' (first | assumption | refine Keeps.ite (fun _ => ?_) (fun _ => ?_) | apply clockLossHalt_keeps | apply sendExpress_keeps)

theorem runEnd_keeps {qq : List Instr} (s : State) (hk : Keeps qq s) :
    Keeps qq (runEnd s) := by
  unfold runEnd
  with_reducible repeat' (first | assumption | apply xchRunEnd_keeps | apply gauRunEnd_keeps
                                | fail_if_no_progress (refine Keeps.upd ?_ rfl rfl rfl rfl rfl rfl rfl rfl rfl))

theorem enterSafe_keeps {qq : List Instr} (s : State) (hk : Keeps qq s) :
    Keeps qq (enterSafe s) := by
  unfold enterSafe
  with_reducible repeat' (first | assumption | refine Keeps.ite (fun _ => ?_) (fun _ => ?_) | apply wakeBegin_keeps | apply voidFrame_keeps
                                | apply taintFrame_keeps | apply runEnd_keeps | apply sendExpress_keeps | apply safInt_keeps
                                | fail_if_no_progress (refine Keeps.upd ?_ rfl rfl rfl rfl rfl rfl rfl rfl rfl))

theorem haltReaction_keeps {qq : List Instr} (f : Nat) (s : State) (hk : Keeps qq s) :
    Keeps qq (haltReaction f s) := by
  unfold haltReaction
  with_reducible repeat' (first | assumption | refine Keeps.ite (fun _ => ?_) (fun _ => ?_) | apply safInt_keeps | apply taintSpan_keeps
                                | apply requestHalt_keeps | fail_if_no_progress (refine Keeps.upd ?_ rfl rfl rfl rfl rfl rfl rfl rfl rfl))

theorem taintReport_keeps {qq : List Instr} (r : Report) (s : State) (hk : Keeps qq s) :
    Keeps qq (taintReport r s) := by
  unfold taintReport
  with_reducible repeat' (first | assumption | apply taintFrame_keeps | split)

theorem raiseFirst_keeps {qq : List Instr} (acts : List (Report × Nat)) (s : State) (hk : Keeps qq s) :
    Keeps qq (raiseFirst acts s) := by
  unfold raiseFirst
  with_reducible repeat' (first | assumption | apply logFault_keeps | apply clockLossOwn_keeps | apply safInt_keeps | apply downgrade_keeps
                                | apply taintReport_keeps | apply haltReaction_keeps | refine Keeps.fold ?_ (fun _ _ _ => ?_) | split)

theorem raiseLast_keeps {qq : List Instr} (acts : List (Report × Nat)) (s : State) (hk : Keeps qq s) :
    Keeps qq (raiseLast acts s) := by
  unfold raiseLast
  with_reducible repeat' (first | assumption | refine Keeps.ite (fun _ => ?_) (fun _ => ?_) | apply enterSafe_keeps)

theorem raiseAll_keeps {qq : List Instr} (rs : List Report) (s : State) (hk : Keeps qq s) :
    Keeps qq (raiseAll rs s) := by
  unfold raiseAll
  with_reducible repeat' (first | assumption | apply raiseLast_keeps | apply raiseFirst_keeps)

theorem raise_keeps {qq : List Instr} (code lk locv : Nat) (s : State) (hk : Keeps qq s) :
    Keeps qq (raise code lk locv s) := by
  unfold raise
  with_reducible repeat' (first | assumption | apply raiseAll_keeps)

theorem raiseIn_keeps {qq : List Instr} (code lk locv f : Nat) (s : State) (hk : Keeps qq s) :
    Keeps qq (raiseIn code lk locv f s) := by
  unfold raiseIn
  with_reducible repeat' (first | assumption | apply raiseAll_keeps)

theorem memIssue_keeps {qq : List Instr} (s0 : State) (cl : Nat) (o : ProcOut) (s : State) (hk : Keeps qq s) :
    Keeps qq (memIssue s0 cl o s).1 := by
  unfold memIssue
  with_reducible repeat' (first | assumption | apply setCl_keeps | apply rflag_keeps | apply rcount_keeps | split | dsimp only)

theorem xsendIssue_keeps {qq : List Instr} (s0 : State) (cl : Nat) (o : ProcOut) (s : State) (hk : Keeps qq s) :
    Keeps qq (xsendIssue s0 cl o s) := by
  unfold xsendIssue
  with_reducible repeat' (first | assumption | fail_if_no_progress (refine Keeps.upd ?_ rfl rfl rfl rfl rfl rfl rfl rfl rfl) | split)

theorem tagIssued_keeps {qq : List Instr} (q t : Nat) (s : State) (hk : Keeps qq s) :
    Keeps qq (tagIssued q t s) := by
  unfold tagIssued
  with_reducible repeat' (first | assumption | apply setSlu_keeps)

theorem refuseReq_keeps {qq : List Instr} (q t : Nat) (s : State) (hk : Keeps qq s) :
    Keeps qq (refuseReq q t s) := by
  unfold refuseReq
  with_reducible repeat' (first | assumption | apply tagIssued_keeps | apply setTag_keeps | apply rcount_keeps
                                | fail_if_no_progress (refine Keeps.upd ?_ rfl rfl rfl rfl rfl rfl rfl rfl rfl))

theorem sluIssue_keeps {qq : List Instr} (s0 : State) (cl : Nat) (o : ProcOut) (s : State) (hk : Keeps qq s) :
    Keeps qq (sluIssue s0 cl o s).1 := by
  unfold sluIssue
  with_reducible repeat' (first | assumption | apply rflag_keeps | apply refuseReq_keeps | apply tagIssued_keeps | apply setTag_keeps
                                | fail_if_no_progress (refine Keeps.upd ?_ rfl rfl rfl rfl rfl rfl rfl rfl rfl) | split | dsimp only)

theorem sluWait_keeps {qq : List Instr} (s0 : State) (cl st : Nat) (t : Nat) (s : State) (hk : Keeps qq s) :
    Keeps qq (sluWait s0 cl st t s).1 := by
  unfold sluWait
  with_reducible repeat' (first | assumption | apply rflag_keeps | apply setTag_keeps | apply setSlu_keeps | apply setCollect_keeps
                                | fail_if_no_progress (refine Keeps.upd ?_ rfl rfl rfl rfl rfl rfl rfl rfl rfl) | split | dsimp only)

theorem portClash_keeps {qq : List Instr} (s0 : State) (cl lp : Nat) (s : State) (hk : Keeps qq s) :
    Keeps qq (portClash s0 cl lp s).1 := by
  unfold portClash
  with_reducible repeat' (first | assumption | apply rflag_keeps)

theorem andThen_keeps {qq : List Instr} (f : State → State × List Report) (x : State × List Report) (hk : Keeps qq x.1) (hf : ∀ u, Keeps qq u → Keeps qq (f u).1) :
    Keeps qq (andThen f x).1 := by
  unfold andThen
  with_reducible repeat' (first | assumption | apply hf)

theorem shadowMiss_keeps {qq : List Instr} (s0 : State) (cl st : Nat) (s : State) (hk : Keeps qq s) :
    Keeps qq (shadowMiss s0 cl st s).1 := by
  unfold shadowMiss
  with_reducible repeat' (first | assumption | apply rflag_keeps | apply rset_keeps | apply setCl_keeps | split | dsimp only)

theorem clusterApply_keeps {qq : List Instr} (s0 : State) (hs : List Happening) (cl st : Nat) (outs : List ProcOut) (x : State × List Report) (hk : Keeps qq x.1) :
    Keeps qq (clusterApply s0 hs cl st outs x).1 := by
  unfold clusterApply
  with_reducible repeat' (first | assumption | apply rflag_keeps | apply setCl_keeps | apply rcount_keeps | apply andThen_keeps
                                | apply portClash_keeps | apply memIssue_keeps | apply xsendIssue_keeps | apply shadowMiss_keeps
                                | refine Keeps.fold ?_ (fun _ _ _ => ?_) | refine Keeps.fold1 ?_ (fun _ _ _ => ?_) | split | dsimp only)

theorem sluicePort_keeps {qq : List Instr} (s0 : State) (st : Nat) (outs : List (Nat × ProcOut)) (x : State × List Report) (hk : Keeps qq x.1) :
    Keeps qq (sluicePort s0 st outs x).1 := by
  unfold sluicePort
  with_reducible repeat' (first | assumption | apply andThen_keeps | apply sluWait_keeps | apply portClash_keeps | apply refuseReq_keeps
                                | apply sluIssue_keeps | refine Keeps.fold1 ?_ (fun _ _ _ => ?_) | refine Keeps.fold21 ?_ (fun _ _ _ => ?_)
                                | intro _ | split | dsimp only)

theorem gaugePort_keeps {qq : List Instr} (s0 : State) (outs : List (Nat × ProcOut)) (x : State × List Report) (hk : Keeps qq x.1) :
    Keeps qq (gaugePort s0 outs x).1 := by
  unfold gaugePort
  with_reducible repeat' (first | assumption | apply andThen_keeps | apply portClash_keeps | apply setLane_keeps
                                | refine Keeps.fold21 ?_ (fun _ _ _ => ?_) | split | dsimp only)

theorem tracePort_keeps {qq : List Instr} (s0 : State) (outs : List (Nat × ProcOut)) (x : State × List Report) (hk : Keeps qq x.1) :
    Keeps qq (tracePort s0 outs x).1 := by
  unfold tracePort
  with_reducible repeat' (first | assumption | apply andThen_keeps | apply portClash_keeps | refine Keeps.fold1 ?_ (fun _ _ _ => ?_)
                                | fail_if_no_progress (refine Keeps.upd ?_ rfl rfl rfl rfl rfl rfl rfl rfl rfl) | split | dsimp only)

theorem fabricStep_keeps {qq : List Instr} (s0 : State) (hs : List Happening) (st : Nat) (s : State) (hk : Keeps qq s) :
    Keeps qq (fabricStep s0 hs st s).1 := by
  unfold fabricStep
  with_reducible repeat' (first | assumption | apply clusterApply_keeps | apply tracePort_keeps | apply gaugePort_keeps | apply sluicePort_keeps
                                | refine Keeps.fold1 ?_ (fun _ _ _ => ?_))

theorem bankCycle_keeps {qq : List Instr} (s0 : State) (cl : Nat) (m : MemOp) (x : State × List Report) (hk : Keeps qq x.1) :
    Keeps qq (bankCycle s0 cl m x).1 := by
  unfold bankCycle
  with_reducible repeat' (first | assumption | refine Keeps.ite (fun _ => ?_) (fun _ => ?_) | refine Keeps.ite1 (fun _ => ?_) (fun _ => ?_)
                                | refine Keeps.fold ?_ (fun _ _ _ => ?_) | refine Keeps.fold1 ?_ (fun _ _ _ => ?_) | apply setCl_keeps
                                | apply dmCheck_keeps | apply writeLands_keeps | apply andThen_keeps
                                | fail_if_no_progress (refine Keeps.upd ?_ rfl rfl rfl rfl rfl rfl rfl rfl rfl) | split | dsimp only | intro _)

theorem memPorts_keeps {qq : List Instr} (s0 : State) (s : State) (hk : Keeps qq s) :
    Keeps qq (memPorts s0 s).1 := by
  unfold memPorts
  with_reducible repeat' (first | assumption | refine Keeps.fold ?_ (fun _ _ _ => ?_) | refine Keeps.fold1 ?_ (fun _ _ _ => ?_)
                                | apply setCl_keeps | apply bankCycle_keeps | dsimp only | intro _)

theorem hardContention_keeps {qq : List Instr} (s0 : State) (kind cl idx : Nat) (s : State) (hk : Keeps qq s) :
    Keeps qq (hardContention s0 kind cl idx s).1 := by
  unfold hardContention
  with_reducible repeat' (first | assumption | refine Keeps.ite (fun _ => ?_) (fun _ => ?_) | apply rflag_keeps | apply rcount_keeps
                                | apply rset_keeps)

theorem recordContention_keeps {qq : List Instr} (s0 : State) (kind cl idx : Nat) (k : Option Bool) (s : State) (hk : Keeps qq s) :
    Keeps qq (recordContention s0 kind cl idx k s).1 := by
  unfold recordContention
  with_reducible repeat' (first | assumption | apply rcount_keeps | apply hardContention_keeps | split)

theorem landProc_keeps {qq : List Instr} (s0 : State) (cl : Nat) (w : BitVec 256) (p : Nat) (x : State × List Report) (hk : Keeps qq x.1) :
    Keeps qq (landProc s0 cl w p x).1 := by
  unfold landProc
  with_reducible repeat' (first | assumption | apply rflag_keeps | apply rcount_keeps | apply setCl_keeps | apply andThen_keeps
                                | apply recordContention_keeps | split | dsimp only)

theorem reachCluster_keeps {qq : List Instr} (s0 : State) (cl : Nat) (x : State × List Report) (hk : Keeps qq x.1) :
    Keeps qq (reachCluster s0 cl x).1 := by
  unfold reachCluster
  with_reducible repeat' (first | assumption | apply setBas_keeps | apply rflag_keeps | apply rcount_keeps | apply setCl_keeps
                                | apply andThen_keeps | apply recordContention_keeps | apply landProc_keeps
                                | refine Keeps.fold1 ?_ (fun _ _ _ => ?_) | split | dsimp only)

theorem lockRec_keeps {qq : List Instr} (kind link f : Nat) (s : State) (hk : Keeps qq s) :
    Keeps qq (lockRec kind link f s) := by
  unfold lockRec
  with_reducible repeat' (first | assumption | refine Keeps.ite (fun _ => ?_) (fun _ => ?_) | apply rset_keeps | apply rflag_keeps)

theorem linkPresent_keeps {qq : List Instr} (s0 : State) (n : Nat) (x : State × List Report) (hk : Keeps qq x.1) :
    Keeps qq (linkPresent s0 n x).1 := by
  unfold linkPresent
  with_reducible repeat' (first | assumption | apply setLnk_keeps | apply taintFrame_keeps | apply rflag_keeps | apply lockRec_keeps | split)

theorem linkSend_keeps {qq : List Instr} (s0 : State) (b n : Nat) (s : State) (hk : Keeps qq s) :
    Keeps qq (linkSend s0 b n s) := by
  unfold linkSend
  with_reducible repeat' (first | assumption | refine Keeps.ite (fun _ => ?_) (fun _ => ?_) | apply setLnk_keeps | apply takeFree_keeps
                                | fail_if_no_progress (refine Keeps.upd ?_ rfl rfl rfl rfl rfl rfl rfl rfl rfl) | split | dsimp only | intro _)

theorem reachStep_keeps {qq : List Instr} (s0 : State) (s : State) (hk : Keeps qq s) :
    Keeps qq (reachStep s0 s).1 := by
  unfold reachStep
  with_reducible repeat' (first | assumption | refine Keeps.ite (fun _ => ?_) (fun _ => ?_) | refine Keeps.ite1 (fun _ => ?_) (fun _ => ?_)
                                | refine Keeps.fold ?_ (fun _ _ _ => ?_) | refine Keeps.fold1 ?_ (fun _ _ _ => ?_) | apply reachCluster_keeps
                                | apply linkPresent_keeps | apply linkSend_keeps | split | dsimp only | intro _)

theorem clearExports_keeps {qq : List Instr} (s : State) (hk : Keeps qq s) : Keeps qq (clearExports s) := Keeps.mapFab hk

theorem discardFrom_keeps {qq : List Instr} (p : Nat) (s : State) (hk : Keeps qq s) : Keeps qq (discardFrom p s) :=
  Keeps.mapLnk (f := fun l => { l with buf := l.buf.filter (fun e => decide (e.v < p)), rxV := min l.rxV p })
    (Keeps.mapFab (f := fun c => { c with memOps := c.memOps.filter fun m => decide (m.issued < p), expo := [] })
      (Keeps.mapBas (f := fun b => { b with lanes := mkeep (· < p) b.lanes, egress := mkeep (· < p) b.egress }) hk))

end Sys2Proof.Machine
end

