-- ==== Sys2Proof/Laws/KeepUnits.lean ====
section
/-!
SUPPORT. What every operation keeps (Laws/Keep.lean): the sequencer, design memory, hold memory, trace, links.
-/
namespace Sys2Proof.Machine

theorem strike_keeps {qq : List Instr} (h : Happening) (s : State) (hk : Keeps qq s) : Keeps qq (strike h s) := by
  unfold strike
  split
  · exact setCl_keeps _ _ _ hk
  · exact setCl_keeps _ _ _ hk
  · exact setCl_keeps _ _ _ hk
  · exact ⟨hk.queue, hk.mem, hk.hold, rises_putBytes _ _ hk.dmc, hk.regs, hk.fab, hk.bas, hk.slu, hk.lnk⟩
  · exact ⟨hk.queue, hk.mem, rises_putBytes _ _ hk.hold, hk.dmc, hk.regs, hk.fab, hk.bas, hk.slu, hk.lnk⟩
  · exact hk.same _ rfl rfl rfl rfl rfl rfl rfl rfl rfl
  · exact hk

theorem strikes_keeps {qq : List Instr} (hs : List Happening) (s : State) (hk : Keeps qq s) :
    Keeps qq (strikes hs s) := by
  unfold strikes
  with_reducible repeat' (first | assumption | apply strike_keeps | refine Keeps.fold ?_ (fun _ _ _ => ?_))

theorem scrubOne_keeps {qq : List Instr} (h : Happening) (s : State) (hk : Keeps qq s) :
    Keeps qq (scrubOne h s).1 := by
  unfold scrubOne
  with_reducible repeat' (first | assumption | apply rflag_keeps | apply rcount_keeps | apply setCl_keeps
                                | refine Keeps.ite1 (fun _ => ?_) (fun _ => ?_) | split)

theorem scrubs_keeps {qq : List Instr} (hs : List Happening) (x : State × List Report) (hk : Keeps qq x.1) :
    Keeps qq (scrubs hs x).1 := by
  unfold scrubs
  with_reducible repeat' (first | assumption | apply andThen_keeps | apply scrubOne_keeps | refine Keeps.fold1 ?_ (fun _ _ _ => ?_))

theorem addEvent_keeps {qq : List Instr} (e : GEvent) (s : State) (hk : Keeps qq s) :
    Keeps qq (addEvent e s) := by
  unfold addEvent
  with_reducible repeat' (first | assumption | refine Keeps.ite (fun _ => ?_) (fun _ => ?_)
                                | fail_if_no_progress (refine Keeps.upd ?_ rfl rfl rfl rfl rfl rfl rfl rfl rfl))

theorem sluicePrecheck_keeps {qq : List Instr} (f p : Nat) (s : State) (hk : Keeps qq s) :
    Keeps qq (sluicePrecheck f p s) := by
  unfold sluicePrecheck
  with_reducible repeat' (first | assumption | apply setSlu_keeps | apply rcount_keeps | apply sendExpress_keeps | apply addEvent_keeps
                                | refine Keeps.fold ?_ (fun _ _ _ => ?_) | split)

theorem returnPrecheck_keeps {qq : List Instr} (n g : Nat) (s : State) (hk : Keeps qq s) :
    Keeps qq (returnPrecheck n g s) := by
  unfold returnPrecheck
  with_reducible repeat' (first | assumption | refine Keeps.ite (fun _ => ?_) (fun _ => ?_) | apply sendExpress_keeps | apply addEvent_keeps
                                | fail_if_no_progress (refine Keeps.upd ?_ rfl rfl rfl rfl rfl rfl rfl rfl rfl) | split | dsimp only)

theorem lateReturn_keeps {qq : List Instr} (s0 s : State) (hk : Keeps qq s) :
    Keeps qq (lateReturn s0 s) := by
  unfold lateReturn
  with_reducible repeat' (first | assumption | refine Keeps.ite (fun _ => ?_) (fun _ => ?_) | apply returnPrecheck_keeps
                                | fail_if_no_progress (refine Keeps.upd ?_ rfl rfl rfl rfl rfl rfl rfl rfl rfl) | split | dsimp only)

theorem prechecks_keeps {qq : List Instr} (s0 : State) (s : State) (hk : Keeps qq s) :
    Keeps qq (prechecks s0 s) := by
  unfold prechecks
  with_reducible repeat' (first | assumption | refine Keeps.ite (fun _ => ?_) (fun _ => ?_) | apply sluicePrecheck_keeps
                                | apply returnPrecheck_keeps | apply lateReturn_keeps
                                | fail_if_no_progress (refine Keeps.upd ?_ rfl rfl rfl rfl rfl rfl rfl rfl rfl) | split | dsimp only)

theorem horizonStall_keeps {qq : List Instr} (kind : Nat) (s : State) (hk : Keeps qq s) :
    Keeps qq (horizonStall kind s) := by
  unfold horizonStall
  with_reducible repeat' (first | assumption | apply sendExpress_keeps | apply addEvent_keeps | split)

theorem restoreStep_keeps {qq : List Instr} (s : State) (hk : Keeps qq s) :
    Keeps qq (restoreStep s) := by
  unfold restoreStep
  with_reducible repeat' (first | assumption | refine Keeps.ite (fun _ => ?_) (fun _ => ?_) | apply setBound_keeps | apply rput_keeps
                                | fail_if_no_progress (refine Keeps.upd ?_ rfl rfl rfl rfl rfl rfl rfl rfl rfl))

theorem applyHalving_keeps {qq : List Instr} (src : Nat) (s : State) (hk : Keeps qq s) :
    Keeps qq (applyHalving src s) := by
  unfold applyHalving
  with_reducible repeat' (first | assumption | refine Keeps.ite (fun _ => ?_) (fun _ => ?_) | apply lastEvt_keeps | apply restoreStep_keeps
                                | apply setBound_keeps | fail_if_no_progress (refine Keeps.upd ?_ rfl rfl rfl rfl rfl rfl rfl rfl rfl))

theorem beginStall_keeps {qq : List Instr} (es : List GEvent) (s : State) (hk : Keeps qq s) :
    Keeps qq (beginStall es s) := by
  unfold beginStall
  with_reducible repeat' (first | assumption | apply lastEvt_keeps | apply seqInt_keeps | apply rcount_keeps
                                | fail_if_no_progress (refine Keeps.upd ?_ rfl rfl rfl rfl rfl rfl rfl rfl rfl))

theorem applyEvents_keeps {qq : List Instr} (s : State) (hk : Keeps qq s) :
    Keeps qq (applyEvents s) := by
  unfold applyEvents
  with_reducible repeat' (first | assumption | refine Keeps.ite (fun _ => ?_) (fun _ => ?_) | apply applyHalving_keeps
                                | apply clockLossHalt_keeps | apply beginStall_keeps | refine Keeps.fold ?_ (fun _ _ _ => ?_)
                                | fail_if_no_progress (refine Keeps.upd ?_ rfl rfl rfl rfl rfl rfl rfl rfl rfl) | split)

theorem seqStep_keeps {qq : List Instr} (ready : State → Bool) (body : State → State) (s : State) (hk : Keeps qq s) (hbody : ∀ u, Keeps qq u → Keeps qq (body u)) :
    Keeps qq (seqStep ready body s) := by
  unfold seqStep
  with_reducible repeat' (first | assumption | refine Keeps.ite (fun _ => ?_) (fun _ => ?_) | apply hbody | apply applyEvents_keeps)

theorem bankCycles_keeps {qq : List Instr} (s : State) (hk : Keeps qq s) :
    Keeps qq (bankCycles s) := by
  unfold bankCycles
  with_reducible repeat' (first | assumption | fail_if_no_progress (refine Keeps.upd ?_ rfl rfl rfl rfl rfl rfl rfl rfl rfl))

theorem bumpGsc_keeps {qq : List Instr} (s : State) (hk : Keeps qq s) :
    Keeps qq (bumpGsc s) := by
  unfold bumpGsc
  with_reducible repeat' (first | assumption | refine Keeps.ite (fun _ => ?_) (fun _ => ?_) | apply bankCycles_keeps | apply restoreStep_keeps
                                | fail_if_no_progress (refine Keeps.upd ?_ rfl rfl rfl rfl rfl rfl rfl rfl rfl))

theorem throttleVote_keeps {qq : List Instr} (s : State) (hk : Keeps qq s) :
    Keeps qq (throttleVote s) := by
  unfold throttleVote
  with_reducible repeat' (first | assumption | apply sendExpress_keeps
                                | fail_if_no_progress (refine Keeps.upd ?_ rfl rfl rfl rfl rfl rfl rfl rfl rfl))

theorem throttleEvent_keeps {qq : List Instr} (s : State) (hk : Keeps qq s) :
    Keeps qq (throttleEvent s) := by
  unfold throttleEvent
  with_reducible repeat' (first | assumption | refine Keeps.ite (fun _ => ?_) (fun _ => ?_) | apply throttleVote_keeps)

theorem beginLock_keeps {qq : List Instr} (g : Nat) (s : State) (hk : Keeps qq s) :
    Keeps qq (beginLock g s) := by
  unfold beginLock
  with_reducible repeat' (first | assumption | apply lastEvt_keeps
                                | fail_if_no_progress (refine Keeps.upd ?_ rfl rfl rfl rfl rfl rfl rfl rfl rfl) | split)

theorem applyThrottle_keeps {qq : List Instr} (s : State) (hk : Keeps qq s) :
    Keeps qq (applyThrottle s) := by
  unfold applyThrottle
  with_reducible repeat' (first | assumption | apply lastEvt_keeps
                                | fail_if_no_progress (refine Keeps.upd ?_ rfl rfl rfl rfl rfl rfl rfl rfl rfl) | split | dsimp only)

theorem applyConfig_keeps {qq : List Instr} (s : State) (hk : Keeps qq s) :
    Keeps qq (applyConfig s) := by
  unfold applyConfig
  with_reducible repeat' (first | assumption | fail_if_no_progress (refine Keeps.upd ?_ rfl rfl rfl rfl rfl rfl rfl rfl rfl) | split)

theorem configNow_keeps {qq : List Instr} (s : State) (hk : Keeps qq s) :
    Keeps qq (configNow s) := by
  unfold configNow
  with_reducible repeat' (first | assumption | fail_if_no_progress (refine Keeps.upd ?_ rfl rfl rfl rfl rfl rfl rfl rfl rfl))

theorem configChange_keeps {qq : List Instr} (g : Nat) (s : State) (hk : Keeps qq s) :
    Keeps qq (configChange g s) := by
  unfold configChange
  with_reducible repeat' (first | assumption | apply configNow_keeps
                                | fail_if_no_progress (refine Keeps.upd ?_ rfl rfl rfl rfl rfl rfl rfl rfl rfl) | split)

theorem settlePause_keeps {qq : List Instr} (s : State) (hk : Keeps qq s) :
    Keeps qq (settlePause s) := by
  unfold settlePause
  with_reducible repeat' (first | assumption | refine Keeps.ite (fun _ => ?_) (fun _ => ?_) | apply seqInt_keeps
                                | fail_if_no_progress (refine Keeps.upd ?_ rfl rfl rfl rfl rfl rfl rfl rfl rfl))

theorem carryTaint_keeps {qq : List Instr} (s : State) (hk : Keeps qq s) :
    Keeps qq (carryTaint s) := by
  unfold carryTaint
  with_reducible repeat' (first | assumption | refine Keeps.ite (fun _ => ?_) (fun _ => ?_) | apply taintFrame_keeps)

theorem dropCarry_keeps {qq : List Instr} (s : State) (hk : Keeps qq s) :
    Keeps qq (dropCarry s) := by
  unfold dropCarry
  with_reducible repeat' (first | assumption | fail_if_no_progress (refine Keeps.upd ?_ rfl rfl rfl rfl rfl rfl rfl rfl rfl))

theorem closeRecord_keeps {qq : List Instr} (s : State) (hk : Keeps qq s) :
    Keeps qq (closeRecord s) := by
  unfold closeRecord
  with_reducible repeat' (first | assumption | fail_if_no_progress (refine Keeps.upd ?_ rfl rfl rfl rfl rfl rfl rfl rfl rfl))

theorem enterPaused_keeps {qq : List Instr} (s : State) (hk : Keeps qq s) :
    Keeps qq (enterPaused s) := by
  unfold enterPaused
  with_reducible repeat' (first | assumption | apply dropCarry_keeps | apply lastEvt_keeps | apply settlePause_keeps | apply applyHalving_keeps
                                | refine Keeps.fold ?_ (fun _ _ _ => ?_)
                                | fail_if_no_progress (refine Keeps.upd ?_ rfl rfl rfl rfl rfl rfl rfl rfl rfl) | split)

theorem barrierDecision_keeps {qq : List Instr} (s : State) (hk : Keeps qq s) :
    Keeps qq (barrierDecision s) := by
  unfold barrierDecision
  with_reducible repeat' (first | assumption | refine Keeps.ite (fun _ => ?_) (fun _ => ?_) | apply seqInt_keeps | apply enterPaused_keeps
                                | apply carryTaint_keeps | fail_if_no_progress (refine Keeps.upd ?_ rfl rfl rfl rfl rfl rfl rfl rfl rfl))

theorem hostCode_keeps {qq : List Instr} (code addr : Nat) (s : State) (hk : Keeps qq s) :
    Keeps qq (hostCode code addr s) := by
  unfold hostCode
  with_reducible repeat' (first | assumption | apply rset_keeps | apply rflag_keeps | split)

theorem hostCpl_keeps {qq : List Instr} (st : CplSt) (ep : Bool) (bar addr : Nat) (data : List Byte) (s : State) (hk : Keeps qq s) :
    Keeps qq (hostCpl st ep bar addr data s) := by
  unfold hostCpl
  with_reducible repeat' (first | assumption | fail_if_no_progress (refine Keeps.upd ?_ rfl rfl rfl rfl rfl rfl rfl rfl rfl))

theorem svcReply_keeps {qq : List Instr} (r : SvcReq) (code : Nat) (data : BitVec 64) (s : State) (hk : Keeps qq s) :
    Keeps qq (svcReply r code data s) := by
  unfold svcReply
  with_reducible repeat' (first | assumption | apply rcount_keeps | apply returnWritten_keeps | apply hostCode_keeps | apply hostCpl_keeps
                                | fail_if_no_progress (refine Keeps.upd ?_ rfl rfl rfl rfl rfl rfl rfl rfl rfl) | split)

theorem svcPerform_keeps {qq : List Instr} (r : SvcReq) (shared : Bool) (s : State) (hk : Keeps qq s) :
    Keeps qq (svcPerform r shared s).1 := by
  unfold svcPerform
  with_reducible repeat' (first | assumption | apply svcReply_keeps | apply dmWrite_keeps | apply dmCheck_keeps | refine Keeps.fst ‹_› ?_ | split
                                | dsimp only)

theorem svcWait_keeps {qq : List Instr} (r : SvcReq) (forSched : Bool) (s : State) (hk : Keeps qq s) :
    Keeps qq (svcWait r forSched s) := by
  unfold svcWait
  with_reducible repeat' (first | assumption | apply rcount_keeps | fail_if_no_progress (refine Keeps.upd ?_ rfl rfl rfl rfl rfl rfl rfl rfl rfl)
                                | split)

theorem svcResolve_keeps {qq : List Instr} (r : SvcReq) (s : State) (hk : Keeps qq s) :
    Keeps qq (svcResolve r s).1 := by
  unfold svcResolve
  with_reducible repeat' (first | assumption | apply svcWait_keeps | apply svcPerform_keeps | apply svcReply_keeps | apply takeFree_keeps
                                | fail_if_no_progress (refine Keeps.upd ?_ rfl rfl rfl rfl rfl rfl rfl rfl rfl) | split | dsimp only)

theorem bankAccess_keeps {qq : List Instr} (k : Nat) (s : State) (hk : Keeps qq s) :
    Keeps qq (bankAccess k s) := by
  unfold bankAccess
  with_reducible repeat' (first | assumption | refine Keeps.ite (fun _ => ?_) (fun _ => ?_) | apply bankCycles_keeps
                                | fail_if_no_progress (refine Keeps.upd ?_ rfl rfl rfl rfl rfl rfl rfl rfl rfl) | split)

theorem patrolBegins_keeps {qq : List Instr} (k : Nat) (s : State) (hk : Keeps qq s) :
    Keeps qq (patrolBegins k s) := by
  unfold patrolBegins
  with_reducible repeat' (first | assumption | fail_if_no_progress (refine Keeps.upd ?_ rfl rfl rfl rfl rfl rfl rfl rfl rfl))

theorem svcServe_keeps {qq : List Instr} (k : Nat) (s : State) (hk : Keeps qq s) :
    Keeps qq (svcServe k s).1 := by
  unfold svcServe
  with_reducible repeat' (first | assumption | refine Keeps.ite (fun _ => ?_) (fun _ => ?_) | refine Keeps.ite1 (fun _ => ?_) (fun _ => ?_)
                                | apply svcPerform_keeps | apply bankAccess_keeps
                                | fail_if_no_progress (refine Keeps.upd ?_ rfl rfl rfl rfl rfl rfl rfl rfl rfl) | split)

theorem settle_keeps {qq : List Instr} (x : State × List Report) (hk : Keeps qq x.1) :
    Keeps qq (settle x) := by
  unfold settle
  with_reducible repeat' (first | assumption | apply raiseAll_keeps)

theorem serviceRequest_keeps {qq : List Instr} (r : SvcReq) (s : State) (hk : Keeps qq s) :
    Keeps qq (serviceRequest r s) := by
  unfold serviceRequest
  with_reducible repeat' (first | assumption | refine Keeps.ite (fun _ => ?_) (fun _ => ?_) | apply settle_keeps | apply svcResolve_keeps)

theorem serviceAccess_keeps {qq : List Instr} (k : Nat) (s : State) (hk : Keeps qq s) :
    Keeps qq (serviceAccess k s) := by
  unfold serviceAccess
  with_reducible repeat' (first | assumption | apply settle_keeps | apply svcServe_keeps)

theorem deferredWrite_keeps {qq : List Instr} (k : Nat) (s : State) (hk : Keeps qq s) :
    Keeps qq (deferredWrite k s) := by
  unfold deferredWrite
  with_reducible repeat' (first | assumption | refine Keeps.ite (fun _ => ?_) (fun _ => ?_) | apply svcPerform_keeps | apply svcResolve_keeps
                                | apply bankAccess_keeps | apply settle_keeps
                                | fail_if_no_progress (refine Keeps.upd ?_ rfl rfl rfl rfl rfl rfl rfl rfl rfl) | split | dsimp only)

theorem eccWriteback_keeps {qq : List Instr} (k w : Nat) (s : State) (hk : Keeps qq s) :
    Keeps qq (eccWriteback k w s) := by
  unfold eccWriteback
  with_reducible repeat' (first | assumption | refine Keeps.ite (fun _ => ?_) (fun _ => ?_) | apply bankAccess_keeps
                                | fail_if_no_progress (refine Keeps.upd ?_ rfl rfl rfl rfl rfl rfl rfl rfl rfl) | split | dsimp only)

theorem patrolRead_keeps {qq : List Instr} (k : Nat) (s : State) (hk : Keeps qq s) :
    Keeps qq (patrolRead k s) := by
  unfold patrolRead
  with_reducible repeat' (first | assumption | refine Keeps.ite (fun _ => ?_) (fun _ => ?_) | apply dmCheck_keeps | apply bankAccess_keeps
                                | apply patrolBegins_keeps | apply settle_keeps
                                | fail_if_no_progress (refine Keeps.upd ?_ rfl rfl rfl rfl rfl rfl rfl rfl rfl) | split | dsimp only)

theorem patrolLate_keeps {qq : List Instr} (s : State) (hk : Keeps qq s) :
    Keeps qq (patrolLate s) := by
  unfold patrolLate
  with_reducible repeat' (first | assumption | refine Keeps.ite (fun _ => ?_) (fun _ => ?_) | apply rflag_keeps | apply raise_keeps | split)

theorem unown_keeps {qq : List Instr} (j : Nat) (s : State) (hk : Keeps qq s) :
    Keeps qq (unown j s) := by
  unfold unown
  with_reducible repeat' (first | assumption | apply rset_keeps)

theorem ownPut_keeps {qq : List Instr} (k : Nat) (v : Word) (s : State) (hk : Keeps qq s) :
    Keeps qq (ownPut k v s) := by
  unfold ownPut
  with_reducible repeat' (first | assumption | apply unown_keeps | apply patrolBegins_keeps | apply rset_keeps
                                | refine Keeps.fold ?_ (fun _ _ _ => ?_) | split)

theorem ownWrite_keeps {qq : List Instr} (k : Nat) (v : Word) (s : State) (hk : Keeps qq s) :
    Keeps qq (ownWrite k v s).1 := by
  unfold ownWrite
  with_reducible repeat' (first | assumption | apply ownPut_keeps | apply rflag_keeps | apply rmod_keeps
                                | refine Keeps.ite1 (fun _ => ?_) (fun _ => ?_))

theorem ownClear_keeps {qq : List Instr} (k : Nat) (s : State) (hk : Keeps qq s) :
    Keeps qq (ownClear k s) := by
  unfold ownClear
  with_reducible repeat' (first | assumption | apply rmod_keeps)

theorem marchKeep_keeps {qq : List Instr} (k : Nat) (s : State) (hk : Keeps qq s) :
    Keeps qq (marchKeep k s) := by
  unfold marchKeep
  with_reducible repeat' (first | assumption | refine Keeps.fold ?_ (fun _ _ _ => ?_)
                                | fail_if_no_progress (refine Keeps.upd ?_ rfl rfl rfl rfl rfl rfl rfl rfl rfl))

theorem bankZero_keeps {qq : List Instr} (k : Nat) (s : State) (hk : Keeps qq s) : Keeps qq (bankZero k s) :=
  ⟨hk.queue, hk.mem, hk.hold, rises_mkeep hk.dmc fun a => a / 0x40000 ≠ k, hk.regs, hk.fab, hk.bas, hk.slu, hk.lnk⟩

theorem bankPoison_keeps {qq : List Instr} (k : Nat) (s : State) (hk : Keeps qq s) :
    Keeps qq (bankPoison k s) := by
  unfold bankPoison
  with_reducible repeat' (first | assumption | apply bankZero_keeps | fail_if_no_progress (refine Keeps.upd ?_ rfl rfl rfl rfl rfl rfl rfl rfl rfl))

theorem rowFails_keeps {qq : List Instr} (k : Nat) (x : MarchSum) (hk : Keeps qq x.st) : Keeps qq (rowFails k x).st := by
  unfold rowFails
  dsimp only
  split <;> dsimp only
  · exact rmod_keeps _ _ _ hk
  · exact unown_keeps _ _ (rflag_keeps _ _ _ (rflag_keeps _ _ _ hk))

theorem reachBank_keeps {qq : List Instr} (ahead : Nat) (r : SluReq) (s : State) (hk : Keeps qq s) :
    Keeps qq (reachBank ahead r s) := by
  unfold reachBank
  with_reducible repeat' (first | assumption | refine Keeps.ite (fun _ => ?_) (fun _ => ?_) | apply raiseEvent_keeps | apply rflag_keeps
                                | apply rcount_keeps | fail_if_no_progress (refine Keeps.upd ?_ rfl rfl rfl rfl rfl rfl rfl rfl rfl))

theorem reachAll_keeps {qq : List Instr} (d : Nat) (s : State) (hk : Keeps qq s) :
    Keeps qq (reachAll d s) := by
  unfold reachAll
  with_reducible repeat' (first | assumption | apply reachBank_keeps | refine Keeps.fold ?_ (fun _ _ _ => ?_) | split)

theorem sluAccess_keeps {qq : List Instr} (r : SluReq) (s : State) (hk : Keeps qq s) :
    Keeps qq (sluAccess r s).1 := by
  unfold sluAccess
  with_reducible repeat' (first | assumption | apply hdWrite_keeps | apply hdCheck_keeps | refine Keeps.ite1 (fun _ => ?_) (fun _ => ?_)
                                | refine Keeps.fst ‹_› ?_ | fail_if_no_progress (refine Keeps.upd ?_ rfl rfl rfl rfl rfl rfl rfl rfl rfl) | split)

theorem bankIdle_keeps {qq : List Instr} (d : Nat) (s : State) (hk : Keeps qq s) :
    Keeps qq (bankIdle d s) := by
  unfold bankIdle
  with_reducible repeat' (first | assumption | fail_if_no_progress (refine Keeps.upd ?_ rfl rfl rfl rfl rfl rfl rfl rfl rfl) | split)

theorem refreshOne_keeps {qq : List Instr} (d : Nat) (s : State) (hk : Keeps qq s) :
    Keeps qq (refreshOne d s) := by
  unfold refreshOne
  with_reducible repeat' (first | assumption | fail_if_no_progress (refine Keeps.upd ?_ rfl rfl rfl rfl rfl rfl rfl rfl rfl))

theorem holdWordWrite_keeps {qq : List Instr} (n : Nat) (bs : List (Nat × Byte)) (x : State × List Report × Bool) (hk : Keeps qq x.1) :
    Keeps qq (holdWordWrite n bs x).1 := by
  unfold holdWordWrite
  with_reducible repeat' (first | assumption | apply hdWrite_keeps | apply hdCheck_keeps | refine Keeps.ite1 (fun _ => ?_) (fun _ => ?_)
                                | refine Keeps.fst ‹_› ?_ | split)

theorem putJob_keeps {qq : List Instr} (j j' : HoldJob) (s : State) (hk : Keeps qq s) :
    Keeps qq (putJob j j' s) := by
  unfold putJob
  with_reducible repeat' (first | assumption | refine Keeps.ite (fun _ => ?_) (fun _ => ?_)
                                | fail_if_no_progress (refine Keeps.upd ?_ rfl rfl rfl rfl rfl rfl rfl rfl rfl) | split | intro _)

theorem jobLine_keeps {qq : List Instr} (j : HoldJob) (n : Nat) (s : State) (hk : Keeps qq s) :
    Keeps qq (jobLine j n s).1 := by
  unfold jobLine
  with_reducible repeat' (first | assumption | refine Keeps.ite (fun _ => ?_) (fun _ => ?_) | refine Keeps.ite1 (fun _ => ?_) (fun _ => ?_)
                                | refine Keeps.fold ?_ (fun _ _ _ => ?_) | refine Keeps.fold1 ?_ (fun _ _ _ => ?_) | apply hdCheck_keeps
                                | apply andThen_keeps | apply holdWordWrite_keeps | apply putJob_keeps
                                | fail_if_no_progress (refine Keeps.upd ?_ rfl rfl rfl rfl rfl rfl rfl rfl rfl) | split | dsimp only | intro _)

theorem bankFirst_keeps {qq : List Instr} (d n : Nat) (s : State) (hk : Keeps qq s) :
    ∀ u, bankFirst d n s = some u → Keeps qq u.1 := by
  intro u hu
  unfold bankFirst at hu
  split at hu
  · injection hu with hu; subst hu; exact refreshOne_keeps _ _ hk
  · split at hu
    · injection hu with hu; subst hu; exact sluAccess_keeps _ _ (reachAll_keeps _ _ hk)
    · obtain ⟨x, -, rfl⟩ := Option.map_eq_some_iff.1 hu
      exact jobLine_keeps _ _ _ hk

theorem bankAhead_keeps {qq : List Instr} (d n k : Nat) (x : State × List Report) (hk : Keeps qq x.1) :
    Keeps qq (bankAhead d n k x).1 := by
  induction k generalizing x with
  | zero => exact hk
  | succ k ih =>
    unfold bankAhead
    split
    · rename_i y hy
      exact ih (y.1, x.2 ++ y.2) (show Keeps qq y.1 from bankFirst_keeps _ _ _ hk y hy)
    · exact hk

theorem holdAccess_keeps {qq : List Instr} (d : Nat) (s : State) (hk : Keeps qq s) :
    Keeps qq (holdAccess d s).1 := by
  unfold holdAccess
  with_reducible repeat' (first | assumption | refine Keeps.ite (fun _ => ?_) (fun _ => ?_) | refine Keeps.ite1 (fun _ => ?_) (fun _ => ?_)
                                | apply reachAll_keeps | apply sluAccess_keeps | apply bankIdle_keeps | apply refreshOne_keeps
                                | apply jobLine_keeps | fail_if_no_progress (refine Keeps.upd ?_ rfl rfl rfl rfl rfl rfl rfl rfl rfl) | split
                                | dsimp only)

theorem jobAtOnce_keeps {qq : List Instr} (n : Nat) (s : State) (hk : Keeps qq s) :
    Keeps qq (jobAtOnce n s).1 := by
  unfold jobAtOnce
  with_reducible repeat' (first | assumption | refine Keeps.ite (fun _ => ?_) (fun _ => ?_) | refine Keeps.ite1 (fun _ => ?_) (fun _ => ?_)
                                | apply jobLine_keeps | fail_if_no_progress (refine Keeps.upd ?_ rfl rfl rfl rfl rfl rfl rfl rfl rfl) | split
                                | dsimp only | intro _)

theorem jobArrives_keeps {qq : List Instr} (b : Barge) (why : HoldFor) (cells : List (Nat × Byte)) (s : State) (hk : Keeps qq s) :
    Keeps qq (jobArrives b why cells s).1 := by
  unfold jobArrives
  with_reducible repeat' (first | assumption | refine Keeps.fold ?_ (fun _ _ _ => ?_) | refine Keeps.fold1 ?_ (fun _ _ _ => ?_)
                                | apply andThen_keeps | apply jobAtOnce_keeps
                                | fail_if_no_progress (refine Keeps.upd ?_ rfl rfl rfl rfl rfl rfl rfl rfl rfl) | dsimp only | intro _)

theorem jobsLeave_keeps {qq : List Instr} (s : State) (hk : Keeps qq s) :
    Keeps qq (jobsLeave s) := by
  unfold jobsLeave
  with_reducible repeat' (first | assumption | fail_if_no_progress (refine Keeps.upd ?_ rfl rfl rfl rfl rfl rfl rfl rfl rfl))

theorem refreshDue_keeps {qq : List Instr} (d : Nat) (s : State) (hk : Keeps qq s) :
    Keeps qq (refreshDue d s) := by
  unfold refreshDue
  with_reducible repeat' (first | assumption | fail_if_no_progress (refine Keeps.upd ?_ rfl rfl rfl rfl rfl rfl rfl rfl rfl) | split)

theorem scrubRead_keeps {qq : List Instr} (i : Nat) (s : State) (hk : Keeps qq s) :
    Keeps qq (scrubRead i s).1 := by
  unfold scrubRead
  with_reducible repeat' (first | assumption | refine Keeps.ite (fun _ => ?_) (fun _ => ?_) | refine Keeps.ite1 (fun _ => ?_) (fun _ => ?_)
                                | apply hdCheck_keeps | apply bankAhead_keeps
                                | fail_if_no_progress (refine Keeps.upd ?_ rfl rfl rfl rfl rfl rfl rfl rfl rfl) | split | dsimp only)

theorem scrubLate_keeps {qq : List Instr} (s : State) (hk : Keeps qq s) :
    Keeps qq (scrubLate s) := by
  unfold scrubLate
  with_reducible repeat' (first | assumption | refine Keeps.ite (fun _ => ?_) (fun _ => ?_) | apply rflag_keeps | apply raise_keeps | split)

theorem stackPoison_keeps {qq : List Instr} (i : Nat) (s : State) (hk : Keeps qq s) : Keeps qq (stackPoison i s) :=
  ⟨hk.queue, hk.mem, rises_mkeep hk.hold fun a => (a / 8 / 8) % nStacks s ≠ i, hk.dmc, hk.regs, hk.fab, hk.bas, hk.slu, hk.lnk⟩

theorem stackReady_keeps {qq : List Instr} (i : Nat) (s : State) (hk : Keeps qq s) :
    Keeps qq (stackReady i s) := by
  unfold stackReady
  with_reducible repeat' (first | assumption | apply rmod_keeps | apply stackPoison_keeps | split)

theorem refreshDoubling_keeps {qq : List Instr} (i temp : Nat) (s : State) (hk : Keeps qq s) :
    Keeps qq (refreshDoubling i temp s) := by
  unfold refreshDoubling
  with_reducible repeat' (first | assumption | refine Keeps.ite (fun _ => ?_) (fun _ => ?_) | apply rmod_keeps)

theorem replyArrival_keeps {qq : List Instr} (q t : Nat) (s : State) (hk : Keeps qq s) :
    Keeps qq (replyArrival q t s) := by
  unfold replyArrival
  with_reducible repeat' (first | assumption | apply rput_keeps | apply setTag_keeps
                                | fail_if_no_progress (refine Keeps.upd ?_ rfl rfl rfl rfl rfl rfl rfl rfl rfl) | split | dsimp only)

theorem regionWrite_keeps {qq : List Instr} (q r : Nat) (size : Bool) (v : Word) (s : State) (hk : Keeps qq s) :
    Keeps qq (regionWrite q r size v s) := by
  unfold regionWrite
  with_reducible repeat' (first | assumption | refine Keeps.ite (fun _ => ?_) (fun _ => ?_) | apply rflag_keeps | apply rset_keeps)

theorem hostHold_keeps {qq : List Instr} (flag addr : Nat) (s : State) (hk : Keeps qq s) :
    Keeps qq (hostHold flag addr s) := by
  unfold hostHold
  with_reducible repeat' (first | assumption | refine Keeps.ite (fun _ => ?_) (fun _ => ?_) | apply rset_keeps | apply rflag_keeps)

theorem setTrcSt_keeps {qq : List Instr} (n : Nat) (y0 : State) (hk : Keeps qq y0) :
    Keeps qq (setTrcSt n y0) := by
  unfold setTrcSt
  with_reducible repeat' (first | assumption | apply rput_keeps)

theorem capture_keeps {qq : List Instr} (s : State) (hk : Keeps qq s) :
    Keeps qq (capture s) := by
  unfold capture
  with_reducible repeat' (first | assumption | fail_if_no_progress (refine Keeps.upd ?_ rfl rfl rfl rfl rfl rfl rfl rfl rfl))

theorem postStep_keeps {qq : List Instr} (s : State) (hk : Keeps qq s) :
    Keeps qq (postStep s) := by
  unfold postStep
  with_reducible repeat' (first | assumption | refine Keeps.ite (fun _ => ?_) (fun _ => ?_) | apply setTrcSt_keeps | apply stageMarker_keeps
                                | apply capture_keeps | fail_if_no_progress (refine Keeps.upd ?_ rfl rfl rfl rfl rfl rfl rfl rfl rfl))

theorem onStep_keeps {qq : List Instr} (s : State) (hk : Keeps qq s) :
    Keeps qq (onStep s) := by
  unfold onStep
  with_reducible repeat' (first | assumption | refine Keeps.ite (fun _ => ?_) (fun _ => ?_) | apply setTrcSt_keeps | apply capture_keeps
                                | fail_if_no_progress (refine Keeps.upd ?_ rfl rfl rfl rfl rfl rfl rfl rfl rfl))

theorem applyUnseal_keeps {qq : List Instr} (s : State) (hk : Keeps qq s) :
    Keeps qq (applyUnseal s) := by
  unfold applyUnseal
  with_reducible repeat' (first | assumption | apply rmod_keeps | refine Keeps.fold ?_ (fun _ _ _ => ?_)
                                | fail_if_no_progress (refine Keeps.upd ?_ rfl rfl rfl rfl rfl rfl rfl rfl rfl) | split)

theorem traceFirstTick_keeps {qq : List Instr} (s : State) (hk : Keeps qq s) :
    Keeps qq (traceFirstTick s) := by
  unfold traceFirstTick
  with_reducible repeat' (first | assumption | apply applyUnseal_keeps | apply rflag_keeps | apply onStep_keeps | apply postStep_keeps | split
                                | dsimp only)

theorem traceVote_keeps {qq : List Instr} (s : State) (hk : Keeps qq s) :
    Keeps qq (traceVote s) := by
  unfold traceVote
  with_reducible repeat' (first | assumption | refine Keeps.ite (fun _ => ?_) (fun _ => ?_) | apply rflag_keeps | apply trcInt_keeps
                                | apply horizonStall_keeps | fail_if_no_progress (refine Keeps.upd ?_ rfl rfl rfl rfl rfl rfl rfl rfl rfl)
                                | split)

theorem stageFrame_keeps {qq : List Instr} (f : Nat) (c : TrcCap) (s : State) (hk : Keeps qq s) :
    Keeps qq (stageFrame f c s) := by
  unfold stageFrame
  with_reducible repeat' (first | assumption | apply trcInt_keeps | apply rflag_keeps | apply rcount_keeps | apply stageLoss_keeps
                                | apply stagePut_keeps | fail_if_no_progress (refine Keeps.upd ?_ rfl rfl rfl rfl rfl rfl rfl rfl rfl) | split)

theorem traceSecondTick_keeps {qq : List Instr} (f : Nat) (s : State) (hk : Keeps qq s) :
    Keeps qq (traceSecondTick f s) := by
  unfold traceSecondTick
  with_reducible repeat' (first | assumption | apply traceVote_keeps | apply stageFrame_keeps
                                | fail_if_no_progress (refine Keeps.upd ?_ rfl rfl rfl rfl rfl rfl rfl rfl rfl) | split)

theorem dacScan_keeps {qq : List Instr} (s0 s : State) (hk : Keeps qq s) :
    Keeps qq (dacScan s0 s) := by
  unfold dacScan
  with_reducible repeat' (first | assumption | fail_if_no_progress (refine Keeps.upd ?_ rfl rfl rfl rfl rfl rfl rfl rfl rfl))

theorem dacReturn_keeps {qq : List Instr} (g e : Nat) (v : V4) (s : State) (hk : Keeps qq s) :
    Keeps qq (dacReturn g e v s) := by
  unfold dacReturn
  with_reducible repeat' (first | assumption | fail_if_no_progress (refine Keeps.upd ?_ rfl rfl rfl rfl rfl rfl rfl rfl rfl))

theorem overwrite_keeps {qq : List Instr} (n : Nat) (y0 : Nat) (y1 : State) (hk : Keeps qq y1) :
    Keeps qq (overwrite n y0 y1) := by
  induction y0 generalizing y1 with
  | zero => exact hk
  | succ k ih =>
    unfold overwrite
    with_reducible repeat' (first | assumption | apply ih | apply rmod_keeps | apply rflag_keeps
                                  | fail_if_no_progress (refine Keeps.upd ?_ rfl rfl rfl rfl rfl rfl rfl rfl rfl) | split)

theorem drainDone_keeps {qq : List Instr} (y0 : Nat) (y1 : State) (hk : Keeps qq y1) :
    Keeps qq (drainDone y0 y1) := by
  induction y0 generalizing y1 with
  | zero => exact hk
  | succ k ih =>
    unfold drainDone
    with_reducible repeat' (first | assumption | apply ih | apply rmod_keeps | apply trcInt_keeps
                                  | fail_if_no_progress (refine Keeps.upd ?_ rfl rfl rfl rfl rfl rfl rfl rfl rfl) | split)

theorem flushDone_keeps {qq : List Instr} (s : State) (hk : Keeps qq s) :
    Keeps qq (flushDone s) := by
  unfold flushDone
  with_reducible repeat' (first | assumption | refine Keeps.ite (fun _ => ?_) (fun _ => ?_) | apply trcInt_keeps | apply rflag_keeps
                                | fail_if_no_progress (refine Keeps.upd ?_ rfl rfl rfl rfl rfl rfl rfl rfl rfl))

theorem drainWritten_keeps {qq : List Instr} (n : Nat) (s : State) (hk : Keeps qq s) :
    Keeps qq (drainWritten n s) := by
  unfold drainWritten
  with_reducible repeat' (first | assumption | refine Keeps.ite (fun _ => ?_) (fun _ => ?_) | apply traceVote_keeps | apply overwrite_keeps
                                | apply drainDone_keeps | apply flushDone_keeps
                                | fail_if_no_progress (refine Keeps.upd ?_ rfl rfl rfl rfl rfl rfl rfl rfl rfl) | split | dsimp only)

theorem traceEnds_keeps {qq : List Instr} (s : State) (hk : Keeps qq s) :
    Keeps qq (traceEnds s) := by
  unfold traceEnds
  with_reducible repeat' (first | assumption | refine Keeps.fold ?_ (fun _ _ _ => ?_) | refine Keeps.fold1 ?_ (fun _ _ _ => ?_)
                                | apply drainWritten_keeps | fail_if_no_progress (refine Keeps.upd ?_ rfl rfl rfl rfl rfl rfl rfl rfl rfl)
                                | dsimp only | intro _)

theorem drainWrite_keeps {qq : List Instr} (s : State) (hk : Keeps qq s) :
    Keeps qq (drainWrite s) := by
  unfold drainWrite
  with_reducible repeat' (first | assumption | refine Keeps.ite (fun _ => ?_) (fun _ => ?_) | apply settle_keeps | apply jobArrives_keeps
                                | apply traceEnds_keeps | split | dsimp only | intro _)

theorem arm_keeps {qq : List Instr} (s : State) (hk : Keeps qq s) :
    Keeps qq (arm s) := by
  unfold arm
  with_reducible repeat' (first | assumption | apply setTrcSt_keeps | apply rflag_keeps | apply rset_keeps | apply stageMarker_keeps
                                | fail_if_no_progress (refine Keeps.upd ?_ rfl rfl rfl rfl rfl rfl rfl rfl rfl))

theorem disarm_keeps {qq : List Instr} (why : Nat) (s : State) (hk : Keeps qq s) :
    Keeps qq (disarm why s) := by
  unfold disarm
  with_reducible repeat' (first | assumption | refine Keeps.ite (fun _ => ?_) (fun _ => ?_) | apply rput_keeps | apply setTrcSt_keeps
                                | apply stageMarker_keeps | fail_if_no_progress (refine Keeps.upd ?_ rfl rfl rfl rfl rfl rfl rfl rfl rfl))

theorem trcArmWrite_keeps {qq : List Instr} (v : Word) (s : State) (hk : Keeps qq s) :
    Keeps qq (trcArmWrite v s) := by
  unfold trcArmWrite
  with_reducible repeat' (first | assumption | refine Keeps.ite (fun _ => ?_) (fun _ => ?_) | apply rflag_keeps | apply rset_keeps | apply arm_keeps)

theorem trcDisarmWrite_keeps {qq : List Instr} (v : Word) (s : State) (hk : Keeps qq s) :
    Keeps qq (trcDisarmWrite v s) := by
  unfold trcDisarmWrite
  with_reducible repeat' (first | assumption | refine Keeps.ite (fun _ => ?_) (fun _ => ?_) | apply disarm_keeps | apply rset_keeps)

theorem trcRpWrite_keeps {qq : List Instr} (v : Word) (s : State) (hk : Keeps qq s) :
    Keeps qq (trcRpWrite v s) := by
  unfold trcRpWrite
  with_reducible repeat' (first | assumption | apply rset_keeps | fail_if_no_progress (refine Keeps.upd ?_ rfl rfl rfl rfl rfl rfl rfl rfl rfl)
                                | split | dsimp only)

theorem setLnkSt_keeps {qq : List Instr} (n st : Nat) (y0 : State) (hk : Keeps qq y0) :
    Keeps qq (setLnkSt n st y0) := by
  unfold setLnkSt
  with_reducible repeat' (first | assumption | apply rput_keeps)

theorem setTopo_keeps {qq : List Instr} (es : List GLink) (s : State) (hk : Keeps qq s) :
    Keeps qq (setTopo es s) := by
  unfold setTopo
  with_reducible repeat' (first | assumption | apply setBound_keeps | fail_if_no_progress (refine Keeps.upd ?_ rfl rfl rfl rfl rfl rfl rfl rfl rfl))

theorem linkAdded_keeps {qq : List Instr} (e : GLink) (s : State) (hk : Keeps qq s) :
    Keeps qq (linkAdded e s) := by
  unfold linkAdded
  with_reducible repeat' (first | assumption | refine Keeps.ite (fun _ => ?_) (fun _ => ?_)
                                | fail_if_no_progress (refine Keeps.upd ?_ rfl rfl rfl rfl rfl rfl rfl rfl rfl))

theorem linkGone_keeps {qq : List Instr} (d n : Nat) (s : State) (hk : Keeps qq s) :
    Keeps qq (linkGone d n s).1 := by
  unfold linkGone
  with_reducible repeat' (first | assumption | apply setTopo_keeps | apply rflag_keeps | apply lockRec_keeps
                                | fail_if_no_progress (refine Keeps.upd ?_ rfl rfl rfl rfl rfl rfl rfl rfl rfl) | split | dsimp only)

theorem heldFenced_keeps {qq : List Instr} (n : Nat) (s : State) (hk : Keeps qq s) :
    Keeps qq (heldFenced n s) := by
  unfold heldFenced
  with_reducible repeat' (first | assumption | apply rcount_keeps | fail_if_no_progress (refine Keeps.upd ?_ rfl rfl rfl rfl rfl rfl rfl rfl rfl))

theorem lnkToDown_keeps {qq : List Instr} (n fail : Nat) (s : State) (hk : Keeps qq s) :
    Keeps qq (lnkToDown n fail s) := by
  unfold lnkToDown
  with_reducible repeat' (first | assumption | refine Keeps.ite (fun _ => ?_) (fun _ => ?_) | apply setLnkSt_keeps | apply rput_keeps
                                | apply setLnk_keeps | apply heldFenced_keeps)

theorem lnkDrop_keeps {qq : List Instr} (n fail : Nat) (report : Bool) (s : State) (hk : Keeps qq s) :
    Keeps qq (lnkDrop n fail report s).1 := by
  unfold lnkDrop
  with_reducible repeat' (first | assumption | apply lnkToDown_keeps | apply rflag_keeps | apply linkGone_keeps | apply ringSendAll_keeps | split
                                | dsimp only)

theorem lnkLeavesUp_keeps {qq : List Instr} (n fail : Nat) (report : Bool) (s : State) (hk : Keeps qq s) :
    Keeps qq (lnkLeavesUp n fail report s) := by
  unfold lnkLeavesUp
  with_reducible repeat' (first | assumption | apply lnkDrop_keeps | apply settlePause_keeps | apply raiseAll_keeps)

theorem linkDown_keeps {qq : List Instr} (n fail : Nat) (s : State) (hk : Keeps qq s) :
    Keeps qq (linkDown n fail s) := by
  unfold linkDown
  with_reducible repeat' (first | assumption | refine Keeps.ite (fun _ => ?_) (fun _ => ?_) | apply lnkLeavesUp_keeps)

theorem lnkDetect_keeps {qq : List Instr} (n : Nat) (s : State) (hk : Keeps qq s) :
    Keeps qq (lnkDetect n s) := by
  unfold lnkDetect
  with_reducible repeat' (first | assumption | refine Keeps.ite (fun _ => ?_) (fun _ => ?_) | apply setLnkSt_keeps)

theorem lnkCtlWrite_keeps {qq : List Instr} (n : Nat) (v : Word) (s : State) (hk : Keeps qq s) :
    Keeps qq (lnkCtlWrite n v s) := by
  unfold lnkCtlWrite
  with_reducible repeat' (first | assumption | refine Keeps.ite (fun _ => ?_) (fun _ => ?_) | apply lnkLeavesUp_keeps | apply lnkToDown_keeps
                                | apply rputb_keeps | apply rflag_keeps | apply lnkDetect_keeps | apply setLnk_keeps)

theorem lnkMove_keeps {qq : List Instr} (n st next : Nat) (s : State) (hk : Keeps qq s) :
    Keeps qq (lnkMove n st next s) := by
  unfold lnkMove
  with_reducible repeat' (first | assumption | refine Keeps.ite (fun _ => ?_) (fun _ => ?_) | apply setLnkSt_keeps)

theorem lnkFail_keeps {qq : List Instr} (n st fail : Nat) (s : State) (hk : Keeps qq s) :
    Keeps qq (lnkFail n st fail s) := by
  unfold lnkFail
  with_reducible repeat' (first | assumption | refine Keeps.ite (fun _ => ?_) (fun _ => ?_) | apply lnkToDown_keeps)

theorem lnkAligned_keeps {qq : List Instr} (n : Nat) (s : State) (hk : Keeps qq s) :
    Keeps qq (lnkAligned n s) := by
  unfold lnkAligned
  with_reducible repeat' (first | assumption | refine Keeps.ite (fun _ => ?_) (fun _ => ?_) | apply setLnk_keeps | apply setLnkSt_keeps)

theorem lnkRetry_keeps {qq : List Instr} (n : Nat) (s : State) (hk : Keeps qq s) :
    Keeps qq (lnkRetry n s) := by
  unfold lnkRetry
  with_reducible repeat' (first | assumption | refine Keeps.ite (fun _ => ?_) (fun _ => ?_) | apply lnkDetect_keeps | apply setLnk_keeps)

theorem formFail_keeps {qq : List Instr} (ferr : Nat) (s : State) (hk : Keeps qq s) :
    Keeps qq (formFail ferr s) := by
  unfold formFail
  with_reducible repeat' (first | assumption | apply rmod_keeps)

theorem linkIdent_keeps {qq : List Instr} (n dev link group : Nat) (s : State) (hk : Keeps qq s) :
    Keeps qq (linkIdent n dev link group s) := by
  unfold linkIdent
  with_reducible repeat' (first | assumption | refine Keeps.ite (fun _ => ?_) (fun _ => ?_) | apply rset_keeps | apply setLnkSt_keeps
                                | apply lnkToDown_keeps | apply formFail_keeps)

theorem linkMeasured_keeps {qq : List Instr} (n dlyPs : Nat) (s : State) (hk : Keeps qq s) :
    Keeps qq (linkMeasured n dlyPs s) := by
  unfold linkMeasured
  with_reducible repeat' (first | assumption | refine Keeps.ite (fun _ => ?_) (fun _ => ?_) | apply rput_keeps | apply lnkToDown_keeps
                                | apply setLnk_keeps | apply setLnkSt_keeps | apply ringSendAll_keeps | apply linkAdded_keeps)

theorem rxStore_keeps {qq : List Instr} (n pos : Nat) (val : BitVec 896) (ue : Bool) (s : State) (hk : Keeps qq s) :
    Keeps qq (rxStore n pos val ue s) := by
  unfold rxStore
  with_reducible repeat' (first | assumption | refine Keeps.ite (fun _ => ?_) (fun _ => ?_) | apply rflag_keeps | apply setLnk_keeps)

theorem groupReceived_keeps {qq : List Instr} (n ctl : Nat) (vals : List V4) (s : State) (hk : Keeps qq s) :
    Keeps qq (groupReceived n ctl vals s) := by
  unfold groupReceived
  with_reducible repeat' (first | assumption | refine Keeps.ite (fun _ => ?_) (fun _ => ?_) | apply rxStore_keeps)

theorem rxDamaged_keeps {qq : List Instr} (n pos : Nat) (s : State) (hk : Keeps qq s) :
    Keeps qq (rxDamaged n pos s) := by
  unfold rxDamaged
  with_reducible repeat' (first | assumption | refine Keeps.ite (fun _ => ?_) (fun _ => ?_) | apply rxStore_keeps)

theorem ackSend_keeps {qq : List Instr} (n : Nat) (neg : Bool) (next : Nat) (s : State) (hk : Keeps qq s) :
    Keeps qq (ackSend n neg next s) := by
  unfold ackSend
  with_reducible repeat' (first | assumption | apply setLnk_keeps | fail_if_no_progress (refine Keeps.upd ?_ rfl rfl rfl rfl rfl rfl rfl rfl rfl))

theorem codewordReceived_keeps {qq : List Instr} (n : Nat) (c : Codeword) (s : State) (hk : Keeps qq s) :
    Keeps qq (codewordReceived n c s) := by
  unfold codewordReceived
  with_reducible repeat' (first | assumption | refine Keeps.ite (fun _ => ?_) (fun _ => ?_) | refine Keeps.fold ?_ (fun _ _ _ => ?_)
                                | refine Keeps.fold1 ?_ (fun _ _ _ => ?_) | apply rflag_keeps | apply rcount_keeps | apply setLnk_keeps
                                | apply raiseAll_keeps | apply settlePause_keeps | apply lnkToDown_keeps | apply lnkDrop_keeps
                                | apply rxDamaged_keeps | apply ackSend_keeps
                                | fail_if_no_progress (refine Keeps.upd ?_ rfl rfl rfl rfl rfl rfl rfl rfl rfl) | split | dsimp only | intro _)

theorem markerFault_keeps {qq : List Instr} (n kind code f : Nat) (s : State) (hk : Keeps qq s) :
    Keeps qq (markerFault n kind code f s) := by
  unfold markerFault
  with_reducible repeat' (first | assumption | apply raiseIn_keeps | apply rflag_keeps | apply lockRec_keeps)

theorem popMark_keeps {qq : List Instr} (n : Nat) (s : State) (hk : Keeps qq s) :
    Keeps qq (popMark n s) := by
  unfold popMark
  with_reducible repeat' (first | assumption | apply settlePause_keeps | apply setLnk_keeps)

theorem markerReceived_keeps {qq : List Instr} (n fLo : Nat) (taint early : Bool) (s : State) (hk : Keeps qq s) :
    Keeps qq (markerReceived n fLo taint early s) := by
  unfold markerReceived
  with_reducible repeat' (first | assumption | apply taintFrame_keeps | apply markerFault_keeps | apply setLnk_keeps | apply popMark_keeps
                                | fail_if_no_progress (refine Keeps.upd ?_ rfl rfl rfl rfl rfl rfl rfl rfl rfl) | split | dsimp only)

theorem markerWindowClose_keeps {qq : List Instr} (n : Nat) (s : State) (hk : Keeps qq s) :
    Keeps qq (markerWindowClose n s) := by
  unfold markerWindowClose
  with_reducible repeat' (first | assumption | apply markerFault_keeps | apply popMark_keeps | split)

theorem flitsSend_keeps {qq : List Instr} (n : Nat) (b : Barge) (s : State) (hk : Keeps qq s) :
    Keeps qq (flitsSend n b s) := by
  unfold flitsSend
  with_reducible repeat' (first | assumption | apply setLnk_keeps)

theorem flitReceived_keeps {qq : List Instr} (n seq : Nat) (crcOk : Bool) (s : State) (hk : Keeps qq s) :
    Keeps qq (flitReceived n seq crcOk s) := by
  unfold flitReceived
  with_reducible repeat' (first | assumption | refine Keeps.ite (fun _ => ?_) (fun _ => ?_) | apply setLnk_keeps | apply ackSend_keeps
                                | fail_if_no_progress (refine Keeps.upd ?_ rfl rfl rfl rfl rfl rfl rfl rfl rfl) | split | dsimp only)

theorem ackReceived_keeps {qq : List Instr} (n : Nat) (nak : Bool) (seq : Nat) (s : State) (hk : Keeps qq s) :
    Keeps qq (ackReceived n nak seq s) := by
  unfold ackReceived
  with_reducible repeat' (first | assumption | apply setLnk_keeps | apply rcount_keeps | apply lnkLeavesUp_keeps | split | dsimp only)

theorem lateVote_keeps {qq : List Instr} (src : Nat) (s : State) (hk : Keeps qq s) :
    Keeps qq (lateVote src s) := by
  unfold lateVote
  with_reducible repeat' (first | assumption | apply rflag_keeps | apply raise_keeps | apply lockRec_keeps
                                | fail_if_no_progress (refine Keeps.upd ?_ rfl rfl rfl rfl rfl rfl rfl rfl rfl))

theorem haltVote_keeps {qq : List Instr} (e0 src : Nat) (s : State) (hk : Keeps qq s) :
    Keeps qq (haltVote e0 src s) := by
  unfold haltVote
  with_reducible repeat' (first | assumption | refine Keeps.ite (fun _ => ?_) (fun _ => ?_) | apply lateVote_keeps | apply placeHalt_keeps
                                | apply beginLock_keeps)

theorem clockLossVote_keeps {qq : List Instr} (src f : Nat) (s : State) (hk : Keeps qq s) :
    Keeps qq (clockLossVote src f s) := by
  unfold clockLossVote
  with_reducible repeat' (first | assumption | refine Keeps.ite (fun _ => ?_) (fun _ => ?_) | apply addEvent_keeps | apply clockLossHalt_keeps
                                | fail_if_no_progress (refine Keeps.upd ?_ rfl rfl rfl rfl rfl rfl rfl rfl rfl))

theorem throttleVoted_keeps {qq : List Instr} (e v src : Nat) (s : State) (hk : Keeps qq s) :
    Keeps qq (throttleVoted e v src s) := by
  unfold throttleVoted
  with_reducible repeat' (first | assumption | refine Keeps.ite (fun _ => ?_) (fun _ => ?_) | apply lateVote_keeps
                                | fail_if_no_progress (refine Keeps.upd ?_ rfl rfl rfl rfl rfl rfl rfl rfl rfl))

theorem expressAct_keeps {qq : List Instr} (kind src arg : Nat) (s : State) (hk : Keeps qq s) :
    Keeps qq (expressAct kind src arg s) := by
  unfold expressAct
  with_reducible repeat' (first | assumption | apply lateVote_keeps | apply addEvent_keeps | apply throttleVoted_keeps | apply haltVote_keeps
                                | apply clockLossVote_keeps | apply taintFrame_keeps
                                | fail_if_no_progress (refine Keeps.upd ?_ rfl rfl rfl rfl rfl rfl rfl rfl rfl) | split | dsimp only)

theorem seqNote_keeps {qq : List Instr} (src seq : Nat) (s : State) (hk : Keeps qq s) :
    Keeps qq (seqNote src seq s) := by
  unfold seqNote
  with_reducible repeat' (first | assumption | refine Keeps.ite (fun _ => ?_) (fun _ => ?_)
                                | fail_if_no_progress (refine Keeps.upd ?_ rfl rfl rfl rfl rfl rfl rfl rfl rfl) | split | dsimp only)

theorem expressNote_keeps {qq : List Instr} (n kind src seq arg : Nat) (s : State) (hk : Keeps qq s) :
    Keeps qq (expressNote n kind src seq arg s) :=
  (seqNote_keeps src seq s hk).same _ rfl rfl rfl rfl rfl rfl rfl rfl rfl

theorem expressReceived_keeps {qq : List Instr} (n kind src seq arg : Nat) (ok : Bool) (s : State) (hk : Keeps qq s) :
    Keeps qq (expressReceived n kind src seq arg ok s) := by
  unfold expressReceived
  with_reducible repeat' (first | assumption | refine Keeps.ite (fun _ => ?_) (fun _ => ?_) | apply rflag_keeps | apply rcount_keeps
                                | apply raise_keeps | apply expressAct_keeps | apply seqNote_keeps | apply expressNote_keeps | split)

theorem lkgCfgWrite_keeps {qq : List Instr} (v : Word) (s : State) (hk : Keeps qq s) :
    Keeps qq (lkgCfgWrite v s) := by
  unfold lkgCfgWrite
  with_reducible repeat' (first | assumption | refine Keeps.ite (fun _ => ?_) (fun _ => ?_) | apply rset_keeps | apply rmod_keeps
                                | apply rflag_keeps | apply rput_keeps
                                | fail_if_no_progress (refine Keeps.upd ?_ rfl rfl rfl rfl rfl rfl rfl rfl rfl))

theorem formComplete_keeps {qq : List Instr} (ferr : Nat) (links : List GLink) (s : State) (hk : Keeps qq s) :
    Keeps qq (formComplete ferr links s) := by
  unfold formComplete
  with_reducible repeat' (first | assumption | apply formFail_keeps | apply rmod_keeps | apply setTopo_keeps | apply throttleVote_keeps
                                | fail_if_no_progress (refine Keeps.upd ?_ rfl rfl rfl rfl rfl rfl rfl rfl rfl) | split | dsimp only)

theorem formTimeout_keeps {qq : List Instr} (s : State) (hk : Keeps qq s) :
    Keeps qq (formTimeout s) := by
  unfold formTimeout
  with_reducible repeat' (first | assumption | refine Keeps.ite (fun _ => ?_) (fun _ => ?_) | apply formFail_keeps)

theorem lkgTableWrite_keeps {qq : List Instr} (off : Nat) (v : Word) (s : State) (hk : Keeps qq s) :
    Keeps qq (lkgTableWrite off v s) := by
  unfold lkgTableWrite
  with_reducible repeat' (first | assumption | refine Keeps.ite (fun _ => ?_) (fun _ => ?_) | apply rset_keeps | apply rflag_keeps)

theorem ringTrain_keeps {qq : List Instr} (p : Nat) (up : Bool) (s : State) (hk : Keeps qq s) :
    Keeps qq (ringTrain p up s) := by
  unfold ringTrain
  with_reducible repeat' (first | assumption | refine Keeps.ite (fun _ => ?_) (fun _ => ?_) | apply rputb_keeps)

theorem ringRetrain_keeps {qq : List Instr} (port : Nat) (up : Bool) (lost : Nat) (s : State) (hk : Keeps qq s) :
    Keeps qq (ringRetrain port up lost s) := by
  unfold ringRetrain
  with_reducible repeat' (first | assumption | apply rflag_keeps | apply ringTrain_keeps
                                | fail_if_no_progress (refine Keeps.upd ?_ rfl rfl rfl rfl rfl rfl rfl rfl rfl) | split)

theorem lkgModeWrite_keeps {qq : List Instr} (v : Word) (s : State) (hk : Keeps qq s) :
    Keeps qq (lkgModeWrite v s) := by
  unfold lkgModeWrite
  with_reducible repeat' (first | assumption | refine Keeps.ite (fun _ => ?_) (fun _ => ?_) | apply ringSendAll_keeps | apply rset_keeps
                                | apply rflag_keeps)

end Sys2Proof.Machine
end

