-- ==== Sys2Proof/Laws/KeepHost.lean ====
section
/-!
SUPPORT. What every operation keeps (Laws/Keep.lean): the rings in host memory, the exchange unit, the gauge, the steps, replies.
-/
namespace Sys2Proof.Machine

theorem rises_hostPut {m : List (Nat × Byte)} (a : Nat) (bs : List Byte) (hm : rises (fun _ => 0#8) 0 m) :
    rises (fun _ => 0#8) 0 (hostPut.go m a bs) := by
  induction bs generalizing m a with
  | nil => exact hm
  | cons b t ih => exact ih _ (rises_mset _ _ hm)

theorem hostPut_keeps {qq : List Instr} (a : Nat) (bs : List Byte) (s : State) (hk : Keeps qq s) : Keeps qq (hostPut a bs s) :=
  ⟨hk.queue, rises_hostPut _ _ hk.mem, hk.hold, hk.dmc, hk.regs, hk.fab, hk.bas, hk.slu, hk.lnk⟩

theorem ringPush_keeps {qq : List Instr} (r : RingRegs) (size vec : Nat) (bs : List Byte) (s : State) (hk : Keeps qq s) :
    Keeps qq (ringPush r size vec bs s) := by
  unfold ringPush
  with_reducible repeat' (first | assumption | apply signal_keeps | apply rmod_keeps | apply hostPut_keeps)

theorem ringLoWrite_keeps {qq : List Instr} (r : RingRegs) (lmin lmax : Nat) (v : Word) (s : State) (hk : Keeps qq s) :
    ∀ u, ringLoWrite r lmin lmax v s = some u → Keeps qq u := by
  intro u hu
  unfold ringLoWrite at hu
  dsimp only at hu
  split at hu
  · cases hu
  · injection hu with hu
    subst hu
    exact Keeps.ite (fun _ => rset_keeps _ _ _ (rset_keeps _ _ _ (rset_keeps _ _ _ hk))) (fun _ => rset_keeps _ _ _ hk)

theorem ringHiWrite_keeps {qq : List Instr} (r : RingRegs) (v : Word) (s : State) (hk : Keeps qq s) :
    Keeps qq (ringHiWrite r v s) := by
  unfold ringHiWrite
  with_reducible repeat' (first | assumption | refine Keeps.ite (fun _ => ?_) (fun _ => ?_) | apply rset_keeps)

theorem ringIdxWrite_keeps {qq : List Instr} (r : RingRegs) (producer : Bool) (v : Word) (s : State) (hk : Keeps qq s) :
    ∀ u, ringIdxWrite r producer v s = some u → Keeps qq u := by
  intro u hu
  unfold ringIdxWrite at hu
  rw [Option.ite_none_right_eq_some] at hu
  injection hu.2 with hu
  subst hu
  exact rset_keeps _ _ _ hk

theorem markHwm_keeps {qq : List Instr} (j : Nat) (s : State) (hk : Keeps qq s) :
    Keeps qq (markHwm j s) := by
  unfold markHwm
  with_reducible repeat' (first | assumption | refine Keeps.ite (fun _ => ?_) (fun _ => ?_) | apply rput_keeps)

theorem discardFragment_keeps {qq : List Instr} (f : Fragment) (part : Nat) (s : State) (hk : Keeps qq s) :
    Keeps qq (discardFragment f part s) := by
  unfold discardFragment
  with_reducible repeat' (first | assumption | refine Keeps.ite (fun _ => ?_) (fun _ => ?_) | apply rflag_keeps | apply rcount_keeps
                                | apply rset_keeps | apply raiseIn_keeps
                                | fail_if_no_progress (refine Keeps.upd ?_ rfl rfl rfl rfl rfl rfl rfl rfl rfl))

theorem voidArrived_keeps {qq : List Instr} (frame pass : Nat) (s : State) (hk : Keeps qq s) :
    Keeps qq (voidArrived frame pass s) := by
  unfold voidArrived
  with_reducible repeat' (first | assumption | refine Keeps.ite (fun _ => ?_) (fun _ => ?_) | apply closeCalls_keeps | split | intro _)

theorem fragmentArrival_keeps {qq : List Instr} (s : State) (hk : Keeps qq s) :
    Keeps qq (fragmentArrival s) := by
  unfold fragmentArrival
  with_reducible repeat' (first | assumption | refine Keeps.ite (fun _ => ?_) (fun _ => ?_) | apply rflag_keeps | apply putEntry_keeps
                                | apply raiseIn_keeps | apply horizonStall_keeps | apply markHwm_keeps | apply discardFragment_keeps
                                | apply voidArrived_keeps | fail_if_no_progress (refine Keeps.upd ?_ rfl rfl rfl rfl rfl rfl rfl rfl rfl) | split
                                | dsimp only)

theorem closePoint_keeps {qq : List Instr} (f : Nat) (s : State) (hk : Keeps qq s) :
    Keeps qq (closePoint f s) := by
  unfold closePoint
  with_reducible repeat' (first | assumption | refine Keeps.ite (fun _ => ?_) (fun _ => ?_) | apply closeCalls_keeps)

theorem dispatched_keeps {qq : List Instr} (f : Nat) (e : XEntry) (s : State) (hk : Keeps qq s) :
    Keeps qq (dispatched f e s) := by
  unfold dispatched
  with_reducible repeat' (first | assumption | refine Keeps.ite (fun _ => ?_) (fun _ => ?_) | apply setFlow_keeps | apply putEntry_keeps
                                | apply dropEntry_keeps | fail_if_no_progress (refine Keeps.upd ?_ rfl rfl rfl rfl rfl rfl rfl rfl rfl))

theorem dispatch_keeps {qq : List Instr} (g r f : Nat) (e : XEntry) (s : State) (hk : Keeps qq s) :
    Keeps qq (dispatch g r f e s) := by
  unfold dispatch
  with_reducible repeat' (first | assumption | apply ringPush_keeps | apply dispatched_keeps | apply promote_keeps
                                | fail_if_no_progress (refine Keeps.upd ?_ rfl rfl rfl rfl rfl rfl rfl rfl rfl))

theorem nextGroup_keeps {qq : List Instr} (s : State) (hk : Keeps qq s) :
    Keeps qq (nextGroup s) := by
  unfold nextGroup
  with_reducible repeat' (first | assumption | fail_if_no_progress (refine Keeps.upd ?_ rfl rfl rfl rfl rfl rfl rfl rfl rfl))

theorem setDeficit_keeps {qq : List Instr} (g n : Nat) (s : State) (hk : Keeps qq s) :
    Keeps qq (setDeficit g n s) := by
  unfold setDeficit
  with_reducible repeat' (first | assumption | fail_if_no_progress (refine Keeps.upd ?_ rfl rfl rfl rfl rfl rfl rfl rfl rfl))

theorem deliver_keeps {qq : List Instr} (y0 : Nat) (y1 : State) (hk : Keeps qq y1) :
    Keeps qq (deliver y0 y1) := by
  induction y0 generalizing y1 with
  | zero => exact hk
  | succ k ih =>
    unfold deliver
    with_reducible repeat' (first | assumption | apply ih | apply nextGroup_keeps | apply setDeficit_keeps | apply dispatch_keeps
                                  | fail_if_no_progress (refine Keeps.upd ?_ rfl rfl rfl rfl rfl rfl rfl rfl rfl) | split | dsimp only)

theorem noticeWrite_keeps {qq : List Instr} (s : State) (hk : Keeps qq s) : ∀ u, noticeWrite s = some u → Keeps qq u := by
  intro u hu
  unfold noticeWrite at hu
  split at hu
  · dsimp only at hu
    split at hu
    · injection hu with hu
      subst hu
      exact (ringPush_keeps _ _ _ _ _ hk).same _ rfl rfl rfl rfl rfl rfl rfl rfl rfl
    · cases hu
  · cases hu

theorem deliveryWrite_keeps {qq : List Instr} (s : State) (hk : Keeps qq s) : Keeps qq (deliveryWrite s) := by
  unfold deliveryWrite
  refine Keeps.ite (fun _ => hk) (fun _ => ?_)
  split
  · exact noticeWrite_keeps s hk _ ‹_›
  · exact deliver_keeps _ _ hk

theorem lossWrite_keeps {qq : List Instr} (s : State) (hk : Keeps qq s) :
    Keeps qq (lossWrite s) := by
  unfold lossWrite
  with_reducible repeat' (first | assumption | apply ringPush_keeps
                                | fail_if_no_progress (refine Keeps.upd ?_ rfl rfl rfl rfl rfl rfl rfl rfl rfl) | split | dsimp only)

theorem returnRead_keeps {qq : List Instr} (err : Bool) (s : State) (hk : Keeps qq s) :
    Keeps qq (returnRead err s) := by
  unfold returnRead
  with_reducible repeat' (first | assumption | apply rflag_keeps | apply rputb_keeps | apply rmod_keeps | apply supersede_keeps
                                | apply putEntry_keeps | split | dsimp only)

theorem wXchDone_keeps {qq : List Instr} (v : Word) (s : State) (hk : Keeps qq s) :
    Keeps qq (wXchDone v s) := by
  unfold wXchDone
  with_reducible repeat' (first | assumption | refine Keeps.ite (fun _ => ?_) (fun _ => ?_) | apply setFlow_keeps | apply rflag_keeps)

theorem wXchRingLo_keeps {qq : List Instr} (r : Nat) (v : Word) (s : State) (hk : Keeps qq s) : Keeps qq (wXchRingLo r v s) :=
  Keeps.getD (ringLoWrite_keeps _ _ _ _ _ hk) (hk)

theorem wXchRingCi_keeps {qq : List Instr} (r : Nat) (v : Word) (s : State) (hk : Keeps qq s) : Keeps qq (wXchRingCi r v s) :=
  Keeps.getD (ringIdxWrite_keeps _ _ _ _ hk) (hk)

theorem wXchRetLo_keeps {qq : List Instr} (v : Word) (s : State) (hk : Keeps qq s) : Keeps qq (wXchRetLo  v s) :=
  Keeps.getD (ringLoWrite_keeps _ _ _ _ _ hk) (hk)

theorem wXchRetPi_keeps {qq : List Instr} (v : Word) (s : State) (hk : Keeps qq s) : Keeps qq (wXchRetPi  v s) :=
  Keeps.getD (ringIdxWrite_keeps _ _ _ _ hk) (hk)

theorem returnDeadline_keeps {qq : List Instr} (s : State) (hk : Keeps qq s) :
    Keeps qq (returnDeadline s).1 := by
  unfold returnDeadline
  with_reducible repeat' (first | assumption | apply rflag_keeps | apply leaveReturn_keeps | apply putEntry_keeps
                                | refine Keeps.fold ?_ (fun _ _ _ => ?_)
                                | fail_if_no_progress (refine Keeps.upd ?_ rfl rfl rfl rfl rfl rfl rfl rfl rfl) | split)

theorem returnWindow_keeps {qq : List Instr} (k : Nat) (s : State) (hk : Keeps qq s) :
    Keeps qq (returnWindow k s) := by
  unfold returnWindow
  with_reducible repeat' (first | assumption | apply setCl_keeps | apply leaveReturn_keeps | refine Keeps.fold ?_ (fun _ _ _ => ?_)
                                | fail_if_no_progress (refine Keeps.upd ?_ rfl rfl rfl rfl rfl rfl rfl rfl rfl) | split | dsimp only)

theorem returnOverrun_keeps {qq : List Instr} (s : State) (hk : Keeps qq s) :
    Keeps qq (returnOverrun s).1 := by
  unfold returnOverrun
  with_reducible repeat' (first | assumption | apply rflag_keeps | refine Keeps.ite1 (fun _ => ?_) (fun _ => ?_))

theorem zdSample_keeps {qq : List Instr} (p : PinIn) (s : State) (hk : Keeps qq s) :
    Keeps qq (zdSample p s).2 := by
  unfold zdSample
  with_reducible repeat' (first | assumption | apply takeFreeBit_keeps
                                | fail_if_no_progress (refine Keeps.upd ?_ rfl rfl rfl rfl rfl rfl rfl rfl rfl) | split)

theorem laneFirstTick_keeps {qq : List Instr} (hs : List Happening) (s0 : State) (n : Nat) (s : State) (hk : Keeps qq s) :
    Keeps qq (laneFirstTick hs s0 n s) := by
  have hz : ∀ o : Option PinIn, Keeps qq (match o with | some z => zdSample z s | none => (false, s)).2 := by
    intro o
    cases o
    · exact hk
    · exact zdSample_keeps _ _ hk
  unfold laneFirstTick
  dsimp only
  split
  · exact setLane_keeps _ _ _ hk
  · have h2 := hz ((laneZd s0 n).map (zdAt hs))
    cases hl : laneZd s0 n <;> rw [hl] at h2 <;> dsimp only [Option.map] at h2 ⊢
    all_goals
      split
      · exact setLane_keeps _ _ _ h2
      · exact setLane_keeps _ _ _ (takeFreeBit_keeps _ h2)

theorem gaugeFirstTick_keeps {qq : List Instr} (hs : List Happening) (s0 : State) (s : State) (hk : Keeps qq s) :
    Keeps qq (gaugeFirstTick hs s0 s) := by
  unfold gaugeFirstTick
  with_reducible repeat' (first | assumption | refine Keeps.ite (fun _ => ?_) (fun _ => ?_) | refine Keeps.fold ?_ (fun _ _ _ => ?_)
                                | refine Keeps.fold1 ?_ (fun _ _ _ => ?_) | apply laneFirstTick_keeps
                                | fail_if_no_progress (refine Keeps.upd ?_ rfl rfl rfl rfl rfl rfl rfl rfl rfl) | split | dsimp only | intro _)

theorem laneDrive_keeps {qq : List Instr} (s0 : State) (n : Nat) (s : State) (hk : Keeps qq s) :
    Keeps qq (laneDrive s0 n s) := by
  unfold laneDrive
  with_reducible repeat' (first | assumption | apply setLane_keeps | split)

theorem gaugeCompare_keeps {qq : List Instr} (s0 : State) (f : Nat) (s : State) (hk : Keeps qq s) :
    Keeps qq (gaugeCompare s0 f s) := by
  unfold gaugeCompare
  with_reducible repeat' (first | assumption | apply pushFail_keeps | apply storeLoss_keeps | refine Keeps.fold ?_ (fun _ _ _ => ?_)
                                | fail_if_no_progress (refine Keeps.upd ?_ rfl rfl rfl rfl rfl rfl rfl rfl rfl) | split)

theorem releaseDue_keeps {qq : List Instr} (f : Nat) (s : State) (hk : Keeps qq s) :
    Keeps qq (releaseDue f s) := by
  unfold releaseDue
  with_reducible repeat' (first | assumption | apply releaseVerdict_keeps | refine Keeps.fold ?_ (fun _ _ _ => ?_)
                                | fail_if_no_progress (refine Keeps.upd ?_ rfl rfl rfl rfl rfl rfl rfl rfl rfl))

theorem gaugeSecondTick_keeps {qq : List Instr} (s0 : State) (f : Nat) (s : State) (hk : Keeps qq s) :
    Keeps qq (gaugeSecondTick s0 f s) := by
  unfold gaugeSecondTick
  with_reducible repeat' (first | assumption | refine Keeps.ite (fun _ => ?_) (fun _ => ?_) | apply laneDrive_keeps | apply releaseDue_keeps
                                | apply gaugeCompare_keeps | refine Keeps.fold ?_ (fun _ _ _ => ?_)
                                | fail_if_no_progress (refine Keeps.upd ?_ rfl rfl rfl rfl rfl rfl rfl rfl rfl))

theorem failRecordWrite_keeps {qq : List Instr} (s : State) (hk : Keeps qq s) :
    Keeps qq (failRecordWrite s) := by
  unfold failRecordWrite
  with_reducible repeat' (first | assumption | apply ringPush_keeps | apply storeLoss_keeps
                                | fail_if_no_progress (refine Keeps.upd ?_ rfl rfl rfl rfl rfl rfl rfl rfl rfl) | split)

theorem edgeCapture_keeps {qq : List Instr} (i : Nat) (rising : Bool) (sub : Nat) (s : State) (hk : Keeps qq s) :
    Keeps qq (edgeCapture i rising sub s) := by
  unfold edgeCapture
  with_reducible repeat' (first | assumption | refine Keeps.ite (fun _ => ?_) (fun _ => ?_) | apply rflag_keeps | apply rcount_keeps
                                | apply gauInt_keeps | fail_if_no_progress (refine Keeps.upd ?_ rfl rfl rfl rfl rfl rfl rfl rfl rfl) | split
                                | dsimp only)

theorem edgeRecordWrite_keeps {qq : List Instr} (s : State) (hk : Keeps qq s) :
    Keeps qq (edgeRecordWrite s) := by
  unfold edgeRecordWrite
  with_reducible repeat' (first | assumption | apply ringPush_keeps
                                | fail_if_no_progress (refine Keeps.upd ?_ rfl rfl rfl rfl rfl rfl rfl rfl rfl) | split)

theorem wGauLane_keeps {qq : List Instr} (n : Nat) (v : Word) (s : State) (hk : Keeps qq s) :
    Keeps qq (wGauLane n v s) := by
  unfold wGauLane
  with_reducible repeat' (first | assumption | refine Keeps.ite (fun _ => ?_) (fun _ => ?_) | apply rset_keeps | apply rflag_keeps)

theorem wGauZdmap_keeps {qq : List Instr} (z : Nat) (v : Word) (s : State) (hk : Keeps qq s) :
    Keeps qq (wGauZdmap z v s) := by
  unfold wGauZdmap
  with_reducible repeat' (first | assumption | apply rflag_keeps | apply rset_keeps | split | dsimp only)

theorem wGauRingLo_keeps {qq : List Instr} (r : Nat) (v : Word) (s : State) (hk : Keeps qq s) : Keeps qq (wGauRingLo r v s) :=
  Keeps.getD (ringLoWrite_keeps _ _ _ _ _ hk) (rflag_keeps _ _ _ hk)

theorem wGauRingCi_keeps {qq : List Instr} (r : Nat) (v : Word) (s : State) (hk : Keeps qq s) : Keeps qq (wGauRingCi r v s) :=
  Keeps.getD (ringIdxWrite_keeps _ _ _ _ hk) (rflag_keeps _ _ _ hk)

theorem advancePos_keeps {qq : List Instr} (rs : List Report) (s : State) (hk : Keeps qq s) :
    Keeps qq (advancePos rs s) := by
  unfold advancePos
  with_reducible repeat' (first | assumption | apply raiseFirst_keeps | apply bumpGsc_keeps | apply raiseLast_keeps
                                | fail_if_no_progress (refine Keeps.upd ?_ rfl rfl rfl rfl rfl rfl rfl rfl rfl))

theorem evalBody_keeps {qq : List Instr} (hs : List Happening) (s : State) (hk : Keeps qq s) :
    Keeps qq (evalBody hs s) := by
  unfold evalBody
  with_reducible repeat' (first | assumption | apply strikes_keeps | apply andThen_keeps | apply memPorts_keeps | apply reachStep_keeps
                                | apply fabricStep_keeps | apply advancePos_keeps | apply dacScan_keeps | apply prechecks_keeps)

theorem evaluationStep_keeps {qq : List Instr} (hs : List Happening) (s : State) (hk : Keeps qq s) :
    Keeps qq (evaluationStep hs s) := by
  unfold evaluationStep
  with_reducible repeat' (first | assumption | apply seqStep_keeps | apply evalBody_keeps)

theorem commitCluster_keeps {qq : List Instr} (s0 : State) (cl : Nat) (s : State) (hk : Keeps qq s) :
    Keeps qq (commitCluster s0 cl s) := by
  unfold commitCluster
  with_reducible repeat' (first | assumption | apply setCl_keeps)

theorem commitAll_keeps {qq : List Instr} (s0 : State) (s : State) (hk : Keeps qq s) :
    Keeps qq (commitAll s0 s) := by
  unfold commitAll
  with_reducible repeat' (first | assumption | apply commitCluster_keeps | refine Keeps.fold ?_ (fun _ _ _ => ?_))

theorem slipCheck_keeps {qq : List Instr} (s0 : State) (hs : List Happening) (s : State) (hk : Keeps qq s) :
    Keeps qq (slipCheck s0 hs s).1 := by
  unfold slipCheck
  with_reducible repeat' (first | assumption | refine Keeps.ite (fun _ => ?_) (fun _ => ?_) | apply rflag_keeps)

theorem firstBody_keeps {qq : List Instr} (hs : List Happening) (s : State) (hk : Keeps qq s) :
    Keeps qq (firstBody hs s) := by
  unfold firstBody
  with_reducible repeat' (first | assumption | apply strikes_keeps | apply andThen_keeps | apply memPorts_keeps | apply reachStep_keeps
                                | apply commitAll_keeps | apply traceFirstTick_keeps | apply dacScan_keeps | apply gaugeFirstTick_keeps
                                | apply scrubs_keeps | apply slipCheck_keeps | apply clearExports_keeps | apply advancePos_keeps
                                | apply prechecks_keeps)

theorem firstTickStep_keeps {qq : List Instr} (hs : List Happening) (s : State) (hk : Keeps qq s) :
    Keeps qq (firstTickStep hs s) := by
  unfold firstTickStep
  with_reducible repeat' (first | assumption | apply seqStep_keeps | apply firstBody_keeps)

theorem sendMarker_keeps {qq : List Instr} (f : Nat) (last : Bool) (n : Nat) (s : State) (hk : Keeps qq s) :
    Keeps qq (sendMarker f last n s) := by
  unfold sendMarker
  with_reducible repeat' (first | assumption | refine Keeps.ite (fun _ => ?_) (fun _ => ?_) | apply setLnk_keeps)

theorem sendMarkers_keeps {qq : List Instr} (f : Nat) (last : Bool) (s : State) (hk : Keeps qq s) :
    Keeps qq (sendMarkers f last s) := by
  unfold sendMarkers
  with_reducible repeat' (first | assumption | apply sendMarker_keeps | refine Keeps.fold ?_ (fun _ _ _ => ?_))

theorem overrunCheck_keeps {qq : List Instr} (s : State) (hk : Keeps qq s) :
    Keeps qq (overrunCheck s).1 := by
  unfold overrunCheck
  with_reducible repeat' (first | assumption | apply rput_keeps | apply seqInt_keeps | apply rflag_keeps
                                | refine Keeps.ite1 (fun _ => ?_) (fun _ => ?_))

theorem closeFrame_keeps {qq : List Instr} (f : Nat) (s : State) (hk : Keeps qq s) :
    Keeps qq (closeFrame f s) := by
  unfold closeFrame
  with_reducible repeat' (first | assumption | apply Keeps.mapFab | fail_if_no_progress (refine Keeps.upd ?_ rfl rfl rfl rfl rfl rfl rfl rfl rfl))

theorem secondActions_keeps {qq : List Instr} (s0 : State) (s : State) (hk : Keeps qq s) :
    Keeps qq (secondActions s0 s) := by
  unfold secondActions
  with_reducible repeat' (first | assumption | apply closeFrame_keeps | apply sendMarkers_keeps | apply traceSecondTick_keeps
                                | apply gaugeSecondTick_keeps)

theorem afterFrame_keeps {qq : List Instr} (ends : Bool) (acts : List (Report × Nat)) (s : State) (hk : Keeps qq s) :
    Keeps qq (afterFrame ends acts s) := by
  unfold afterFrame
  with_reducible repeat' (first | assumption | refine Keeps.ite (fun _ => ?_) (fun _ => ?_) | apply bumpGsc_keeps | apply raiseLast_keeps
                                | apply beginLock_keeps | apply carryTaint_keeps
                                | fail_if_no_progress (refine Keeps.upd ?_ rfl rfl rfl rfl rfl rfl rfl rfl rfl))

theorem secondBody_keeps {qq : List Instr} (hs : List Happening) (s : State) (hk : Keeps qq s) :
    Keeps qq (secondBody hs s) := by
  unfold secondBody
  with_reducible repeat' (first | assumption | apply strikes_keeps | apply andThen_keeps | apply overrunCheck_keeps | apply scrubs_keeps
                                | apply memPorts_keeps | apply reachStep_keeps | apply raiseFirst_keeps | apply prechecks_keeps
                                | apply dacScan_keeps | apply afterFrame_keeps | apply secondActions_keeps)

theorem secondTickStep_keeps {qq : List Instr} (hs : List Happening) (s : State) (hk : Keeps qq s) :
    Keeps qq (secondTickStep hs s) := by
  unfold secondTickStep
  with_reducible repeat' (first | assumption | apply seqStep_keeps | apply secondBody_keeps)

theorem returnWindowStep_keeps {qq : List Instr} (k : Nat) (s : State) (hk : Keeps qq s) :
    Keeps qq (returnWindowStep k s) := by
  unfold returnWindowStep
  with_reducible repeat' (first | assumption | apply dacReturn_keeps | apply returnWindow_keeps | refine Keeps.fold ?_ (fun _ _ _ => ?_))

theorem lockBody_keeps {qq : List Instr} (hs : List Happening) (s : State) (hk : Keeps qq s) :
    Keeps qq (lockBody hs s) := by
  unfold lockBody
  with_reducible repeat' (first | assumption | refine Keeps.ite (fun _ => ?_) (fun _ => ?_) | apply strikes_keeps | apply returnDeadline_keeps
                                | apply applyThrottle_keeps | apply returnWindowStep_keeps | apply andThen_keeps | apply returnOverrun_keeps
                                | apply closeRecord_keeps | apply applyConfig_keeps | apply scrubs_keeps | apply raiseFirst_keeps
                                | apply prechecks_keeps | apply bumpGsc_keeps | apply raiseLast_keeps | apply barrierDecision_keeps
                                | refine Keeps.ite1 (fun _ => ?_) (fun _ => ?_)
                                | fail_if_no_progress (refine Keeps.upd ?_ rfl rfl rfl rfl rfl rfl rfl rfl rfl))

theorem lockPhaseStep_keeps {qq : List Instr} (hs : List Happening) (s : State) (hk : Keeps qq s) :
    Keeps qq (lockPhaseStep hs s) := by
  unfold lockPhaseStep
  with_reducible repeat' (first | assumption | apply seqStep_keeps | apply lockBody_keeps)

theorem reportRelease_keeps {qq : List Instr} (s : State) (hk : Keeps qq s) :
    Keeps qq (reportRelease s) := by
  unfold reportRelease
  with_reducible repeat' (first | assumption | apply sendExpress_keeps
                                | fail_if_no_progress (refine Keeps.upd ?_ rfl rfl rfl rfl rfl rfl rfl rfl rfl))

theorem resumeStall_keeps {qq : List Instr} (s : State) (hk : Keeps qq s) :
    Keeps qq (resumeStall s) := by
  unfold resumeStall
  with_reducible repeat' (first | assumption | apply rcount_keeps | fail_if_no_progress (refine Keeps.upd ?_ rfl rfl rfl rfl rfl rfl rfl rfl rfl))

theorem stallCycle_keeps {qq : List Instr} (s : State) (hk : Keeps qq s) :
    Keeps qq (stallCycle s) := by
  unfold stallCycle
  with_reducible repeat' (first | assumption | refine Keeps.ite (fun _ => ?_) (fun _ => ?_) | apply rcount_keeps | apply bankCycles_keeps
                                | apply reportRelease_keeps | apply resumeStall_keeps
                                | fail_if_no_progress (refine Keeps.upd ?_ rfl rfl rfl rfl rfl rfl rfl rfl rfl) | split | dsimp only | intro _)

theorem stallTimeout_keeps {qq : List Instr} (s : State) (hk : Keeps qq s) :
    Keeps qq (stallTimeout s) := by
  unfold stallTimeout
  with_reducible repeat' (first | assumption | refine Keeps.ite (fun _ => ?_) (fun _ => ?_) | apply rflag_keeps | apply seqInt_keeps
                                | apply raise_keeps | apply reportRelease_keeps
                                | fail_if_no_progress (refine Keeps.upd ?_ rfl rfl rfl rfl rfl rfl rfl rfl rfl) | split | dsimp only | intro _)

theorem emptyPaths_keeps {qq : List Instr} (s : State) (hk : Keeps qq s) : Keeps qq (emptyPaths s) :=
  Keeps.mapLnk (f := fun l => { l with buf := [], rxV := 0, early := [], marks := [] })
    (Keeps.mapBas (f := fun b => { b with lanes := [], egress := [] })
      (Keeps.mapFab (f := fun c => { c with memOps := [], expo := [], staged := [], xsent := false, shd := [] }) hk))

theorem newRun_keeps {qq : List Instr} (s : State) (hk : Keeps qq s) : Keeps qq (newRun s) := by
  unfold newRun
  with_reducible
    refine Keeps.upd ?_ rfl rfl rfl rfl rfl rfl rfl rfl rfl
    refine rset_keeps _ _ _ (rset_keeps _ _ _ (rset_keeps _ _ _ (configNow_keeps _ (emptyPaths_keeps _ (runEnd_keeps _ ?_)))))
  exact (Keeps.mapSlu (f := fun u => { u with modeAt := [] }) hk).same _ rfl rfl rfl rfl rfl rfl rfl rfl rfl

theorem beginRun_keeps {qq : List Instr} (fresh : Bool) (steps : Nat) (s : State) (hk : Keeps qq s) :
    Keeps qq (beginRun fresh steps s) := by
  unfold beginRun
  with_reducible repeat' (first | assumption | refine Keeps.ite (fun _ => ?_) (fun _ => ?_) | apply newRun_keeps
                                | fail_if_no_progress (refine Keeps.upd ?_ rfl rfl rfl rfl rfl rfl rfl rfl rfl))

theorem mboxReply_keeps {qq : List Instr} (bs : List Byte) (s : State) (hk : Keeps qq s) :
    Keeps qq (mboxReply bs s) := by
  unfold mboxReply
  with_reducible repeat' (first | assumption | refine Keeps.ite (fun _ => ?_) (fun _ => ?_) | apply rset_keeps | apply rmod_keeps
                                | apply signal_keeps | refine Keeps.fold ?_ (fun _ _ _ => ?_))

theorem reply_keeps {qq : List Instr} (c : Cmd) (status r0 r1 r2 : Nat) (s : State) (hk : Keeps qq s) :
    Keeps qq (reply c status r0 r1 r2 s) := by
  unfold reply
  with_reducible repeat' (first | assumption | refine Keeps.ite (fun _ => ?_) (fun _ => ?_) | apply ringPush_keeps | apply mboxReply_keeps
                                | fail_if_no_progress (refine Keeps.upd ?_ rfl rfl rfl rfl rfl rfl rfl rfl rfl))

theorem started_keeps {qq : List Instr} (c : Cmd) (s : State) (hk : Keeps qq s) :
    Keeps qq (started c s) := by
  unfold started
  with_reducible repeat' (first | assumption | fail_if_no_progress (refine Keeps.upd ?_ rfl rfl rfl rfl rfl rfl rfl rfl rfl))

theorem accessDrop_keeps {qq : List Instr} (s : State) (hk : Keeps qq s) :
    Keeps qq (accessDrop s) := by
  unfold accessDrop
  with_reducible repeat' (first | assumption | fail_if_no_progress (refine Keeps.upd ?_ rfl rfl rfl rfl rfl rfl rfl rfl rfl))

theorem timeoutAll_keeps {qq : List Instr} (s : State) (hk : Keeps qq s) :
    Keeps qq (timeoutAll s) := by
  unfold timeoutAll
  with_reducible repeat' (first | assumption | apply accessDrop_keeps | apply reply_keeps | refine Keeps.fold ?_ (fun _ _ _ => ?_))

theorem command_keeps {qq : List Instr} (c : Cmd) (s : State) (form unit denied busy : Bool) (body : State → State) (faulted : Bool) (hk : Keeps qq s) (hbody : ∀ u, Keeps qq u → Keeps qq (body u)) :
    Keeps qq (command c s form unit denied busy body faulted) := by
  unfold command
  with_reducible repeat' (first | assumption | apply hbody | apply reply_keeps | split)

theorem reportState_keeps {qq : List Instr} (s : State) (hk : Keeps qq s) :
    Keeps qq (reportState s) := by
  unfold reportState
  with_reducible repeat' (first | assumption | refine Keeps.ite (fun _ => ?_) (fun _ => ?_) | apply ringSend_keeps
                                | fail_if_no_progress (refine Keeps.upd ?_ rfl rfl rfl rfl rfl rfl rfl rfl rfl))

end Sys2Proof.Machine
end

