-- ==== Sys2Proof/Laws/KeepImage.lean ====
section
/-!
SUPPORT. What every operation keeps (Laws/Keep.lean): the loader, the march, barges.
-/
namespace Sys2Proof.Machine

theorem recordLoad_keeps {qq : List Instr} (phase code sec : Nat) (y0 : State) (hk : Keeps qq y0) :
    Keeps qq (recordLoad phase code sec y0) := by
  unfold recordLoad
  with_reducible repeat' (first | assumption | apply rset_keeps)

theorem seqIdle_keeps {qq : List Instr} (s : State) (hk : Keeps qq s) :
    Keeps qq (seqIdle s) := by
  unfold seqIdle
  with_reducible repeat' (first | assumption | fail_if_no_progress (refine Keeps.upd ?_ rfl rfl rfl rfl rfl rfl rfl rfl rfl))

theorem unloadAll_keeps {qq : List Instr} (s : State) (hk : Keeps qq s) :
    Keeps qq (unloadAll s) := by
  unfold unloadAll
  with_reducible repeat' (first | assumption | apply rset_keeps | fail_if_no_progress (refine Keeps.upd ?_ rfl rfl rfl rfl rfl rfl rfl rfl rfl))

theorem cmdImgLoad_keeps {qq : List Instr} (c : Cmd) (s : State) (hk : Keeps qq s) :
    Keeps qq (cmdImgLoad c s) := by
  unfold cmdImgLoad
  with_reducible repeat' (first | assumption | apply command_keeps | apply rflag_keeps | apply seqIdle_keeps | apply started_keeps | intro _
                                | fail_if_no_progress (refine Keeps.upd ?_ rfl rfl rfl rfl rfl rfl rfl rfl rfl))

theorem cmdImgVerify_keeps {qq : List Instr} (c : Cmd) (s : State) (hk : Keeps qq s) :
    Keeps qq (cmdImgVerify c s) := by
  unfold cmdImgVerify
  with_reducible repeat' (first | assumption | apply command_keeps | apply started_keeps)

theorem loadFails_keeps {qq : List Instr} (l : LoadSt) (status code sec : Nat) (s : State) (hk : Keeps qq s) :
    Keeps qq (loadFails l status code sec s) := by
  unfold loadFails
  with_reducible repeat' (first | assumption | refine Keeps.ite (fun _ => ?_) (fun _ => ?_) | apply rset_keeps | apply rmod_keeps
                                | apply runEnd_keeps | apply reply_keeps | apply recordLoad_keeps | apply unloadAll_keeps
                                | fail_if_no_progress (refine Keeps.upd ?_ rfl rfl rfl rfl rfl rfl rfl rfl rfl) | split | dsimp only)

theorem applyRepair_keeps {qq : List Instr} (s : State) (cl : Nat) (hk : Keeps qq s) :
    Keeps qq (applyRepair s cl) := by
  unfold applyRepair
  with_reducible repeat' (first | assumption | refine Keeps.ite (fun _ => ?_) (fun _ => ?_) | apply rmod_keeps | apply raiseEvent_keeps
                                | apply rflag_keeps | fail_if_no_progress (refine Keeps.upd ?_ rfl rfl rfl rfl rfl rfl rfl rfl rfl) | split)

theorem applyRepairs_keeps {qq : List Instr} (s : State) (hk : Keeps qq s) :
    Keeps qq (applyRepairs s) := by
  unfold applyRepairs
  with_reducible repeat' (first | assumption | apply applyRepair_keeps | refine Keeps.fold ?_ (fun _ _ _ => ?_))

theorem gsrFabric_keeps {qq : List Instr} (s : State) (hk : Keeps qq s) :
    Keeps qq (gsrFabric s) := by
  unfold gsrFabric
  with_reducible repeat' (first | assumption | apply emptyPaths_keeps | apply Keeps.mapFab)

theorem slucesClear_keeps {qq : List Instr} (s : State) (hk : Keeps qq s) : Keeps qq (slucesClear s) :=
  ⟨hk.queue, hk.mem, hk.hold, hk.dmc, hk.regs, hk.fab, hk.bas, trivial, hk.lnk⟩

theorem slucesFree_keeps {qq : List Instr} (s : State) (hk : Keeps qq s) : Keeps qq (slucesFree s) :=
  (Keeps.mapSlu (f := fun u => { Sluice.fresh with waitMap := u.waitMap }) hk).same _ rfl rfl rfl rfl rfl rfl rfl rfl rfl

theorem lanesClear_keeps {qq : List Instr} (s : State) (hk : Keeps qq s) :
    Keeps qq (lanesClear s) := by
  unfold lanesClear
  with_reducible repeat' (first | assumption | fail_if_no_progress (refine Keeps.upd ?_ rfl rfl rfl rfl rfl rfl rfl rfl rfl))

theorem sealsClear_keeps {qq : List Instr} (s : State) (hk : Keeps qq s) :
    Keeps qq (sealsClear s) := by
  unfold sealsClear
  with_reducible repeat' (first | assumption | apply rset_keeps | apply rclear_keeps
                                | fail_if_no_progress (refine Keeps.upd ?_ rfl rfl rfl rfl rfl rfl rfl rfl rfl))

theorem writeBegins_keeps {qq : List Instr} (l : LoadSt) (pl : List Nat) (s : State) (hk : Keeps qq s) :
    Keeps qq (writeBegins l pl s) := by
  unfold writeBegins
  with_reducible repeat' (first | assumption | apply rflag_keeps | apply rset_keeps | apply unloadAll_keeps | apply xchClear_keeps
                                | apply runEnd_keeps | apply disarm_keeps | apply sealsClear_keeps | apply lanesClear_keeps
                                | apply slucesClear_keeps | apply gsrFabric_keeps | apply rclear_keeps | apply applyRepairs_keeps
                                | fail_if_no_progress (refine Keeps.upd ?_ rfl rfl rfl rfl rfl rfl rfl rfl rfl))

theorem loadCheckEnd_keeps {qq : List Instr} (s : State) (hk : Keeps qq s) :
    Keeps qq (loadCheckEnd s) := by
  unfold loadCheckEnd
  with_reducible repeat' (first | assumption | apply loadFails_keeps | apply writeBegins_keeps | split | dsimp only)

theorem verifyCheckEnd_keeps {qq : List Instr} (s : State) (hk : Keeps qq s) :
    Keeps qq (verifyCheckEnd s) := by
  unfold verifyCheckEnd
  with_reducible repeat' (first | assumption | apply reply_keeps | split | dsimp only)

theorem checkPhaseEnd_keeps {qq : List Instr} (verify : Bool) (s : State) (hk : Keeps qq s) :
    Keeps qq (checkPhaseEnd verify s) := by
  unfold checkPhaseEnd
  with_reducible repeat' (first | assumption | refine Keeps.ite (fun _ => ?_) (fun _ => ?_) | apply verifyCheckEnd_keeps | apply loadCheckEnd_keeps)

theorem writeInstr_keeps {qq : List Instr} (im : Img) (pl : List Nat) (x : Sec) (s : State) (hk : Keeps qq s) :
    Keeps qq (writeInstr im pl x s) := by
  unfold writeInstr
  with_reducible repeat' (first | assumption | apply setCl_keeps | refine Keeps.fold ?_ (fun _ _ _ => ?_))

theorem writeRoute_keeps {qq : List Instr} (im : Img) (pl : List Nat) (x : Sec) (s : State) (hk : Keeps qq s) :
    Keeps qq (writeRoute im pl x s) := by
  unfold writeRoute
  with_reducible repeat' (first | assumption | apply setCl_keeps | refine Keeps.fold ?_ (fun _ _ _ => ?_))

theorem writeBank_keeps {qq : List Instr} (pl : List Nat) (j e : Nat) (s : State) (hk : Keeps qq s) :
    Keeps qq (writeBank pl j e s) := by
  unfold writeBank
  with_reducible repeat' (first | assumption | refine Keeps.ite (fun _ => ?_) (fun _ => ?_) | apply patrolBegins_keeps | apply bankPoison_keeps
                                | apply rset_keeps)

theorem writeBankRec_keeps {qq : List Instr} (pl : List Nat) (r : InitRec) (s : State) (hk : Keeps qq s) :
    Keeps qq (writeBankRec pl r s) := by
  unfold writeBankRec
  with_reducible repeat' (first | assumption | apply dmWrite_keeps | refine Keeps.fold ?_ (fun _ _ _ => ?_))

theorem writeInitRec_keeps {qq : List Instr} (pl : List Nat) (r : InitRec) (s : State) (hk : Keeps qq s) :
    Keeps qq (writeInitRec pl r s) := by
  unfold writeInitRec
  with_reducible repeat' (first | assumption | apply setCl_keeps)

theorem writeRegion_keeps {qq : List Instr} (im : Img) (pl : List Nat) (hold : Nat) (x : Sec) (s : State) (hk : Keeps qq s) :
    Keeps qq (writeRegion im pl hold x s) := by
  unfold writeRegion
  with_reducible repeat' (first | assumption | apply rset_keeps | refine Keeps.fold ?_ (fun _ _ _ => ?_))

theorem regionsClear_keeps {qq : List Instr} (s : State) (hk : Keeps qq s) :
    Keeps qq (regionsClear s) := by
  unfold regionsClear
  with_reducible repeat' (first | assumption | apply rclear_keeps)

theorem routesClear_keeps {qq : List Instr} (pl : List Nat) (s : State) (hk : Keeps qq s) :
    Keeps qq (routesClear pl s) := by
  unfold routesClear
  with_reducible repeat' (first | assumption | apply setCl_keeps | refine Keeps.fold ?_ (fun _ _ _ => ?_))

theorem writeWaitMap_keeps {qq : List Instr} (im : Img) (pl : List Nat) (x : Sec) (s : State) (hk : Keeps qq s) :
    Keeps qq (writeWaitMap im pl x s) := by
  unfold writeWaitMap
  with_reducible repeat' (first | assumption | apply setSlu_keeps | refine Keeps.fold ?_ (fun _ _ _ => ?_))

theorem writeSeal_keeps {qq : List Instr} (im : Img) (pl : List Nat) (x : Sec) (k : Nat) (s : State) (hk : Keeps qq s) :
    Keeps qq (writeSeal im pl x k s) := by
  unfold writeSeal
  with_reducible repeat' (first | assumption | apply rflag_keeps | refine Keeps.fold ?_ (fun _ _ _ => ?_)
                                | fail_if_no_progress (refine Keeps.upd ?_ rfl rfl rfl rfl rfl rfl rfl rfl rfl))

theorem writeSec_keeps {qq : List Instr} (im : Img) (pl : List Nat) (hold : Nat) (x : Sec) (s : State) (hk : Keeps qq s) :
    Keeps qq (writeSec im pl hold x s) := by
  unfold writeSec
  with_reducible repeat' (first | assumption | apply writeInstr_keeps | apply writeRoute_keeps | apply rset_keeps | apply writeInitRec_keeps
                                | apply writeBank_keeps | apply writeBankRec_keeps | apply writeRegion_keeps | apply rput_keeps
                                | apply writeSeal_keeps | refine Keeps.fold ?_ (fun _ _ _ => ?_)
                                | fail_if_no_progress (refine Keeps.upd ?_ rfl rfl rfl rfl rfl rfl rfl rfl rfl) | split)

theorem writeSecs_keeps {qq : List Instr} (im : Img) (pl : List Nat) (hold : Nat) (stop : Option Nat) (l : List Sec) (s : State)
    (hk : Keeps qq s) : Keeps qq (writeSecs im pl hold stop l s).1 := by
  induction l generalizing s with
  | nil => exact hk
  | cons x t ih =>
    unfold writeSecs
    exact Keeps.ite1 (fun _ => hk) (fun _ => Keeps.ite1 (fun _ => hk) (fun _ => ih _ (writeSec_keeps _ _ _ _ _ hk)))

theorem writeImage_keeps {qq : List Instr} (l : LoadSt) (stop : Option Nat) (s : State) (hk : Keeps qq s) :
    Keeps qq (writeImage l stop s).1 := by
  unfold writeImage
  with_reducible repeat' (first | assumption | apply rput_keeps | apply setBas_keeps | apply writeSecs_keeps | apply routesClear_keeps
                                | apply regionsClear_keeps | apply writeWaitMap_keeps | apply setCl_keeps
                                | refine Keeps.fold ?_ (fun _ _ _ => ?_) | refine Keeps.fst ‹_› ?_ | split | dsimp only)

theorem releaseImage_keeps {qq : List Instr} (l : LoadSt) (s : State) (hk : Keeps qq s) :
    Keeps qq (releaseImage l s) := by
  unfold releaseImage
  with_reducible repeat' (first | assumption | apply rset_keeps | apply rmod_keeps | apply reportState_keeps | apply reply_keeps
                                | fail_if_no_progress (refine Keeps.upd ?_ rfl rfl rfl rfl rfl rfl rfl rfl rfl))

theorem imageRelease_keeps {qq : List Instr} (s : State) (hk : Keeps qq s) :
    Keeps qq (imageRelease s) := by
  unfold imageRelease
  with_reducible repeat' (first | assumption | apply loadFails_keeps | apply writeImage_keeps | apply releaseImage_keeps
                                | refine Keeps.fst ‹_› ?_ | split)

theorem loadReadError_keeps {qq : List Instr} (sec : Nat) (s : State) (hk : Keeps qq s) :
    Keeps qq (loadReadError sec s) := by
  unfold loadReadError
  with_reducible repeat' (first | assumption | apply loadFails_keeps | apply writeImage_keeps | split)

theorem verifyReadError_keeps {qq : List Instr} (sec : Nat) (s : State) (hk : Keeps qq s) :
    Keeps qq (verifyReadError sec s) := by
  unfold verifyReadError
  with_reducible repeat' (first | assumption | apply reply_keeps | split)

theorem loadRelockTimeout_keeps {qq : List Instr} (s : State) (hk : Keeps qq s) :
    Keeps qq (loadRelockTimeout s) := by
  unfold loadRelockTimeout
  with_reducible repeat' (first | assumption | apply loadFails_keeps | split)

theorem marchStarts_keeps {qq : List Instr} (j : MarchJob) (s : State) (hk : Keeps qq s) :
    Keeps qq (marchStarts j s) := by
  unfold marchStarts
  with_reducible repeat' (first | assumption | apply rmod_keeps | fail_if_no_progress (refine Keeps.upd ?_ rfl rfl rfl rfl rfl rfl rfl rfl rfl))

theorem cmdMarch_keeps {qq : List Instr} (c : Cmd) (s : State) (hk : Keeps qq s) :
    Keeps qq (cmdMarch c s) := by
  unfold cmdMarch
  with_reducible repeat' (first | assumption | apply command_keeps | apply marchStarts_keeps | apply started_keeps | intro _
                                | fail_if_no_progress (refine Keeps.upd ?_ rfl rfl rfl rfl rfl rfl rfl rfl rfl))

theorem spareFails_keeps {qq : List Instr} (cl : Nat) (s : State) (hk : Keeps qq s) :
    Keeps qq (spareFails cl s) := by
  unfold spareFails
  with_reducible repeat' (first | assumption | refine Keeps.ite (fun _ => ?_) (fun _ => ?_)
                                | fail_if_no_progress (refine Keeps.upd ?_ rfl rfl rfl rfl rfl rfl rfl rfl rfl))

theorem nominate_keeps {qq : List Instr} (x : Nat × Nat) (s : State) (hk : Keeps qq s) :
    Keeps qq (nominate x s) := by
  unfold nominate
  with_reducible repeat' (first | assumption | refine Keeps.ite (fun _ => ?_) (fun _ => ?_) | apply spareFails_keeps | apply rset_keeps)

theorem marchStore_keeps {qq : List Instr} (n b : Nat) (s : State) (hk : Keeps qq s) :
    Keeps qq (marchStore n b s) := by
  unfold marchStore
  with_reducible repeat' (first | assumption | apply setCl_keeps | refine Keeps.fold ?_ (fun _ _ _ => ?_))

theorem marchTier_keeps {qq : List Instr} (n b : Nat) (s : State) (hk : Keeps qq s) :
    Keeps qq (marchTier n b s) := by
  unfold marchTier
  with_reducible repeat' (first | assumption | apply setCl_keeps | refine Keeps.fold ?_ (fun _ _ _ => ?_))

theorem marchBanks_keeps {qq : List Instr} (j : MarchJob) (f : MarchFinds) (s : State) (hk : Keeps qq s) :
    Keeps qq (marchBanks j f s).st := by
  have fold : ∀ (l : List Nat) (x : MarchSum), Keeps qq x.st → Keeps qq (l.foldl (fun x k => rowFails k x) x).st := by
    intro l
    induction l with
    | nil => exact fun x hx => hx
    | cons a t ih => exact fun x hx => ih _ (rowFails_keeps a x hx)
  unfold marchBanks
  refine fold _ _ ?_
  with_reducible
    refine Keeps.upd ?_ rfl rfl rfl rfl rfl rfl rfl rfl rfl
    refine Keeps.fold hk fun u k hu => ?_
  exact Keeps.ite (fun _ => marchKeep_keeps k u hu) (fun _ => bankZero_keeps k u hu)

theorem marchEnds_keeps {qq : List Instr} (j : MarchJob) (f : MarchFinds) (s : State) (hk : Keeps qq s) :
    Keeps qq (marchEnds j f s) := by
  unfold marchEnds
  with_reducible repeat' (first | assumption | refine Keeps.ite (fun _ => ?_) (fun _ => ?_) | apply marchBanks_keeps | apply marchStore_keeps
                                | apply marchTier_keeps | apply rmod_keeps | apply nominate_keeps | apply rflag_keeps | apply settle_keeps
                                | refine Keeps.fold ?_ (fun _ _ _ => ?_)
                                | fail_if_no_progress (refine Keeps.upd ?_ rfl rfl rfl rfl rfl rfl rfl rfl rfl))

theorem marchComplete_keeps {qq : List Instr} (f : MarchFinds) (s : State) (hk : Keeps qq s) :
    Keeps qq (marchComplete f s) := by
  unfold marchComplete
  with_reducible repeat' (first | assumption | apply marchEnds_keeps | apply reply_keeps
                                | fail_if_no_progress (refine Keeps.upd ?_ rfl rfl rfl rfl rfl rfl rfl rfl rfl) | split)

theorem cmdBankOwner_keeps {qq : List Instr} (c : Cmd) (s : State) (hk : Keeps qq s) :
    Keeps qq (cmdBankOwner c s) := by
  unfold cmdBankOwner
  with_reducible repeat' (first | assumption | apply command_keeps | apply ownClear_keeps | apply ownWrite_keeps | apply reply_keeps
                                | refine Keeps.ite1 (fun _ => ?_) (fun _ => ?_) | intro _)

theorem accessAnswer_keeps {qq : List Instr} (a : AccessRun) (status : Nat) (s : State) (hk : Keeps qq s) :
    Keeps qq (accessAnswer a status s) := by
  unfold accessAnswer
  with_reducible repeat' (first | assumption | apply hostPut_keeps | apply reply_keeps
                                | fail_if_no_progress (refine Keeps.upd ?_ rfl rfl rfl rfl rfl rfl rfl rfl rfl) | split)

theorem fenceSettle_keeps {qq : List Instr} (s : State) (hk : Keeps qq s) :
    Keeps qq (fenceSettle s) := by
  unfold fenceSettle
  with_reducible repeat' (first | assumption | apply reply_keeps | fail_if_no_progress (refine Keeps.upd ?_ rfl rfl rfl rfl rfl rfl rfl rfl rfl)
                                | split)

theorem nodeCloses_keeps {qq : List Instr} (n : Nat) (why : DrainFor) (s : State) (hk : Keeps qq s) :
    Keeps qq (nodeCloses n why s) := by
  unfold nodeCloses
  with_reducible repeat' (first | assumption | refine Keeps.ite (fun _ => ?_) (fun _ => ?_) | apply rmod_keeps | apply rflag_keeps
                                | fail_if_no_progress (refine Keeps.upd ?_ rfl rfl rfl rfl rfl rfl rfl rfl rfl) | split)

theorem controlSend_keeps {qq : List Instr} (kind frm dst : Nat) (s : State) (hk : Keeps qq s) :
    Keeps qq (controlSend kind frm dst s) := by
  unfold controlSend
  with_reducible repeat' (first | assumption | fail_if_no_progress (refine Keeps.upd ?_ rfl rfl rfl rfl rfl rfl rfl rfl rfl))

theorem drainEnds_keeps {qq : List Instr} (n : Nat) (s : State) (hk : Keeps qq s) :
    Keeps qq (drainEnds n s) := by
  unfold drainEnds
  with_reducible repeat' (first | assumption | refine Keeps.fold ?_ (fun _ _ _ => ?_) | refine Keeps.fold1 ?_ (fun _ _ _ => ?_)
                                | apply fenceSettle_keeps | apply nodeCloses_keeps
                                | fail_if_no_progress (refine Keeps.upd ?_ rfl rfl rfl rfl rfl rfl rfl rfl rfl) | dsimp only | intro _)

theorem drainComplete_keeps {qq : List Instr} (n : Nat) (s : State) (hk : Keeps qq s) :
    Keeps qq (drainComplete n s) := by
  unfold drainComplete
  with_reducible repeat' (first | assumption | refine Keeps.ite (fun _ => ?_) (fun _ => ?_) | apply controlSend_keeps | apply drainEnds_keeps
                                | split)

theorem startDrains_keeps {qq : List Instr} (ns : List Nat) (why : DrainFor) (s : State) (hk : Keeps qq s) :
    Keeps qq (startDrains ns why s) := by
  unfold startDrains
  with_reducible repeat' (first | assumption | refine Keeps.fold ?_ (fun _ _ _ => ?_) | refine Keeps.fold1 ?_ (fun _ _ _ => ?_)
                                | apply controlSend_keeps | apply drainComplete_keeps
                                | fail_if_no_progress (refine Keeps.upd ?_ rfl rfl rfl rfl rfl rfl rfl rfl rfl) | dsimp only | intro _)

theorem abandon_keeps {qq : List Instr} (n : Nat) (s : State) (hk : Keeps qq s) :
    Keeps qq (abandon n s) := by
  unfold abandon
  with_reducible repeat' (first | assumption | refine Keeps.ite (fun _ => ?_) (fun _ => ?_)
                                | fail_if_no_progress (refine Keeps.upd ?_ rfl rfl rfl rfl rfl rfl rfl rfl rfl) | split | dsimp only)

theorem controlArrival_keeps {qq : List Instr} (kind frm dst : Nat) (s : State) (hk : Keeps qq s) :
    Keeps qq (controlArrival kind frm dst s) := by
  unfold controlArrival
  with_reducible repeat' (first | assumption | refine Keeps.ite (fun _ => ?_) (fun _ => ?_)
                                | fail_if_no_progress (refine Keeps.upd ?_ rfl rfl rfl rfl rfl rfl rfl rfl rfl) | split | dsimp only | intro _)

end Sys2Proof.Machine
end

