-- ==== Sys2Proof/Laws/KeepClocks.lean ====
section
/-!
SUPPORT. What every operation keeps (Laws/Keep.lean): clocks, standing registers, resets, power, monitors, network time.
-/
namespace Sys2Proof.Machine

theorem switchSrc_keeps {qq : List Instr} (e : SwitchEnd) (f : State → State) (s : State) (hk : Keeps qq s) (hf : ∀ u, Keeps qq u → Keeps qq (f u)) :
    Keeps qq (switchSrc e f s).1 := by
  unfold switchSrc
  with_reducible repeat' (first | assumption | apply hf | apply rflag_keeps | split)

theorem unitSwitch_keeps {qq : List Instr} (e : SwitchEnd) (xtal : Bool) (s : State) (hk : Keeps qq s) :
    Keeps qq (unitSwitch e xtal s).1 := by
  unfold unitSwitch
  with_reducible repeat' (first | assumption | apply switchSrc_keeps | intro _
                                | fail_if_no_progress (refine Keeps.upd ?_ rfl rfl rfl rfl rfl rfl rfl rfl rfl))

theorem unitDividerStep_keeps {qq : List Instr} (s : State) (hk : Keeps qq s) :
    Keeps qq (unitDividerStep s) := by
  unfold unitDividerStep
  with_reducible repeat' (first | assumption | refine Keeps.ite (fun _ => ?_) (fun _ => ?_)
                                | fail_if_no_progress (refine Keeps.upd ?_ rfl rfl rfl rfl rfl rfl rfl rfl rfl))

theorem stacksRefresh_keeps {qq : List Instr} (on : Bool) (s : State) (hk : Keeps qq s) :
    Keeps qq (stacksRefresh on s) := by
  unfold stacksRefresh
  with_reducible repeat' (first | assumption | apply rputb_keeps | refine Keeps.fold ?_ (fun _ _ _ => ?_))

theorem rampStart_keeps {qq : List Instr} (s : State) (hk : Keeps qq s) :
    Keeps qq (rampStart s) := by
  unfold rampStart
  with_reducible repeat' (first | assumption | fail_if_no_progress (refine Keeps.upd ?_ rfl rfl rfl rfl rfl rfl rfl rfl rfl))

theorem stepStable_keeps {qq : List Instr} (e : SwitchEnd) (s : State) (hk : Keeps qq s) :
    Keeps qq (stepStable e s).1 := by
  unfold stepStable
  with_reducible repeat' (first | assumption | apply rflag_keeps | apply switchSrc_keeps | apply rampStart_keeps
                                | refine Keeps.ite1 (fun _ => ?_) (fun _ => ?_) | intro _
                                | fail_if_no_progress (refine Keeps.upd ?_ rfl rfl rfl rfl rfl rfl rfl rfl rfl))

theorem holdStable_keeps {qq : List Instr} (e : SwitchEnd) (s : State) (hk : Keeps qq s) :
    Keeps qq (holdStable e s).1 := by
  unfold holdStable
  with_reducible repeat' (first | assumption | refine Keeps.ite (fun _ => ?_) (fun _ => ?_) | apply unitSwitch_keeps | apply stacksRefresh_keeps
                                | refine Keeps.ite1 (fun _ => ?_) (fun _ => ?_))

theorem linkStable_keeps {qq : List Instr} (j : Nat) (s : State) (hk : Keeps qq s) :
    Keeps qq (linkStable j s) := by
  unfold linkStable
  with_reducible repeat' (first | assumption | apply lnkDetect_keeps | refine Keeps.fold ?_ (fun _ _ _ => ?_))

theorem bootPllDone_keeps {qq : List Instr} (s : State) (hk : Keeps qq s) :
    Keeps qq (bootPllDone s) := by
  unfold bootPllDone
  with_reducible repeat' (first | assumption | refine Keeps.ite (fun _ => ?_) (fun _ => ?_) | apply setStage_keeps)

theorem pllStable_keeps {qq : List Instr} (e : SwitchEnd) (i : Nat) (s : State) (hk : Keeps qq s) :
    Keeps qq (pllStable e i s) := by
  unfold pllStable
  with_reducible repeat' (first | assumption | apply rmod_keeps | apply stepStable_keeps | apply holdStable_keeps | apply linkStable_keeps
                                | apply bootPllDone_keeps | apply raiseAll_keeps | refine Keeps.ite1 (fun _ => ?_) (fun _ => ?_))

theorem cutEntry_keeps {qq : List Instr} (s : State) (x : Nat × Nat × Nat) (hk : Keeps qq s) :
    Keeps qq (cutEntry s x) := by
  unfold cutEntry
  with_reducible repeat' (first | assumption | refine Keeps.ite (fun _ => ?_) (fun _ => ?_) | apply setCl_keeps)

theorem stepLoss_keeps {qq : List Instr} (cut : List (Nat × Nat × Nat)) (s : State) (hk : Keeps qq s) :
    Keeps qq (stepLoss cut s).1 := by
  unfold stepLoss
  with_reducible repeat' (first | assumption | apply pllStart_keeps | apply rflag_keeps | apply cutEntry_keeps
                                | refine Keeps.fold ?_ (fun _ _ _ => ?_)
                                | fail_if_no_progress (refine Keeps.upd ?_ rfl rfl rfl rfl rfl rfl rfl rfl rfl))

theorem holdLoss_keeps {qq : List Instr} (e : SwitchEnd) (s : State) (hk : Keeps qq s) :
    Keeps qq (holdLoss e s).1 := by
  unfold holdLoss
  with_reducible repeat' (first | assumption | apply unitSwitch_keeps | apply pllStart_keeps | apply rflag_keeps | apply stacksRefresh_keeps)

theorem linkPllGone_keeps {qq : List Instr} (n : Nat) (s : State) (hk : Keeps qq s) :
    Keeps qq (linkPllGone n s).1 := by
  unfold linkPllGone
  with_reducible repeat' (first | assumption | apply lnkDrop_keeps | apply lnkToDown_keeps | refine Keeps.ite1 (fun _ => ?_) (fun _ => ?_))

theorem linkLoss_keeps {qq : List Instr} (j : Nat) (s : State) (hk : Keeps qq s) :
    Keeps qq (linkLoss j s).1 := by
  unfold linkLoss
  with_reducible repeat' (first | assumption | refine Keeps.ite (fun _ => ?_) (fun _ => ?_) | apply pllStart_keeps | apply rflag_keeps
                                | apply andThen_keeps | apply linkPllGone_keeps | apply rmod_keeps | refine Keeps.fold1 ?_ (fun _ _ _ => ?_))

theorem pllLost_keeps {qq : List Instr} (e : SwitchEnd) (cut : List (Nat × Nat × Nat)) (i : Nat) (s : State) (hk : Keeps qq s) :
    Keeps qq (pllLost e cut i s).1 := by
  unfold pllLost
  with_reducible repeat' (first | assumption | apply stepLoss_keeps | apply holdLoss_keeps | apply linkLoss_keeps
                                | refine Keeps.ite1 (fun _ => ?_) (fun _ => ?_))

theorem takeFaults_keeps {qq : List Instr} (x : State × List Report) (hk : Keeps qq x.1) :
    Keeps qq (takeFaults x) := by
  unfold takeFaults
  with_reducible repeat' (first | assumption | apply settlePause_keeps | apply raiseAll_keeps)

theorem pllLose_keeps {qq : List Instr} (e : SwitchEnd) (cut : List (Nat × Nat × Nat)) (i : Nat) (s : State) (hk : Keeps qq s) :
    Keeps qq (pllLose e cut i s) := by
  unfold pllLose
  with_reducible repeat' (first | assumption | apply pllLost_keeps | apply takeFaults_keeps)

theorem pllWindowEnd_keeps {qq : List Instr} (i : Nat) (ppm : Int) (lock : Bool) (e : SwitchEnd) (cut : List (Nat × Nat × Nat)) (s : State) (hk : Keeps qq s) :
    Keeps qq (pllWindowEnd i ppm lock e cut s) := by
  unfold pllWindowEnd
  with_reducible repeat' (first | assumption | refine Keeps.ite (fun _ => ?_) (fun _ => ?_) | apply rput_keeps | apply setPllSt_keeps
                                | apply pllStable_keeps | apply pllLose_keeps
                                | fail_if_no_progress (refine Keeps.upd ?_ rfl rfl rfl rfl rfl rfl rfl rfl rfl) | split | dsimp only)

theorem pllJudgeTimeout_keeps {qq : List Instr} (i : Nat) (s : State) (hk : Keeps qq s) :
    Keeps qq (pllJudgeTimeout i s) := by
  unfold pllJudgeTimeout
  with_reducible repeat' (first | assumption | refine Keeps.ite (fun _ => ?_) (fun _ => ?_) | apply rflag_keeps | apply setStage_keeps
                                | apply pllStart_keeps)

theorem crystalLost_keeps {qq : List Instr} (e : SwitchEnd) (cut : List (Nat × Nat × Nat)) (s : State) (hk : Keeps qq s) :
    Keeps qq (crystalLost e cut s) := by
  unfold crystalLost
  with_reducible repeat' (first | assumption | refine Keeps.ite (fun _ => ?_) (fun _ => ?_) | refine Keeps.fold ?_ (fun _ _ _ => ?_)
                                | refine Keeps.fold1 ?_ (fun _ _ _ => ?_) | apply rmod_keeps | apply andThen_keeps | apply pllLost_keeps
                                | apply takeFaults_keeps | fail_if_no_progress (refine Keeps.upd ?_ rfl rfl rfl rfl rfl rfl rfl rfl rfl) | split
                                | dsimp only | intro _)

theorem mhzChange_keeps {qq : List Instr} (mhz : Nat) (e : SwitchEnd) (s : State) (hk : Keeps qq s) :
    Keeps qq (mhzChange mhz e s) := by
  unfold mhzChange
  with_reducible repeat' (first | assumption | apply rput_keeps | apply switchSrc_keeps | apply raiseAll_keeps | apply pllStart_keeps | intro _
                                | fail_if_no_progress (refine Keeps.upd ?_ rfl rfl rfl rfl rfl rfl rfl rfl rfl))

theorem mhzWrite_keeps {qq : List Instr} (mhz : Nat) (e : SwitchEnd) (s : State) (hk : Keeps qq s) :
    Keeps qq (mhzWrite mhz e s) := by
  unfold mhzWrite
  with_reducible repeat' (first | assumption | refine Keeps.ite (fun _ => ?_) (fun _ => ?_) | apply mhzChange_keeps | apply rflag_keeps)

theorem restoreRequest_keeps {qq : List Instr} (s : State) (hk : Keeps qq s) :
    Keeps qq (restoreRequest s) := by
  unfold restoreRequest
  with_reducible repeat' (first | assumption | refine Keeps.ite (fun _ => ?_) (fun _ => ?_) | apply sendExpress_keeps | apply addEvent_keeps
                                | apply rflag_keeps)

theorem tolWrite_keeps {qq : List Instr} (v : Word) (s : State) (hk : Keeps qq s) :
    Keeps qq (tolWrite v s) := by
  unfold tolWrite
  with_reducible repeat' (first | assumption | refine Keeps.ite (fun _ => ?_) (fun _ => ?_) | apply rflag_keeps | apply rset_keeps)

theorem enUnit_keeps {qq : List Instr} (u : Nat) (on : Bool) (s : State) (hk : Keeps qq s) :
    Keeps qq (enUnit u on s) := by
  unfold enUnit
  with_reducible repeat' (first | assumption | refine Keeps.ite (fun _ => ?_) (fun _ => ?_) | apply rmod_keeps | apply rflag_keeps
                                | apply startDrains_keeps | apply stacksRefresh_keeps
                                | fail_if_no_progress (refine Keeps.upd ?_ rfl rfl rfl rfl rfl rfl rfl rfl rfl) | split | dsimp only)

theorem enBasin_keeps {qq : List Instr} (b : Nat) (on : Bool) (s : State) (hk : Keeps qq s) :
    Keeps qq (enBasin b on s) := by
  unfold enBasin
  with_reducible repeat' (first | assumption | refine Keeps.ite (fun _ => ?_) (fun _ => ?_) | apply rflag_keeps | apply startDrains_keeps | split)

theorem enWrite_keeps {qq : List Instr} (second : Bool) (v : Word) (s : State) (hk : Keeps qq s) :
    Keeps qq (enWrite second v s) := by
  unfold enWrite
  with_reducible repeat' (first | assumption | refine Keeps.ite (fun _ => ?_) (fun _ => ?_) | apply enBasin_keeps | apply enUnit_keeps
                                | refine Keeps.fold ?_ (fun _ _ _ => ?_))

theorem freeVoidedTags_keeps {qq : List Instr} (f : Nat) (s : State) (hk : Keeps qq s) :
    Keeps qq (freeVoidedTags f s) := by
  unfold freeVoidedTags
  with_reducible repeat' (first | assumption | refine Keeps.ite (fun _ => ?_) (fun _ => ?_) | apply setTag_keeps
                                | refine Keeps.fold ?_ (fun _ _ _ => ?_)
                                | fail_if_no_progress (refine Keeps.upd ?_ rfl rfl rfl rfl rfl rfl rfl rfl rfl))

theorem preChecksAgain_keeps {qq : List Instr} (f g : Nat) (s : State) (hk : Keeps qq s) :
    Keeps qq (preChecksAgain f g s) :=
  (Keeps.mapSlu hk).same _ rfl rfl rfl rfl rfl rfl rfl rfl rfl

theorem rewindFrame_keeps {qq : List Instr} (s : State) (hk : Keeps qq s) :
    Keeps qq (rewindFrame s) := by
  unfold rewindFrame
  with_reducible repeat' (first | assumption | apply discardFrom_keeps | apply preChecksAgain_keeps | apply freeVoidedTags_keeps
                                | apply Keeps.mapFab | fail_if_no_progress (refine Keeps.upd ?_ rfl rfl rfl rfl rfl rfl rfl rfl rfl))

theorem resumePosition_keeps {qq : List Instr} (s : State) (hk : Keeps qq s) :
    Keeps qq (resumePosition s) := by
  unfold resumePosition
  with_reducible repeat' (first | assumption | refine Keeps.ite (fun _ => ?_) (fun _ => ?_) | apply rewindFrame_keeps | apply secondBody_keeps
                                | fail_if_no_progress (refine Keeps.upd ?_ rfl rfl rfl rfl rfl rfl rfl rfl rfl))

theorem resumeDone_keeps {qq : List Instr} (s : State) (hk : Keeps qq s) :
    Keeps qq (resumeDone s) := by
  unfold resumeDone
  with_reducible repeat' (first | assumption | refine Keeps.ite (fun _ => ?_) (fun _ => ?_) | apply dropCarry_keeps | apply resumePosition_keeps
                                | apply settlePause_keeps | fail_if_no_progress (refine Keeps.upd ?_ rfl rfl rfl rfl rfl rfl rfl rfl rfl))

theorem beginResume_keeps {qq : List Instr} (s : State) (hk : Keeps qq s) :
    Keeps qq (beginResume s) := by
  unfold beginResume
  with_reducible repeat' (first | assumption | apply rampStart_keeps | fail_if_no_progress (refine Keeps.upd ?_ rfl rfl rfl rfl rfl rfl rfl rfl rfl))

theorem rampDone_keeps {qq : List Instr} (s : State) (hk : Keeps qq s) :
    Keeps qq (rampDone s) := by
  unfold rampDone
  with_reducible repeat' (first | assumption | apply setBound_keeps | apply reply_keeps | apply resumeDone_keeps
                                | fail_if_no_progress (refine Keeps.upd ?_ rfl rfl rfl rfl rfl rfl rfl rfl rfl) | split | dsimp only)

theorem rampHoldEnd_keeps {qq : List Instr} (s : State) (hk : Keeps qq s) :
    Keeps qq (rampHoldEnd s) := by
  unfold rampHoldEnd
  with_reducible repeat' (first | assumption | refine Keeps.ite (fun _ => ?_) (fun _ => ?_) | apply rampDone_keeps
                                | fail_if_no_progress (refine Keeps.upd ?_ rfl rfl rfl rfl rfl rfl rfl rfl rfl))

theorem cmdClkResume_keeps {qq : List Instr} (c : Cmd) (s : State) (hk : Keeps qq s) :
    Keeps qq (cmdClkResume c s) := by
  unfold cmdClkResume
  with_reducible repeat' (first | assumption | apply command_keeps | apply beginResume_keeps | apply ringSendAll_keeps | apply started_keeps
                                | intro _)

theorem cmdStepClock_keeps {qq : List Instr} (e : SwitchEnd) (c : Cmd) (s : State) (hk : Keeps qq s) :
    Keeps qq (cmdStepClock e c s) := by
  unfold cmdStepClock
  with_reducible repeat' (first | assumption | refine Keeps.ite (fun _ => ?_) (fun _ => ?_) | apply command_keeps | apply mhzChange_keeps
                                | apply ringSendAll_keeps | apply started_keeps | apply restoreRequest_keeps | apply reply_keeps | intro _)

theorem stdRead_keeps {qq : List Instr} (i : Nat) (s : State) (hk : Keeps qq s) :
    Keeps qq (stdRead i s).2 := by
  unfold stdRead
  with_reducible repeat' (first | assumption | apply rflag_keeps | split)

theorem stdWrite_keeps {qq : List Instr} (i : Nat) (v : Word) (s : State) (hk : Keeps qq s) :
    Keeps qq (stdWrite i v s) := by
  unfold stdWrite
  with_reducible repeat' (first | assumption | apply rflag_keeps | apply rmod_keeps
                                | fail_if_no_progress (refine Keeps.upd ?_ rfl rfl rfl rfl rfl rfl rfl rfl rfl) | split)

theorem stdFinish_keeps {qq : List Instr} (s : State) (hk : Keeps qq s) :
    Keeps qq (stdFinish s) := by
  unfold stdFinish
  with_reducible repeat' (first | assumption | apply rmod_keeps | apply rset_keeps
                                | fail_if_no_progress (refine Keeps.upd ?_ rfl rfl rfl rfl rfl rfl rfl rfl rfl) | split)

theorem readPins_keeps {qq : List Instr} (boot : Bool) (s : State) (hk : Keeps qq s) :
    Keeps qq (readPins boot s) := by
  unfold readPins
  with_reducible repeat' (first | assumption | refine Keeps.ite (fun _ => ?_) (fun _ => ?_) | apply stdRead_keeps | apply rput_keeps
                                | refine Keeps.fold ?_ (fun _ _ _ => ?_)
                                | fail_if_no_progress (refine Keeps.upd ?_ rfl rfl rfl rfl rfl rfl rfl rfl rfl))

theorem readPolicy_keeps {qq : List Instr} (s : State) (hk : Keeps qq s) :
    Keeps qq (readPolicy s) := by
  unfold readPolicy
  with_reducible repeat' (first | assumption | apply stdRead_keeps | apply rset_keeps)

theorem regsWarm_keeps {qq : List Instr} (grp : Bool) (s : State) (hk : Keeps qq s) : Keeps qq (regsWarm grp s) := by
  unfold regsWarm
  with_reducible repeat' (first | assumption | apply rputb_keeps | apply rput_keeps | refine Keeps.fold ?_ (fun _ _ _ => ?_)
                                | exact Keeps.keepRegs hk)

theorem unitsWarm_keeps {qq : List Instr} (grp : Bool) (s : State) (hk : Keeps qq s) : Keeps qq (unitsWarm grp s) := by
  have hl : rises (fun _ => Link.fresh) 0
      (if grp then mmapv Link.fresh (fun l => { l with early := [], marks := [], buf := [], rxV := 0 }) s.lnk else []) := by
    split
    · exact (Keeps.mapLnk (f := fun l => { l with early := [], marks := [], buf := [], rxV := 0 }) hk).lnk
    · trivial
  exact ⟨hk.queue, hk.mem, hk.hold, hk.dmc, hk.regs, (Keeps.mapFab (f := clusterReset) hk).fab, trivial, trivial, hl⟩

theorem stdComplete_keeps {qq : List Instr} (s : State) (hk : Keeps qq s) :
    Keeps qq (stdComplete s) := by
  unfold stdComplete
  with_reducible repeat' (first | assumption | apply reply_keeps | apply stdFinish_keeps | split)

theorem deviceReset_keeps {qq : List Instr} (kind src : Nat) (s : State) (hk : Keeps qq s) :
    Keeps qq (deviceReset kind src s) := by
  unfold deviceReset
  with_reducible repeat' (first | assumption | refine Keeps.ite (fun _ => ?_) (fun _ => ?_) | apply regsWarm_keeps | apply unitsWarm_keeps
                                | apply timeoutAll_keeps | apply stdComplete_keeps | apply setStage_keeps | apply rflag_keeps
                                | apply rampStart_keeps | fail_if_no_progress (refine Keeps.upd ?_ rfl rfl rfl rfl rfl rfl rfl rfl rfl))

theorem powerOn_keeps {qq : List Instr} (s : State) (hk : Keeps qq s) : Keeps qq (powerOn s) := by
  have h1 := stdFinish_keeps s hk
  unfold powerOn
  refine Keeps.fold ?_ (fun _ _ h => rput_keeps _ _ _ _ _ h)
  exact ⟨h1.queue, h1.mem, trivial, trivial, rises_mkeep h1.regs fun off => blockOf off = 6 && off ≠ oStdSts, trivial, trivial,
    trivial, trivial⟩

theorem vinOvervoltage_keeps {qq : List Instr} (s : State) (hk : Keeps qq s) :
    Keeps qq (vinOvervoltage s) := by
  unfold vinOvervoltage
  with_reducible repeat' (first | assumption | apply powerOn_keeps | fail_if_no_progress (refine Keeps.upd ?_ rfl rfl rfl rfl rfl rfl rfl rfl rfl))

theorem vinOvervoltageEnd_keeps {qq : List Instr} (s : State) (hk : Keeps qq s) :
    Keeps qq (vinOvervoltageEnd s) := by
  unfold vinOvervoltageEnd
  with_reducible repeat' (first | assumption | refine Keeps.ite (fun _ => ?_) (fun _ => ?_) | apply powerOn_keeps)

theorem resetWakes_keeps {qq : List Instr} (s : State) (hk : Keeps qq s) :
    Keeps qq (resetWakes s) := by
  unfold resetWakes
  with_reducible repeat' (first | assumption | refine Keeps.ite (fun _ => ?_) (fun _ => ?_) | apply bankPoison_keeps | apply rset_keeps
                                | apply rflag_keeps | apply pllStart_keeps | refine Keeps.fold ?_ (fun _ _ _ => ?_))

theorem perstAssert_keeps {qq : List Instr} (s : State) (hk : Keeps qq s) :
    Keeps qq (perstAssert s) := by
  unfold perstAssert
  with_reducible repeat' (first | assumption | refine Keeps.ite (fun _ => ?_) (fun _ => ?_) | apply deviceReset_keeps | apply resetWakes_keeps
                                | fail_if_no_progress (refine Keeps.upd ?_ rfl rfl rfl rfl rfl rfl rfl rfl rfl))

theorem linkTrains_keeps {qq : List Instr} (s : State) (hk : Keeps qq s) :
    Keeps qq (linkTrains s) := by
  unfold linkTrains
  with_reducible repeat' (first | assumption | fail_if_no_progress (refine Keeps.upd ?_ rfl rfl rfl rfl rfl rfl rfl rfl rfl) | dsimp only)

theorem perstRelease_keeps {qq : List Instr} (s : State) (hk : Keeps qq s) :
    Keeps qq (perstRelease s) := by
  unfold perstRelease
  with_reducible repeat' (first | assumption | apply linkTrains_keeps
                                | fail_if_no_progress (refine Keeps.upd ?_ rfl rfl rfl rfl rfl rfl rfl rfl rfl))

theorem requestWarm_keeps {qq : List Instr} (kind : Nat) (s : State) (hk : Keeps qq s) :
    Keeps qq (requestWarm kind s) := by
  unfold requestWarm
  with_reducible repeat' (first | assumption | refine Keeps.ite (fun _ => ?_) (fun _ => ?_)
                                | fail_if_no_progress (refine Keeps.upd ?_ rfl rfl rfl rfl rfl rfl rfl rfl rfl))

theorem warmNow_keeps {qq : List Instr} (kind src : Nat) (s : State) (hk : Keeps qq s) :
    Keeps qq (warmNow kind src s) := by
  unfold warmNow
  with_reducible repeat' (first | assumption | refine Keeps.ite (fun _ => ?_) (fun _ => ?_) | apply wakeBegin_keeps | apply deviceReset_keeps
                                | fail_if_no_progress (refine Keeps.upd ?_ rfl rfl rfl rfl rfl rfl rfl rfl rfl))

theorem warmAfterExit_keeps {qq : List Instr} (s : State) (hk : Keeps qq s) :
    Keeps qq (warmAfterExit s) := by
  unfold warmAfterExit
  with_reducible repeat' (first | assumption | apply deviceReset_keeps | split)

theorem warmEffect_keeps {qq : List Instr} (s : State) (hk : Keeps qq s) :
    Keeps qq (warmEffect s) := by
  unfold warmEffect
  with_reducible repeat' (first | assumption | apply warmNow_keeps
                                | fail_if_no_progress (refine Keeps.upd ?_ rfl rfl rfl rfl rfl rfl rfl rfl rfl) | split)

theorem groupInstant_keeps {qq : List Instr} (missed : Bool) (s : State) (hk : Keeps qq s) :
    Keeps qq (groupInstant missed s) := by
  unfold groupInstant
  with_reducible repeat' (first | assumption | apply warmNow_keeps
                                | fail_if_no_progress (refine Keeps.upd ?_ rfl rfl rfl rfl rfl rfl rfl rfl rfl) | split)

theorem groupCancel_keeps {qq : List Instr} (s : State) (hk : Keeps qq s) :
    Keeps qq (groupCancel s) := by
  unfold groupCancel
  with_reducible repeat' (first | assumption | apply reply_keeps | apply ringSendAll_keeps
                                | fail_if_no_progress (refine Keeps.upd ?_ rfl rfl rfl rfl rfl rfl rfl rfl rfl) | split)

theorem basinResetEffect_keeps {qq : List Instr} (b : Nat) (s : State) (hk : Keeps qq s) : Keeps qq (basinResetEffect b s) := by
  unfold basinResetEffect
  refine Keeps.ite (fun _ => hk) (fun _ => ?_)
  apply rmod_keeps
  refine Keeps.fold ?_ (fun _ _ h => rset_keeps _ _ _ (rset_keeps _ _ _ (setSlu_keeps _ _ _ h)))
  apply setBas_keeps
  exact ⟨hk.queue, hk.mem, hk.hold, hk.dmc, rises_mkeep hk.regs fun off => !(blockOf off = 0x10 + b) || (decide (0x400 ≤ off % 0x10000) && off % 0x100 = 8),
    rises_map (g := fun e => if e.1 / 64 = b then (e.1, clusterReset e.2) else e)
      (fun e => by split <;> rfl) hk.fab, hk.bas, hk.slu, hk.lnk⟩

theorem powerGood_keeps {qq : List Instr} (s : State) (hk : Keeps qq s) :
    Keeps qq (powerGood s) := by
  unfold powerGood
  with_reducible repeat' (first | assumption | refine Keeps.ite (fun _ => ?_) (fun _ => ?_) | apply setStage_keeps | apply readPins_keeps
                                | apply linkTrains_keeps | split)

theorem bootOscDone_keeps {qq : List Instr} (testEn : Bool) (s : State) (hk : Keeps qq s) :
    Keeps qq (bootOscDone testEn s) := by
  unfold bootOscDone
  with_reducible repeat' (first | assumption | refine Keeps.ite (fun _ => ?_) (fun _ => ?_) | apply readPins_keeps | apply setStage_keeps
                                | fail_if_no_progress (refine Keeps.upd ?_ rfl rfl rfl rfl rfl rfl rfl rfl rfl))

theorem bootXtalDone_keeps {qq : List Instr} (e : SwitchEnd) (s : State) (hk : Keeps qq s) :
    Keeps qq (bootXtalDone e s) := by
  unfold bootXtalDone
  with_reducible repeat' (first | assumption | refine Keeps.ite (fun _ => ?_) (fun _ => ?_) | apply switchSrc_keeps | apply rflag_keeps
                                | apply raiseAll_keeps | apply pllStart_keeps | apply setStage_keeps | refine Keeps.fold ?_ (fun _ _ _ => ?_))

theorem stacksTrain_keeps {qq : List Instr} (s : State) (hk : Keeps qq s) :
    Keeps qq (stacksTrain s) := by
  unfold stacksTrain
  with_reducible repeat' (first | assumption | refine Keeps.ite (fun _ => ?_) (fun _ => ?_) | apply rmod_keeps
                                | refine Keeps.fold ?_ (fun _ _ _ => ?_))

theorem bootFwDone_keeps {qq : List Instr} (ok : Bool) (s : State) (hk : Keeps qq s) :
    Keeps qq (bootFwDone ok s) := by
  unfold bootFwDone
  with_reducible repeat' (first | assumption | refine Keeps.ite (fun _ => ?_) (fun _ => ?_) | apply setStage_keeps | apply rflag_keeps
                                | apply rset_keeps | apply stdRead_keeps | apply marchStarts_keeps | apply stacksTrain_keeps
                                | apply rampStart_keeps)

theorem bootTestDone_keeps {qq : List Instr} (f : MarchFinds) (bad : List Nat) (s : State) (hk : Keeps qq s) :
    Keeps qq (bootTestDone f bad s) := by
  unfold bootTestDone
  with_reducible repeat' (first | assumption | refine Keeps.ite (fun _ => ?_) (fun _ => ?_) | apply rmod_keeps | apply rflag_keeps
                                | apply stdRead_keeps | apply marchEnds_keeps | apply setStage_keeps | refine Keeps.fold ?_ (fun _ _ _ => ?_)
                                | fail_if_no_progress (refine Keeps.upd ?_ rfl rfl rfl rfl rfl rfl rfl rfl rfl))

theorem stacksShown_keeps {qq : List Instr} (s : State) (hk : Keeps qq s) :
    Keeps qq (stacksShown s) := by
  unfold stacksShown
  with_reducible repeat' (first | assumption | apply rputb_keeps | apply rflag_keeps | refine Keeps.fold ?_ (fun _ _ _ => ?_)
                                | fail_if_no_progress (refine Keeps.upd ?_ rfl rfl rfl rfl rfl rfl rfl rfl rfl))

theorem portsTrain_keeps {qq : List Instr} (ports : Nat) (s : State) (hk : Keeps qq s) :
    Keeps qq (portsTrain ports s) := by
  unfold portsTrain
  with_reducible repeat' (first | assumption | refine Keeps.ite (fun _ => ?_) (fun _ => ?_) | apply stdRead_keeps | apply ringTrain_keeps)

theorem bootArmDone_keeps {qq : List Instr} (ms ports : Nat) (s : State) (hk : Keeps qq s) :
    Keeps qq (bootArmDone ms ports s) := by
  unfold bootArmDone
  with_reducible repeat' (first | assumption | refine Keeps.ite (fun _ => ?_) (fun _ => ?_) | apply readPolicy_keeps | apply readPins_keeps
                                | apply rput_keeps | apply setStage_keeps | apply rset_keeps | apply portsTrain_keeps | apply stacksShown_keeps
                                | apply rflag_keeps)

theorem recoverStart_keeps {qq : List Instr} (vote : Bool) (s : State) (hk : Keeps qq s) :
    Keeps qq (recoverStart vote s) := by
  unfold recoverStart
  with_reducible repeat' (first | assumption | refine Keeps.ite (fun _ => ?_) (fun _ => ?_) | apply requestHalt_keeps
                                | fail_if_no_progress (refine Keeps.upd ?_ rfl rfl rfl rfl rfl rfl rfl rfl rfl))

theorem cfgRstWrite_keeps {qq : List Instr} (v : Word) (s : State) (hk : Keeps qq s) :
    Keeps qq (cfgRstWrite v s) := by
  unfold cfgRstWrite
  with_reducible repeat' (first | assumption | refine Keeps.ite (fun _ => ?_) (fun _ => ?_) | apply requestWarm_keeps | apply recoverStart_keeps)

theorem keepEnter_keeps {qq : List Instr} (s : State) (hk : Keeps qq s) :
    Keeps qq (keepEnter s) := by
  unfold keepEnter
  with_reducible repeat' (first | assumption | apply stacksRefresh_keeps | apply timeoutAll_keeps | apply loadFails_keeps | apply rflag_keeps
                                | apply rmod_keeps | fail_if_no_progress (refine Keeps.upd ?_ rfl rfl rfl rfl rfl rfl rfl rfl rfl) | split)

theorem recoveryKeep_keeps {qq : List Instr} (s : State) (hk : Keeps qq s) :
    Keeps qq (recoveryKeep s) := by
  unfold recoveryKeep
  with_reducible repeat' (first | assumption | refine Keeps.ite (fun _ => ?_) (fun _ => ?_) | apply keepEnter_keeps)

theorem recoveryPauseTimeout_keeps {qq : List Instr} (s : State) (hk : Keeps qq s) :
    Keeps qq (recoveryPauseTimeout s) := by
  unfold recoveryPauseTimeout
  with_reducible repeat' (first | assumption | refine Keeps.ite (fun _ => ?_) (fun _ => ?_) | apply enterSafe_keeps | apply taintReport_keeps
                                | apply logFaultAs_keeps)

theorem recoveryDone_keeps {qq : List Instr} (s : State) (hk : Keeps qq s) :
    Keeps qq (recoveryDone s) := by
  unfold recoveryDone
  with_reducible repeat' (first | assumption | refine Keeps.ite (fun _ => ?_) (fun _ => ?_) | apply stacksRefresh_keeps | apply rcount_keeps
                                | apply rmod_keeps | apply rflag_keeps
                                | fail_if_no_progress (refine Keeps.upd ?_ rfl rfl rfl rfl rfl rfl rfl rfl rfl))

theorem watchdogMissed_keeps {qq : List Instr} (s : State) (hk : Keeps qq s) :
    Keeps qq (watchdogMissed s) := by
  unfold watchdogMissed
  with_reducible repeat' (first | assumption | refine Keeps.ite (fun _ => ?_) (fun _ => ?_) | apply raise_keeps | apply recoverStart_keeps
                                | apply enterSafe_keeps | fail_if_no_progress (refine Keeps.upd ?_ rfl rfl rfl rfl rfl rfl rfl rfl rfl))

theorem entryBegins_keeps {qq : List Instr} (target : Nat) (s : State) (hk : Keeps qq s) :
    Keeps qq (entryBegins target s) := by
  unfold entryBegins
  with_reducible repeat' (first | assumption | refine Keeps.ite (fun _ => ?_) (fun _ => ?_) | apply rput_keeps | apply stageMarker_keeps
                                | apply runEnd_keeps | apply startDrains_keeps | apply stacksRefresh_keeps
                                | fail_if_no_progress (refine Keeps.upd ?_ rfl rfl rfl rfl rfl rfl rfl rfl rfl) | split | dsimp only | intro _)

theorem lowerSource_keeps {qq : List Instr} (src : Nat) (s : State) (hk : Keeps qq s) :
    Keeps qq (lowerSource src s) := by
  unfold lowerSource
  with_reducible repeat' (first | assumption | fail_if_no_progress (refine Keeps.upd ?_ rfl rfl rfl rfl rfl rfl rfl rfl rfl))

theorem cmdPowerState_keeps {qq : List Instr} (c : Cmd) (s : State) (hk : Keeps qq s) :
    Keeps qq (cmdPowerState c s) := by
  unfold cmdPowerState
  with_reducible repeat' (first | assumption | refine Keeps.ite (fun _ => ?_) (fun _ => ?_) | apply ringSend_keeps | apply wakeBegin_keeps
                                | apply reply_keeps | apply started_keeps | apply command_keeps | apply entryBegins_keeps
                                | apply lowerSource_keeps | split | dsimp only | intro _)

theorem powerReply_keeps {qq : List Instr} (status : Nat) (s : State) (hk : Keeps qq s) :
    Keeps qq (powerReply status s) := by
  unfold powerReply
  with_reducible repeat' (first | assumption | apply reply_keeps | split)

theorem dropFails_keeps {qq : List Instr} (s : State) (hk : Keeps qq s) :
    Keeps qq (dropFails s) := by
  unfold dropFails
  with_reducible repeat' (first | assumption | apply rcount_keeps | fail_if_no_progress (refine Keeps.upd ?_ rfl rfl rfl rfl rfl rfl rfl rfl rfl))

theorem gauFlushTimeout_keeps {qq : List Instr} (s : State) (hk : Keeps qq s) :
    Keeps qq (gauFlushTimeout s) := by
  unfold gauFlushTimeout
  with_reducible repeat' (first | assumption | refine Keeps.ite (fun _ => ?_) (fun _ => ?_) | apply dropFails_keeps)

theorem dropEdges_keeps {qq : List Instr} (s : State) (hk : Keeps qq s) :
    Keeps qq (dropEdges s) := by
  unfold dropEdges
  with_reducible repeat' (first | assumption | apply rcount_keeps | refine Keeps.fold ?_ (fun _ _ _ => ?_)
                                | fail_if_no_progress (refine Keeps.upd ?_ rfl rfl rfl rfl rfl rfl rfl rfl rfl))

theorem holdStore_keeps {qq : List Instr} (a : Nat) (bs : List Byte) (s : State) (hk : Keeps qq s) :
    Keeps qq (holdStore a bs s) := by
  unfold holdStore
  with_reducible repeat' (first | assumption | refine Keeps.fold ?_ (fun _ _ _ => ?_) | refine Keeps.fold1 ?_ (fun _ _ _ => ?_)
                                | apply hdWrite_keeps | intro _)

theorem saveCopy_keeps {qq : List Instr} (s : State) (hk : Keeps qq s) :
    Keeps qq (saveCopy s) := by
  unfold saveCopy
  with_reducible repeat' (first | assumption | refine Keeps.fold ?_ (fun _ _ _ => ?_) | refine Keeps.fold1 ?_ (fun _ _ _ => ?_)
                                | apply holdStore_keeps | fail_if_no_progress (refine Keeps.upd ?_ rfl rfl rfl rfl rfl rfl rfl rfl rfl)
                                | dsimp only | intro _)

theorem storesLost_keeps {qq : List Instr} (s : State) (hk : Keeps qq s) : Keeps qq (storesLost s) := by
  unfold storesLost
  refine ⟨hk.queue, hk.mem, hk.hold, hk.dmc, hk.regs, ?_, hk.bas, hk.slu, hk.lnk⟩
  dsimp only
  refine rises_map ?_ hk.fab
  intro e
  rfl

theorem restoreCopy_keeps {qq : List Instr} (s : State) (hk : Keeps qq s) :
    Keeps qq (restoreCopy s) := by
  unfold restoreCopy
  with_reducible repeat' (first | assumption | refine Keeps.ite (fun _ => ?_) (fun _ => ?_) | refine Keeps.fold ?_ (fun _ _ _ => ?_)
                                | refine Keeps.fold1 ?_ (fun _ _ _ => ?_) | apply setCl_keeps | split | intro _)

theorem stacksOff_keeps {qq : List Instr} (s : State) (hk : Keeps qq s) : Keeps qq (stacksOff s) :=
  Keeps.fold (s := { s with hold := { s.hold with cells := [], ecc := [], writeback := [] }, pwr := { s.pwr with off := true } })
    { hk with hold := trivial } (fun _ _ h => rset_keeps _ _ _ h)

theorem deepRegs_keeps {qq : List Instr} (still : Bool) (s : State) (hk : Keeps qq s) : Keeps qq (deepRegs still s) := by
  unfold deepRegs
  with_reducible repeat' (first | assumption | apply rputb_keeps | apply rput_keeps | refine Keeps.fold ?_ (fun _ _ _ => ?_)
                                | exact Keeps.keepRegs hk)

theorem deepLoss_keeps {qq : List Instr} (still : Bool) (s : State) (hk : Keeps qq s) : Keeps qq (deepLoss still s) := by
  have hr := (deepRegs_keeps still s hk).regs
  unfold deepLoss
  revert hr
  generalize (deepRegs still s).regs = r
  intro hr
  exact ⟨hk.queue, hk.mem, hk.hold, hk.dmc, hr, trivial, trivial, trivial, trivial⟩

theorem pllsOff_keeps {qq : List Instr} (s : State) (hk : Keeps qq s) :
    Keeps qq (pllsOff s) := by
  unfold pllsOff
  with_reducible repeat' (first | assumption | refine Keeps.ite (fun _ => ?_) (fun _ => ?_) | refine Keeps.fold ?_ (fun _ _ _ => ?_)
                                | refine Keeps.fold1 ?_ (fun _ _ _ => ?_) | apply rmod_keeps | apply setPllSt_keeps | apply raiseAll_keeps
                                | apply unitSwitch_keeps | fail_if_no_progress (refine Keeps.upd ?_ rfl rfl rfl rfl rfl rfl rfl rfl rfl) | split
                                | dsimp only | intro _)

theorem setPwr_keeps {qq : List Instr} (st : Nat) (y0 : State) (hk : Keeps qq y0) :
    Keeps qq (setPwr st y0) := by
  unfold setPwr
  with_reducible repeat' (first | assumption | apply rput_keeps)

theorem exitEnds_keeps {qq : List Instr} (src tsn : Nat) (coarse : Bool) (st : Nat) (s : State) (hk : Keeps qq s) :
    Keeps qq (exitEnds src tsn coarse st s) := by
  unfold exitEnds
  with_reducible repeat' (first | assumption | refine Keeps.ite (fun _ => ?_) (fun _ => ?_) | refine Keeps.fold ?_ (fun _ _ _ => ?_)
                                | refine Keeps.fold1 ?_ (fun _ _ _ => ?_) | apply rset_keeps | apply rmod_keeps | apply stageMarker_keeps
                                | apply linkTrains_keeps | apply setPwr_keeps
                                | fail_if_no_progress (refine Keeps.upd ?_ rfl rfl rfl rfl rfl rfl rfl rfl rfl) | split | dsimp only | intro _)

theorem enterState_keeps {qq : List Instr} (t : Nat) (s : State) (hk : Keeps qq s) :
    Keeps qq (enterState t s) := by
  unfold enterState
  with_reducible repeat' (first | assumption | refine Keeps.ite (fun _ => ?_) (fun _ => ?_) | apply dropEdges_keeps | apply slucesFree_keeps
                                | apply storesLost_keeps | apply saveCopy_keeps | apply stacksRefresh_keeps | apply stacksOff_keeps
                                | apply deepLoss_keeps | apply powerReply_keeps | apply pllsOff_keeps | apply setPwr_keeps
                                | fail_if_no_progress (refine Keeps.upd ?_ rfl rfl rfl rfl rfl rfl rfl rfl rfl))

theorem powerEntryComplete_keeps {qq : List Instr} (s : State) (hk : Keeps qq s) :
    Keeps qq (powerEntryComplete s) := by
  unfold powerEntryComplete
  with_reducible repeat' (first | assumption | refine Keeps.ite (fun _ => ?_) (fun _ => ?_) | apply powerReply_keeps | apply exitEnds_keeps
                                | apply enterState_keeps)

theorem stacksBack_keeps {qq : List Instr} (s : State) (hk : Keeps qq s) :
    Keeps qq (stacksBack s) := by
  unfold stacksBack
  with_reducible repeat' (first | assumption | refine Keeps.ite (fun _ => ?_) (fun _ => ?_) | apply rset_keeps | apply stackPoison_keeps
                                | apply stacksRefresh_keeps | refine Keeps.fold ?_ (fun _ _ _ => ?_))

theorem leaveState_keeps {qq : List Instr} (st : Nat) (s : State) (hk : Keeps qq s) :
    Keeps qq (leaveState st s) := by
  unfold leaveState
  with_reducible repeat' (first | assumption | refine Keeps.ite (fun _ => ?_) (fun _ => ?_) | refine Keeps.fold ?_ (fun _ _ _ => ?_)
                                | refine Keeps.fold1 ?_ (fun _ _ _ => ?_) | apply rset_keeps | apply rflag_keeps | apply bankPoison_keeps
                                | apply stacksRefresh_keeps | apply readPolicy_keeps | apply restoreCopy_keeps | apply stacksBack_keeps | split
                                | dsimp only | intro _)

theorem powerExitComplete_keeps {qq : List Instr} (s : State) (hk : Keeps qq s) :
    Keeps qq (powerExitComplete s) := by
  unfold powerExitComplete
  with_reducible repeat' (first | assumption | apply exitEnds_keeps | apply leaveState_keeps | apply powerReply_keeps | apply enterSafe_keeps
                                | apply warmAfterExit_keeps | fail_if_no_progress (refine Keeps.upd ?_ rfl rfl rfl rfl rfl rfl rfl rfl rfl)
                                | split | dsimp only)

theorem wakeSource_keeps {qq : List Instr} (src : Nat) (s : State) (hk : Keeps qq s) :
    Keeps qq (wakeSource src s) := by
  unfold wakeSource
  with_reducible repeat' (first | assumption | apply wakeBegin_keeps | apply lowerSource_keeps | apply rflag_keeps | apply rmod_keeps
                                | fail_if_no_progress (refine Keeps.upd ?_ rfl rfl rfl rfl rfl rfl rfl rfl rfl) | split | dsimp only)

theorem wakeN_keeps {qq : List Instr} (s : State) (hk : Keeps qq s) :
    Keeps qq (wakeN s) := by
  unfold wakeN
  with_reducible repeat' (first | assumption | apply wakeSource_keeps)

theorem ringWake_keeps {qq : List Instr} (s : State) (hk : Keeps qq s) :
    Keeps qq (ringWake s) := by
  unfold ringWake
  with_reducible repeat' (first | assumption | apply wakeSource_keeps)

theorem wakeTimer_keeps {qq : List Instr} (s : State) (hk : Keeps qq s) :
    Keeps qq (wakeTimer s) := by
  unfold wakeTimer
  with_reducible repeat' (first | assumption | apply wakeSource_keeps | split)

theorem vinBelow_keeps {qq : List Instr} (mv : Nat) (s : State) (hk : Keeps qq s) :
    Keeps qq (vinBelow mv s) := by
  unfold vinBelow
  with_reducible repeat' (first | assumption | refine Keeps.ite (fun _ => ?_) (fun _ => ?_) | apply rflag_keeps | apply rput_keeps)

theorem setTherm_keeps {qq : List Instr} (v : Nat) (s : State) (hk : Keeps qq s) :
    Keeps qq (setTherm v s) := by
  unfold setTherm
  with_reducible repeat' (first | assumption | refine Keeps.ite (fun _ => ?_) (fun _ => ?_) | apply throttleEvent_keeps
                                | fail_if_no_progress (refine Keeps.upd ?_ rfl rfl rfl rfl rfl rfl rfl rfl rfl))

theorem setPcap_keeps {qq : List Instr} (v : Nat) (s : State) (hk : Keeps qq s) :
    Keeps qq (setPcap v s) := by
  unfold setPcap
  with_reducible repeat' (first | assumption | refine Keeps.ite (fun _ => ?_) (fun _ => ?_) | apply throttleEvent_keeps
                                | fail_if_no_progress (refine Keeps.upd ?_ rfl rfl rfl rfl rfl rfl rfl rfl rfl))

theorem powerCapEnd_keeps {qq : List Instr} (mv : Nat) (s : State) (hk : Keeps qq s) :
    Keeps qq (powerCapEnd mv s) := by
  unfold powerCapEnd
  with_reducible repeat' (first | assumption | apply setPcap_keeps | apply rmod_keeps | apply rput_keeps | split)

theorem powerCapSample_keeps {qq : List Instr} (p mv : Nat) (s : State) (hk : Keeps qq s) :
    Keeps qq (powerCapSample p mv s) := by
  unfold powerCapSample
  with_reducible repeat' (first | assumption | refine Keeps.ite (fun _ => ?_) (fun _ => ?_) | apply rput_keeps | apply setPcap_keeps)

theorem measureTj_keeps {qq : List Instr} (tj : Nat) (s : State) (hk : Keeps qq s) :
    Keeps qq (measureTj tj s) := by
  unfold measureTj
  with_reducible repeat' (first | assumption | apply rput_keeps)

theorem thermalSample_keeps {qq : List Instr} (tj : Nat) (s : State) (hk : Keeps qq s) :
    Keeps qq (thermalSample tj s) := by
  unfold thermalSample
  with_reducible repeat' (first | assumption | refine Keeps.ite (fun _ => ?_) (fun _ => ?_) | apply measureTj_keeps | apply setTherm_keeps)

theorem faultReport_keeps {qq : List Instr} (code lk loc frame : Nat) (s : State) (hk : Keeps qq s) :
    Keeps qq (faultReport code lk loc frame s) := by
  unfold faultReport
  with_reducible repeat' (first | assumption | refine Keeps.ite (fun _ => ?_) (fun _ => ?_) | apply raiseEvent_keeps | apply raiseIn_keeps)

theorem railTrip_keeps {qq : List Instr} (r f : Nat) (s : State) (hk : Keeps qq s) :
    Keeps qq (railTrip r f s) := by
  unfold railTrip
  with_reducible repeat' (first | assumption | apply rflag_keeps | apply raiseAll_keeps | apply taintSpan_keeps | split)

theorem requestHalving_keeps {qq : List Instr} (s : State) (hk : Keeps qq s) :
    Keeps qq (requestHalving s) := by
  unfold requestHalving
  with_reducible repeat' (first | assumption | apply sendExpress_keeps | apply addEvent_keeps | split)

theorem tempEmergency_keeps {qq : List Instr} (tj : Nat) (s : State) (hk : Keeps qq s) :
    Keeps qq (tempEmergency tj s) := by
  unfold tempEmergency
  with_reducible repeat' (first | assumption | refine Keeps.ite (fun _ => ?_) (fun _ => ?_) | apply requestHalving_keeps | apply raiseEvent_keeps
                                | apply measureTj_keeps)

theorem tempCritical_keeps {qq : List Instr} (tj : Nat) (s : State) (hk : Keeps qq s) :
    Keeps qq (tempCritical tj s) := by
  unfold tempCritical
  with_reducible repeat' (first | assumption | refine Keeps.ite (fun _ => ?_) (fun _ => ?_) | apply raise_keeps | apply measureTj_keeps)

theorem instrScrubLate_keeps {qq : List Instr} (s : State) (hk : Keeps qq s) :
    Keeps qq (instrScrubLate s) := by
  unfold instrScrubLate
  with_reducible repeat' (first | assumption | refine Keeps.ite (fun _ => ?_) (fun _ => ?_) | apply raise_keeps | split)

theorem safInject_keeps {qq : List Instr} (code : Nat) (s : State) (hk : Keeps qq s) :
    Keeps qq (safInject code s) := by
  unfold safInject
  with_reducible repeat' (first | assumption | apply raiseAll_keeps | split)

theorem timePasses_keeps {qq : List Instr} (n : Nat) (s : State) (hk : Keeps qq s) :
    Keeps qq (timePasses n s) := by
  unfold timePasses
  with_reducible repeat' (first | assumption | fail_if_no_progress (refine Keeps.upd ?_ rfl rfl rfl rfl rfl rfl rfl rfl rfl))

theorem ppsPulse_keeps {qq : List Instr} (s : State) (hk : Keeps qq s) :
    Keeps qq (ppsPulse s) := by
  unfold ppsPulse
  with_reducible repeat' (first | assumption | refine Keeps.ite (fun _ => ?_) (fun _ => ?_)
                                | fail_if_no_progress (refine Keeps.upd ?_ rfl rfl rfl rfl rfl rfl rfl rfl rfl))

theorem setClock_keeps {qq : List Instr} (n : Nat) (s : State) (hk : Keeps qq s) :
    Keeps qq (setClock n s) := by
  unfold setClock
  with_reducible repeat' (first | assumption | refine Keeps.ite (fun _ => ?_) (fun _ => ?_) | apply ppsPulse_keeps
                                | fail_if_no_progress (refine Keeps.upd ?_ rfl rfl rfl rfl rfl rfl rfl rfl rfl))

theorem clockTick_keeps {qq : List Instr} (s : State) (hk : Keeps qq s) :
    Keeps qq (clockTick s) := by
  unfold clockTick
  with_reducible repeat' (first | assumption | refine Keeps.ite (fun _ => ?_) (fun _ => ?_) | apply setClock_keeps | apply timePasses_keeps)

theorem clockCarry_keeps {qq : List Instr} (s : State) (hk : Keeps qq s) :
    Keeps qq (clockCarry s) := by
  unfold clockCarry
  with_reducible repeat' (first | assumption | refine Keeps.ite (fun _ => ?_) (fun _ => ?_) | apply clockTick_keeps | split)

theorem phaseStep_keeps {qq : List Instr} (o : Int) (s : State) (hk : Keeps qq s) :
    Keeps qq (phaseStep o s) := by
  unfold phaseStep
  with_reducible repeat' (first | assumption | apply setClock_keeps | apply rset_keeps | apply rmod_keeps
                                | fail_if_no_progress (refine Keeps.upd ?_ rfl rfl rfl rfl rfl rfl rfl rfl rfl))

theorem servoRate_keeps {qq : List Instr} (r : Int) (s : State) (hk : Keeps qq s) :
    Keeps qq (servoRate r s) := by
  unfold servoRate
  with_reducible repeat' (first | assumption | fail_if_no_progress (refine Keeps.upd ?_ rfl rfl rfl rfl rfl rfl rfl rfl rfl))

theorem servoLock_keeps {qq : List Instr} (o : Int) (s : State) (hk : Keeps qq s) :
    Keeps qq (servoLock o s) := by
  unfold servoLock
  with_reducible repeat' (first | assumption | refine Keeps.ite (fun _ => ?_) (fun _ => ?_) | apply rflag_keeps | apply rmod_keeps
                                | fail_if_no_progress (refine Keeps.upd ?_ rfl rfl rfl rfl rfl rfl rfl rfl rfl))

theorem servoSample_keeps {qq : List Instr} (o r : Int) (s : State) (hk : Keeps qq s) :
    Keeps qq (servoSample o r s) := by
  unfold servoSample
  with_reducible repeat' (first | assumption | refine Keeps.ite (fun _ => ?_) (fun _ => ?_) | apply rset_keeps | apply rmod_keeps
                                | apply phaseStep_keeps | apply servoLock_keeps | apply servoRate_keeps
                                | fail_if_no_progress (refine Keeps.upd ?_ rfl rfl rfl rfl rfl rfl rfl rfl rfl))

theorem beacon_keeps {qq : List Instr} (p : Nat) (t1 t2 t3 : Int) (sub master hops gid : Nat) (valid : Bool) (s : State) (hk : Keeps qq s) :
    Keeps qq (beacon p t1 t2 t3 sub master hops gid valid s) := by
  unfold beacon
  with_reducible repeat' (first | assumption | refine Keeps.ite (fun _ => ?_) (fun _ => ?_) | apply rmod_keeps | apply rflag_keeps
                                | apply servoSample_keeps | fail_if_no_progress (refine Keeps.upd ?_ rfl rfl rfl rfl rfl rfl rfl rfl rfl) | split
                                | dsimp only | intro _)

theorem ppsIn_keeps {qq : List Instr} (sub : Nat) (s : State) (hk : Keeps qq s) :
    Keeps qq (ppsIn sub s) := by
  unfold ppsIn
  with_reducible repeat' (first | assumption | refine Keeps.ite (fun _ => ?_) (fun _ => ?_) | apply servoSample_keeps
                                | fail_if_no_progress (refine Keeps.upd ?_ rfl rfl rfl rfl rfl rfl rfl rfl rfl))

theorem holdover_keeps {qq : List Instr} (s : State) (hk : Keeps qq s) :
    Keeps qq (holdover s) := by
  unfold holdover
  with_reducible repeat' (first | assumption | apply rmod_keeps | fail_if_no_progress (refine Keeps.upd ?_ rfl rfl rfl rfl rfl rfl rfl rfl rfl))

theorem sourceLost_keeps {qq : List Instr} (s : State) (hk : Keeps qq s) :
    Keeps qq (sourceLost s) := by
  unfold sourceLost
  with_reducible repeat' (first | assumption | apply rflag_keeps | apply holdover_keeps
                                | fail_if_no_progress (refine Keeps.upd ?_ rfl rfl rfl rfl rfl rfl rfl rfl rfl) | split)

theorem crystalTime_keeps {qq : List Instr} (s : State) (hk : Keeps qq s) :
    Keeps qq (crystalTime s) := by
  unfold crystalTime
  with_reducible repeat' (first | assumption | apply rmod_keeps | fail_if_no_progress (refine Keeps.upd ?_ rfl rfl rfl rfl rfl rfl rfl rfl rfl))

theorem timCtlWrite_keeps {qq : List Instr} (v : Word) (s : State) (hk : Keeps qq s) :
    Keeps qq (timCtlWrite v s) := by
  unfold timCtlWrite
  with_reducible repeat' (first | assumption | apply rput_keeps | apply rflag_keeps | apply rmod_keeps
                                | fail_if_no_progress (refine Keeps.upd ?_ rfl rfl rfl rfl rfl rfl rfl rfl rfl) | split | dsimp only)

theorem timTrimWrite_keeps {qq : List Instr} (v : Word) (s : State) (hk : Keeps qq s) :
    Keeps qq (timTrimWrite v s) := by
  unfold timTrimWrite
  with_reducible repeat' (first | assumption | refine Keeps.ite (fun _ => ?_) (fun _ => ?_) | apply rflag_keeps
                                | fail_if_no_progress (refine Keeps.upd ?_ rfl rfl rfl rfl rfl rfl rfl rfl rfl))

theorem latchSec_keeps {qq : List Instr} (s : State) (hk : Keeps qq s) :
    Keeps qq (latchSec s) := by
  unfold latchSec
  with_reducible repeat' (first | assumption | apply rset_keeps)

theorem cmdTimeSet_keeps {qq : List Instr} (c : Cmd) (s : State) (hk : Keeps qq s) :
    Keeps qq (cmdTimeSet c s) := by
  unfold cmdTimeSet
  with_reducible repeat' (first | assumption | apply command_keeps | apply rset_keeps | apply setClock_keeps | apply rmod_keeps
                                | apply reply_keeps | intro _ | fail_if_no_progress (refine Keeps.upd ?_ rfl rfl rfl rfl rfl rfl rfl rfl rfl))

end Sys2Proof.Machine
end

