-- ==== Sys2Proof/Laws/KeepAccess.lean ====
section
/-!
SUPPORT. What every operation keeps (Laws/Keep.lean): register accesses of the host, barges, state accesses.
-/
namespace Sys2Proof.Machine

theorem readEffect_keeps {qq : List Instr} (off : Nat) (s : State) (hk : Keeps qq s) :
    Keeps qq (readEffect off s) := by
  unfold readEffect
  with_reducible repeat' (first | assumption | refine Keeps.ite (fun _ => ?_) (fun _ => ?_) | apply rset_keeps | apply rmod_keeps
                                | apply rput_keeps | apply stdRead_keeps | apply latchSec_keeps
                                | fail_if_no_progress (refine Keeps.upd ?_ rfl rfl rfl rfl rfl rfl rfl rfl rfl) | split | dsimp only)

theorem msixWrite_keeps {qq : List Instr} (off : Nat) (v : Word) (s : State) (hk : Keeps qq s) :
    Keeps qq (msixWrite off v s) := by
  unfold msixWrite
  with_reducible repeat' (first | assumption | refine Keeps.ite (fun _ => ?_) (fun _ => ?_)
                                | fail_if_no_progress (refine Keeps.upd ?_ rfl rfl rfl rfl rfl rfl rfl rfl rfl))

theorem hostFenced_keeps {qq : List Instr} (s : State) (hk : Keeps qq s) :
    Keeps qq (hostFenced s) := by
  unfold hostFenced
  with_reducible repeat' (first | assumption | apply rflag_keeps | apply rcount_keeps)

theorem bar0Read_keeps {qq : List Instr} (off len : Nat) (s : State) (hk : Keeps qq s) :
    Keeps qq (bar0Read off len s) := by
  unfold bar0Read
  with_reducible repeat' (first | assumption | apply hostCpl_keeps | apply raise_keeps | apply hostFenced_keeps | apply readEffect_keeps | split)

theorem cardWrite_keeps {qq : List Instr} (off : Nat) (v : Word) (s : State) (hk : Keeps qq s) :
    Keeps qq (cardWrite off v s) := by
  unfold cardWrite
  with_reducible repeat' (first | assumption | apply rset_keeps | split)

theorem clearWith_keeps {qq : List Instr} (off i rec_ : Nat) (v : Word) (s : State) (hk : Keeps qq s) :
    Keeps qq (clearWith off i rec_ v s) := by
  unfold clearWith
  with_reducible repeat' (first | assumption | refine Keeps.ite (fun _ => ?_) (fun _ => ?_) | apply cardWrite_keeps | apply rmod_keeps)

theorem clearAll_keeps {qq : List Instr} (off rec_ : Nat) (v : Word) (s : State) (hk : Keeps qq s) :
    Keeps qq (clearAll off rec_ v s) := by
  unfold clearAll
  with_reducible repeat' (first | assumption | refine Keeps.ite (fun _ => ?_) (fun _ => ?_) | apply cardWrite_keeps | apply rmod_keeps)

theorem writeIf_keeps {qq : List Instr} (ok : Bool) (off : Nat) (v : Word) (s : State) (hk : Keeps qq s) :
    Keeps qq (writeIf ok off v s) := by
  unfold writeIf
  with_reducible repeat' (first | assumption | refine Keeps.ite (fun _ => ?_) (fun _ => ?_) | apply cardWrite_keeps)

theorem haltReqWrite_keeps {qq : List Instr} (v : Word) (s : State) (hk : Keeps qq s) :
    Keeps qq (haltReqWrite v s) := by
  unfold haltReqWrite
  with_reducible repeat' (first | assumption | refine Keeps.ite (fun _ => ?_) (fun _ => ?_) | apply requestHalt_keeps
                                | fail_if_no_progress (refine Keeps.upd ?_ rfl rfl rfl rfl rfl rfl rfl rfl rfl))

theorem seqWrite_keeps {qq : List Instr} (off : Nat) (v : Word) (s : State) (hk : Keeps qq s) :
    Keeps qq (seqWrite off v s) := by
  unfold seqWrite
  with_reducible repeat' (first | assumption | refine Keeps.ite (fun _ => ?_) (fun _ => ?_) | apply rflag_keeps | apply configChange_keeps
                                | apply cardWrite_keeps | apply throttleEvent_keeps | apply haltReqWrite_keeps)

theorem basWrite_keeps {qq : List Instr} (off : Nat) (v : Word) (s : State) (hk : Keeps qq s) :
    Keeps qq (basWrite off v s) := by
  unfold basWrite
  with_reducible repeat' (first | assumption | refine Keeps.ite (fun _ => ?_) (fun _ => ?_) | apply rflag_keeps | apply clearWith_keeps
                                | apply cardWrite_keeps)

theorem dmcWrite_keeps {qq : List Instr} (off : Nat) (v : Word) (s : State) (hk : Keeps qq s) :
    Keeps qq (dmcWrite off v s) := by
  unfold dmcWrite
  with_reducible repeat' (first | assumption | apply clearWith_keeps | apply clearAll_keeps | apply writeIf_keeps | apply ownClear_keeps
                                | apply ownWrite_keeps | apply cardWrite_keeps | split)

theorem hldWrite_keeps {qq : List Instr} (off : Nat) (v : Word) (s : State) (hk : Keeps qq s) :
    Keeps qq (hldWrite off v s) := by
  unfold hldWrite
  with_reducible repeat' (first | assumption | refine Keeps.ite (fun _ => ?_) (fun _ => ?_) | apply clearWith_keeps | apply clearAll_keeps
                                | apply writeIf_keeps | apply regionWrite_keeps | apply cardWrite_keeps)

theorem lnkWrite_keeps {qq : List Instr} (off : Nat) (v : Word) (s : State) (hk : Keeps qq s) :
    Keeps qq (lnkWrite off v s) := by
  unfold lnkWrite
  with_reducible repeat' (first | assumption | apply lnkCtlWrite_keeps | apply lkgCfgWrite_keeps | apply lkgModeWrite_keeps
                                | apply lkgTableWrite_keeps | apply clearWith_keeps | apply cardWrite_keeps | split)

theorem xchWrite_keeps {qq : List Instr} (off : Nat) (v : Word) (s : State) (hk : Keeps qq s) :
    Keeps qq (xchWrite off v s) := by
  unfold xchWrite
  with_reducible repeat' (first | assumption | refine Keeps.ite (fun _ => ?_) (fun _ => ?_) | apply clearWith_keeps | apply wXchDone_keeps
                                | apply wXchRetLo_keeps | apply ringHiWrite_keeps | apply wXchRetPi_keeps | apply rput_keeps
                                | apply cardWrite_keeps | apply wXchRingLo_keeps | apply wXchRingCi_keeps)

theorem gauWrite_keeps {qq : List Instr} (off : Nat) (v : Word) (s : State) (hk : Keeps qq s) :
    Keeps qq (gauWrite off v s) := by
  unfold gauWrite
  with_reducible repeat' (first | assumption | apply clearWith_keeps | apply wGauRingLo_keeps | apply rflag_keeps | apply ringHiWrite_keeps
                                | apply wGauRingCi_keeps | apply wGauZdmap_keeps | apply wGauLane_keeps | apply cardWrite_keeps | split
                                | dsimp only)

theorem safWrite_keeps {qq : List Instr} (off : Nat) (v : Word) (s : State) (hk : Keeps qq s) :
    Keeps qq (safWrite off v s) := by
  unfold safWrite
  with_reducible repeat' (first | assumption | refine Keeps.ite (fun _ => ?_) (fun _ => ?_) | apply writeIf_keeps | apply safInject_keeps
                                | apply cardWrite_keeps)

theorem ckgWrite_keeps {qq : List Instr} (off : Nat) (v : Word) (e : SwitchEnd) (s : State) (hk : Keeps qq s) :
    Keeps qq (ckgWrite off v e s) := by
  unfold ckgWrite
  with_reducible repeat' (first | assumption | refine Keeps.ite (fun _ => ?_) (fun _ => ?_) | apply enWrite_keeps | apply tolWrite_keeps
                                | apply mhzWrite_keeps | apply restoreRequest_keeps | apply cardWrite_keeps)

theorem pwrWrite_keeps {qq : List Instr} (off : Nat) (v : Word) (s : State) (hk : Keeps qq s) :
    Keeps qq (pwrWrite off v s) := by
  unfold pwrWrite
  with_reducible repeat' (first | assumption | refine Keeps.ite (fun _ => ?_) (fun _ => ?_) | apply writeIf_keeps | apply rput_keeps
                                | apply cardWrite_keeps)

theorem bnwWrite_keeps {qq : List Instr} (off : Nat) (v : Word) (s : State) (hk : Keeps qq s) :
    Keeps qq (bnwWrite off v s) := by
  unfold bnwWrite
  with_reducible repeat' (first | assumption | refine Keeps.ite (fun _ => ?_) (fun _ => ?_) | apply cardWrite_keeps | apply rflag_keeps
                                | apply clearWith_keeps)

theorem timWrite_keeps {qq : List Instr} (off : Nat) (v : Word) (s : State) (hk : Keeps qq s) :
    Keeps qq (timWrite off v s) := by
  unfold timWrite
  with_reducible repeat' (first | assumption | refine Keeps.ite (fun _ => ?_) (fun _ => ?_) | apply timCtlWrite_keeps | apply timTrimWrite_keeps
                                | apply cardWrite_keeps)

theorem trcWrite_keeps {qq : List Instr} (off : Nat) (v : Word) (s : State) (hk : Keeps qq s) :
    Keeps qq (trcWrite off v s) := by
  unfold trcWrite
  with_reducible repeat' (first | assumption | apply trcArmWrite_keeps | apply trcDisarmWrite_keeps | apply trcRpWrite_keeps
                                | apply cardWrite_keeps | apply rflag_keeps | split)

theorem loseRing_keeps {qq : List Instr} (i : Nat) (s : State) (hk : Keeps qq s) :
    Keeps qq (loseRing i s) := by
  unfold loseRing
  with_reducible repeat' (first | assumption | fail_if_no_progress (refine Keeps.upd ?_ rfl rfl rfl rfl rfl rfl rfl rfl rfl))

theorem lkpRingLo_keeps {qq : List Instr} (i : Nat) (r : RingRegs) (v : Word) (s : State) (hk : Keeps qq s) :
    Keeps qq (lkpRingLo i r v s) := by
  unfold lkpRingLo
  split
  · have h1 := ringLoWrite_keeps _ _ _ _ _ hk _ ‹_›
    exact Keeps.ite (fun _ => h1) (fun _ => loseRing_keeps _ _ h1)
  · exact hk

theorem mboxGo_keeps {qq : List Instr} (v : Word) (s : State) (hk : Keeps qq s) :
    Keeps qq (mboxGo v s) := by
  unfold mboxGo
  with_reducible repeat' (first | assumption | apply cardWrite_keeps)

theorem lkpWrite_keeps {qq : List Instr} (off : Nat) (v : Word) (s : State) (hk : Keeps qq s) : Keeps qq (lkpWrite off v s) := by
  unfold lkpWrite
  with_reducible repeat' (first | assumption | apply msixWrite_keeps | apply writeIf_keeps | apply mboxGo_keeps | apply cardWrite_keeps
                                | apply lkpRingLo_keeps | apply ringHiWrite_keeps | exact Keeps.getD (ringIdxWrite_keeps _ _ _ _ hk) hk | split)

theorem regWrite_keeps {qq : List Instr} (off : Nat) (v : Word) (e : SwitchEnd) (s : State) (hk : Keeps qq s) :
    Keeps qq (regWrite off v e s) := by
  unfold regWrite
  with_reducible repeat' (first | assumption | apply lkpWrite_keeps | apply ckgWrite_keeps | apply pwrWrite_keeps | apply cfgRstWrite_keeps
                                | apply cardWrite_keeps | apply safWrite_keeps | apply stdWrite_keeps | apply timWrite_keeps
                                | apply trcWrite_keeps | apply seqWrite_keeps | apply lnkWrite_keeps | apply bnwWrite_keeps
                                | apply xchWrite_keeps | apply gauWrite_keeps | apply hldWrite_keeps | apply dmcWrite_keeps
                                | apply basWrite_keeps | split)

theorem writeLost_keeps {qq : List Instr} (reason off : Nat) (s : State) (hk : Keeps qq s) :
    Keeps qq (writeLost reason off s) := by
  unfold writeLost
  with_reducible repeat' (first | assumption | refine Keeps.ite (fun _ => ?_) (fun _ => ?_) | apply rset_keeps | apply rcount_keeps | split
                                | dsimp only)

theorem ownedWrite_keeps {qq : List Instr} (off : Nat) (v : Word) (e : SwitchEnd) (s : State) (clash : Bool) (hk : Keeps qq s) :
    Keeps qq (ownedWrite off v e s clash) := by
  unfold ownedWrite
  with_reducible repeat' (first | assumption | refine Keeps.ite (fun _ => ?_) (fun _ => ?_) | apply writeLost_keeps | apply regWrite_keeps)

theorem hostWrite_keeps {qq : List Instr} (off : Nat) (v : Word) (e : SwitchEnd) (s : State) (clash : Bool) (hk : Keeps qq s) :
    Keeps qq (hostWrite off v e s clash) := by
  unfold hostWrite
  with_reducible repeat' (first | assumption | apply hostFenced_keeps | apply ownedWrite_keeps | split)

theorem bar0Write_keeps {qq : List Instr} (off : Nat) (data : List Byte) (e : SwitchEnd) (s : State) (clash : Bool) (hk : Keeps qq s) :
    Keeps qq (bar0Write off data e s clash) := by
  unfold bar0Write
  with_reducible repeat' (first | assumption | refine Keeps.ite (fun _ => ?_) (fun _ => ?_) | apply raise_keeps | apply hostWrite_keeps)

theorem bargeReply_keeps {qq : List Instr} (b : Barge) (status code : Nat) (data : List Byte) (s : State) (hk : Keeps qq s) :
    Keeps qq (bargeReply b status code data s) := by
  unfold bargeReply
  with_reducible repeat' (first | assumption | fail_if_no_progress (refine Keeps.upd ?_ rfl rfl rfl rfl rfl rfl rfl rfl rfl))

theorem bargeTurned_keeps {qq : List Instr} (b : Barge) (s : State) (hk : Keeps qq s) :
    Keeps qq (bargeTurned b s) := by
  unfold bargeTurned
  with_reducible repeat' (first | assumption | apply bargeReply_keeps)

theorem bargeFenced_keeps {qq : List Instr} (b : Barge) (s : State) (hk : Keeps qq s) :
    Keeps qq (bargeFenced b s) := by
  unfold bargeFenced
  with_reducible repeat' (first | assumption | apply rcount_keeps | apply bargeTurned_keeps)

theorem bargeBad_keeps {qq : List Instr} (s : State) (hk : Keeps qq s) :
    Keeps qq (bargeBad s) := by
  unfold bargeBad
  with_reducible repeat' (first | assumption | apply rflag_keeps | apply rcount_keeps)

theorem bargeSent_keeps {qq : List Instr} (b : Barge) (s : State) (hk : Keeps qq s) :
    Keeps qq (bargeSent b s) := by
  unfold bargeSent
  with_reducible repeat' (first | assumption | fail_if_no_progress (refine Keeps.upd ?_ rfl rfl rfl rfl rfl rfl rfl rfl rfl))

theorem svcArrive_keeps {qq : List Instr} (r : SvcReq) (s : State) (hk : Keeps qq s) :
    Keeps qq (svcArrive r s) := by
  unfold svcArrive
  with_reducible repeat' (first | assumption | refine Keeps.ite (fun _ => ?_) (fun _ => ?_) | apply serviceRequest_keeps | apply serviceAccess_keeps)

theorem wordSend_keeps {qq : List Instr} (r : SvcReq) (s : State) (hk : Keeps qq s) :
    Keeps qq (wordSend r s) := by
  unfold wordSend
  with_reducible repeat' (first | assumption | apply svcArrive_keeps | split)

theorem dmcBarge_keeps {qq : List Instr} (b : Barge) (s : State) (hk : Keeps qq s) :
    Keeps qq (dmcBarge b s) := by
  unfold dmcBarge
  with_reducible repeat' (first | assumption | apply wordSend_keeps | apply bargeReply_keeps | refine Keeps.fold ?_ (fun _ _ _ => ?_)
                                | fail_if_no_progress (refine Keeps.upd ?_ rfl rfl rfl rfl rfl rfl rfl rfl rfl) | split | dsimp only)

theorem holdBarge_keeps {qq : List Instr} (b : Barge) (s : State) (hk : Keeps qq s) :
    Keeps qq (holdBarge b s).1 := by
  unfold holdBarge
  with_reducible repeat' (first | assumption | refine Keeps.ite (fun _ => ?_) (fun _ => ?_) | refine Keeps.ite1 (fun _ => ?_) (fun _ => ?_)
                                | apply jobArrives_keeps | apply bargeReply_keeps | split | dsimp only)

theorem bar4Away_keeps {qq : List Instr} (a : Nat) (s : State) (hk : Keeps qq s) :
    Keeps qq (bar4Away a s) := by
  unfold bar4Away
  with_reducible repeat' (first | assumption | refine Keeps.ite (fun _ => ?_) (fun _ => ?_) | apply hostHold_keeps)

theorem jobEnds_keeps {qq : List Instr} (s : State) (j : HoldJob) (hk : Keeps qq s) :
    Keeps qq (jobEnds s j) := by
  unfold jobEnds
  with_reducible repeat' (first | assumption | refine Keeps.ite (fun _ => ?_) (fun _ => ?_) | apply rcount_keeps | apply hostCpl_keeps
                                | apply hostHold_keeps | apply bargeReply_keeps
                                | fail_if_no_progress (refine Keeps.upd ?_ rfl rfl rfl rfl rfl rfl rfl rfl rfl) | split | dsimp only)

theorem jobsEnd_keeps {qq : List Instr} (s : State) (hk : Keeps qq s) :
    Keeps qq (jobsEnd s) := by
  unfold jobsEnd
  with_reducible repeat' (first | assumption | refine Keeps.fold ?_ (fun _ _ _ => ?_) | refine Keeps.fold1 ?_ (fun _ _ _ => ?_)
                                | apply jobsLeave_keeps | apply traceEnds_keeps | apply jobEnds_keeps)

theorem holdSettle_keeps {qq : List Instr} (x : State × List Report) (hk : Keeps qq x.1) :
    Keeps qq (holdSettle x) := by
  unfold holdSettle
  with_reducible repeat' (first | assumption | apply settle_keeps | apply jobsEnd_keeps)

theorem bar4Read_keeps {qq : List Instr} (a len : Nat) (s : State) (hk : Keeps qq s) :
    Keeps qq (bar4Read a len s) := by
  unfold bar4Read
  with_reducible repeat' (first | assumption | refine Keeps.ite (fun _ => ?_) (fun _ => ?_) | apply hostCpl_keeps | apply jobArrives_keeps
                                | apply hostHold_keeps | apply hostFenced_keeps | apply bar4Away_keeps | apply holdSettle_keeps | split
                                | dsimp only)

theorem bar4Write_keeps {qq : List Instr} (a : Nat) (data : List Byte) (s : State) (hk : Keeps qq s) :
    Keeps qq (bar4Write a data s) := by
  unfold bar4Write
  with_reducible repeat' (first | assumption | refine Keeps.ite (fun _ => ?_) (fun _ => ?_) | apply jobArrives_keeps | apply hostHold_keeps
                                | apply hostFenced_keeps | apply bar4Away_keeps | apply holdSettle_keeps | split | dsimp only)

theorem regBarge_keeps {qq : List Instr} (b : Barge) (s : State) (hk : Keeps qq s) :
    Keeps qq (regBarge b s) := by
  unfold regBarge
  with_reducible repeat' (first | assumption | refine Keeps.ite (fun _ => ?_) (fun _ => ?_) | apply bargeReply_keeps | apply readEffect_keeps
                                | apply ownedWrite_keeps)

theorem bargeServe_keeps {qq : List Instr} (b : Barge) (s : State) (hk : Keeps qq s) :
    Keeps qq (bargeServe b s) := by
  unfold bargeServe
  with_reducible repeat' (first | assumption | refine Keeps.ite (fun _ => ?_) (fun _ => ?_) | apply hostPut_keeps | apply bargeReply_keeps
                                | apply dmcBarge_keeps | apply holdBarge_keeps | apply holdSettle_keeps | apply regBarge_keeps | split)

theorem peerTake_keeps {qq : List Instr} (n m : Nat) (s : State) (hk : Keeps qq s) :
    Keeps qq (peerTake n m s) := by
  unfold peerTake
  with_reducible repeat' (first | assumption | apply setLnk_keeps | fail_if_no_progress (refine Keeps.upd ?_ rfl rfl rfl rfl rfl rfl rfl rfl rfl))

theorem peerGive_keeps {qq : List Instr} (n m : Nat) (s : State) (hk : Keeps qq s) :
    Keeps qq (peerGive n m s) := by
  unfold peerGive
  with_reducible repeat' (first | assumption | apply setLnk_keeps | fail_if_no_progress (refine Keeps.upd ?_ rfl rfl rfl rfl rfl rfl rfl rfl rfl))

theorem remoteSend_keeps {qq : List Instr} (b : Barge) (s : State) (hk : Keeps qq s) :
    Keeps qq (remoteSend b s) := by
  unfold remoteSend
  with_reducible repeat' (first | assumption | refine Keeps.ite (fun _ => ?_) (fun _ => ?_) | apply flitsSend_keeps | apply bargeTurned_keeps
                                | apply peerTake_keeps | fail_if_no_progress (refine Keeps.upd ?_ rfl rfl rfl rfl rfl rfl rfl rfl rfl) | split
                                | dsimp only)

theorem bargeArrival_keeps {qq : List Instr} (b : Barge) (served : Bool) (via : Nat) (s : State) (hk : Keeps qq s) :
    Keeps qq (bargeArrival b served via s) := by
  unfold bargeArrival
  with_reducible repeat' (first | assumption | refine Keeps.ite (fun _ => ?_) (fun _ => ?_) | apply bargeTurned_keeps | apply bargeFenced_keeps
                                | apply bargeBad_keeps | apply bargeSent_keeps | apply bargeServe_keeps | apply remoteSend_keeps
                                | fail_if_no_progress (refine Keeps.upd ?_ rfl rfl rfl rfl rfl rfl rfl rfl rfl) | split | dsimp only)

theorem cmdBargeEnd_keeps {qq : List Instr} (tag status : Nat) (s : State) (hk : Keeps qq s) :
    Keeps qq (cmdBargeEnd tag status s) := by
  unfold cmdBargeEnd
  with_reducible repeat' (first | assumption | apply accessAnswer_keeps | apply loadFails_keeps | apply reply_keeps
                                | fail_if_no_progress (refine Keeps.upd ?_ rfl rfl rfl rfl rfl rfl rfl rfl rfl) | split)

theorem hostOutcome_keeps {qq : List Instr} (b r : Barge) (s : State) (hk : Keeps qq s) :
    Keeps qq (hostOutcome b r s) := by
  unfold hostOutcome
  with_reducible repeat' (first | assumption | apply rflag_keeps | apply hostCode_keeps | apply hostHold_keeps | apply hostCpl_keeps | split
                                | dsimp only)

theorem replyBack_keeps {qq : List Instr} (r b : Barge) (s : State) (hk : Keeps qq s) :
    Keeps qq (replyBack r b s) := by
  unfold replyBack
  with_reducible repeat' (first | assumption | refine Keeps.ite (fun _ => ?_) (fun _ => ?_) | apply flitsSend_keeps
                                | fail_if_no_progress (refine Keeps.upd ?_ rfl rfl rfl rfl rfl rfl rfl rfl rfl) | split | dsimp only)

theorem linkFrees_keeps {qq : List Instr} (b : Barge) (s : State) (hk : Keeps qq s) :
    Keeps qq (linkFrees b s) := by
  unfold linkFrees
  with_reducible repeat' (first | assumption | refine Keeps.fold ?_ (fun _ _ _ => ?_) | refine Keeps.fold1 ?_ (fun _ _ _ => ?_)
                                | apply peerGive_keeps | fail_if_no_progress (refine Keeps.upd ?_ rfl rfl rfl rfl rfl rfl rfl rfl rfl)
                                | dsimp only | intro _)

theorem replyGone_keeps {qq : List Instr} (r : Barge) (s : State) (hk : Keeps qq s) :
    Keeps qq (replyGone r s) := by
  unfold replyGone
  with_reducible repeat' (first | assumption | fail_if_no_progress (refine Keeps.upd ?_ rfl rfl rfl rfl rfl rfl rfl rfl rfl))

theorem replyArrives_keeps {qq : List Instr} (r : Barge) (s : State) (hk : Keeps qq s) :
    Keeps qq (replyArrives r s) := by
  unfold replyArrives
  with_reducible repeat' (first | assumption | refine Keeps.ite (fun _ => ?_) (fun _ => ?_) | apply rcount_keeps | apply bargeBad_keeps
                                | apply cmdBargeEnd_keeps | apply hostOutcome_keeps | apply replyBack_keeps | apply linkFrees_keeps
                                | apply replyGone_keeps | fail_if_no_progress (refine Keeps.upd ?_ rfl rfl rfl rfl rfl rfl rfl rfl rfl) | split
                                | dsimp only)

theorem bargeTimeout_keeps {qq : List Instr} (b : Barge) (s : State) (hk : Keeps qq s) :
    Keeps qq (bargeTimeout b s) := by
  unfold bargeTimeout
  with_reducible repeat' (first | assumption | refine Keeps.ite (fun _ => ?_) (fun _ => ?_) | apply rflag_keeps | apply rcount_keeps
                                | apply rset_keeps | apply hostCpl_keeps | apply cmdBargeEnd_keeps
                                | fail_if_no_progress (refine Keeps.upd ?_ rfl rfl rfl rfl rfl rfl rfl rfl rfl))

theorem drainTimeout_keeps {qq : List Instr} (n : Nat) (s : State) (hk : Keeps qq s) :
    Keeps qq (drainTimeout n s) := by
  unfold drainTimeout
  with_reducible repeat' (first | assumption | refine Keeps.ite (fun _ => ?_) (fun _ => ?_) | refine Keeps.fold ?_ (fun _ _ _ => ?_)
                                | refine Keeps.fold1 ?_ (fun _ _ _ => ?_) | apply rflag_keeps | apply controlSend_keeps | apply drainEnds_keeps
                                | apply abandon_keeps | apply bargeTimeout_keeps
                                | fail_if_no_progress (refine Keeps.upd ?_ rfl rfl rfl rfl rfl rfl rfl rfl rfl) | split | dsimp only | intro _)

theorem bar2Word_keeps {qq : List Instr} (b : Barge) (s : State) (hk : Keeps qq s) :
    Keeps qq (bar2Word b s) := by
  unfold bar2Word
  with_reducible repeat' (first | assumption | refine Keeps.ite (fun _ => ?_) (fun _ => ?_) | apply hostCpl_keeps | apply hostFenced_keeps
                                | apply svcArrive_keeps | split | dsimp only)

theorem bar2Goes_keeps {qq : List Instr} (n : Nat) (s : State) (hk : Keeps qq s) : Keeps qq (bar2Goes n s) := by
  induction n generalizing s with
  | zero => exact hk
  | succ n ih =>
    unfold bar2Goes
    split
    · exact Keeps.ite (fun _ => ih _ (bar2Word_keeps _ _ (hk.same _ rfl rfl rfl rfl rfl rfl rfl rfl rfl))) (fun _ => hk)
    · exact hk

theorem bar2Pump_keeps {qq : List Instr} (s : State) (hk : Keeps qq s) :
    Keeps qq (bar2Pump s) := by
  unfold bar2Pump
  with_reducible repeat' (first | assumption | apply bar2Goes_keeps)

theorem bar2Send_keeps {qq : List Instr} (bs : List Barge) (s : State) (hk : Keeps qq s) :
    Keeps qq (bar2Send bs s) := by
  unfold bar2Send
  with_reducible repeat' (first | assumption | apply bar2Pump_keeps
                                | fail_if_no_progress (refine Keeps.upd ?_ rfl rfl rfl rfl rfl rfl rfl rfl rfl))

theorem bar2Read_keeps {qq : List Instr} (off len : Nat) (s : State) (hk : Keeps qq s) :
    Keeps qq (bar2Read off len s) := by
  unfold bar2Read
  with_reducible repeat' (first | assumption | refine Keeps.ite (fun _ => ?_) (fun _ => ?_) | apply hostCpl_keeps | apply hostFenced_keeps
                                | apply bar2Send_keeps | split)

theorem bar2Write_keeps {qq : List Instr} (off : Nat) (data : List Byte) (s : State) (hk : Keeps qq s) :
    Keeps qq (bar2Write off data s) := by
  unfold bar2Write
  with_reducible repeat' (first | assumption | refine Keeps.ite (fun _ => ?_) (fun _ => ?_) | apply hostFenced_keeps | apply bar2Send_keeps
                                | split)

theorem putRun_keeps {qq : List Instr} (a a' : AccessRun) (s : State) (hk : Keeps qq s) :
    Keeps qq (putRun a a' s) := by
  unfold putRun
  with_reducible repeat' (first | assumption | fail_if_no_progress (refine Keeps.upd ?_ rfl rfl rfl rfl rfl rfl rfl rfl rfl))

theorem writeItem_keeps {qq : List Instr} (j : AccessJob) (i v : Nat) (s : State) (hk : Keeps qq s) :
    Keeps qq (writeItem j i v s) := by
  unfold writeItem
  with_reducible repeat' (first | assumption | apply setCl_keeps | apply setSlu_keeps | split)

theorem writeItems_keeps {qq : List Instr} (j : AccessJob) (n : Nat) (s : State) (hk : Keeps qq s) :
    Keeps qq (writeItems j n s) := by
  unfold writeItems
  with_reducible repeat' (first | assumption | apply writeItem_keeps | refine Keeps.fold ?_ (fun _ _ _ => ?_))

theorem restoredOn_keeps {qq : List Instr} (d : Nat) (s : State) (hk : Keeps qq s) :
    Keeps qq (restoredOn d s) := by
  unfold restoredOn
  with_reducible repeat' (first | assumption | fail_if_no_progress (refine Keeps.upd ?_ rfl rfl rfl rfl rfl rfl rfl rfl rfl) | split | dsimp only)

theorem writeDone_keeps {qq : List Instr} (s : State) (hk : Keeps qq s) :
    Keeps qq (writeDone s) := by
  unfold writeDone
  with_reducible repeat' (first | assumption | apply ringSendAll_keeps | apply restoredOn_keeps)

theorem accessStep_keeps {qq : List Instr} (a : AccessRun) (s : State) (hk : Keeps qq s) (x : AccessRun × State)
    (hx : accessStep a s = some x) : Keeps qq x.2 := by
  unfold accessStep at hx
  dsimp only at hx
  split at hx
  · obtain ⟨r, -, rfl⟩ := Option.map_eq_some_iff.1 hx
    exact putRun_keeps _ _ _ (hk.same _ rfl rfl rfl rfl rfl rfl rfl rfl rfl)
  · split at hx
    · obtain rfl := Option.some.inj hx
      exact svcArrive_keeps _ _ (putRun_keeps _ _ _ hk)
    · cases hx

theorem accessGoes_keeps {qq : List Instr} (n : Nat) (a : AccessRun) (s : State) (hk : Keeps qq s) :
    Keeps qq (accessGoes n a s) := by
  induction n generalizing a s with
  | zero => exact hk
  | succ k ih =>
    unfold accessGoes
    split
    · exact ih _ _ (accessStep_keeps _ _ hk _ ‹_›)
    · refine Keeps.ite (fun _ => hk) fun _ => accessAnswer_keeps _ _ _ (Keeps.ite (fun _ => writeDone_keeps _ hk) fun _ => hk)

theorem accessPump_keeps {qq : List Instr} (s : State) (hk : Keeps qq s) :
    Keeps qq (accessPump s) := by
  unfold accessPump
  with_reducible repeat' (first | assumption | apply accessGoes_keeps | refine Keeps.fold ?_ (fun _ _ _ => ?_))

theorem accessBegins_keeps {qq : List Instr} (c : Cmd) (write : Bool) (count status : Nat) (s : State) (hk : Keeps qq s) :
    Keeps qq (accessBegins c write count status s) := by
  unfold accessBegins
  with_reducible repeat' (first | assumption | apply reply_keeps | apply rcount_keeps | apply started_keeps | apply accessGoes_keeps
                                | apply writeItems_keeps | apply writeDone_keeps | apply hostPut_keeps
                                | fail_if_no_progress (refine Keeps.upd ?_ rfl rfl rfl rfl rfl rfl rfl rfl rfl) | split | dsimp only)

theorem cmdStateRead_keeps {qq : List Instr} (c : Cmd) (s : State) (hk : Keeps qq s) :
    Keeps qq (cmdStateRead c s) := by
  unfold cmdStateRead
  with_reducible repeat' (first | assumption | apply command_keeps | apply accessBegins_keeps)

theorem cmdStateWrite_keeps {qq : List Instr} (c : Cmd) (s : State) (hk : Keeps qq s) :
    Keeps qq (cmdStateWrite c s) := by
  unfold cmdStateWrite
  with_reducible repeat' (first | assumption | apply command_keeps | apply accessBegins_keeps)

theorem stateWriteError_keeps {qq : List Instr} (c : Cmd) (done : Nat) (s : State) (hk : Keeps qq s) :
    Keeps qq (stateWriteError c done s) := by
  unfold stateWriteError
  with_reducible repeat' (first | assumption | apply command_keeps | apply accessBegins_keeps)

end Sys2Proof.Machine
end

