-- ==== Sys2Proof/Laws/KeepLkp.lean ====
section
/-!
SUPPORT. What every operation keeps (Laws/Keep.lean): the commands of the lockkeeper.
-/
namespace Sys2Proof.Machine

theorem pendRun_keeps {qq : List Instr} (c : Cmd) (cont : Bool) (steps sec ns : Nat) (s : State) (hk : Keeps qq s) :
    Keeps qq (pendRun c cont steps sec ns s) := by
  unfold pendRun
  with_reducible repeat' (first | assumption | apply started_keeps | apply ringSendAll_keeps
                                | fail_if_no_progress (refine Keeps.upd ?_ rfl rfl rfl rfl rfl rfl rfl rfl rfl))

theorem cmdRun_keeps {qq : List Instr} (c : Cmd) (s : State) (hk : Keeps qq s) :
    Keeps qq (cmdRun c s) := by
  unfold cmdRun
  with_reducible repeat' (first | assumption | apply command_keeps | apply pendRun_keeps)

theorem cmdStepFrames_keeps {qq : List Instr} (c : Cmd) (s : State) (hk : Keeps qq s) :
    Keeps qq (cmdStepFrames c s) := by
  unfold cmdStepFrames
  with_reducible repeat' (first | assumption | apply command_keeps | apply pendRun_keeps)

theorem runReply_keeps {qq : List Instr} (status r0 r1 r2 : Nat) (s : State) (hk : Keeps qq s) :
    Keeps qq (runReply status r0 r1 r2 s) := by
  unfold runReply
  with_reducible repeat' (first | assumption | apply reply_keeps | split)

theorem cancelRun_keeps {qq : List Instr} (status : Nat) (s : State) (hk : Keeps qq s) :
    Keeps qq (cancelRun status s) := by
  unfold cancelRun
  with_reducible repeat' (first | assumption | refine Keeps.ite (fun _ => ?_) (fun _ => ?_) | apply runReply_keeps
                                | fail_if_no_progress (refine Keeps.upd ?_ rfl rfl rfl rfl rfl rfl rfl rfl rfl))

theorem runStart_keeps {qq : List Instr} (s : State) (hk : Keeps qq s) :
    Keeps qq (runStart s) := by
  unfold runStart
  with_reducible repeat' (first | assumption | apply ringSendAll_keeps | apply cancelRun_keeps | apply beginRun_keeps | apply runReply_keeps | split)

theorem haltReply_keeps {qq : List Instr} (c : Cmd) (s : State) (hk : Keeps qq s) :
    Keeps qq (haltReply c s) := by
  unfold haltReply
  with_reducible repeat' (first | assumption | apply reply_keeps)

theorem cmdHalt_keeps {qq : List Instr} (c : Cmd) (s : State) (hk : Keeps qq s) :
    Keeps qq (cmdHalt c s) := by
  unfold cmdHalt
  with_reducible repeat' (first | assumption | refine Keeps.ite (fun _ => ?_) (fun _ => ?_) | apply command_keeps | apply ringSendAll_keeps
                                | apply cancelRun_keeps | apply requestHalt_keeps | apply started_keeps | apply haltReply_keeps | intro _)

theorem cmdFence_keeps {qq : List Instr} (c : Cmd) (s : State) (hk : Keeps qq s) :
    Keeps qq (cmdFence c s) := by
  unfold cmdFence
  with_reducible repeat' (first | assumption | apply started_keeps | apply command_keeps | apply fenceSettle_keeps | apply startDrains_keeps
                                | fail_if_no_progress (refine Keeps.upd ?_ rfl rfl rfl rfl rfl rfl rfl rfl rfl) | dsimp only | intro _)

theorem cmdUnfence_keeps {qq : List Instr} (c : Cmd) (s : State) (hk : Keeps qq s) :
    Keeps qq (cmdUnfence c s) := by
  unfold cmdUnfence
  with_reducible repeat' (first | assumption | apply command_keeps | apply rmod_keeps | apply reply_keeps
                                | refine Keeps.fold ?_ (fun _ _ _ => ?_) | intro _)

theorem cmdTraceArm_keeps {qq : List Instr} (c : Cmd) (s : State) (hk : Keeps qq s) :
    Keeps qq (cmdTraceArm c s) := by
  unfold cmdTraceArm
  with_reducible repeat' (first | assumption | refine Keeps.ite (fun _ => ?_) (fun _ => ?_) | apply command_keeps | apply reply_keeps
                                | apply arm_keeps | apply disarm_keeps | intro _)

theorem cmdUnseal_keeps {qq : List Instr} (c : Cmd) (s : State) (hk : Keeps qq s) :
    Keeps qq (cmdUnseal c s) := by
  unfold cmdUnseal
  with_reducible repeat' (first | assumption | apply command_keeps | apply rflag_keeps | apply reply_keeps | apply rput_keeps | intro _
                                | fail_if_no_progress (refine Keeps.upd ?_ rfl rfl rfl rfl rfl rfl rfl rfl rfl) | split)

theorem cmdSelftest_keeps {qq : List Instr} (failing : Nat) (c : Cmd) (s : State) (hk : Keeps qq s) :
    Keeps qq (cmdSelftest failing c s) := by
  unfold cmdSelftest
  with_reducible repeat' (first | assumption | apply command_keeps | apply reply_keeps)

theorem cmdFaultRead_keeps {qq : List Instr} (c : Cmd) (s : State) (hk : Keeps qq s) :
    Keeps qq (cmdFaultRead c s) := by
  unfold cmdFaultRead
  with_reducible repeat' (first | assumption | refine Keeps.ite (fun _ => ?_) (fun _ => ?_) | apply command_keeps | apply hostPut_keeps
                                | apply reply_keeps | intro _ | fail_if_no_progress (refine Keeps.upd ?_ rfl rfl rfl rfl rfl rfl rfl rfl rfl))

theorem dumpChecks_keeps {qq : List Instr} (s : State) (hk : Keeps qq s) :
    Keeps qq (dumpChecks s) := by
  unfold dumpChecks
  with_reducible repeat' (first | assumption | refine Keeps.ite (fun _ => ?_) (fun _ => ?_) | refine Keeps.fold ?_ (fun _ _ _ => ?_)
                                | refine Keeps.fold1 ?_ (fun _ _ _ => ?_) | apply stdRead_keeps | split | intro _)

theorem cmdFaultDump_keeps {qq : List Instr} (c : Cmd) (s : State) (hk : Keeps qq s) :
    Keeps qq (cmdFaultDump c s) := by
  unfold cmdFaultDump
  with_reducible repeat' (first | assumption | refine Keeps.ite (fun _ => ?_) (fun _ => ?_) | apply hostPut_keeps | apply reply_keeps
                                | apply command_keeps | apply dumpChecks_keeps | split | intro _)

theorem tblPut_keeps {qq : List Instr} (s0 : State) (c : Cmd) (s : State) (hk : Keeps qq s) :
    Keeps qq (tblPut s0 c s) := by
  unfold tblPut
  with_reducible repeat' (first | assumption | refine Keeps.ite (fun _ => ?_) (fun _ => ?_) | refine Keeps.fold ?_ (fun _ _ _ => ?_)
                                | fail_if_no_progress (refine Keeps.upd ?_ rfl rfl rfl rfl rfl rfl rfl rfl rfl))

theorem tableLoad_keeps {qq : List Instr} (bad : Bool) (c : Cmd) (s : State) (hk : Keeps qq s) :
    Keeps qq (tableLoad bad c s) := by
  unfold tableLoad
  with_reducible repeat' (first | assumption | refine Keeps.ite (fun _ => ?_) (fun _ => ?_) | apply command_keeps | apply reply_keeps
                                | apply tblPut_keeps | intro _)

theorem cmdIsolate_keeps {qq : List Instr} (c : Cmd) (s : State) (hk : Keeps qq s) :
    Keeps qq (cmdIsolate c s) := by
  unfold cmdIsolate
  with_reducible repeat' (first | assumption | apply command_keeps | apply rflag_keeps | apply lnkCtlWrite_keeps | apply reply_keeps
                                | refine Keeps.fold ?_ (fun _ _ _ => ?_) | intro _)

theorem resetGroup_keeps {qq : List Instr} (c : Cmd) (s : State) (hk : Keeps qq s) :
    Keeps qq (resetGroup c s) := by
  unfold resetGroup
  with_reducible repeat' (first | assumption | apply started_keeps | apply ringSendAll_keeps
                                | fail_if_no_progress (refine Keeps.upd ?_ rfl rfl rfl rfl rfl rfl rfl rfl rfl))

theorem cmdReset_keeps {qq : List Instr} (c : Cmd) (s : State) (hk : Keeps qq s) :
    Keeps qq (cmdReset c s) := by
  unfold cmdReset
  with_reducible repeat' (first | assumption | apply command_keeps | apply requestWarm_keeps | apply reply_keeps | apply resetGroup_keeps
                                | intro _ | fail_if_no_progress (refine Keeps.upd ?_ rfl rfl rfl rfl rfl rfl rfl rfl rfl) | split)

theorem seqSetHere_keeps {qq : List Instr} (g mask flight lock thr ovr tmo : Nat) (s : State) (hk : Keeps qq s) :
    Keeps qq (seqSetHere g mask flight lock thr ovr tmo s) := by
  unfold seqSetHere
  with_reducible repeat' (first | assumption | refine Keeps.ite (fun _ => ?_) (fun _ => ?_) | apply rset_keeps | apply configChange_keeps
                                | apply throttleEvent_keeps)

theorem cmdSeqSet_keeps {qq : List Instr} (c : Cmd) (s : State) (hk : Keeps qq s) :
    Keeps qq (cmdSeqSet c s) := by
  unfold cmdSeqSet
  with_reducible repeat' (first | assumption | apply command_keeps | apply ringSendAll_keeps | apply seqSetHere_keeps | apply started_keeps
                                | intro _ | fail_if_no_progress (refine Keeps.upd ?_ rfl rfl rfl rfl rfl rfl rfl rfl rfl))

theorem cmdStdWrite_keeps {qq : List Instr} (c : Cmd) (s : State) (hk : Keeps qq s) :
    Keeps qq (cmdStdWrite c s) := by
  unfold cmdStdWrite
  with_reducible repeat' (first | assumption | apply command_keeps | apply reply_keeps | apply stdWrite_keeps | apply started_keeps | intro _ | split)

theorem replyWhere_keeps {qq : List Instr} (p : Cmd → Bool) (f : Cmd → State → State) (s : State) (hk : Keeps qq s) (hf : ∀ c u, Keeps qq u → Keeps qq (f c u)) :
    Keeps qq (replyWhere p f s) := by
  unfold replyWhere
  with_reducible repeat' (first | assumption | apply hf | refine Keeps.fold ?_ (fun _ _ _ => ?_))

theorem settlePaused_keeps {qq : List Instr} (s : State) (hk : Keeps qq s) :
    Keeps qq (settlePaused s) := by
  unfold settlePaused
  with_reducible repeat' (first | assumption | apply replyWhere_keeps | apply reply_keeps | intro _ | split)

theorem settleResume_keeps {qq : List Instr} (s : State) (hk : Keeps qq s) :
    Keeps qq (settleResume s) := by
  unfold settleResume
  with_reducible repeat' (first | assumption | refine Keeps.ite (fun _ => ?_) (fun _ => ?_) | apply replyWhere_keeps | apply reply_keeps | intro _)

theorem settleRestore_keeps {qq : List Instr} (s : State) (hk : Keeps qq s) :
    Keeps qq (settleRestore s) := by
  unfold settleRestore
  with_reducible repeat' (first | assumption | refine Keeps.ite (fun _ => ?_) (fun _ => ?_) | apply replyWhere_keeps | apply reply_keeps | intro _)

theorem settleAcks_keeps {qq : List Instr} (s : State) (hk : Keeps qq s) :
    Keeps qq (settleAcks s) := by
  unfold settleAcks
  with_reducible repeat' (first | assumption | refine Keeps.ite (fun _ => ?_) (fun _ => ?_) | apply replyWhere_keeps | apply reply_keeps | intro _)

theorem settleLoad_keeps {qq : List Instr} (s : State) (hk : Keeps qq s) :
    Keeps qq (settleLoad s) := by
  unfold settleLoad
  with_reducible repeat' (first | assumption | apply loadFails_keeps | split)

theorem lkpSettle_keeps {qq : List Instr} (s : State) (hk : Keeps qq s) :
    Keeps qq (lkpSettle s) := by
  unfold lkpSettle
  with_reducible repeat' (first | assumption | apply reportState_keeps | apply bar2Pump_keeps | apply accessPump_keeps | apply settlePaused_keeps
                                | apply settleResume_keeps | apply settleRestore_keeps | apply settleAcks_keeps | apply settleLoad_keeps)

theorem carryOut_keeps {qq : List Instr} (failing : Nat) (e : SwitchEnd) (c : Cmd) (s : State) (hk : Keeps qq s) :
    Keeps qq (carryOut failing e c s) := by
  unfold carryOut
  with_reducible repeat' (first | assumption | apply cmdImgLoad_keeps | apply cmdImgVerify_keeps | apply cmdRun_keeps | apply cmdHalt_keeps
                                | apply cmdStepFrames_keeps | apply cmdStateRead_keeps | apply cmdStateWrite_keeps | apply cmdBankOwner_keeps
                                | apply cmdFence_keeps | apply cmdUnfence_keeps | apply cmdPowerState_keeps | apply cmdTraceArm_keeps
                                | apply cmdUnseal_keeps | apply cmdSelftest_keeps | apply cmdMarch_keeps | apply cmdFaultRead_keeps
                                | apply cmdFaultDump_keeps | apply cmdTimeSet_keeps | apply tableLoad_keeps | apply cmdIsolate_keeps
                                | apply cmdReset_keeps | apply cmdClkResume_keeps | apply cmdStepClock_keeps | apply cmdSeqSet_keeps
                                | apply cmdStdWrite_keeps | apply reply_keeps | split)

theorem commandTaken_keeps {qq : List Instr} (failing : Nat) (e : SwitchEnd) (s : State) (hk : Keeps qq s) :
    Keeps qq (commandTaken failing e s) := by
  unfold commandTaken
  with_reducible repeat' (first | assumption | apply carryOut_keeps | apply rmod_keeps
                                | fail_if_no_progress (refine Keeps.upd ?_ rfl rfl rfl rfl rfl rfl rfl rfl rfl) | split)

theorem ringError_keeps {qq : List Instr} (i : Nat) (s : State) (hk : Keeps qq s) :
    Keeps qq (ringError i s) := by
  unfold ringError
  with_reducible repeat' (first | assumption | apply rmod_keeps | apply loseRing_keeps | apply rflag_keeps | split)

theorem hostReadError_keeps {qq : List Instr} (u : ReadUnit) (s : State) (hk : Keeps qq s) :
    Keeps qq (hostReadError u s) := by
  unfold hostReadError
  with_reducible repeat' (first | assumption | apply ringError_keeps | apply loadReadError_keeps | apply verifyReadError_keeps
                                | apply tableLoad_keeps | apply stateWriteError_keeps | apply returnRead_keeps | split)

theorem noteAck_keeps {qq : List Instr} (op src : Nat) (s : State) (hk : Keeps qq s) :
    Keeps qq (noteAck op src s) := by
  unfold noteAck
  with_reducible repeat' (first | assumption | refine Keeps.ite (fun _ => ?_) (fun _ => ?_) | apply restoredOn_keeps
                                | fail_if_no_progress (refine Keeps.upd ?_ rfl rfl rfl rfl rfl rfl rfl rfl rfl))

theorem ringAct_keeps {qq : List Instr} (src : Nat) (m : RingMsg) (e : SwitchEnd) (s : State) (hk : Keeps qq s) :
    Keeps qq (ringAct src m e s) := by
  unfold ringAct
  with_reducible repeat' (first | assumption | apply rset_keeps | apply rput_keeps | apply cancelRun_keeps | apply ringSend_keeps
                                | apply seqSetHere_keeps | apply mhzChange_keeps | apply beginResume_keeps | apply linkAdded_keeps
                                | apply linkGone_keeps | apply raiseAll_keeps | apply noteAck_keeps
                                | fail_if_no_progress (refine Keeps.upd ?_ rfl rfl rfl rfl rfl rfl rfl rfl rfl) | split)

theorem ringReceived_keeps {qq : List Instr} (src dst gid : Nat) (m : RingMsg) (e : SwitchEnd) (s : State) (hk : Keeps qq s) :
    Keeps qq (ringReceived src dst gid m e s) := by
  unfold ringReceived
  with_reducible repeat' (first | assumption | refine Keeps.ite (fun _ => ?_) (fun _ => ?_) | apply ringWake_keeps | apply ringAct_keeps
                                | fail_if_no_progress (refine Keeps.upd ?_ rfl rfl rfl rfl rfl rfl rfl rfl rfl))

end Sys2Proof.Machine
end

