-- ==== Sys2Proof/Laws/KeepExec.lean ====
section
/-!
SUPPORT. What every operation keeps (Laws/Keep.lean): every meaning of a row.
-/
namespace Sys2Proof.Machine

theorem settled_keeps {qq : List Instr} (s : State) (hk : Keeps qq s) :
    KeepsRes qq (settled s) := by
  unfold settled
  with_reducible repeat' (first | assumption | refine KeepsRes.next ?_ | apply lkpSettle_keeps)

theorem execEvaluationStep_keeps {qq : List Instr} (hs : List Happening) (s : State) (hk : Keeps qq s) :
    KeepsRes qq (execEvaluationStep hs s) := by
  unfold execEvaluationStep
  with_reducible repeat' (first | assumption | apply settled_keeps | apply evaluationStep_keeps)

theorem execFirstTickStep_keeps {qq : List Instr} (hs : List Happening) (s : State) (hk : Keeps qq s) :
    KeepsRes qq (execFirstTickStep hs s) := by
  unfold execFirstTickStep
  with_reducible repeat' (first | assumption | apply settled_keeps | apply firstTickStep_keeps)

theorem execSecondTickStep_keeps {qq : List Instr} (hs : List Happening) (s : State) (hk : Keeps qq s) :
    KeepsRes qq (execSecondTickStep hs s) := by
  unfold execSecondTickStep
  with_reducible repeat' (first | assumption | apply settled_keeps | apply secondTickStep_keeps)

theorem execLockPhaseStep_keeps {qq : List Instr} (hs : List Happening) (s : State) (hk : Keeps qq s) :
    KeepsRes qq (execLockPhaseStep hs s) := by
  unfold execLockPhaseStep
  with_reducible repeat' (first | assumption | apply settled_keeps | apply lockPhaseStep_keeps)

theorem execStallCycle_keeps {qq : List Instr} (s : State) (hk : Keeps qq s) :
    KeepsRes qq (execStallCycle s) := by
  unfold execStallCycle
  with_reducible repeat' (first | assumption | apply settled_keeps | apply stallCycle_keeps)

theorem execStallTimeout_keeps {qq : List Instr} (s : State) (hk : Keeps qq s) :
    KeepsRes qq (execStallTimeout s) := by
  unfold execStallTimeout
  with_reducible repeat' (first | assumption | apply settled_keeps | apply stallTimeout_keeps)

theorem execRunStartInstant_keeps {qq : List Instr} (s : State) (hk : Keeps qq s) :
    KeepsRes qq (execRunStartInstant s) := by
  unfold execRunStartInstant
  with_reducible repeat' (first | assumption | apply settled_keeps | apply runStart_keeps)

theorem execImgLoad_keeps {qq : List Instr} (c : Cmd) (s : State) (hk : Keeps qq s) :
    KeepsRes qq (execImgLoad c s) := by
  unfold execImgLoad
  with_reducible repeat' (first | assumption | apply settled_keeps | apply cmdImgLoad_keeps)

theorem execImageRelease_keeps {qq : List Instr} (s : State) (hk : Keeps qq s) :
    KeepsRes qq (execImageRelease s) := by
  unfold execImageRelease
  with_reducible repeat' (first | assumption | apply settled_keeps | apply imageRelease_keeps)

theorem execImgVerify_keeps {qq : List Instr} (c : Cmd) (s : State) (hk : Keeps qq s) :
    KeepsRes qq (execImgVerify c s) := by
  unfold execImgVerify
  with_reducible repeat' (first | assumption | refine KeepsRes.next ?_ | apply cmdImgVerify_keeps)

theorem execCheckPhaseEnd_keeps {qq : List Instr} (verify : Bool) (s : State) (hk : Keeps qq s) :
    KeepsRes qq (execCheckPhaseEnd verify s) := by
  unfold execCheckPhaseEnd
  with_reducible repeat' (first | assumption | apply settled_keeps | apply checkPhaseEnd_keeps)

theorem execLoadRelockTimeout_keeps {qq : List Instr} (s : State) (hk : Keeps qq s) :
    KeepsRes qq (execLoadRelockTimeout s) := by
  unfold execLoadRelockTimeout
  with_reducible repeat' (first | assumption | apply settled_keeps | apply loadRelockTimeout_keeps)

theorem execRun_keeps {qq : List Instr} (c : Cmd) (s : State) (hk : Keeps qq s) :
    KeepsRes qq (execRun c s) := by
  unfold execRun
  with_reducible repeat' (first | assumption | refine KeepsRes.next ?_ | apply cmdRun_keeps)

theorem execHalt_keeps {qq : List Instr} (c : Cmd) (s : State) (hk : Keeps qq s) :
    KeepsRes qq (execHalt c s) := by
  unfold execHalt
  with_reducible repeat' (first | assumption | apply settled_keeps | apply cmdHalt_keeps)

theorem execStepFrames_keeps {qq : List Instr} (c : Cmd) (s : State) (hk : Keeps qq s) :
    KeepsRes qq (execStepFrames c s) := by
  unfold execStepFrames
  with_reducible repeat' (first | assumption | refine KeepsRes.next ?_ | apply cmdStepFrames_keeps)

theorem execStateRead_keeps {qq : List Instr} (c : Cmd) (s : State) (hk : Keeps qq s) :
    KeepsRes qq (execStateRead c s) := by
  unfold execStateRead
  with_reducible repeat' (first | assumption | apply settled_keeps | apply cmdStateRead_keeps)

theorem execStateWrite_keeps {qq : List Instr} (c : Cmd) (s : State) (hk : Keeps qq s) :
    KeepsRes qq (execStateWrite c s) := by
  unfold execStateWrite
  with_reducible repeat' (first | assumption | apply settled_keeps | apply cmdStateWrite_keeps)

theorem execBankOwner_keeps {qq : List Instr} (c : Cmd) (s : State) (hk : Keeps qq s) :
    KeepsRes qq (execBankOwner c s) := by
  unfold execBankOwner
  with_reducible repeat' (first | assumption | refine KeepsRes.next ?_ | apply cmdBankOwner_keeps)

theorem execFence_keeps {qq : List Instr} (c : Cmd) (s : State) (hk : Keeps qq s) :
    KeepsRes qq (execFence c s) := by
  unfold execFence
  with_reducible repeat' (first | assumption | refine KeepsRes.next ?_ | apply cmdFence_keeps)

theorem execUnfence_keeps {qq : List Instr} (c : Cmd) (s : State) (hk : Keeps qq s) :
    KeepsRes qq (execUnfence c s) := by
  unfold execUnfence
  with_reducible repeat' (first | assumption | refine KeepsRes.next ?_ | apply cmdUnfence_keeps)

theorem execPowerState_keeps {qq : List Instr} (c : Cmd) (s : State) (hk : Keeps qq s) :
    KeepsRes qq (execPowerState c s) := by
  unfold execPowerState
  with_reducible repeat' (first | assumption | apply settled_keeps | apply cmdPowerState_keeps)

theorem execTraceArm_keeps {qq : List Instr} (c : Cmd) (s : State) (hk : Keeps qq s) :
    KeepsRes qq (execTraceArm c s) := by
  unfold execTraceArm
  with_reducible repeat' (first | assumption | refine KeepsRes.next ?_ | apply cmdTraceArm_keeps)

theorem execUnseal_keeps {qq : List Instr} (c : Cmd) (s : State) (hk : Keeps qq s) :
    KeepsRes qq (execUnseal c s) := by
  unfold execUnseal
  with_reducible repeat' (first | assumption | refine KeepsRes.next ?_ | apply cmdUnseal_keeps)

theorem execSelftest_keeps {qq : List Instr} (c : Cmd) (failing : Nat) (s : State) (hk : Keeps qq s) :
    KeepsRes qq (execSelftest c failing s) := by
  unfold execSelftest
  with_reducible repeat' (first | assumption | refine KeepsRes.next ?_ | apply cmdSelftest_keeps)

theorem execMarch_keeps {qq : List Instr} (c : Cmd) (s : State) (hk : Keeps qq s) :
    KeepsRes qq (execMarch c s) := by
  unfold execMarch
  with_reducible repeat' (first | assumption | refine KeepsRes.next ?_ | apply cmdMarch_keeps)

theorem execMarchComplete_keeps {qq : List Instr} (f : MarchFinds) (s : State) (hk : Keeps qq s) :
    KeepsRes qq (execMarchComplete f s) := by
  unfold execMarchComplete
  with_reducible repeat' (first | assumption | apply settled_keeps | apply marchComplete_keeps)

theorem execFaultRead_keeps {qq : List Instr} (c : Cmd) (s : State) (hk : Keeps qq s) :
    KeepsRes qq (execFaultRead c s) := by
  unfold execFaultRead
  with_reducible repeat' (first | assumption | refine KeepsRes.next ?_ | apply cmdFaultRead_keeps)

theorem execFaultDump_keeps {qq : List Instr} (c : Cmd) (s : State) (hk : Keeps qq s) :
    KeepsRes qq (execFaultDump c s) := by
  unfold execFaultDump
  with_reducible repeat' (first | assumption | refine KeepsRes.next ?_ | apply cmdFaultDump_keeps)

theorem execTimeSet_keeps {qq : List Instr} (c : Cmd) (s : State) (hk : Keeps qq s) :
    KeepsRes qq (execTimeSet c s) := by
  unfold execTimeSet
  with_reducible repeat' (first | assumption | apply settled_keeps | apply cmdTimeSet_keeps)

theorem execTableLoad_keeps {qq : List Instr} (c : Cmd) (s : State) (hk : Keeps qq s) :
    KeepsRes qq (execTableLoad c s) := by
  unfold execTableLoad
  with_reducible repeat' (first | assumption | refine KeepsRes.next ?_ | apply tableLoad_keeps)

theorem execIsolate_keeps {qq : List Instr} (c : Cmd) (s : State) (hk : Keeps qq s) :
    KeepsRes qq (execIsolate c s) := by
  unfold execIsolate
  with_reducible repeat' (first | assumption | apply settled_keeps | apply cmdIsolate_keeps)

theorem execReset_keeps {qq : List Instr} (c : Cmd) (s : State) (hk : Keeps qq s) :
    KeepsRes qq (execReset c s) := by
  unfold execReset
  with_reducible repeat' (first | assumption | apply settled_keeps | apply cmdReset_keeps)

theorem execClkResume_keeps {qq : List Instr} (c : Cmd) (s : State) (hk : Keeps qq s) :
    KeepsRes qq (execClkResume c s) := by
  unfold execClkResume
  with_reducible repeat' (first | assumption | apply settled_keeps | apply cmdClkResume_keeps)

theorem execStepClock_keeps {qq : List Instr} (c : Cmd) (e : SwitchEnd) (s : State) (hk : Keeps qq s) :
    KeepsRes qq (execStepClock c e s) := by
  unfold execStepClock
  with_reducible repeat' (first | assumption | apply settled_keeps | apply cmdStepClock_keeps)

theorem execSeqSet_keeps {qq : List Instr} (c : Cmd) (s : State) (hk : Keeps qq s) :
    KeepsRes qq (execSeqSet c s) := by
  unfold execSeqSet
  with_reducible repeat' (first | assumption | apply settled_keeps | apply cmdSeqSet_keeps)

theorem execStdWrite_keeps {qq : List Instr} (c : Cmd) (s : State) (hk : Keeps qq s) :
    KeepsRes qq (execStdWrite c s) := by
  unfold execStdWrite
  with_reducible repeat' (first | assumption | refine KeepsRes.next ?_ | apply cmdStdWrite_keeps)

theorem execStdWriteComplete_keeps {qq : List Instr} (s : State) (hk : Keeps qq s) :
    KeepsRes qq (execStdWriteComplete s) := by
  unfold execStdWriteComplete
  with_reducible repeat' (first | assumption | refine KeepsRes.next ?_ | apply stdComplete_keeps)

theorem execCommandTaken_keeps {qq : List Instr} (failing : Nat) (e : SwitchEnd) (s : State) (hk : Keeps qq s) :
    KeepsRes qq (execCommandTaken failing e s) := by
  unfold execCommandTaken
  with_reducible repeat' (first | assumption | apply settled_keeps | apply commandTaken_keeps)

theorem execHostReadError_keeps {qq : List Instr} (u : ReadUnit) (s : State) (hk : Keeps qq s) :
    KeepsRes qq (execHostReadError u s) := by
  unfold execHostReadError
  with_reducible repeat' (first | assumption | apply settled_keeps | apply hostReadError_keeps)

theorem execBar0Read_keeps {qq : List Instr} (off len : Nat) (hs : List Happening) (s : State) (hk : Keeps qq s) :
    KeepsRes qq (execBar0Read off len hs s) := by
  unfold execBar0Read
  with_reducible repeat' (first | assumption | apply settled_keeps | apply bar0Read_keeps | apply strikes_keeps)

theorem execRegisterWrite_keeps {qq : List Instr} (off : Nat) (data : List Byte) (e : WriteEnd) (s : State) (hk : Keeps qq s) :
    KeepsRes qq (execRegisterWrite off data e s) := by
  unfold execRegisterWrite
  with_reducible repeat' (first | assumption | apply settled_keeps | apply bar0Write_keeps)

theorem execSeqFrameLoRead_keeps {qq : List Instr} (s : State) (hk : Keeps qq s) :
    KeepsRes qq (execSeqFrameLoRead s) := by
  unfold execSeqFrameLoRead
  with_reducible repeat' (first | assumption | refine KeepsRes.next ?_ | apply bar0Read_keeps)

theorem execSeqGscLoRead_keeps {qq : List Instr} (s : State) (hk : Keeps qq s) :
    KeepsRes qq (execSeqGscLoRead s) := by
  unfold execSeqGscLoRead
  with_reducible repeat' (first | assumption | refine KeepsRes.next ?_ | apply bar0Read_keeps)

theorem execTimNsRead_keeps {qq : List Instr} (s : State) (hk : Keeps qq s) :
    KeepsRes qq (execTimNsRead s) := by
  unfold execTimNsRead
  with_reducible repeat' (first | assumption | refine KeepsRes.next ?_ | apply bar0Read_keeps)

theorem execSeqHaltReq_keeps {qq : List Instr} (s : State) (hk : Keeps qq s) :
    KeepsRes qq (execSeqHaltReq s) := by
  unfold execSeqHaltReq
  with_reducible repeat' (first | assumption | apply settled_keeps | apply hostWrite_keeps)

theorem execCfgRstWarm_keeps {qq : List Instr} (recover : Bool) (s : State) (hk : Keeps qq s) :
    KeepsRes qq (execCfgRstWarm recover s) := by
  unfold execCfgRstWarm
  with_reducible repeat' (first | assumption | refine KeepsRes.next ?_ | apply hostWrite_keeps)

theorem execCfgRstRecover_keeps {qq : List Instr} (s : State) (hk : Keeps qq s) :
    KeepsRes qq (execCfgRstRecover s) := by
  unfold execCfgRstRecover
  with_reducible repeat' (first | assumption | apply settled_keeps | apply hostWrite_keeps)

theorem execDmcOwnHandover_keeps {qq : List Instr} (k : Nat) (v : Word) (s : State) (hk : Keeps qq s) :
    KeepsRes qq (execDmcOwnHandover k v s) := by
  unfold execDmcOwnHandover
  with_reducible repeat' (first | assumption | refine KeepsRes.next ?_ | apply hostWrite_keeps)

theorem execDmcOwnRefusalClear_keeps {qq : List Instr} (k : Nat) (v : Word) (s : State) (hk : Keeps qq s) :
    KeepsRes qq (execDmcOwnRefusalClear k v s) := by
  unfold execDmcOwnRefusalClear
  with_reducible repeat' (first | assumption | refine KeepsRes.next ?_ | apply hostWrite_keeps)

theorem execHldRegionWrite_keeps {qq : List Instr} (q r : Nat) (size : Bool) (v : Word) (s : State) (hk : Keeps qq s) :
    KeepsRes qq (execHldRegionWrite q r size v s) := by
  unfold execHldRegionWrite
  with_reducible repeat' (first | assumption | refine KeepsRes.next ?_ | apply hostWrite_keeps)

theorem execLnkCtlEnWrite_keeps {qq : List Instr} (n : Nat) (en : Bool) (s : State) (hk : Keeps qq s) :
    KeepsRes qq (execLnkCtlEnWrite n en s) := by
  unfold execLnkCtlEnWrite
  with_reducible repeat' (first | assumption | apply settled_keeps | apply hostWrite_keeps)

theorem execLnkCtlRetrain_keeps {qq : List Instr} (n : Nat) (en : Bool) (s : State) (hk : Keeps qq s) :
    KeepsRes qq (execLnkCtlRetrain n en s) := by
  unfold execLnkCtlRetrain
  with_reducible repeat' (first | assumption | apply settled_keeps | apply hostWrite_keeps)

theorem execLkgForm_keeps {qq : List Instr} (v : Word) (s : State) (hk : Keeps qq s) :
    KeepsRes qq (execLkgForm v s) := by
  unfold execLkgForm
  with_reducible repeat' (first | assumption | apply settled_keeps | apply hostWrite_keeps)

theorem execLkgDissolve_keeps {qq : List Instr} (v : Word) (s : State) (hk : Keeps qq s) :
    KeepsRes qq (execLkgDissolve v s) := by
  unfold execLkgDissolve
  with_reducible repeat' (first | assumption | apply settled_keeps | apply hostWrite_keeps)

theorem execLkgModeWrite_keeps {qq : List Instr} (v : Word) (s : State) (hk : Keeps qq s) :
    KeepsRes qq (execLkgModeWrite v s) := by
  unfold execLkgModeWrite
  with_reducible repeat' (first | assumption | refine KeepsRes.next ?_ | apply hostWrite_keeps)

theorem execXchDoneWrite_keeps {qq : List Instr} (v : Word) (s : State) (hk : Keeps qq s) :
    KeepsRes qq (execXchDoneWrite v s) := by
  unfold execXchDoneWrite
  with_reducible repeat' (first | assumption | refine KeepsRes.next ?_ | apply hostWrite_keeps)

theorem execXchRingCiWrite_keeps {qq : List Instr} (r : Nat) (v : Word) (s : State) (hk : Keeps qq s) :
    KeepsRes qq (execXchRingCiWrite r v s) := by
  unfold execXchRingCiWrite
  with_reducible repeat' (first | assumption | refine KeepsRes.next ?_ | apply hostWrite_keeps)

theorem execXchRingLoWrite_keeps {qq : List Instr} (r : Nat) (v : Word) (s : State) (hk : Keeps qq s) :
    KeepsRes qq (execXchRingLoWrite r v s) := by
  unfold execXchRingLoWrite
  with_reducible repeat' (first | assumption | refine KeepsRes.next ?_ | apply hostWrite_keeps)

theorem execXchRetPiWrite_keeps {qq : List Instr} (v : Word) (s : State) (hk : Keeps qq s) :
    KeepsRes qq (execXchRetPiWrite v s) := by
  unfold execXchRetPiWrite
  with_reducible repeat' (first | assumption | refine KeepsRes.next ?_ | apply hostWrite_keeps)

theorem execXchRetLoWrite_keeps {qq : List Instr} (v : Word) (s : State) (hk : Keeps qq s) :
    KeepsRes qq (execXchRetLoWrite v s) := by
  unfold execXchRetLoWrite
  with_reducible repeat' (first | assumption | refine KeepsRes.next ?_ | apply hostWrite_keeps)

theorem execGauLaneWrite_keeps {qq : List Instr} (n : Nat) (v : Word) (s : State) (hk : Keeps qq s) :
    KeepsRes qq (execGauLaneWrite n v s) := by
  unfold execGauLaneWrite
  with_reducible repeat' (first | assumption | refine KeepsRes.next ?_ | apply hostWrite_keeps)

theorem execGauZdmapWrite_keeps {qq : List Instr} (z : Nat) (v : Word) (s : State) (hk : Keeps qq s) :
    KeepsRes qq (execGauZdmapWrite z v s) := by
  unfold execGauZdmapWrite
  with_reducible repeat' (first | assumption | refine KeepsRes.next ?_ | apply hostWrite_keeps)

theorem execGauRingLoWrite_keeps {qq : List Instr} (r : Nat) (v : Word) (s : State) (hk : Keeps qq s) :
    KeepsRes qq (execGauRingLoWrite r v s) := by
  unfold execGauRingLoWrite
  with_reducible repeat' (first | assumption | refine KeepsRes.next ?_ | apply hostWrite_keeps)

theorem execGauRingCiWrite_keeps {qq : List Instr} (r : Nat) (v : Word) (s : State) (hk : Keeps qq s) :
    KeepsRes qq (execGauRingCiWrite r v s) := by
  unfold execGauRingCiWrite
  with_reducible repeat' (first | assumption | refine KeepsRes.next ?_ | apply hostWrite_keeps)

theorem execTrcArmWrite_keeps {qq : List Instr} (v : Word) (s : State) (hk : Keeps qq s) :
    KeepsRes qq (execTrcArmWrite v s) := by
  unfold execTrcArmWrite
  with_reducible repeat' (first | assumption | refine KeepsRes.next ?_ | apply hostWrite_keeps)

theorem execTrcDisarmWrite_keeps {qq : List Instr} (v : Word) (s : State) (hk : Keeps qq s) :
    KeepsRes qq (execTrcDisarmWrite v s) := by
  unfold execTrcDisarmWrite
  with_reducible repeat' (first | assumption | refine KeepsRes.next ?_ | apply hostWrite_keeps)

theorem execTrcRpWrite_keeps {qq : List Instr} (v : Word) (s : State) (hk : Keeps qq s) :
    KeepsRes qq (execTrcRpWrite v s) := by
  unfold execTrcRpWrite
  with_reducible repeat' (first | assumption | refine KeepsRes.next ?_ | apply hostWrite_keeps)

theorem execCkgStepMhzWrite_keeps {qq : List Instr} (mhz : Nat) (e : SwitchEnd) (s : State) (hk : Keeps qq s) :
    KeepsRes qq (execCkgStepMhzWrite mhz e s) := by
  unfold execCkgStepMhzWrite
  with_reducible repeat' (first | assumption | apply settled_keeps | apply hostWrite_keeps)

theorem execCkgStepRestore_keeps {qq : List Instr} (s : State) (hk : Keeps qq s) :
    KeepsRes qq (execCkgStepRestore s) := by
  unfold execCkgStepRestore
  with_reducible repeat' (first | assumption | apply settled_keeps | apply hostWrite_keeps)

theorem execCkgEnWrite_keeps {qq : List Instr} (second : Bool) (v : Word) (s : State) (hk : Keeps qq s) :
    KeepsRes qq (execCkgEnWrite second v s) := by
  unfold execCkgEnWrite
  with_reducible repeat' (first | assumption | apply settled_keeps | apply hostWrite_keeps)

theorem execTimCtlWrite_keeps {qq : List Instr} (v : Word) (s : State) (hk : Keeps qq s) :
    KeepsRes qq (execTimCtlWrite v s) := by
  unfold execTimCtlWrite
  with_reducible repeat' (first | assumption | apply settled_keeps | apply hostWrite_keeps)

theorem execTimTrimWrite_keeps {qq : List Instr} (v : Word) (s : State) (hk : Keeps qq s) :
    KeepsRes qq (execTimTrimWrite v s) := by
  unfold execTimTrimWrite
  with_reducible repeat' (first | assumption | refine KeepsRes.next ?_ | apply hostWrite_keeps)

theorem execSafInjectWrite_keeps {qq : List Instr} (v : Word) (s : State) (hk : Keeps qq s) :
    KeepsRes qq (execSafInjectWrite v s) := by
  unfold execSafInjectWrite
  with_reducible repeat' (first | assumption | apply settled_keeps | apply hostWrite_keeps)

theorem execLkpCrPiWrite_keeps {qq : List Instr} (i : Nat) (v : Word) (s : State) (hk : Keeps qq s) :
    KeepsRes qq (execLkpCrPiWrite i v s) := by
  unfold execLkpCrPiWrite
  with_reducible repeat' (first | assumption | refine KeepsRes.next ?_ | apply hostWrite_keeps)

theorem execLkpRrCiWrite_keeps {qq : List Instr} (i : Nat) (v : Word) (s : State) (hk : Keeps qq s) :
    KeepsRes qq (execLkpRrCiWrite i v s) := by
  unfold execLkpRrCiWrite
  with_reducible repeat' (first | assumption | refine KeepsRes.next ?_ | apply hostWrite_keeps)

theorem execLkpCrLoWrite_keeps {qq : List Instr} (i : Nat) (v : Word) (s : State) (hk : Keeps qq s) :
    KeepsRes qq (execLkpCrLoWrite i v s) := by
  unfold execLkpCrLoWrite
  with_reducible repeat' (first | assumption | refine KeepsRes.next ?_ | apply hostWrite_keeps)

theorem execLkpRrLoWrite_keeps {qq : List Instr} (i : Nat) (v : Word) (s : State) (hk : Keeps qq s) :
    KeepsRes qq (execLkpRrLoWrite i v s) := by
  unfold execLkpRrLoWrite
  with_reducible repeat' (first | assumption | refine KeepsRes.next ?_ | apply hostWrite_keeps)

theorem execLkpMboxGo_keeps {qq : List Instr} (s : State) (hk : Keeps qq s) :
    KeepsRes qq (execLkpMboxGo s) := by
  unfold execLkpMboxGo
  with_reducible repeat' (first | assumption | refine KeepsRes.next ?_ | apply hostWrite_keeps)

theorem execStdRegisterWrite_keeps {qq : List Instr} (i : Nat) (v : Word) (s : State) (hk : Keeps qq s) :
    KeepsRes qq (execStdRegisterWrite i v s) := by
  unfold execStdRegisterWrite
  with_reducible repeat' (first | assumption | refine KeepsRes.next ?_ | apply hostWrite_keeps)

theorem execBar2Read_keeps {qq : List Instr} (off len : Nat) (s : State) (hk : Keeps qq s) :
    KeepsRes qq (execBar2Read off len s) := by
  unfold execBar2Read
  with_reducible repeat' (first | assumption | apply settled_keeps | apply bar2Read_keeps)

theorem execBar2Write_keeps {qq : List Instr} (off : Nat) (data : List Byte) (s : State) (hk : Keeps qq s) :
    KeepsRes qq (execBar2Write off data s) := by
  unfold execBar2Write
  with_reducible repeat' (first | assumption | apply settled_keeps | apply bar2Write_keeps)

theorem execBar4Read_keeps {qq : List Instr} (off len : Nat) (s : State) (hk : Keeps qq s) :
    KeepsRes qq (execBar4Read off len s) := by
  unfold execBar4Read
  with_reducible repeat' (first | assumption | refine Keeps.ite (fun _ => ?_) (fun _ => ?_) | apply settled_keeps | apply bar4Read_keeps)

theorem execBar4Write_keeps {qq : List Instr} (off : Nat) (data : List Byte) (s : State) (hk : Keeps qq s) :
    KeepsRes qq (execBar4Write off data s) := by
  unfold execBar4Write
  with_reducible repeat' (first | assumption | refine Keeps.ite (fun _ => ?_) (fun _ => ?_) | apply settled_keeps | apply bar4Write_keeps)

theorem execDmcServiceRequest_keeps {qq : List Instr} (r : SvcReq) (s : State) (hk : Keeps qq s) :
    KeepsRes qq (execDmcServiceRequest r s) := by
  unfold execDmcServiceRequest
  with_reducible repeat' (first | assumption | apply settled_keeps | apply serviceRequest_keeps)

theorem execDmcServiceAccess_keeps {qq : List Instr} (k : Nat) (s : State) (hk : Keeps qq s) :
    KeepsRes qq (execDmcServiceAccess k s) := by
  unfold execDmcServiceAccess
  with_reducible repeat' (first | assumption | apply settled_keeps | apply serviceAccess_keeps)

theorem execDmcDeferredWrite_keeps {qq : List Instr} (k : Nat) (s : State) (hk : Keeps qq s) :
    KeepsRes qq (execDmcDeferredWrite k s) := by
  unfold execDmcDeferredWrite
  with_reducible repeat' (first | assumption | apply settled_keeps | apply deferredWrite_keeps)

theorem execDmcEccWriteback_keeps {qq : List Instr} (k w : Nat) (s : State) (hk : Keeps qq s) :
    KeepsRes qq (execDmcEccWriteback k w s) := by
  unfold execDmcEccWriteback
  with_reducible repeat' (first | assumption | refine KeepsRes.next ?_ | apply eccWriteback_keeps)

theorem execDmcPatrolRead_keeps {qq : List Instr} (k : Nat) (s : State) (hk : Keeps qq s) :
    KeepsRes qq (execDmcPatrolRead k s) := by
  unfold execDmcPatrolRead
  with_reducible repeat' (first | assumption | apply settled_keeps | apply patrolRead_keeps)

theorem execPatrolLate_keeps {qq : List Instr} (s : State) (hk : Keeps qq s) :
    KeepsRes qq (execPatrolLate s) := by
  unfold execPatrolLate
  with_reducible repeat' (first | assumption | apply settled_keeps | apply patrolLate_keeps)

theorem execInstrScrubLate_keeps {qq : List Instr} (s : State) (hk : Keeps qq s) :
    KeepsRes qq (execInstrScrubLate s) := by
  unfold execInstrScrubLate
  with_reducible repeat' (first | assumption | apply settled_keeps | apply instrScrubLate_keeps)

theorem execHoldAccessComplete_keeps {qq : List Instr} (d : Nat) (s : State) (hk : Keeps qq s) :
    KeepsRes qq (execHoldAccessComplete d s) := by
  unfold execHoldAccessComplete
  with_reducible repeat' (first | assumption | refine KeepsRes.ite (fun _ => ?_) (fun _ => ?_) | refine KeepsRes.next ?_ | apply fault_keeps
                                | apply holdAccess_keeps | apply holdSettle_keeps | apply settled_keeps)

theorem execHoldRefreshDue_keeps {qq : List Instr} (d : Nat) (s : State) (hk : Keeps qq s) :
    KeepsRes qq (execHoldRefreshDue d s) := by
  unfold execHoldRefreshDue
  with_reducible repeat' (first | assumption | refine KeepsRes.next ?_ | apply refreshDue_keeps)

theorem execHoldScrubRead_keeps {qq : List Instr} (i : Nat) (s : State) (hk : Keeps qq s) :
    KeepsRes qq (execHoldScrubRead i s) := by
  unfold execHoldScrubRead
  with_reducible repeat' (first | assumption | refine KeepsRes.ite (fun _ => ?_) (fun _ => ?_) | refine KeepsRes.next ?_ | apply fault_keeps
                                | apply scrubRead_keeps | apply holdSettle_keeps | apply settled_keeps)

theorem execHoldScrubLate_keeps {qq : List Instr} (s : State) (hk : Keeps qq s) :
    KeepsRes qq (execHoldScrubLate s) := by
  unfold execHoldScrubLate
  with_reducible repeat' (first | assumption | apply settled_keeps | apply scrubLate_keeps)

theorem execSluiceReplyArrival_keeps {qq : List Instr} (q t : Nat) (s : State) (hk : Keeps qq s) :
    KeepsRes qq (execSluiceReplyArrival q t s) := by
  unfold execSluiceReplyArrival
  with_reducible repeat' (first | assumption | refine KeepsRes.next ?_ | apply replyArrival_keeps)

theorem execHoldStackReady_keeps {qq : List Instr} (i : Nat) (s : State) (hk : Keeps qq s) :
    KeepsRes qq (execHoldStackReady i s) := by
  unfold execHoldStackReady
  with_reducible repeat' (first | assumption | refine KeepsRes.next ?_ | apply stackReady_keeps)

theorem execHoldRefreshDoubling_keeps {qq : List Instr} (i temp : Nat) (s : State) (hk : Keeps qq s) :
    KeepsRes qq (execHoldRefreshDoubling i temp s) := by
  unfold execHoldRefreshDoubling
  with_reducible repeat' (first | assumption | refine KeepsRes.next ?_ | apply refreshDoubling_keeps)

theorem execXchFragmentArrival_keeps {qq : List Instr} (s : State) (hk : Keeps qq s) :
    KeepsRes qq (execXchFragmentArrival s) := by
  unfold execXchFragmentArrival
  with_reducible repeat' (first | assumption | apply settled_keeps | apply fragmentArrival_keeps)

theorem execXchClosePoint_keeps {qq : List Instr} (f : Nat) (s : State) (hk : Keeps qq s) :
    KeepsRes qq (execXchClosePoint f s) := by
  unfold execXchClosePoint
  with_reducible repeat' (first | assumption | apply settled_keeps | apply closePoint_keeps)

theorem execXchDeliveryWrite_keeps {qq : List Instr} (s : State) (hk : Keeps qq s) :
    KeepsRes qq (execXchDeliveryWrite s) := by
  unfold execXchDeliveryWrite
  with_reducible repeat' (first | assumption | refine KeepsRes.next ?_ | apply deliveryWrite_keeps)

theorem execXchLossRecordWrite_keeps {qq : List Instr} (s : State) (hk : Keeps qq s) :
    KeepsRes qq (execXchLossRecordWrite s) := by
  unfold execXchLossRecordWrite
  with_reducible repeat' (first | assumption | refine KeepsRes.next ?_ | apply lossWrite_keeps)

theorem execXchReturnRecordRead_keeps {qq : List Instr} (s : State) (hk : Keeps qq s) :
    KeepsRes qq (execXchReturnRecordRead s) := by
  unfold execXchReturnRecordRead
  with_reducible repeat' (first | assumption | apply settled_keeps | apply returnRead_keeps)

theorem execGauFailRecordWrite_keeps {qq : List Instr} (s : State) (hk : Keeps qq s) :
    KeepsRes qq (execGauFailRecordWrite s) := by
  unfold execGauFailRecordWrite
  with_reducible repeat' (first | assumption | refine KeepsRes.next ?_ | apply failRecordWrite_keeps)

theorem execEdgeCapture_keeps {qq : List Instr} (i : Nat) (edge : EdgeAt) (s : State) (hk : Keeps qq s) :
    KeepsRes qq (execEdgeCapture i edge s) := by
  unfold execEdgeCapture
  with_reducible repeat' (first | assumption | refine KeepsRes.next ?_ | apply edgeCapture_keeps)

theorem execGauEdgeRecordWrite_keeps {qq : List Instr} (s : State) (hk : Keeps qq s) :
    KeepsRes qq (execGauEdgeRecordWrite s) := by
  unfold execGauEdgeRecordWrite
  with_reducible repeat' (first | assumption | refine KeepsRes.next ?_ | apply edgeRecordWrite_keeps)

theorem execTrcDrainWrite_keeps {qq : List Instr} (s : State) (hk : Keeps qq s) :
    KeepsRes qq (execTrcDrainWrite s) := by
  unfold execTrcDrainWrite
  with_reducible repeat' (first | assumption | apply settled_keeps | apply drainWrite_keeps)

theorem execTrcDrainRetry_keeps {qq : List Instr} (s : State) (hk : Keeps qq s) :
    KeepsRes qq (execTrcDrainRetry s) := by
  unfold execTrcDrainRetry
  with_reducible repeat' (first | assumption | apply settled_keeps | apply drainWrite_keeps)

theorem signalDetected_keeps {qq : List Instr} (n : Nat) (s : State) (hk : Keeps qq s) :
    Keeps qq (signalDetected n s) := by
  unfold signalDetected
  with_reducible repeat' (first | assumption | apply stdRead_keeps | apply lnkMove_keeps | split)

theorem ringPortTrains_keeps {qq : List Instr} (port : Nat) (up : Bool) (lost : Nat) (s : State) (hk : Keeps qq s) :
    Keeps qq (ringPortTrains port up lost s) := by
  unfold ringPortTrains
  with_reducible repeat' (first | assumption | apply stdRead_keeps | apply ringRetrain_keeps | split)

theorem execLinkSignalDetected_keeps {qq : List Instr} (n : Nat) (s : State) (hk : Keeps qq s) :
    KeepsRes qq (execLinkSignalDetected n s) := by
  unfold execLinkSignalDetected
  with_reducible repeat' (first | assumption | refine KeepsRes.next ?_ | apply signalDetected_keeps)

theorem execLinkDetectTimeout_keeps {qq : List Instr} (n : Nat) (s : State) (hk : Keeps qq s) :
    KeepsRes qq (execLinkDetectTimeout n s) := by
  unfold execLinkDetectTimeout
  with_reducible repeat' (first | assumption | refine KeepsRes.next ?_ | apply lnkFail_keeps)

theorem execLinkTrainDone_keeps {qq : List Instr} (n : Nat) (s : State) (hk : Keeps qq s) :
    KeepsRes qq (execLinkTrainDone n s) := by
  unfold execLinkTrainDone
  with_reducible repeat' (first | assumption | refine KeepsRes.next ?_ | apply lnkMove_keeps)

theorem execLinkTrainTimeout_keeps {qq : List Instr} (n : Nat) (s : State) (hk : Keeps qq s) :
    KeepsRes qq (execLinkTrainTimeout n s) := by
  unfold execLinkTrainTimeout
  with_reducible repeat' (first | assumption | refine KeepsRes.next ?_ | apply lnkFail_keeps)

theorem execLinkAlignDone_keeps {qq : List Instr} (n : Nat) (s : State) (hk : Keeps qq s) :
    KeepsRes qq (execLinkAlignDone n s) := by
  unfold execLinkAlignDone
  with_reducible repeat' (first | assumption | refine KeepsRes.next ?_ | apply lnkAligned_keeps)

theorem execLinkAlignTimeout_keeps {qq : List Instr} (n : Nat) (s : State) (hk : Keeps qq s) :
    KeepsRes qq (execLinkAlignTimeout n s) := by
  unfold execLinkAlignTimeout
  with_reducible repeat' (first | assumption | refine KeepsRes.next ?_ | apply lnkFail_keeps)

theorem execLinkIdentReceived_keeps {qq : List Instr} (n dev link group : Nat) (s : State) (hk : Keeps qq s) :
    KeepsRes qq (execLinkIdentReceived n dev link group s) := by
  unfold execLinkIdentReceived
  with_reducible repeat' (first | assumption | refine KeepsRes.next ?_ | apply linkIdent_keeps)

theorem execLinkMeasureDone_keeps {qq : List Instr} (n dlyPs : Nat) (s : State) (hk : Keeps qq s) :
    KeepsRes qq (execLinkMeasureDone n dlyPs s) := by
  unfold execLinkMeasureDone
  with_reducible repeat' (first | assumption | refine KeepsRes.next ?_ | apply linkMeasured_keeps)

theorem execLinkRetryTimer_keeps {qq : List Instr} (n : Nat) (s : State) (hk : Keeps qq s) :
    KeepsRes qq (execLinkRetryTimer n s) := by
  unfold execLinkRetryTimer
  with_reducible repeat' (first | assumption | refine KeepsRes.next ?_ | apply lnkRetry_keeps)

theorem execLinkDown_keeps {qq : List Instr} (n fail : Nat) (s : State) (hk : Keeps qq s) :
    KeepsRes qq (execLinkDown n fail s) := by
  unfold execLinkDown
  with_reducible repeat' (first | assumption | apply settled_keeps | apply linkDown_keeps)

theorem execLinkCodewordReceived_keeps {qq : List Instr} (n : Nat) (w : Codeword) (s : State) (hk : Keeps qq s) :
    KeepsRes qq (execLinkCodewordReceived n w s) := by
  unfold execLinkCodewordReceived
  with_reducible repeat' (first | assumption | apply settled_keeps | apply codewordReceived_keeps)

theorem execLinkGroupReceived_keeps {qq : List Instr} (n ctl : Nat) (vals : List V4) (s : State) (hk : Keeps qq s) :
    KeepsRes qq (execLinkGroupReceived n ctl vals s) := by
  unfold execLinkGroupReceived
  with_reducible repeat' (first | assumption | refine KeepsRes.next ?_ | apply groupReceived_keeps)

theorem execDoneMarkerReceived_keeps {qq : List Instr} (n fLo : Nat) (taint early : Bool) (s : State) (hk : Keeps qq s) :
    KeepsRes qq (execDoneMarkerReceived n fLo taint early s) := by
  unfold execDoneMarkerReceived
  with_reducible repeat' (first | assumption | apply settled_keeps | apply markerReceived_keeps)

theorem execMarkerWindowClose_keeps {qq : List Instr} (n : Nat) (s : State) (hk : Keeps qq s) :
    KeepsRes qq (execMarkerWindowClose n s) := by
  unfold execMarkerWindowClose
  with_reducible repeat' (first | assumption | apply settled_keeps | apply markerWindowClose_keeps)

theorem execLinkFlitReceived_keeps {qq : List Instr} (n seq : Nat) (crcOk : Bool) (s : State) (hk : Keeps qq s) :
    KeepsRes qq (execLinkFlitReceived n seq crcOk s) := by
  unfold execLinkFlitReceived
  with_reducible repeat' (first | assumption | apply settled_keeps | apply flitReceived_keeps)

theorem execLinkAckReceived_keeps {qq : List Instr} (n : Nat) (nak : Bool) (seq : Nat) (s : State) (hk : Keeps qq s) :
    KeepsRes qq (execLinkAckReceived n nak seq s) := by
  unfold execLinkAckReceived
  with_reducible repeat' (first | assumption | apply settled_keeps | apply ackReceived_keeps)

theorem execExpressWordReceived_keeps {qq : List Instr} (n kind src seq arg : Nat) (ok : Bool) (s : State) (hk : Keeps qq s) :
    KeepsRes qq (execExpressWordReceived n kind src seq arg ok s) := by
  unfold execExpressWordReceived
  with_reducible repeat' (first | assumption | apply settled_keeps | apply expressReceived_keeps)

theorem execGroupFormationComplete_keeps {qq : List Instr} (ferr : Nat) (links : List GLink) (s : State) (hk : Keeps qq s) :
    KeepsRes qq (execGroupFormationComplete ferr links s) := by
  unfold execGroupFormationComplete
  with_reducible repeat' (first | assumption | apply settled_keeps | apply formComplete_keeps)

theorem execGroupFormationTimeout_keeps {qq : List Instr} (s : State) (hk : Keeps qq s) :
    KeepsRes qq (execGroupFormationTimeout s) := by
  unfold execGroupFormationTimeout
  with_reducible repeat' (first | assumption | refine KeepsRes.next ?_ | apply formTimeout_keeps)

theorem execRingMessageReceived_keeps {qq : List Instr} (src dst gid : Nat) (m : RingMsg) (e : SwitchEnd) (s : State) (hk : Keeps qq s) :
    KeepsRes qq (execRingMessageReceived src dst gid m e s) := by
  unfold execRingMessageReceived
  with_reducible repeat' (first | assumption | apply settled_keeps | apply ringReceived_keeps)

theorem execRingPortRetrain_keeps {qq : List Instr} (port : Nat) (up : Bool) (lost : Nat) (s : State) (hk : Keeps qq s) :
    KeepsRes qq (execRingPortRetrain port up lost s) := by
  unfold execRingPortRetrain
  with_reducible repeat' (first | assumption | refine KeepsRes.next ?_ | apply ringPortTrains_keeps)

theorem execTimeBeaconExchange_keeps {qq : List Instr} (p : Nat) (t1 t2 t3 : Int) (sub master hops gid : Nat) (valid : Bool) (s : State) (hk : Keeps qq s) :
    KeepsRes qq (execTimeBeaconExchange p t1 t2 t3 sub master hops gid valid s) := by
  unfold execTimeBeaconExchange
  with_reducible repeat' (first | assumption | refine KeepsRes.ite (fun _ => ?_) (fun _ => ?_) | refine KeepsRes.next ?_ | apply fault_keeps
                                | apply beacon_keeps | apply settled_keeps)

theorem execPpsInEdge_keeps {qq : List Instr} (sub : Nat) (s : State) (hk : Keeps qq s) :
    KeepsRes qq (execPpsInEdge sub s) := by
  unfold execPpsInEdge
  with_reducible repeat' (first | assumption | apply settled_keeps | apply ppsIn_keeps)

theorem execTimeSourceLost_keeps {qq : List Instr} (s : State) (hk : Keeps qq s) :
    KeepsRes qq (execTimeSourceLost s) := by
  unfold execTimeSourceLost
  with_reducible repeat' (first | assumption | apply settled_keeps | apply sourceLost_keeps)

theorem execPpsOutPulse_keeps {qq : List Instr} (s : State) (hk : Keeps qq s) :
    KeepsRes qq (execPpsOutPulse s) := by
  unfold execPpsOutPulse
  with_reducible repeat' (first | assumption | refine KeepsRes.next ?_ | apply clockCarry_keeps)

theorem execBargeRequestArrival_keeps {qq : List Instr} (b : Barge) (how : BargeIn) (s : State) (hk : Keeps qq s) :
    KeepsRes qq (execBargeRequestArrival b how s) := by
  unfold execBargeRequestArrival
  with_reducible repeat' (first | assumption | apply settled_keeps | apply bargeArrival_keeps)

theorem execBargeReplyArrival_keeps {qq : List Instr} (r : Barge) (s : State) (hk : Keeps qq s) :
    KeepsRes qq (execBargeReplyArrival r s) := by
  unfold execBargeReplyArrival
  with_reducible repeat' (first | assumption | apply settled_keeps | apply replyArrives_keeps)

theorem execBargeTimeout_keeps {qq : List Instr} (b : Barge) (s : State) (hk : Keeps qq s) :
    KeepsRes qq (execBargeTimeout b s) := by
  unfold execBargeTimeout
  with_reducible repeat' (first | assumption | apply settled_keeps | apply bargeTimeout_keeps)

theorem execControlBargeArrival_keeps {qq : List Instr} (kind frm dst : Nat) (s : State) (hk : Keeps qq s) :
    KeepsRes qq (execControlBargeArrival kind frm dst s) := by
  unfold execControlBargeArrival
  with_reducible repeat' (first | assumption | refine KeepsRes.next ?_ | apply controlArrival_keeps)

theorem execDrainComplete_keeps {qq : List Instr} (n : Nat) (s : State) (hk : Keeps qq s) :
    KeepsRes qq (execDrainComplete n s) := by
  unfold execDrainComplete
  with_reducible repeat' (first | assumption | apply settled_keeps | apply drainComplete_keeps)

theorem execDrainTimeout_keeps {qq : List Instr} (n : Nat) (s : State) (hk : Keeps qq s) :
    KeepsRes qq (execDrainTimeout n s) := by
  unfold execDrainTimeout
  with_reducible repeat' (first | assumption | apply settled_keeps | apply drainTimeout_keeps)

theorem execFaultReport_keeps {qq : List Instr} (code lkind loc frame : Nat) (s : State) (hk : Keeps qq s) :
    KeepsRes qq (execFaultReport code lkind loc frame s) := by
  unfold execFaultReport
  with_reducible repeat' (first | assumption | apply settled_keeps | apply faultReport_keeps)

theorem execRailMonitorTrip_keeps {qq : List Instr} (r f : Nat) (s : State) (hk : Keeps qq s) :
    KeepsRes qq (execRailMonitorTrip r f s) := by
  unfold execRailMonitorTrip
  with_reducible repeat' (first | assumption | apply settled_keeps | apply railTrip_keeps)

theorem execTempEmergency_keeps {qq : List Instr} (tj : Nat) (s : State) (hk : Keeps qq s) :
    KeepsRes qq (execTempEmergency tj s) := by
  unfold execTempEmergency
  with_reducible repeat' (first | assumption | apply settled_keeps | apply tempEmergency_keeps)

theorem execTempCritical_keeps {qq : List Instr} (tj : Nat) (s : State) (hk : Keeps qq s) :
    KeepsRes qq (execTempCritical tj s) := by
  unfold execTempCritical
  with_reducible repeat' (first | assumption | apply settled_keeps | apply tempCritical_keeps)

theorem execWatchdogMissed_keeps {qq : List Instr} (s : State) (hk : Keeps qq s) :
    KeepsRes qq (execWatchdogMissed s) := by
  unfold execWatchdogMissed
  with_reducible repeat' (first | assumption | apply settled_keeps | apply watchdogMissed_keeps)

theorem execStepPllLockLoss_keeps {qq : List Instr} (cut : List (Nat × Nat × Nat)) (s : State) (hk : Keeps qq s) :
    KeepsRes qq (execStepPllLockLoss cut s) := by
  unfold execStepPllLockLoss
  with_reducible repeat' (first | assumption | apply settled_keeps | apply takeFaults_keeps | apply pllLost_keeps)

theorem execHoldPllLockLoss_keeps {qq : List Instr} (e : SwitchEnd) (s : State) (hk : Keeps qq s) :
    KeepsRes qq (execHoldPllLockLoss e s) := by
  unfold execHoldPllLockLoss
  with_reducible repeat' (first | assumption | apply settled_keeps | apply pllLose_keeps)

theorem execLinkPllLockLoss_keeps {qq : List Instr} (j : Nat) (s : State) (hk : Keeps qq s) :
    KeepsRes qq (execLinkPllLockLoss j s) := by
  unfold execLinkPllLockLoss
  with_reducible repeat' (first | assumption | refine Keeps.ite (fun _ => ?_) (fun _ => ?_) | apply settled_keeps | apply pllLose_keeps)

theorem execPllWindowEnd_keeps {qq : List Instr} (i : Nat) (ppm : Int) (lock : Bool) (e : LossEnd) (s : State) (hk : Keeps qq s) :
    KeepsRes qq (execPllWindowEnd i ppm lock e s) := by
  unfold execPllWindowEnd
  with_reducible repeat' (first | assumption | apply settled_keeps | apply pllWindowEnd_keeps)

theorem execPllJudgeTimeout_keeps {qq : List Instr} (i : Nat) (s : State) (hk : Keeps qq s) :
    KeepsRes qq (execPllJudgeTimeout i s) := by
  unfold execPllJudgeTimeout
  with_reducible repeat' (first | assumption | refine KeepsRes.next ?_ | apply pllJudgeTimeout_keeps)

theorem execCrystalLost_keeps {qq : List Instr} (e : LossEnd) (s : State) (hk : Keeps qq s) :
    KeepsRes qq (execCrystalLost e s) := by
  unfold execCrystalLost
  with_reducible repeat' (first | assumption | apply settled_keeps | apply crystalTime_keeps | apply crystalLost_keeps)

theorem execGustRampHoldEnd_keeps {qq : List Instr} (s : State) (hk : Keeps qq s) :
    KeepsRes qq (execGustRampHoldEnd s) := by
  unfold execGustRampHoldEnd
  with_reducible repeat' (first | assumption | apply settled_keeps | apply rampHoldEnd_keeps)

theorem execUnitDividerStep_keeps {qq : List Instr} (s : State) (hk : Keeps qq s) :
    KeepsRes qq (execUnitDividerStep s) := by
  unfold execUnitDividerStep
  with_reducible repeat' (first | assumption | refine KeepsRes.next ?_ | apply unitDividerStep_keeps)

theorem execPowerOnReset_keeps {qq : List Instr} (pins : Nat) (s : State) (hk : Keeps qq s) :
    KeepsRes qq (execPowerOnReset pins s) := by
  unfold execPowerOnReset
  with_reducible repeat' (first | assumption | refine KeepsRes.next ?_ | apply powerOn_keeps
                                | fail_if_no_progress (refine Keeps.upd ?_ rfl rfl rfl rfl rfl rfl rfl rfl rfl))

theorem execVinOvervoltage_keeps {qq : List Instr} (s : State) (hk : Keeps qq s) :
    KeepsRes qq (execVinOvervoltage s) := by
  unfold execVinOvervoltage
  with_reducible repeat' (first | assumption | refine KeepsRes.next ?_ | apply vinOvervoltage_keeps)

theorem execVinOvervoltageEnd_keeps {qq : List Instr} (s : State) (hk : Keeps qq s) :
    KeepsRes qq (execVinOvervoltageEnd s) := by
  unfold execVinOvervoltageEnd
  with_reducible repeat' (first | assumption | refine KeepsRes.next ?_ | apply vinOvervoltageEnd_keeps)

theorem execPerstNAssert_keeps {qq : List Instr} (s : State) (hk : Keeps qq s) :
    KeepsRes qq (execPerstNAssert s) := by
  unfold execPerstNAssert
  with_reducible repeat' (first | assumption | refine KeepsRes.next ?_ | apply perstAssert_keeps)

theorem execPerstNRelease_keeps {qq : List Instr} (s : State) (hk : Keeps qq s) :
    KeepsRes qq (execPerstNRelease s) := by
  unfold execPerstNRelease
  with_reducible repeat' (first | assumption | refine KeepsRes.next ?_ | apply perstRelease_keeps)

theorem execPowerGood_keeps {qq : List Instr} (s : State) (hk : Keeps qq s) :
    KeepsRes qq (execPowerGood s) := by
  unfold execPowerGood
  with_reducible repeat' (first | assumption | refine KeepsRes.next ?_ | apply powerGood_keeps)

theorem execBootOscDone_keeps {qq : List Instr} (testEn : Bool) (hs : List Happening) (s : State) (hk : Keeps qq s) :
    KeepsRes qq (execBootOscDone testEn hs s) := by
  unfold execBootOscDone
  with_reducible repeat' (first | assumption | refine KeepsRes.next ?_ | apply bootOscDone_keeps | apply strikes_keeps)

theorem execBootXtalDone_keeps {qq : List Instr} (e : SwitchEnd) (s : State) (hk : Keeps qq s) :
    KeepsRes qq (execBootXtalDone e s) := by
  unfold execBootXtalDone
  with_reducible repeat' (first | assumption | apply settled_keeps | apply bootXtalDone_keeps)

theorem execBootFwDone_keeps {qq : List Instr} (ok : Bool) (s : State) (hk : Keeps qq s) :
    KeepsRes qq (execBootFwDone ok s) := by
  unfold execBootFwDone
  with_reducible repeat' (first | assumption | refine KeepsRes.next ?_ | apply bootFwDone_keeps)

theorem execBootTestDone_keeps {qq : List Instr} (f : MarchFinds) (bad : List Nat) (s : State) (hk : Keeps qq s) :
    KeepsRes qq (execBootTestDone f bad s) := by
  unfold execBootTestDone
  with_reducible repeat' (first | assumption | apply settled_keeps | apply bootTestDone_keeps)

theorem execBootArmDone_keeps {qq : List Instr} (ms ports : Nat) (hs : List Happening) (s : State) (hk : Keeps qq s) :
    KeepsRes qq (execBootArmDone ms ports hs s) := by
  unfold execBootArmDone
  with_reducible repeat' (first | assumption | refine KeepsRes.next ?_ | apply bootArmDone_keeps | apply strikes_keeps)

theorem execWarmResetEffect_keeps {qq : List Instr} (s : State) (hk : Keeps qq s) :
    KeepsRes qq (execWarmResetEffect s) := by
  unfold execWarmResetEffect
  with_reducible repeat' (first | assumption | refine KeepsRes.next ?_ | apply warmEffect_keeps)

theorem execGroupResetInstant_keeps {qq : List Instr} (missed : Bool) (s : State) (hk : Keeps qq s) :
    KeepsRes qq (execGroupResetInstant missed s) := by
  unfold execGroupResetInstant
  with_reducible repeat' (first | assumption | refine KeepsRes.next ?_ | apply groupInstant_keeps)

theorem execGroupResetCancel_keeps {qq : List Instr} (s : State) (hk : Keeps qq s) :
    KeepsRes qq (execGroupResetCancel s) := by
  unfold execGroupResetCancel
  with_reducible repeat' (first | assumption | refine KeepsRes.next ?_ | apply groupCancel_keeps)

theorem execBasinResetEffect_keeps {qq : List Instr} (b : Nat) (s : State) (hk : Keeps qq s) :
    KeepsRes qq (execBasinResetEffect b s) := by
  unfold execBasinResetEffect
  with_reducible repeat' (first | assumption | refine KeepsRes.next ?_ | apply basinResetEffect_keeps)

theorem execRecoveryKeepEntry_keeps {qq : List Instr} (s : State) (hk : Keeps qq s) :
    KeepsRes qq (execRecoveryKeepEntry s) := by
  unfold execRecoveryKeepEntry
  with_reducible repeat' (first | assumption | apply settled_keeps | apply recoveryKeep_keeps)

theorem execRecoveryPauseTimeout_keeps {qq : List Instr} (s : State) (hk : Keeps qq s) :
    KeepsRes qq (execRecoveryPauseTimeout s) := by
  unfold execRecoveryPauseTimeout
  with_reducible repeat' (first | assumption | apply settled_keeps | apply recoveryPauseTimeout_keeps)

theorem execRecoveryRestartDone_keeps {qq : List Instr} (s : State) (hk : Keeps qq s) :
    KeepsRes qq (execRecoveryRestartDone s) := by
  unfold execRecoveryRestartDone
  with_reducible repeat' (first | assumption | apply settled_keeps | apply recoveryDone_keeps)

theorem execPowerEntryComplete_keeps {qq : List Instr} (s : State) (hk : Keeps qq s) :
    KeepsRes qq (execPowerEntryComplete s) := by
  unfold execPowerEntryComplete
  with_reducible repeat' (first | assumption | apply settled_keeps | apply powerEntryComplete_keeps)

theorem execGauFlushTimeout_keeps {qq : List Instr} (s : State) (hk : Keeps qq s) :
    KeepsRes qq (execGauFlushTimeout s) := by
  unfold execGauFlushTimeout
  with_reducible repeat' (first | assumption | refine KeepsRes.next ?_ | apply gauFlushTimeout_keeps)

theorem execWakeNAsserted_keeps {qq : List Instr} (s : State) (hk : Keeps qq s) :
    KeepsRes qq (execWakeNAsserted s) := by
  unfold execWakeNAsserted
  with_reducible repeat' (first | assumption | apply settled_keeps | apply wakeN_keeps)

theorem execRingWake_keeps {qq : List Instr} (s : State) (hk : Keeps qq s) :
    KeepsRes qq (execRingWake s) := by
  unfold execRingWake
  with_reducible repeat' (first | assumption | apply settled_keeps | apply ringWake_keeps)

theorem execWakeTimerExpiry_keeps {qq : List Instr} (s : State) (hk : Keeps qq s) :
    KeepsRes qq (execWakeTimerExpiry s) := by
  unfold execWakeTimerExpiry
  with_reducible repeat' (first | assumption | apply settled_keeps | apply wakeTimer_keeps)

theorem execPowerExitComplete_keeps {qq : List Instr} (s : State) (hk : Keeps qq s) :
    KeepsRes qq (execPowerExitComplete s) := by
  unfold execPowerExitComplete
  with_reducible repeat' (first | assumption | apply settled_keeps | apply powerExitComplete_keeps)

theorem execVinBelow24v_keeps {qq : List Instr} (mv : Nat) (s : State) (hk : Keeps qq s) :
    KeepsRes qq (execVinBelow24v mv s) := by
  unfold execVinBelow24v
  with_reducible repeat' (first | assumption | apply settled_keeps | apply vinBelow_keeps)

theorem execPowerCapEnd_keeps {qq : List Instr} (mv : Nat) (s : State) (hk : Keeps qq s) :
    KeepsRes qq (execPowerCapEnd mv s) := by
  unfold execPowerCapEnd
  with_reducible repeat' (first | assumption | apply settled_keeps | apply powerCapEnd_keeps)

theorem execPowerCapSample_keeps {qq : List Instr} (p mv : Nat) (s : State) (hk : Keeps qq s) :
    KeepsRes qq (execPowerCapSample p mv s) := by
  unfold execPowerCapSample
  with_reducible repeat' (first | assumption | apply settled_keeps | apply powerCapSample_keeps)

theorem execThermalThrottleSample_keeps {qq : List Instr} (tj : Nat) (s : State) (hk : Keeps qq s) :
    KeepsRes qq (execThermalThrottleSample tj s) := by
  unfold execThermalThrottleSample
  with_reducible repeat' (first | assumption | apply settled_keeps | apply thermalSample_keeps)

end Sys2Proof.Machine
end

