-- ==== Sys2Proof/WellFormed.lean ====
section
/-!
DEFINITION. Well-formed commands and events: every operand lies in the range its field has (R2, R9, R20, R131, R337, R387).
-/
namespace Sys2Proof

/-- A command record of the opcode: each field in its width (R387), from a port that exists. -/
def cmdWf (op : Nat) (c : Cmd) : Bool :=
  decide (c.port ≤ 17) && c.op = op && decide (c.flags < 256) && decide (c.rsv < 65536) && decide (c.tag < 2 ^ 32) &&
    decide (c.p0 < 2 ^ 64) && decide (c.p1 < 2 ^ 64) && decide (c.p2 < 2 ^ 64) && c.p3.length = 32

/-- A happening names a store, a bank, a pin the part has. -/
def happeningWf (h : Happening) : Bool :=
  match h with
  | .instrUpset cl ph w _ _ => decide (cl < 2048) && decide (ph < 66) && decide (w < 1024)
  | .routeUpset cl w q _ _ => decide (cl < 2048) && decide (w < 1026) && decide (q < 4)
  | .parityUpset cl ph e => decide (cl < 2048) && decide (ph < 66) && decide (e < 2048)
  | .dmUpset k w _ _ => decide (k < 384) && decide (w < 32768)
  | .holdUpset n _ _ => decide (n < 0x300000000)
  | .logicFault cl lp _ => decide (cl < 2048) && decide (lp < 64)
  | .portFault cl lp _ os => decide (cl < 2048) && decide (lp < 64) && decide (os.length ≤ 4)
  | .shadowFault cl => decide (cl < 2048)
  | .scrubInstr cl ph w => decide (cl < 2048) && decide (ph < 66) && decide (w < 1024)
  | .scrubRoute cl w => decide (cl < 2048) && decide (w < 1026)
  | .slip b _ => decide (b < 32)
  | .lanePin n _ => decide (n < 512)
  | .laneLeft n _ => decide (n < 512)
  | .zdPin z _ => decide (z < 64)
  | .stdUpset i _ => decide (i < 256)
def happeningsWf (hs : List Happening) : Bool := hs.all happeningWf

/-- A link between two devices of a group. -/
def glinkWf (g : GLink) : Bool := decide (g.a < 64) && decide (g.la < 12) && decide (g.b < 64) && decide (g.lb < 12)

/-- What a march finds lies in the part. -/
def findsWf (f : MarchFinds) : Bool :=
  f.rows.all (fun k => decide (k < 384)) && (f.stores ++ f.tiers).all fun x => decide (x.1 < 2048) && decide (x.2 < 66)

/-- Entries whose write a failing clock cuts off (R32): cluster, position, entry. -/
def cutWf (cut : List (Nat × Nat × Nat)) : Bool :=
  cut.all fun x => decide (x.1 < 2048) && decide (x.2.1 < 66) && decide (x.2.2 < 2048)

/-- A barge's header fields in their widths (R337). -/
def bargeWf (b : Barge) : Bool :=
  decide (b.pri < 4) && decide (b.cls < 4) && decide (b.master < 16) && decide (b.dst < 64) && decide (b.src < 64) &&
    decide (b.dev < 64) && decide (b.tag < 4096) && decide (b.op < 16) && decide (b.status < 4) && decide (b.code < 16) &&
    decide (b.addr < 2 ^ 64)

/-- The unit of a failed read of host memory. -/
def readUnitWf (u : ReadUnit) : Bool :=
  match u with
  | .ring i => decide (i < 16)
  | .load sec => decide (sec ≤ 65535)
  | .verify sec => decide (sec ≤ 65535)
  | .tableLoad c => cmdWf 0x13 c
  | .stateWrite c _ => cmdWf 0x07 c
  | .returnRing => true

/-- The command or event has its operands in range, and a command of R393 the opcode of its row. -/
def Instr.wf (i : Instr) : Bool :=
  match i with
  | .evaluationStep hs => happeningsWf hs
  | .firstTickStep hs => happeningsWf hs
  | .secondTickStep hs => happeningsWf hs
  | .lockPhaseStep hs => happeningsWf hs
  | .stallCycle => true
  | .stallTimeout => true
  | .imgLoad c => cmdWf 0x01 c
  | .imageRelease => true
  | .imgVerify c => cmdWf 0x02 c
  | .run c => cmdWf 0x03 c
  | .runStartInstant => true
  | .halt c => cmdWf 0x04 c
  | .stepFrames c => cmdWf 0x05 c
  | .stateRead c => cmdWf 0x06 c
  | .stateWrite c => cmdWf 0x07 c
  | .bankOwner c => cmdWf 0x08 c
  | .fence c => cmdWf 0x09 c
  | .unfence c => cmdWf 0x0A c
  | .powerState c => cmdWf 0x0B c
  | .traceArm c => cmdWf 0x0C c
  | .unseal c => cmdWf 0x0D c
  | .selftest c failing => cmdWf 0x0E c && decide (failing < 512)
  | .march c => cmdWf 0x0F c
  | .marchComplete f => findsWf f
  | .faultRead c => cmdWf 0x10 c
  | .faultDump c => cmdWf 0x11 c
  | .timeSet c => cmdWf 0x12 c
  | .tableLoad c => cmdWf 0x13 c
  | .isolate c => cmdWf 0x14 c
  | .reset c => cmdWf 0x15 c
  | .clkResume c => cmdWf 0x16 c
  | .stepClock c _ => cmdWf 0x17 c
  | .seqSet c => cmdWf 0x18 c
  | .stdWrite c => cmdWf 0x19 c
  | .bar0Read off len hs => decide (off < 2 ^ 26) && decide (len ≤ 4096) && happeningsWf hs
  | .registerWrite off data _ => decide (off < 2 ^ 26) && decide (data.length ≤ 4096)
  | .seqFrameLoRead => true
  | .seqGscLoRead => true
  | .timNsRead => true
  | .seqHaltReq => true
  | .cfgRstWarm _ => true
  | .cfgRstRecover => true
  | .dmcOwnHandover k v => decide (k < 384) && !v.getLsbD 31
  | .dmcOwnRefusalClear k v => decide (k < 384) && v.getLsbD 31
  | .hldRegionWrite q r _ _ => decide (q < 128) && decide (r < 16)
  | .lnkCtlEnWrite n _ => decide (n < 12)
  | .lnkCtlRetrain n _ => decide (n < 12)
  | .lkgForm _ => true
  | .lkgDissolve _ => true
  | .lkgModeWrite _ => true
  | .xchDoneWrite _ => true
  | .xchRingCiWrite r _ => decide (r < 64)
  | .xchRingLoWrite r _ => decide (r < 64)
  | .xchRetPiWrite _ => true
  | .xchRetLoWrite _ => true
  | .gauLaneWrite n _ => decide (n < 512)
  | .gauZdmapWrite z _ => decide (z < 64)
  | .gauRingLoWrite r _ => decide (r < 2)
  | .gauRingCiWrite r _ => decide (r < 2)
  | .trcArmWrite _ => true
  | .trcDisarmWrite _ => true
  | .trcRpWrite _ => true
  | .ckgStepMhzWrite mhz _ => decide (mhz < 2048)
  | .ckgStepRestore => true
  | .ckgEnWrite _ _ => true
  | .timCtlWrite _ => true
  | .timTrimWrite _ => true
  | .safInjectWrite _ => true
  | .lkpCrPiWrite i _ => decide (i < 16)
  | .lkpRrCiWrite i _ => decide (i < 16)
  | .lkpCrLoWrite i _ => decide (i < 16)
  | .lkpRrLoWrite i _ => decide (i < 16)
  | .lkpMboxGo => true
  | .commandTaken failing _ => decide (failing < 512)
  | .stdRegisterWrite i _ => decide (i < 256)
  | .stdWriteComplete => true
  | .bar2Read off len => decide (off < 2 ^ 29) && decide (len ≤ 4096)
  | .bar2Write off data => decide (off < 2 ^ 29) && decide (data.length ≤ 4096)
  | .bar4Read off len => decide (off < 2 ^ 37) && decide (len ≤ 4096)
  | .bar4Write off data => decide (off < 2 ^ 37) && decide (data.length ≤ 4096)
  | .dmcServiceRequest r => decide (r.bank < 384) && decide (r.word < 32768) && decide (r.master < 16)
  | .dmcServiceAccess k => decide (k < 384)
  | .dmcDeferredWrite k => decide (k < 384)
  | .dmcEccWriteback k w => decide (k < 384) && decide (w < 32768)
  | .dmcPatrolRead k => decide (k < 384)
  | .patrolLate => true
  | .instrScrubLate => true
  | .holdAccessComplete d => decide (d < 2048)
  | .holdRefreshDue d => decide (d < 2048)
  | .holdScrubRead i => decide (i < 4)
  | .holdScrubLate => true
  | .sluiceReplyArrival q t => decide (q < 128) && decide (t < 16)
  | .holdStackReady i => decide (i < 4)
  | .xchFragmentArrival => true
  | .xchClosePoint f => decide (f < 2 ^ 48)
  | .xchDeliveryWrite => true
  | .xchLossRecordWrite => true
  | .xchReturnRecordRead => true
  | .gauFailRecordWrite => true
  | .edgeCapture i edge => decide (i < 16) && decide (edge.sub < 40)
  | .gauEdgeRecordWrite => true
  | .trcDrainWrite => true
  | .trcDrainRetry => true
  | .linkSignalDetected n => decide (n < 12)
  | .linkDetectTimeout n => decide (n < 12)
  | .linkTrainDone n => decide (n < 12)
  | .linkTrainTimeout n => decide (n < 12)
  | .linkAlignDone n => decide (n < 12)
  | .linkAlignTimeout n => decide (n < 12)
  | .linkIdentReceived n dev link group => decide (n < 12) && decide (dev < 64) && decide (link < 12) && decide (group < 65536)
  | .linkMeasureDone n _ => decide (n < 12)
  | .linkRetryTimer n => decide (n < 12)
  | .linkDown n fail => decide (n < 12) && decide (fail < 7)
  | .linkCodewordReceived n _ => decide (n < 12)
  | .linkGroupReceived n ctl vals => decide (n < 12) && decide (ctl < 2 ^ 60) && vals.length = 448
  | .doneMarkerReceived n fLo _ _ => decide (n < 12) && decide (fLo < 2 ^ 32)
  | .markerWindowClose n => decide (n < 12)
  | .linkFlitReceived n seq _ => decide (n < 12) && decide (seq < 65536)
  | .linkAckReceived n _ seq => decide (n < 12) && decide (seq < 65536)
  | .expressWordReceived n kind src seq arg _ => decide (n < 12) && decide (kind < 16) && decide (src < 64) && decide (seq < 16) && decide (arg < 2 ^ 34)
  | .groupFormationComplete ferr links => decide (ferr ≤ 5) && links.all glinkWf
  | .groupFormationTimeout => true
  | .ringMessageReceived src dst gid _ _ => decide (src < 64) && decide (dst < 64) && decide (gid < 65536)
  | .ringPortRetrain port _ _ => decide (port < 2)
  | .timeBeaconExchange p _ _ _ sub master hops gid _ => decide (p < 2) && decide (master < 64) && decide (hops < 64) && decide (gid < 65536) && decide (sub < 40000)
  | .ppsInEdge sub => decide (sub < 40000)
  | .timeSourceLost => true
  | .ppsOutPulse => true
  | .bargeRequestArrival b how => bargeWf b && b.cls ≠ 1 && decide (how.via < 12)
  | .bargeReplyArrival r => bargeWf r && r.cls = 1
  | .bargeTimeout b => bargeWf b && b.cls = 0
  | .controlBargeArrival kind frm dst => decide (kind < 3) && decide (frm < 48) && decide (dst < 48)
  | .drainComplete n => decide (n < 48)
  | .drainTimeout n => decide (n < 48)
  | .faultReport code lkind loc frame => decide (code < 65536) && decide (lkind < 16) && decide (loc < 2 ^ 28) && decide (frame < 2 ^ 48)
  | .railMonitorTrip r f => decide (r < 8) && decide (f < 2 ^ 48)
  | .tempEmergency tj => decide (tj < 256)
  | .tempCritical tj => decide (tj < 256)
  | .watchdogMissed => true
  | .stepPllLockLoss cut => cutWf cut
  | .holdPllLockLoss _ => true
  | .linkPllLockLoss j => decide (j < 3)
  | .pllWindowEnd i _ _ e => decide (i < 5) && cutWf e.cut
  | .pllJudgeTimeout i => decide (i < 5)
  | .crystalLost e => cutWf e.cut
  | .gustRampHoldEnd => true
  | .powerOnReset pins => decide (pins < 64)
  | .vinOvervoltage => true
  | .perstNAssert => true
  | .perstNRelease => true
  | .powerGood => true
  | .bootOscDone _ hs => happeningsWf hs
  | .bootXtalDone _ => true
  | .bootFwDone _ => true
  | .bootTestDone f bad => findsWf f && bad.all fun i => decide (i < 4)
  | .bootArmDone ms ports hs => decide (ms < 65536) && decide (ports < 4) && happeningsWf hs
  | .warmResetEffect => true
  | .groupResetInstant _ => true
  | .groupResetCancel => true
  | .basinResetEffect b => decide (b < 32)
  | .recoveryKeepEntry => true
  | .recoveryPauseTimeout => true
  | .recoveryRestartDone => true
  | .hostReadError u => readUnitWf u
  | .powerEntryComplete => true
  | .gauFlushTimeout => true
  | .wakeNAsserted => true
  | .ringWake => true
  | .wakeTimerExpiry => true
  | .powerExitComplete => true
  | .vinBelow24v mv => decide (mv < 65536)
  | .powerCapEnd mv => decide (mv < 65536)
  | .powerCapSample p mv => decide (p < 65536) && decide (mv < 65536)
  | .thermalThrottleSample tj => decide (tj < 256)
  | .vinOvervoltageEnd => true
  | .holdRefreshDoubling i temp => decide (i < 4) && decide (temp < 256)
  | .unitDividerStep => true
  | .loadRelockTimeout => true
  | .checkPhaseEnd _ => true

/-- The opcode of a command's row (R393), and the record it carries; none for an event. -/
def Instr.opcode (i : Instr) : Option Nat :=
  match i with
  | .evaluationStep _ => none
  | .firstTickStep _ => none
  | .secondTickStep _ => none
  | .lockPhaseStep _ => none
  | .stallCycle => none
  | .stallTimeout => none
  | .imgLoad _ => some 0x01
  | .imageRelease => none
  | .imgVerify _ => some 0x02
  | .run _ => some 0x03
  | .runStartInstant => none
  | .halt _ => some 0x04
  | .stepFrames _ => some 0x05
  | .stateRead _ => some 0x06
  | .stateWrite _ => some 0x07
  | .bankOwner _ => some 0x08
  | .fence _ => some 0x09
  | .unfence _ => some 0x0A
  | .powerState _ => some 0x0B
  | .traceArm _ => some 0x0C
  | .unseal _ => some 0x0D
  | .selftest _ _ => some 0x0E
  | .march _ => some 0x0F
  | .marchComplete _ => none
  | .faultRead _ => some 0x10
  | .faultDump _ => some 0x11
  | .timeSet _ => some 0x12
  | .tableLoad _ => some 0x13
  | .isolate _ => some 0x14
  | .reset _ => some 0x15
  | .clkResume _ => some 0x16
  | .stepClock _ _ => some 0x17
  | .seqSet _ => some 0x18
  | .stdWrite _ => some 0x19
  | .bar0Read _ _ _ => none
  | .registerWrite _ _ _ => none
  | .seqFrameLoRead => none
  | .seqGscLoRead => none
  | .timNsRead => none
  | .seqHaltReq => none
  | .cfgRstWarm _ => none
  | .cfgRstRecover => none
  | .dmcOwnHandover _ _ => none
  | .dmcOwnRefusalClear _ _ => none
  | .hldRegionWrite _ _ _ _ => none
  | .lnkCtlEnWrite _ _ => none
  | .lnkCtlRetrain _ _ => none
  | .lkgForm _ => none
  | .lkgDissolve _ => none
  | .lkgModeWrite _ => none
  | .xchDoneWrite _ => none
  | .xchRingCiWrite _ _ => none
  | .xchRingLoWrite _ _ => none
  | .xchRetPiWrite _ => none
  | .xchRetLoWrite _ => none
  | .gauLaneWrite _ _ => none
  | .gauZdmapWrite _ _ => none
  | .gauRingLoWrite _ _ => none
  | .gauRingCiWrite _ _ => none
  | .trcArmWrite _ => none
  | .trcDisarmWrite _ => none
  | .trcRpWrite _ => none
  | .ckgStepMhzWrite _ _ => none
  | .ckgStepRestore => none
  | .ckgEnWrite _ _ => none
  | .timCtlWrite _ => none
  | .timTrimWrite _ => none
  | .safInjectWrite _ => none
  | .lkpCrPiWrite _ _ => none
  | .lkpRrCiWrite _ _ => none
  | .lkpCrLoWrite _ _ => none
  | .lkpRrLoWrite _ _ => none
  | .lkpMboxGo => none
  | .commandTaken _ _ => none
  | .stdRegisterWrite _ _ => none
  | .stdWriteComplete => none
  | .bar2Read _ _ => none
  | .bar2Write _ _ => none
  | .bar4Read _ _ => none
  | .bar4Write _ _ => none
  | .dmcServiceRequest _ => none
  | .dmcServiceAccess _ => none
  | .dmcDeferredWrite _ => none
  | .dmcEccWriteback _ _ => none
  | .dmcPatrolRead _ => none
  | .patrolLate => none
  | .instrScrubLate => none
  | .holdAccessComplete _ => none
  | .holdRefreshDue _ => none
  | .holdScrubRead _ => none
  | .holdScrubLate => none
  | .sluiceReplyArrival _ _ => none
  | .holdStackReady _ => none
  | .xchFragmentArrival => none
  | .xchClosePoint _ => none
  | .xchDeliveryWrite => none
  | .xchLossRecordWrite => none
  | .xchReturnRecordRead => none
  | .gauFailRecordWrite => none
  | .edgeCapture _ _ => none
  | .gauEdgeRecordWrite => none
  | .trcDrainWrite => none
  | .trcDrainRetry => none
  | .linkSignalDetected _ => none
  | .linkDetectTimeout _ => none
  | .linkTrainDone _ => none
  | .linkTrainTimeout _ => none
  | .linkAlignDone _ => none
  | .linkAlignTimeout _ => none
  | .linkIdentReceived _ _ _ _ => none
  | .linkMeasureDone _ _ => none
  | .linkRetryTimer _ => none
  | .linkDown _ _ => none
  | .linkCodewordReceived _ _ => none
  | .linkGroupReceived _ _ _ => none
  | .doneMarkerReceived _ _ _ _ => none
  | .markerWindowClose _ => none
  | .linkFlitReceived _ _ _ => none
  | .linkAckReceived _ _ _ => none
  | .expressWordReceived _ _ _ _ _ _ => none
  | .groupFormationComplete _ _ => none
  | .groupFormationTimeout => none
  | .ringMessageReceived _ _ _ _ _ => none
  | .ringPortRetrain _ _ _ => none
  | .timeBeaconExchange _ _ _ _ _ _ _ _ _ => none
  | .ppsInEdge _ => none
  | .timeSourceLost => none
  | .ppsOutPulse => none
  | .bargeRequestArrival _ _ => none
  | .bargeReplyArrival _ => none
  | .bargeTimeout _ => none
  | .controlBargeArrival _ _ _ => none
  | .drainComplete _ => none
  | .drainTimeout _ => none
  | .faultReport _ _ _ _ => none
  | .railMonitorTrip _ _ => none
  | .tempEmergency _ => none
  | .tempCritical _ => none
  | .watchdogMissed => none
  | .stepPllLockLoss _ => none
  | .holdPllLockLoss _ => none
  | .linkPllLockLoss _ => none
  | .pllWindowEnd _ _ _ _ => none
  | .pllJudgeTimeout _ => none
  | .crystalLost _ => none
  | .gustRampHoldEnd => none
  | .powerOnReset _ => none
  | .vinOvervoltage => none
  | .perstNAssert => none
  | .perstNRelease => none
  | .powerGood => none
  | .bootOscDone _ _ => none
  | .bootXtalDone _ => none
  | .bootFwDone _ => none
  | .bootTestDone _ _ => none
  | .bootArmDone _ _ _ => none
  | .warmResetEffect => none
  | .groupResetInstant _ => none
  | .groupResetCancel => none
  | .basinResetEffect _ => none
  | .recoveryKeepEntry => none
  | .recoveryPauseTimeout => none
  | .recoveryRestartDone => none
  | .hostReadError _ => none
  | .powerEntryComplete => none
  | .gauFlushTimeout => none
  | .wakeNAsserted => none
  | .ringWake => none
  | .wakeTimerExpiry => none
  | .powerExitComplete => none
  | .vinBelow24v _ => none
  | .powerCapEnd _ => none
  | .powerCapSample _ _ => none
  | .thermalThrottleSample _ => none
  | .vinOvervoltageEnd => none
  | .holdRefreshDoubling _ _ => none
  | .unitDividerStep => none
  | .loadRelockTimeout => none
  | .checkPhaseEnd _ => none
def Instr.record (i : Instr) : Option Cmd :=
  match i with
  | .evaluationStep _ => none
  | .firstTickStep _ => none
  | .secondTickStep _ => none
  | .lockPhaseStep _ => none
  | .stallCycle => none
  | .stallTimeout => none
  | .imgLoad c => some c
  | .imageRelease => none
  | .imgVerify c => some c
  | .run c => some c
  | .runStartInstant => none
  | .halt c => some c
  | .stepFrames c => some c
  | .stateRead c => some c
  | .stateWrite c => some c
  | .bankOwner c => some c
  | .fence c => some c
  | .unfence c => some c
  | .powerState c => some c
  | .traceArm c => some c
  | .unseal c => some c
  | .selftest c _ => some c
  | .march c => some c
  | .marchComplete _ => none
  | .faultRead c => some c
  | .faultDump c => some c
  | .timeSet c => some c
  | .tableLoad c => some c
  | .isolate c => some c
  | .reset c => some c
  | .clkResume c => some c
  | .stepClock c _ => some c
  | .seqSet c => some c
  | .stdWrite c => some c
  | .bar0Read _ _ _ => none
  | .registerWrite _ _ _ => none
  | .seqFrameLoRead => none
  | .seqGscLoRead => none
  | .timNsRead => none
  | .seqHaltReq => none
  | .cfgRstWarm _ => none
  | .cfgRstRecover => none
  | .dmcOwnHandover _ _ => none
  | .dmcOwnRefusalClear _ _ => none
  | .hldRegionWrite _ _ _ _ => none
  | .lnkCtlEnWrite _ _ => none
  | .lnkCtlRetrain _ _ => none
  | .lkgForm _ => none
  | .lkgDissolve _ => none
  | .lkgModeWrite _ => none
  | .xchDoneWrite _ => none
  | .xchRingCiWrite _ _ => none
  | .xchRingLoWrite _ _ => none
  | .xchRetPiWrite _ => none
  | .xchRetLoWrite _ => none
  | .gauLaneWrite _ _ => none
  | .gauZdmapWrite _ _ => none
  | .gauRingLoWrite _ _ => none
  | .gauRingCiWrite _ _ => none
  | .trcArmWrite _ => none
  | .trcDisarmWrite _ => none
  | .trcRpWrite _ => none
  | .ckgStepMhzWrite _ _ => none
  | .ckgStepRestore => none
  | .ckgEnWrite _ _ => none
  | .timCtlWrite _ => none
  | .timTrimWrite _ => none
  | .safInjectWrite _ => none
  | .lkpCrPiWrite _ _ => none
  | .lkpRrCiWrite _ _ => none
  | .lkpCrLoWrite _ _ => none
  | .lkpRrLoWrite _ _ => none
  | .lkpMboxGo => none
  | .commandTaken _ _ => none
  | .stdRegisterWrite _ _ => none
  | .stdWriteComplete => none
  | .bar2Read _ _ => none
  | .bar2Write _ _ => none
  | .bar4Read _ _ => none
  | .bar4Write _ _ => none
  | .dmcServiceRequest _ => none
  | .dmcServiceAccess _ => none
  | .dmcDeferredWrite _ => none
  | .dmcEccWriteback _ _ => none
  | .dmcPatrolRead _ => none
  | .patrolLate => none
  | .instrScrubLate => none
  | .holdAccessComplete _ => none
  | .holdRefreshDue _ => none
  | .holdScrubRead _ => none
  | .holdScrubLate => none
  | .sluiceReplyArrival _ _ => none
  | .holdStackReady _ => none
  | .xchFragmentArrival => none
  | .xchClosePoint _ => none
  | .xchDeliveryWrite => none
  | .xchLossRecordWrite => none
  | .xchReturnRecordRead => none
  | .gauFailRecordWrite => none
  | .edgeCapture _ _ => none
  | .gauEdgeRecordWrite => none
  | .trcDrainWrite => none
  | .trcDrainRetry => none
  | .linkSignalDetected _ => none
  | .linkDetectTimeout _ => none
  | .linkTrainDone _ => none
  | .linkTrainTimeout _ => none
  | .linkAlignDone _ => none
  | .linkAlignTimeout _ => none
  | .linkIdentReceived _ _ _ _ => none
  | .linkMeasureDone _ _ => none
  | .linkRetryTimer _ => none
  | .linkDown _ _ => none
  | .linkCodewordReceived _ _ => none
  | .linkGroupReceived _ _ _ => none
  | .doneMarkerReceived _ _ _ _ => none
  | .markerWindowClose _ => none
  | .linkFlitReceived _ _ _ => none
  | .linkAckReceived _ _ _ => none
  | .expressWordReceived _ _ _ _ _ _ => none
  | .groupFormationComplete _ _ => none
  | .groupFormationTimeout => none
  | .ringMessageReceived _ _ _ _ _ => none
  | .ringPortRetrain _ _ _ => none
  | .timeBeaconExchange _ _ _ _ _ _ _ _ _ => none
  | .ppsInEdge _ => none
  | .timeSourceLost => none
  | .ppsOutPulse => none
  | .bargeRequestArrival _ _ => none
  | .bargeReplyArrival _ => none
  | .bargeTimeout _ => none
  | .controlBargeArrival _ _ _ => none
  | .drainComplete _ => none
  | .drainTimeout _ => none
  | .faultReport _ _ _ _ => none
  | .railMonitorTrip _ _ => none
  | .tempEmergency _ => none
  | .tempCritical _ => none
  | .watchdogMissed => none
  | .stepPllLockLoss _ => none
  | .holdPllLockLoss _ => none
  | .linkPllLockLoss _ => none
  | .pllWindowEnd _ _ _ _ => none
  | .pllJudgeTimeout _ => none
  | .crystalLost _ => none
  | .gustRampHoldEnd => none
  | .powerOnReset _ => none
  | .vinOvervoltage => none
  | .perstNAssert => none
  | .perstNRelease => none
  | .powerGood => none
  | .bootOscDone _ _ => none
  | .bootXtalDone _ => none
  | .bootFwDone _ => none
  | .bootTestDone _ _ => none
  | .bootArmDone _ _ _ => none
  | .warmResetEffect => none
  | .groupResetInstant _ => none
  | .groupResetCancel => none
  | .basinResetEffect _ => none
  | .recoveryKeepEntry => none
  | .recoveryPauseTimeout => none
  | .recoveryRestartDone => none
  | .hostReadError _ => none
  | .powerEntryComplete => none
  | .gauFlushTimeout => none
  | .wakeNAsserted => none
  | .ringWake => none
  | .wakeTimerExpiry => none
  | .powerExitComplete => none
  | .vinBelow24v _ => none
  | .powerCapEnd _ => none
  | .powerCapSample _ _ => none
  | .thermalThrottleSample _ => none
  | .vinOvervoltageEnd => none
  | .holdRefreshDoubling _ _ => none
  | .unitDividerStep => none
  | .loadRelockTimeout => none
  | .checkPhaseEnd _ => none

end Sys2Proof
end

