-- ==== Sys2Proof/Laws/PerInstr.lean ====
section
/-!
SUPPORT. The family `Record`: a well-formed command carries a record of its row's opcode, its fields in their widths (R387, R393).
-/
namespace Sys2Proof.Laws

/-- What `cmdWf` says of a record. -/
theorem cmdWf_fields {op : Nat} {c : Cmd} (h : cmdWf op c = true) :
    c.op = op ∧ c.port ≤ 17 ∧ c.tag < 2 ^ 32 ∧ c.p3.length = 32 := by
  simp only [cmdWf, Bool.and_eq_true, decide_eq_true_eq] at h
  omega

/-- The record of a well-formed command has the row's opcode, a port that exists, a 32-bit tag and 32 bytes of P3. -/
def Record.Statement (i : Instr) : Prop :=
  i.wf = true → ∀ c, i.record = some c → i.opcode = some c.op ∧ c.port ≤ 17 ∧ c.tag < 2 ^ 32 ∧ c.p3.length = 32

/-- What a record of the row's opcode gives. -/
theorem Record.of_wf {op : Nat} {o : Option Nat} {c d : Cmd} (h : cmdWf op c = true) (ho : o = some op) (hd : c = d) :
    o = some d.op ∧ d.port ≤ 17 ∧ d.tag < 2 ^ 32 ∧ d.p3.length = 32 := by
  subst hd
  have w := cmdWf_fields h
  exact ⟨by rw [ho, w.1], w.2⟩

theorem Record.evaluationStep (hs : List Happening) : Record.Statement (.evaluationStep hs) :=
  fun _ _ hd => nomatch hd
theorem Record.firstTickStep (hs : List Happening) : Record.Statement (.firstTickStep hs) :=
  fun _ _ hd => nomatch hd
theorem Record.secondTickStep (hs : List Happening) : Record.Statement (.secondTickStep hs) :=
  fun _ _ hd => nomatch hd
theorem Record.lockPhaseStep (hs : List Happening) : Record.Statement (.lockPhaseStep hs) :=
  fun _ _ hd => nomatch hd
theorem Record.stallCycle : Record.Statement (.stallCycle) :=
  fun _ _ hd => nomatch hd
theorem Record.stallTimeout : Record.Statement (.stallTimeout) :=
  fun _ _ hd => nomatch hd
theorem Record.imgLoad (c : Cmd) : Record.Statement (.imgLoad c) :=
  fun h _ hd => Record.of_wf h rfl (Option.some.inj hd)
theorem Record.imageRelease : Record.Statement (.imageRelease) :=
  fun _ _ hd => nomatch hd
theorem Record.imgVerify (c : Cmd) : Record.Statement (.imgVerify c) :=
  fun h _ hd => Record.of_wf h rfl (Option.some.inj hd)
theorem Record.run (c : Cmd) : Record.Statement (.run c) :=
  fun h _ hd => Record.of_wf h rfl (Option.some.inj hd)
theorem Record.runStartInstant : Record.Statement (.runStartInstant) :=
  fun _ _ hd => nomatch hd
theorem Record.halt (c : Cmd) : Record.Statement (.halt c) :=
  fun h _ hd => Record.of_wf h rfl (Option.some.inj hd)
theorem Record.stepFrames (c : Cmd) : Record.Statement (.stepFrames c) :=
  fun h _ hd => Record.of_wf h rfl (Option.some.inj hd)
theorem Record.stateRead (c : Cmd) : Record.Statement (.stateRead c) :=
  fun h _ hd => Record.of_wf h rfl (Option.some.inj hd)
theorem Record.stateWrite (c : Cmd) : Record.Statement (.stateWrite c) :=
  fun h _ hd => Record.of_wf h rfl (Option.some.inj hd)
theorem Record.bankOwner (c : Cmd) : Record.Statement (.bankOwner c) :=
  fun h _ hd => Record.of_wf h rfl (Option.some.inj hd)
theorem Record.fence (c : Cmd) : Record.Statement (.fence c) :=
  fun h _ hd => Record.of_wf h rfl (Option.some.inj hd)
theorem Record.unfence (c : Cmd) : Record.Statement (.unfence c) :=
  fun h _ hd => Record.of_wf h rfl (Option.some.inj hd)
theorem Record.powerState (c : Cmd) : Record.Statement (.powerState c) :=
  fun h _ hd => Record.of_wf h rfl (Option.some.inj hd)
theorem Record.traceArm (c : Cmd) : Record.Statement (.traceArm c) :=
  fun h _ hd => Record.of_wf h rfl (Option.some.inj hd)
theorem Record.unseal (c : Cmd) : Record.Statement (.unseal c) :=
  fun h _ hd => Record.of_wf h rfl (Option.some.inj hd)
theorem Record.selftest (c : Cmd) (failing : Nat) : Record.Statement (.selftest c failing) :=
  fun h _ hd => Record.of_wf (Bool.and_eq_true _ _ |>.mp h).1 rfl (Option.some.inj hd)
theorem Record.march (c : Cmd) : Record.Statement (.march c) :=
  fun h _ hd => Record.of_wf h rfl (Option.some.inj hd)
theorem Record.marchComplete (f : MarchFinds) : Record.Statement (.marchComplete f) :=
  fun _ _ hd => nomatch hd
theorem Record.faultRead (c : Cmd) : Record.Statement (.faultRead c) :=
  fun h _ hd => Record.of_wf h rfl (Option.some.inj hd)
theorem Record.faultDump (c : Cmd) : Record.Statement (.faultDump c) :=
  fun h _ hd => Record.of_wf h rfl (Option.some.inj hd)
theorem Record.timeSet (c : Cmd) : Record.Statement (.timeSet c) :=
  fun h _ hd => Record.of_wf h rfl (Option.some.inj hd)
theorem Record.tableLoad (c : Cmd) : Record.Statement (.tableLoad c) :=
  fun h _ hd => Record.of_wf h rfl (Option.some.inj hd)
theorem Record.isolate (c : Cmd) : Record.Statement (.isolate c) :=
  fun h _ hd => Record.of_wf h rfl (Option.some.inj hd)
theorem Record.reset (c : Cmd) : Record.Statement (.reset c) :=
  fun h _ hd => Record.of_wf h rfl (Option.some.inj hd)
theorem Record.clkResume (c : Cmd) : Record.Statement (.clkResume c) :=
  fun h _ hd => Record.of_wf h rfl (Option.some.inj hd)
theorem Record.stepClock (c : Cmd) (e : SwitchEnd) : Record.Statement (.stepClock c e) :=
  fun h _ hd => Record.of_wf h rfl (Option.some.inj hd)
theorem Record.seqSet (c : Cmd) : Record.Statement (.seqSet c) :=
  fun h _ hd => Record.of_wf h rfl (Option.some.inj hd)
theorem Record.stdWrite (c : Cmd) : Record.Statement (.stdWrite c) :=
  fun h _ hd => Record.of_wf h rfl (Option.some.inj hd)
theorem Record.bar0Read (off len : Nat) (hs : List Happening) : Record.Statement (.bar0Read off len hs) :=
  fun _ _ hd => nomatch hd
theorem Record.registerWrite (off : Nat) (data : List Byte) (e : WriteEnd) : Record.Statement (.registerWrite off data e) :=
  fun _ _ hd => nomatch hd
theorem Record.seqFrameLoRead : Record.Statement (.seqFrameLoRead) :=
  fun _ _ hd => nomatch hd
theorem Record.seqGscLoRead : Record.Statement (.seqGscLoRead) :=
  fun _ _ hd => nomatch hd
theorem Record.timNsRead : Record.Statement (.timNsRead) :=
  fun _ _ hd => nomatch hd
theorem Record.seqHaltReq : Record.Statement (.seqHaltReq) :=
  fun _ _ hd => nomatch hd
theorem Record.cfgRstWarm (recover : Bool) : Record.Statement (.cfgRstWarm recover) :=
  fun _ _ hd => nomatch hd
theorem Record.cfgRstRecover : Record.Statement (.cfgRstRecover) :=
  fun _ _ hd => nomatch hd
theorem Record.dmcOwnHandover (k : Nat) (v : Word) : Record.Statement (.dmcOwnHandover k v) :=
  fun _ _ hd => nomatch hd
theorem Record.dmcOwnRefusalClear (k : Nat) (v : Word) : Record.Statement (.dmcOwnRefusalClear k v) :=
  fun _ _ hd => nomatch hd
theorem Record.hldRegionWrite (q r : Nat) (size : Bool) (v : Word) : Record.Statement (.hldRegionWrite q r size v) :=
  fun _ _ hd => nomatch hd
theorem Record.lnkCtlEnWrite (n : Nat) (en : Bool) : Record.Statement (.lnkCtlEnWrite n en) :=
  fun _ _ hd => nomatch hd
theorem Record.lnkCtlRetrain (n : Nat) (en : Bool) : Record.Statement (.lnkCtlRetrain n en) :=
  fun _ _ hd => nomatch hd
theorem Record.lkgForm (v : Word) : Record.Statement (.lkgForm v) :=
  fun _ _ hd => nomatch hd
theorem Record.lkgDissolve (v : Word) : Record.Statement (.lkgDissolve v) :=
  fun _ _ hd => nomatch hd
theorem Record.lkgModeWrite (v : Word) : Record.Statement (.lkgModeWrite v) :=
  fun _ _ hd => nomatch hd
theorem Record.xchDoneWrite (v : Word) : Record.Statement (.xchDoneWrite v) :=
  fun _ _ hd => nomatch hd
theorem Record.xchRingCiWrite (r : Nat) (v : Word) : Record.Statement (.xchRingCiWrite r v) :=
  fun _ _ hd => nomatch hd
theorem Record.xchRingLoWrite (r : Nat) (v : Word) : Record.Statement (.xchRingLoWrite r v) :=
  fun _ _ hd => nomatch hd
theorem Record.xchRetPiWrite (v : Word) : Record.Statement (.xchRetPiWrite v) :=
  fun _ _ hd => nomatch hd
theorem Record.xchRetLoWrite (v : Word) : Record.Statement (.xchRetLoWrite v) :=
  fun _ _ hd => nomatch hd
theorem Record.gauLaneWrite (n : Nat) (v : Word) : Record.Statement (.gauLaneWrite n v) :=
  fun _ _ hd => nomatch hd
theorem Record.gauZdmapWrite (z : Nat) (v : Word) : Record.Statement (.gauZdmapWrite z v) :=
  fun _ _ hd => nomatch hd
theorem Record.gauRingLoWrite (r : Nat) (v : Word) : Record.Statement (.gauRingLoWrite r v) :=
  fun _ _ hd => nomatch hd
theorem Record.gauRingCiWrite (r : Nat) (v : Word) : Record.Statement (.gauRingCiWrite r v) :=
  fun _ _ hd => nomatch hd
theorem Record.trcArmWrite (v : Word) : Record.Statement (.trcArmWrite v) :=
  fun _ _ hd => nomatch hd
theorem Record.trcDisarmWrite (v : Word) : Record.Statement (.trcDisarmWrite v) :=
  fun _ _ hd => nomatch hd
theorem Record.trcRpWrite (v : Word) : Record.Statement (.trcRpWrite v) :=
  fun _ _ hd => nomatch hd
theorem Record.ckgStepMhzWrite (mhz : Nat) (e : SwitchEnd) : Record.Statement (.ckgStepMhzWrite mhz e) :=
  fun _ _ hd => nomatch hd
theorem Record.ckgStepRestore : Record.Statement (.ckgStepRestore) :=
  fun _ _ hd => nomatch hd
theorem Record.ckgEnWrite (second : Bool) (v : Word) : Record.Statement (.ckgEnWrite second v) :=
  fun _ _ hd => nomatch hd
theorem Record.timCtlWrite (v : Word) : Record.Statement (.timCtlWrite v) :=
  fun _ _ hd => nomatch hd
theorem Record.timTrimWrite (v : Word) : Record.Statement (.timTrimWrite v) :=
  fun _ _ hd => nomatch hd
theorem Record.safInjectWrite (v : Word) : Record.Statement (.safInjectWrite v) :=
  fun _ _ hd => nomatch hd
theorem Record.lkpCrPiWrite (i : Nat) (v : Word) : Record.Statement (.lkpCrPiWrite i v) :=
  fun _ _ hd => nomatch hd
theorem Record.lkpRrCiWrite (i : Nat) (v : Word) : Record.Statement (.lkpRrCiWrite i v) :=
  fun _ _ hd => nomatch hd
theorem Record.lkpCrLoWrite (i : Nat) (v : Word) : Record.Statement (.lkpCrLoWrite i v) :=
  fun _ _ hd => nomatch hd
theorem Record.lkpRrLoWrite (i : Nat) (v : Word) : Record.Statement (.lkpRrLoWrite i v) :=
  fun _ _ hd => nomatch hd
theorem Record.lkpMboxGo : Record.Statement (.lkpMboxGo) :=
  fun _ _ hd => nomatch hd
theorem Record.commandTaken (failing : Nat) (e : SwitchEnd) : Record.Statement (.commandTaken failing e) :=
  fun _ _ hd => nomatch hd
theorem Record.stdRegisterWrite (i : Nat) (v : Word) : Record.Statement (.stdRegisterWrite i v) :=
  fun _ _ hd => nomatch hd
theorem Record.stdWriteComplete : Record.Statement (.stdWriteComplete) :=
  fun _ _ hd => nomatch hd
theorem Record.bar2Read (off len : Nat) : Record.Statement (.bar2Read off len) :=
  fun _ _ hd => nomatch hd
theorem Record.bar2Write (off : Nat) (data : List Byte) : Record.Statement (.bar2Write off data) :=
  fun _ _ hd => nomatch hd
theorem Record.bar4Read (off len : Nat) : Record.Statement (.bar4Read off len) :=
  fun _ _ hd => nomatch hd
theorem Record.bar4Write (off : Nat) (data : List Byte) : Record.Statement (.bar4Write off data) :=
  fun _ _ hd => nomatch hd
theorem Record.dmcServiceRequest (r : SvcReq) : Record.Statement (.dmcServiceRequest r) :=
  fun _ _ hd => nomatch hd
theorem Record.dmcServiceAccess (k : Nat) : Record.Statement (.dmcServiceAccess k) :=
  fun _ _ hd => nomatch hd
theorem Record.dmcDeferredWrite (k : Nat) : Record.Statement (.dmcDeferredWrite k) :=
  fun _ _ hd => nomatch hd
theorem Record.dmcEccWriteback (k w : Nat) : Record.Statement (.dmcEccWriteback k w) :=
  fun _ _ hd => nomatch hd
theorem Record.dmcPatrolRead (k : Nat) : Record.Statement (.dmcPatrolRead k) :=
  fun _ _ hd => nomatch hd
theorem Record.patrolLate : Record.Statement (.patrolLate) :=
  fun _ _ hd => nomatch hd
theorem Record.instrScrubLate : Record.Statement (.instrScrubLate) :=
  fun _ _ hd => nomatch hd
theorem Record.holdAccessComplete (d : Nat) : Record.Statement (.holdAccessComplete d) :=
  fun _ _ hd => nomatch hd
theorem Record.holdRefreshDue (d : Nat) : Record.Statement (.holdRefreshDue d) :=
  fun _ _ hd => nomatch hd
theorem Record.holdScrubRead (i : Nat) : Record.Statement (.holdScrubRead i) :=
  fun _ _ hd => nomatch hd
theorem Record.holdScrubLate : Record.Statement (.holdScrubLate) :=
  fun _ _ hd => nomatch hd
theorem Record.sluiceReplyArrival (q t : Nat) : Record.Statement (.sluiceReplyArrival q t) :=
  fun _ _ hd => nomatch hd
theorem Record.holdStackReady (i : Nat) : Record.Statement (.holdStackReady i) :=
  fun _ _ hd => nomatch hd
theorem Record.xchFragmentArrival : Record.Statement (.xchFragmentArrival) :=
  fun _ _ hd => nomatch hd
theorem Record.xchClosePoint (f : Nat) : Record.Statement (.xchClosePoint f) :=
  fun _ _ hd => nomatch hd
theorem Record.xchDeliveryWrite : Record.Statement (.xchDeliveryWrite) :=
  fun _ _ hd => nomatch hd
theorem Record.xchLossRecordWrite : Record.Statement (.xchLossRecordWrite) :=
  fun _ _ hd => nomatch hd
theorem Record.xchReturnRecordRead : Record.Statement (.xchReturnRecordRead) :=
  fun _ _ hd => nomatch hd
theorem Record.gauFailRecordWrite : Record.Statement (.gauFailRecordWrite) :=
  fun _ _ hd => nomatch hd
theorem Record.edgeCapture (i : Nat) (edge : EdgeAt) : Record.Statement (.edgeCapture i edge) :=
  fun _ _ hd => nomatch hd
theorem Record.gauEdgeRecordWrite : Record.Statement (.gauEdgeRecordWrite) :=
  fun _ _ hd => nomatch hd
theorem Record.trcDrainWrite : Record.Statement (.trcDrainWrite) :=
  fun _ _ hd => nomatch hd
theorem Record.trcDrainRetry : Record.Statement (.trcDrainRetry) :=
  fun _ _ hd => nomatch hd
theorem Record.linkSignalDetected (n : Nat) : Record.Statement (.linkSignalDetected n) :=
  fun _ _ hd => nomatch hd
theorem Record.linkDetectTimeout (n : Nat) : Record.Statement (.linkDetectTimeout n) :=
  fun _ _ hd => nomatch hd
theorem Record.linkTrainDone (n : Nat) : Record.Statement (.linkTrainDone n) :=
  fun _ _ hd => nomatch hd
theorem Record.linkTrainTimeout (n : Nat) : Record.Statement (.linkTrainTimeout n) :=
  fun _ _ hd => nomatch hd
theorem Record.linkAlignDone (n : Nat) : Record.Statement (.linkAlignDone n) :=
  fun _ _ hd => nomatch hd
theorem Record.linkAlignTimeout (n : Nat) : Record.Statement (.linkAlignTimeout n) :=
  fun _ _ hd => nomatch hd
theorem Record.linkIdentReceived (n dev link group : Nat) : Record.Statement (.linkIdentReceived n dev link group) :=
  fun _ _ hd => nomatch hd
theorem Record.linkMeasureDone (n dlyPs : Nat) : Record.Statement (.linkMeasureDone n dlyPs) :=
  fun _ _ hd => nomatch hd
theorem Record.linkRetryTimer (n : Nat) : Record.Statement (.linkRetryTimer n) :=
  fun _ _ hd => nomatch hd
theorem Record.linkDown (n fail : Nat) : Record.Statement (.linkDown n fail) :=
  fun _ _ hd => nomatch hd
theorem Record.linkCodewordReceived (n : Nat) (w : Codeword) : Record.Statement (.linkCodewordReceived n w) :=
  fun _ _ hd => nomatch hd
theorem Record.linkGroupReceived (n ctl : Nat) (vals : List V4) : Record.Statement (.linkGroupReceived n ctl vals) :=
  fun _ _ hd => nomatch hd
theorem Record.doneMarkerReceived (n fLo : Nat) (taint early : Bool) : Record.Statement (.doneMarkerReceived n fLo taint early) :=
  fun _ _ hd => nomatch hd
theorem Record.markerWindowClose (n : Nat) : Record.Statement (.markerWindowClose n) :=
  fun _ _ hd => nomatch hd
theorem Record.linkFlitReceived (n seq : Nat) (crcOk : Bool) : Record.Statement (.linkFlitReceived n seq crcOk) :=
  fun _ _ hd => nomatch hd
theorem Record.linkAckReceived (n : Nat) (nak : Bool) (seq : Nat) : Record.Statement (.linkAckReceived n nak seq) :=
  fun _ _ hd => nomatch hd
theorem Record.expressWordReceived (n kind src seq arg : Nat) (ok : Bool) : Record.Statement (.expressWordReceived n kind src seq arg ok) :=
  fun _ _ hd => nomatch hd
theorem Record.groupFormationComplete (ferr : Nat) (links : List GLink) : Record.Statement (.groupFormationComplete ferr links) :=
  fun _ _ hd => nomatch hd
theorem Record.groupFormationTimeout : Record.Statement (.groupFormationTimeout) :=
  fun _ _ hd => nomatch hd
theorem Record.ringMessageReceived (src dst gid : Nat) (m : RingMsg) (e : SwitchEnd) : Record.Statement (.ringMessageReceived src dst gid m e) :=
  fun _ _ hd => nomatch hd
theorem Record.ringPortRetrain (port : Nat) (up : Bool) (lost : Nat) : Record.Statement (.ringPortRetrain port up lost) :=
  fun _ _ hd => nomatch hd
theorem Record.timeBeaconExchange (p : Nat) (t1 t2 t3 : Int) (sub master hops gid : Nat) (valid : Bool) : Record.Statement (.timeBeaconExchange p t1 t2 t3 sub master hops gid valid) :=
  fun _ _ hd => nomatch hd
theorem Record.ppsInEdge (sub : Nat) : Record.Statement (.ppsInEdge sub) :=
  fun _ _ hd => nomatch hd
theorem Record.timeSourceLost : Record.Statement (.timeSourceLost) :=
  fun _ _ hd => nomatch hd
theorem Record.ppsOutPulse : Record.Statement (.ppsOutPulse) :=
  fun _ _ hd => nomatch hd
theorem Record.bargeRequestArrival (b : Barge) (how : BargeIn) : Record.Statement (.bargeRequestArrival b how) :=
  fun _ _ hd => nomatch hd
theorem Record.bargeReplyArrival (r : Barge) : Record.Statement (.bargeReplyArrival r) :=
  fun _ _ hd => nomatch hd
theorem Record.bargeTimeout (b : Barge) : Record.Statement (.bargeTimeout b) :=
  fun _ _ hd => nomatch hd
theorem Record.controlBargeArrival (kind frm dst : Nat) : Record.Statement (.controlBargeArrival kind frm dst) :=
  fun _ _ hd => nomatch hd
theorem Record.drainComplete (n : Nat) : Record.Statement (.drainComplete n) :=
  fun _ _ hd => nomatch hd
theorem Record.drainTimeout (n : Nat) : Record.Statement (.drainTimeout n) :=
  fun _ _ hd => nomatch hd
theorem Record.faultReport (code lkind loc frame : Nat) : Record.Statement (.faultReport code lkind loc frame) :=
  fun _ _ hd => nomatch hd
theorem Record.railMonitorTrip (r f : Nat) : Record.Statement (.railMonitorTrip r f) :=
  fun _ _ hd => nomatch hd
theorem Record.tempEmergency (tj : Nat) : Record.Statement (.tempEmergency tj) :=
  fun _ _ hd => nomatch hd
theorem Record.tempCritical (tj : Nat) : Record.Statement (.tempCritical tj) :=
  fun _ _ hd => nomatch hd
theorem Record.watchdogMissed : Record.Statement (.watchdogMissed) :=
  fun _ _ hd => nomatch hd
theorem Record.stepPllLockLoss (cut : List (Nat × Nat × Nat)) : Record.Statement (.stepPllLockLoss cut) :=
  fun _ _ hd => nomatch hd
theorem Record.holdPllLockLoss (e : SwitchEnd) : Record.Statement (.holdPllLockLoss e) :=
  fun _ _ hd => nomatch hd
theorem Record.linkPllLockLoss (j : Nat) : Record.Statement (.linkPllLockLoss j) :=
  fun _ _ hd => nomatch hd
theorem Record.pllWindowEnd (i : Nat) (ppm : Int) (lock : Bool) (e : LossEnd) : Record.Statement (.pllWindowEnd i ppm lock e) :=
  fun _ _ hd => nomatch hd
theorem Record.pllJudgeTimeout (i : Nat) : Record.Statement (.pllJudgeTimeout i) :=
  fun _ _ hd => nomatch hd
theorem Record.crystalLost (e : LossEnd) : Record.Statement (.crystalLost e) :=
  fun _ _ hd => nomatch hd
theorem Record.gustRampHoldEnd : Record.Statement (.gustRampHoldEnd) :=
  fun _ _ hd => nomatch hd
theorem Record.powerOnReset (pins : Nat) : Record.Statement (.powerOnReset pins) :=
  fun _ _ hd => nomatch hd
theorem Record.vinOvervoltage : Record.Statement (.vinOvervoltage) :=
  fun _ _ hd => nomatch hd
theorem Record.perstNAssert : Record.Statement (.perstNAssert) :=
  fun _ _ hd => nomatch hd
theorem Record.perstNRelease : Record.Statement (.perstNRelease) :=
  fun _ _ hd => nomatch hd
theorem Record.powerGood : Record.Statement (.powerGood) :=
  fun _ _ hd => nomatch hd
theorem Record.bootOscDone (testEn : Bool) (hs : List Happening) : Record.Statement (.bootOscDone testEn hs) :=
  fun _ _ hd => nomatch hd
theorem Record.bootXtalDone (e : SwitchEnd) : Record.Statement (.bootXtalDone e) :=
  fun _ _ hd => nomatch hd
theorem Record.bootFwDone (ok : Bool) : Record.Statement (.bootFwDone ok) :=
  fun _ _ hd => nomatch hd
theorem Record.bootTestDone (f : MarchFinds) (bad : List Nat) : Record.Statement (.bootTestDone f bad) :=
  fun _ _ hd => nomatch hd
theorem Record.bootArmDone (ms ports : Nat) (hs : List Happening) : Record.Statement (.bootArmDone ms ports hs) :=
  fun _ _ hd => nomatch hd
theorem Record.warmResetEffect : Record.Statement (.warmResetEffect) :=
  fun _ _ hd => nomatch hd
theorem Record.groupResetInstant (missed : Bool) : Record.Statement (.groupResetInstant missed) :=
  fun _ _ hd => nomatch hd
theorem Record.groupResetCancel : Record.Statement (.groupResetCancel) :=
  fun _ _ hd => nomatch hd
theorem Record.basinResetEffect (b : Nat) : Record.Statement (.basinResetEffect b) :=
  fun _ _ hd => nomatch hd
theorem Record.recoveryKeepEntry : Record.Statement (.recoveryKeepEntry) :=
  fun _ _ hd => nomatch hd
theorem Record.recoveryPauseTimeout : Record.Statement (.recoveryPauseTimeout) :=
  fun _ _ hd => nomatch hd
theorem Record.recoveryRestartDone : Record.Statement (.recoveryRestartDone) :=
  fun _ _ hd => nomatch hd
theorem Record.hostReadError (u : ReadUnit) : Record.Statement (.hostReadError u) :=
  fun _ _ hd => nomatch hd
theorem Record.powerEntryComplete : Record.Statement (.powerEntryComplete) :=
  fun _ _ hd => nomatch hd
theorem Record.gauFlushTimeout : Record.Statement (.gauFlushTimeout) :=
  fun _ _ hd => nomatch hd
theorem Record.wakeNAsserted : Record.Statement (.wakeNAsserted) :=
  fun _ _ hd => nomatch hd
theorem Record.ringWake : Record.Statement (.ringWake) :=
  fun _ _ hd => nomatch hd
theorem Record.wakeTimerExpiry : Record.Statement (.wakeTimerExpiry) :=
  fun _ _ hd => nomatch hd
theorem Record.powerExitComplete : Record.Statement (.powerExitComplete) :=
  fun _ _ hd => nomatch hd
theorem Record.vinBelow24v (mv : Nat) : Record.Statement (.vinBelow24v mv) :=
  fun _ _ hd => nomatch hd
theorem Record.powerCapEnd (mv : Nat) : Record.Statement (.powerCapEnd mv) :=
  fun _ _ hd => nomatch hd
theorem Record.powerCapSample (p mv : Nat) : Record.Statement (.powerCapSample p mv) :=
  fun _ _ hd => nomatch hd
theorem Record.thermalThrottleSample (tj : Nat) : Record.Statement (.thermalThrottleSample tj) :=
  fun _ _ hd => nomatch hd
theorem Record.vinOvervoltageEnd : Record.Statement (.vinOvervoltageEnd) :=
  fun _ _ hd => nomatch hd
theorem Record.holdRefreshDoubling (i temp : Nat) : Record.Statement (.holdRefreshDoubling i temp) :=
  fun _ _ hd => nomatch hd
theorem Record.unitDividerStep : Record.Statement (.unitDividerStep) :=
  fun _ _ hd => nomatch hd
theorem Record.loadRelockTimeout : Record.Statement (.loadRelockTimeout) :=
  fun _ _ hd => nomatch hd
theorem Record.checkPhaseEnd (verify : Bool) : Record.Statement (.checkPhaseEnd verify) :=
  fun _ _ hd => nomatch hd

end Sys2Proof.Laws
end

