-- ==== Sys2Proof/Tests/Slice0.lean ====
section
/-!
SUPPORT. Tests of the model: for each statement whose hypotheses something must meet, a theorem `test_<statement>_met` with a state
and operands that meet the hypotheses of each clause; ill-formed operands that `Instr.wf` refuses; the spec's worked examples; single
steps.
-/
namespace Sys2Proof.Tests
open Sys2Proof Sys2Proof.Machine

set_option Elab.async false

/-! ### States to start from -/

def regs (l : List (Nat × Word)) (s : State) : State := l.foldl (fun s x => rset x.1 x.2 s) s
def st0 : State := regs [(oLkpSts, 0x80000000#32), (oCfgBoot, 7#32), (oCkgSts, 0x180#32)] { State.reset with host := { State.reset.host with link := true } }
def atSeq (st : SeqSt) (s : State) : State := { s with seq := { s.seq with st := st } }
def cm (op flags p0 p1 p2 : Nat) (p3 : List Byte := []) : Cmd := ⟨17, op, flags, 0, 5, p0, p1, p2, p3⟩
def running (c : Cmd) (s : State) : State := { s with lkp := { s.lkp with run := s.lkp.run ++ [c] } }
def cd (o : Nat) : Card := (cardAt o).getD ⟨"",0,0,1,0,1,0,0,0,0,0,0,0,0⟩
def stRun : State := { atSeq .flight st0 with seq := { (atSeq .flight st0).seq with gsc := 1000, F := 3, pos := 5, fltPos := 3 } }
def stReady : State := atSeq .ready st0
def stPaused : State := atSeq .paused st0
def stIdlePending : State := { State.reset with pending := [.stallCycle] }
def stGang : State := regs [(oDmcOwn 0, 0x01100000#32), (oDmcOwn 1, 0x01110000#32)] st0
def stArm : State := regs [(oTrcSize, 64#32)] stReady
def stArmed : State := regs [(oTrcSts, 0x10000#32)] stArm
def stSeal : State := { stReady with trc := { stReady.trc with seals := [(0, ⟨[1#8], []⟩)] } }
def stSealOk : State := { stReady with trc := { stReady.trc with seals := [(0, ⟨sha256 (List.replicate 32 0#8 ++ [0#8]), []⟩)] } }
def clkCfg : State := { st0 with lkp := { st0.lkp with maxMhz := 1000 } }
def stHalt : State := atSeq .clkHalt st0
def bg (op dst : Nat) (m : Nat := 2) : Barge := ⟨2, 0, m, dst, 43, false, 0, 7, op, 0, 0, 0, 8, 64, []⟩
def bgR (b : Barge) (status code : Nat) : Barge := { b with cls := 1, dst := b.src, src := b.dst, status := status, code := code }
def stTaken (b : Barge) : State := { st0 with bnw := { st0.bnw with taken := [b], sent := [b] }, host := { st0.host with mem := [(65, 9#8)] } }
def stSent (b : Barge) : State := { st0 with bnw := { st0.bnw with sent := [b] } }
def boot (n : Nat) (s : State := State.reset) : State := rput oCfgBoot 3 0 n s
def pllOk (s : State) : State := (List.range 5).foldl (fun s i => rput (oCkgPll i) 31 30 3 s) s
def stReadyMem (s : State) : State := (List.range 4).foldl (fun s i => rput (oHldStackSts i) 3 0 1 s) s
def stMbox (bs : List Nat) : State := regs [(oLkpMboxCtl, 1#32)] ((List.range bs.length).foldl (fun s i => rset (oLkpMboxCmd i) (BitVec.ofNat 32 (bs.getD i 0)) s) st0)
def stRing : State := regs [(oLkpCrLo 3, 0x104#32), (oLkpRrLo 3, 0x104#32), (oLkpCrPi 3, 1#32)] { st0 with host := { st0.host with mem := [(0, 4#8)] } }
def svc (op : SvcOp) (m : Nat := 0) : SvcReq := ⟨m, 3, 40, none, op, 0, 5, 0x1234#64, 0xFF00#64, false, false, .direct, 0⟩
def stOwn (s : State := st0) : State := regs [(oDmcOwn 0, 0x02000000#32), (oDmcOwn 1, 0x02000000#32), (oDmcPatrol, 1000#32)] s
def stSched (k : MemKind) (w : Nat := 5) : State :=
  setCl 0 { getCl st0 0 with memOps := [⟨k, 4, 0, 1, w, 0, false⟩] }
    (regs [(oDmcOwn 0, 0x01000000#32)] { stRun with seq := { stRun.seq with spos := 5 } })
def mop (k : MemKind) (w : Nat := 5) : MemOp := ⟨k, 4, 0, 1, w, 0, false⟩
def stWait (r : SvcReq) (s : State := stOwn) : State := { s with dmc := { s.dmc with waiting := [r] } }
def stHold (s : State := st0) : State := { stReadyMem s with hold := { s.hold with ecc := (List.range 40).map fun i => (i, .clean), cells := [(3, 7#8), (70, 9#8)] } }
def sreq (w : Bool) (seen : Bool := true) (served : Bool := false) : SluReq := ⟨3, 1, 50, 0, w, 64, 5#64, false, false, 100, seen, true, served, if served then .written else .free⟩
def stReq (r : SluReq) : State := { stHold with req := [r] }
def img1 : State := regs [(oSeqCfg, 0x10#32), (oCfgPlaced, 1#32), (oCfgLoaded, 1#32), (oCfgFenced, 0xFFFFFFFE#32), (oCkgEn1, 1#32)] st0
def stEval : State := setCl 0 { getCl st0 0 with instr := [(5, 0x1234567812345678#64), (1029, 0x8000000000345678#64)] } { atSeq .flight img1 with seq := { (atSeq .flight img1).seq with pos := 5 } }
def stForm : State := regs [(oLkgSts, 2#32), (oLkgCfg, 1#32), (oLkgMembersLo, 5#32)] st0
def stGrp : State := regs [(oLkgSts, 1#32), (oLkgCfg, 0x70001#32), (oLkgMembersLo, 5#32)] st0
def aw (s : State) : State := { s with rst := { s.rst with test := false } }
def le (n v : Nat) : List Byte := leBytes n v
def imgHead (dig : List Byte) (hold : Nat := 0) : List Byte :=
  le 4 0x56474C50 ++ le 2 1 ++ le 2 0 ++ le 2 8 ++ le 1 1 ++ le 1 1 ++ le 1 0 ++ le 1 0 ++ le 1 1 ++ le 1 (nativeD st0) ++ le 2 0x7FFF ++ le 2 0 ++ le 4 hold ++ le 8 64 ++ dig
def imgAll (hold : Nat := 0) : List Byte := imgHead (sha256 (imgHead (List.replicate 32 0#8) hold)) hold
def stSlow : State := regs [(oCkgStep, 0x1900000#32)] st0
def stImg (w : Bool) (s : State := stSlow) (c : Cmd := cm 1 0 4096 64 0) : State :=
  running c { hostPut 4096 (imgAll) s with lkp := { s.lkp with load := some ⟨c, w, if w then [0] else []⟩ } }
def ld : LoadSt := ⟨cm 1 0 4096 64 0, false, []⟩
def ldw : LoadSt := ⟨cm 1 0 4096 64 0, true, [0]⟩
def lnkSt6 (n st : Nat) (s : State := st0) : State := rput (oLnkSts n) 2 0 st (regs [(oLkgLinkmask, 8#32), (oSeqCfg, 8#32)] s)
def pll (i st : Nat) (s : State := st0) : State := rput (oCkgPll i) 31 30 st s
def pwr (st tgt busy : Nat) (s : State := st0) : State := rput oPwrSts 6 4 tgt (rput oPwrSts 3 3 busy (rput oPwrSts 2 0 st s))
def loadGoneState (s : State) : State := rset oCfgLoaded 0#32 (rset oCfgPlaced 0#32 (rmod oCfgSts (fun w => clrBit w 2) { s with lkp := { s.lkp with load := none, digest := [], maxMhz := 0 } }))
def sm (s : State) : State := { s with dev := { s.dev with member := .fx051 } }
def stWharf (s : State := st0) : State := regs [(oXchRetLo, 0x10106#32), (oXchRetPi, 1#32)] s
def stRingsX (s : State := st0) : State := (List.range 64).foldl (fun s r => rset (oXchRingLo r) 0x10106#32 s) s
def xe (st : XSt) : XEntry := ⟨1, 0, 2, 5, 0, 3, 0, false, false, false, st, 0, 7, 0, 0, false, none, none⟩
def stGau (s : State := st0) : State := regs [(oGauRingLo 0, 0x10106#32), (oGauRingLo 1, 0x20106#32), (oGauEdgeCtl, 0xFFFFFFFF#32)] s
def frec : FailRec := ⟨false, 3, 1, .one, .zero, .x, 0, 5, 0, some 1⟩
def ftake (s : State) : State := { s with gau := { s.gau with fifo := [frec] } }
def erec : EdgeRec := ⟨3, true, false, true, 5, 6, 7⟩
def stDrain (n : Nat) (s : State := stHold) : State := { regs [(oTrcSize, 64#32), (oTrcBase, 2#32)] s with trc := { s.trc with staging := [⟨(List.range n).map (BitVec.ofNat 8), 0⟩] } }
def stRunOk : State := regs [(oCkgEn0, 0xFFFF#32), (oCfgPlaced, 1#32), (oCfgLoaded, 1#32), (oCfgFenced, 0xFFFFFFFE#32), (oCkgEn1, 1#32)] stReady
def pend (s : State) (cont := true) (n := 0) : State := { s with seq := { s.seq with runPend := some ⟨cont, n, 0, 0⟩ } }
def siteE (kind w req part berth ret : Nat) : BitVec 64 := BitVec.ofNat 64 (2 ^ 63 + kind * 2 ^ 61 + (w - 1) * 2 ^ 56 + req * 2 ^ 40 + part * 2 ^ 34 + berth * 2 ^ 19 + ret)
def stSite (s : State := st0) : State := { regs [(oXchPart 0, 0x80010000#32), (oXchPart 1, 0x80010000#32)] s with xch := { s.xch with sites := [(2, siteE 0 32 3 0 4 0)], berths := [(4, 0x80010000#32)], flowTab := [(1, 0#16)] } }
def frg (idx : Nat) (site := 2) : Fragment := ⟨site, 5, idx, 0, 0x1B1B#64, false, 7, 0, false, false⟩
def withFrag (f : Fragment) (s : State := stSite) : State := { s with xch := { s.xch with frags := [f] } }
def stStall : State := { atSeq .stall st0 with seq := { (atSeq .stall st0).seq with stallEvs := [⟨1, 0, .gsc 0⟩] } }
def stHoldStall : State := { regs [(oXchPart 0, 0x800800#32)] stStall with seq := { stStall.seq with stallEvs := [⟨3, 0, .gsc 0⟩] } }
def tl (p0 n first : Nat) : Cmd := cm 0x13 0 p0 (n + first * 2 ^ 32) 0x1000
def iw (kind tt : Nat) (a : Nat := 1) (b : Nat := 2) (c : Nat := 3) (d : Nat := 4) (exp : Nat := 0) : BitVec 64 :=
  BitVec.ofNat 64 (tt * 2 ^ 48 + a * 2 ^ 37 + b * 2 ^ 26 + c * 2 ^ 15 + d * 2 ^ 4 + kind * 4 + exp * 2)
def stOp (w : BitVec 64) (s : State := stEval) : State :=
  setCl 0 { getCl s 0 with instr := [(5, w)], ds := [(1, .one), (2, .zero), (3, .z)] , ma := 5, ho := 20, hwd := 1, mwd := 77 } s
def stBank : State := regs [(oDmcOwn 0, 0x01100000#32), (oDmcOwn 1, 0x01120000#32)] stEval
def stSlu : State := regs [(oHldRgnSize 0 3, 1#32), (oHldRgnBase 0 3, 7#32)] stEval
def stTag (t : TagSt) (s : State := stSlu) : State := { s with slu := [(0, { getSlu s 0 with tags := [(9, t)] })] }
def rwd (slots : List (Nat × Nat)) (locen rot : Nat := 0) : BitVec 256 :=
  BitVec.ofNat 256 (locen * 2 ^ 128 + rot * 2 ^ 122 + ((slots.zip (List.range 5)).map fun x => 2 ^ (29 + 19 * x.2) + x.1.1 * 2 ^ (17 + 19 * x.2) + x.1.2 * 2 ^ (11 + 19 * x.2)).sum)
def stImp (w : BitVec 256) (a b : V4) : State :=
  let s := setCl 0 { getCl stEval 0 with rw := [(5, w)], expo := [(63, some .one), (0, some .zero)] } { stEval with seq := { stEval.seq with spos := 5 } }
  { s with bas := [(0, { getBas s 0 with lanes := [(5, [(5, a), (6, b)]), (4, [(5, a), (6, b)]), (3, [(5, a), (6, b)])] })] }
def atPos (p : Nat) (s : State) : State := { s with seq := { s.seq with pos := p } }
def stTick : State := let s := atPos 16 stEval; setCl 0 { getCl s 0 with staged := [(1792, some .one), (2048 + 1800, some .x)], expo := [(3, some .one)] } s
def laneS (n : Nat) (l : Lane) (mode : Nat) (s : State) : State := rset (oGauLane n) (BitVec.ofNat 32 mode) { s with gau := { s.gau with lanes := [(n, l)], live := true } }
def hjob (w : HoldFor) (m : Nat := 0) : HoldJob := ⟨3, { bg 0 45 m with addr := 320, len := 8 }, w, [5], [], [], false, false, false⟩
def stJob (j : HoldJob) (s : State := stHold) : State := { s with hold := { s.hold with jobs := [j] } }
def stRemote (k : Nat) : State := setLnk 3 { getLnk st0 3 with bufs := [(2, k)] } (regs [(oLkgLinkmask, 8#32), (oLnkPeer 3, 0x07000000#32)] (lnkSt6 3 6))
def rbg (m : Nat := 2) : Barge := { bg 0 47 m with remote := true }
def stBad : State := hostPut 4160 (le 2 3 ++ le 1 0xFF ++ le 1 0 ++ le 8 0 ++ le 8 0 ++ le 4 5) (hostPut 4114 [1#8, 0#8] (stImg true stSlow (cm 1 0 4096 88 0)))

/-- A step that answers a state answers some state. -/
theorem next_of_isSome {r : Res} (h : (nextOf r).isSome = true) : ∃ t, r = .next t := by
  cases r with
  | next t => exact ⟨t, rfl⟩
  | fault f => simp [nextOf] at h
  | refused f => simp [nextOf] at h

/-- Where no refresh is due none is forced. -/
theorem not_forced {s : State} {d : Nat} (h : mget 0 s.hold.refDue d = 0) : refreshForced s d = false := by
  simp [refreshForced, h]

/-! ### The statements' hypotheses can be met -/

theorem test_StepTakesFront_met :
    ∃ s : State, s.pending = [Instr.stallCycle] :=
  ⟨stIdlePending, by decide +kernel⟩

theorem test_StepKeepsCanonical_met : ∃ s t : State, Canonical s = true ∧ step s = .next t :=
  let ⟨t, h⟩ := next_of_isSome (r := step stIdlePending) (by decide +kernel)
  ⟨stIdlePending, t, by decide +kernel, h⟩

theorem test_ExecKeepsQueue_met : ∃ s t : State, Canonical s = true ∧ exec .stallCycle s = .next t :=
  let ⟨t, h⟩ := next_of_isSome (r := exec .stallCycle stIdlePending) (by decide +kernel)
  ⟨stIdlePending, t, by decide +kernel, h⟩

theorem test_ResetState_met :
    ∃ s : State, 3 < 12 :=
  ⟨st0, by decide +kernel⟩

theorem test_IdleStepIsOneCycle_met :
    ∃ s : State, (s.pending = []) ∧
      (s.tim.ns < 1000000000) ∧
      (s.tim.frac < 2 ^ 32) ∧
      (s.tim.sec < 2 ^ 48 - 1) ∧
      (s.tim.trim.natAbs ≤ 50000 * 65536000) :=
  ⟨State.reset, by decide +kernel⟩

theorem test_RegisterAccessForm_met :
    (∃ s : State, (endpointDown s = false) ∧
      (testBlock 16 8 = false) ∧
      (8 ≠ 4 ∨ 16 % 4 ≠ 0)) ∧
    (∃ s : State, (testBlock 16 [0#8].length = false) ∧
      ([0#8].length ≠ 4 ∨ 16 % 4 ≠ 0)) ∧
    (∃ s : State, (131088 % 4 = 0) ∧
      (131088 < 66060288)) ∧
    (∃ s : State, (oSeqSts % 4 = 0) ∧
      (oSeqSts < 67108864) ∧
      (hostSees s oSeqSts = true)) :=
  ⟨⟨st0, by decide +kernel⟩,
    ⟨st0, by decide +kernel⟩,
    ⟨st0, by decide +kernel⟩,
    ⟨st0, by decide +kernel⟩⟩

theorem test_ReadEffects_met :
    (∃ s : State, (oSeqSts % 4 = 0) ∧
      (oSeqSts < 67108864) ∧
      (hostSees s oSeqSts = true) ∧
      (oSeqSts < 393216 ∨ 394240 ≤ oSeqSts) ∧
      (oSeqSts ∉ [oSeqFrameLo, oSeqGscLo, oTimNs]) ∧
      (∀ j < 64, oSeqSts ≠ oXchPartUse j) ∧
      (cardAt oSeqSts = some (cd oSeqSts))) ∧
    (∃ s : State, (3 < 64) ∧
      (hostSees s (oXchPartUse 3) = true)) ∧
    (∃ s : State, (5 < 256) ∧
      (hostSees s (oStd 5) = true)) ∧
    (∃ s : State, hostSees s oSeqFrameLo = true) ∧
    (∃ s : State, hostSees s oSeqGscLo = true) ∧
    (∃ s : State, hostSees s oTimNs = true) :=
  ⟨⟨st0, by decide +kernel⟩,
    ⟨st0, by decide +kernel⟩,
    ⟨{ st0 with std := { st0.std with ecc := [(5, .single)] } }, by decide +kernel⟩,
    ⟨st0, by decide +kernel⟩,
    ⟨st0, by decide +kernel⟩,
    ⟨st0, by decide +kernel⟩⟩

theorem test_WriteByAccessType_met :
    ∃ s : State, (oSeqSts ∈ [oSeqSts, oSeqOvr, oSeqStallTmo, oSeqInt, oSafSts, oSafReact, oSafFnmask, oSafInt, oXchCtl, oGauInt, oGauEdgeCtl, oCkgSts, oPwrSts, oCfgSts, oTimSts, oTimServo, oTimStepNs, oTrcSts, oTrcInt, oLkpSts, oLkpOwnSel, oRingSts, oStdSts, oDmcMarchSts]) ∧
      (cardAt oSeqSts = some (cd oSeqSts)) ∧
      (hostReaches s oSeqSts = true) :=
  ⟨st0, by decide +kernel⟩

theorem test_OwnedWriteDropped_met :
    ∃ s : State, (oPwrLastwakeTsn % 4 = 0) ∧
      (oPwrLastwakeTsn < 67108864) ∧
      (hostSees s oPwrLastwakeTsn = true) ∧
      (lkpOwns s oPwrLastwakeTsn = true ∧ hostPart oPwrLastwakeTsn 5#32 = false ∨ lkpOwns s oPwrLastwakeTsn = false ∧ false = true ∧ lkpShares oPwrLastwakeTsn = true) :=
  ⟨running (cm 0xB 0 0 0 0) st0, by decide +kernel⟩

theorem test_HaltAndResetRequests_met :
    (∃ s : State, (hostReaches s oSeqHalt = true) ∧
      (seqRuns s = true) ∧
      (s.seq.halt = none)) ∧
    (∃ s : State, (hostReaches s oSeqHalt = true) ∧
      (seqRuns s = false)) ∧
    (∃ s : State, (hostReaches s oCfgRst = true) ∧
      (rfld s oCfgBoot 3 0 = 7) ∧
      (s.rst.group = none)) ∧
    (∃ s : State, (hostReaches s oCfgRst = true) ∧
      (rfld s oCfgBoot 3 0 ≠ 7 ∨ s.rst.group ≠ none)) ∧
    (∃ s : State, (hostReaches s oCfgRst = true) ∧
      (s.rst.recov = 0) ∧
      (seqRuns s = false)) ∧
    (∃ s : State, (hostReaches s oCfgRst = true) ∧
      (s.rst.recov = 0) ∧
      (seqRuns s = true) ∧
      (s.seq.halt = none)) ∧
    (∃ s : State, (hostReaches s oCfgRst = true) ∧
      (s.rst.recov ≠ 0)) :=
  ⟨⟨stRun, by decide +kernel⟩,
    ⟨stReady, by decide +kernel⟩,
    ⟨st0, by decide +kernel⟩,
    ⟨{ State.reset with host := { State.reset.host with link := true } }, by decide +kernel⟩,
    ⟨st0, by decide +kernel⟩,
    ⟨stRun, by decide +kernel⟩,
    ⟨{ st0 with rst := { st0.rst with recov := 1 } }, by decide +kernel⟩⟩

theorem test_BankHandover_met :
    (∃ s : State, (0 < 384) ∧
      (hostReaches s (oDmcOwn 0) = true) ∧
      (ownCause 0 (clrBit (17825795#32) 31) s = 0)) ∧
    (∃ s : State, (0 < 384) ∧
      (hostReaches s (oDmcOwn 0) = true) ∧
      (ownCause 0 (clrBit (50331648#32) 31) s ≠ 0)) ∧
    (∃ s : State, (0 < 384) ∧
      (hostSees s (oDmcOwn 0) = true)) ∧
    (∃ s : State, (accepted 8 (cm 8 0 17825795 7 0) s) ∧
      (cm 8 0 17825795 7 0).flags = 0 ∧
      (cm 8 0 17825795 7 0).p0 < 2 ^ 32 ∧
      (cm 8 0 17825795 7 0).p1 < nBanks s ∧
      (cm 8 0 17825795 7 0).p2 = 0 ∧
      (noP3 (cm 8 0 17825795 7 0) = true) ∧
      (unitOn s 15 = true) ∧
      (nbit (cm 8 0 17825795 7 0).p0 31 = false) ∧
      (ownCause (cm 8 0 17825795 7 0).p1 (BitVec.ofNat 32 (cm 8 0 17825795 7 0).p0) s = 0)) ∧
    (∃ s : State, (accepted 8 (cm 8 0 50331648 7 0) s) ∧
      (cm 8 0 50331648 7 0).flags = 0 ∧
      (cm 8 0 50331648 7 0).p0 < 2 ^ 32 ∧
      (cm 8 0 50331648 7 0).p1 < nBanks s ∧
      (cm 8 0 50331648 7 0).p2 = 0 ∧
      (noP3 (cm 8 0 50331648 7 0) = true) ∧
      (unitOn s 15 = true) ∧
      (nbit (cm 8 0 50331648 7 0).p0 31 = false) ∧
      (ownCause (cm 8 0 50331648 7 0).p1 (BitVec.ofNat 32 (cm 8 0 50331648 7 0).p0) s ≠ 0)) ∧
    (∃ s : State, (accepted 8 (cm 8 0 2197815296 7 0) s) ∧
      (cm 8 0 2197815296 7 0).flags = 0 ∧
      (cm 8 0 2197815296 7 0).p0 < 2 ^ 32 ∧
      (cm 8 0 2197815296 7 0).p1 < nBanks s ∧
      (cm 8 0 2197815296 7 0).p2 = 0 ∧
      (noP3 (cm 8 0 2197815296 7 0) = true) ∧
      (unitOn s 15 = true) ∧
      (nbit (cm 8 0 2197815296 7 0).p0 31 = true)) :=
  ⟨⟨st0, by decide +kernel⟩,
    ⟨st0, by decide +kernel⟩,
    ⟨st0, by decide +kernel⟩,
    ⟨st0, by decide +kernel⟩,
    ⟨st0, by decide +kernel⟩,
    ⟨st0, by decide +kernel⟩⟩

theorem test_RegionTableWrite_met :
    (∃ s : State, (3 < nSluices s) ∧
      (5 < 16) ∧
      (hostReaches s (if true = true then oHldRgnSize 3 5 else oHldRgnBase 3 5) = true) ∧
      ((rbit s oCfgFenced (3 / 4) = true ∨ rests s) ∧ ((if true = true then BitVec.toNat (16#32 &&& 33554431#32) else rfld s (oHldRgnSize 3 5) 24 0) = 0 ∨ 4096 * ((if true = true then rfld s (oHldRgnBase 3 5) 24 0 else BitVec.toNat (16#32 &&& 33554431#32)) + if true = true then BitVec.toNat (16#32 &&& 33554431#32) else rfld s (oHldRgnSize 3 5) 24 0) ≤ holdBytes s) ∧ (rfld s oTrcSts 18 16 = 0 ∨ (if true = true then BitVec.toNat (16#32 &&& 33554431#32) else rfld s (oHldRgnSize 3 5) 24 0) = 0 ∨ ((if true = true then rfld s (oHldRgnBase 3 5) 24 0 else BitVec.toNat (16#32 &&& 33554431#32)) + if true = true then BitVec.toNat (16#32 &&& 33554431#32) else rfld s (oHldRgnSize 3 5) 24 0) ≤ rfld s oTrcBase 24 0 ∨ rfld s oTrcBase 24 0 + rfld s oTrcSize 23 0 ≤ if true = true then rfld s (oHldRgnBase 3 5) 24 0 else BitVec.toNat (16#32 &&& 33554431#32)))) ∧
    (∃ s : State, (3 < nSluices s) ∧
      (5 < 16) ∧
      (hostReaches s (if true = true then oHldRgnSize 3 5 else oHldRgnBase 3 5) = true) ∧
      (¬((rbit s oCfgFenced (3 / 4) = true ∨ rests s) ∧ ((if true = true then BitVec.toNat (33554431#32 &&& 33554431#32) else rfld s (oHldRgnSize 3 5) 24 0) = 0 ∨ 4096 * ((if true = true then rfld s (oHldRgnBase 3 5) 24 0 else BitVec.toNat (33554431#32 &&& 33554431#32)) + if true = true then BitVec.toNat (33554431#32 &&& 33554431#32) else rfld s (oHldRgnSize 3 5) 24 0) ≤ holdBytes s) ∧ (rfld s oTrcSts 18 16 = 0 ∨ (if true = true then BitVec.toNat (33554431#32 &&& 33554431#32) else rfld s (oHldRgnSize 3 5) 24 0) = 0 ∨ ((if true = true then rfld s (oHldRgnBase 3 5) 24 0 else BitVec.toNat (33554431#32 &&& 33554431#32)) + if true = true then BitVec.toNat (33554431#32 &&& 33554431#32) else rfld s (oHldRgnSize 3 5) 24 0) ≤ rfld s oTrcBase 24 0 ∨ rfld s oTrcBase 24 0 + rfld s oTrcSize 23 0 ≤ if true = true then rfld s (oHldRgnBase 3 5) 24 0 else BitVec.toNat (33554431#32 &&& 33554431#32))))) :=
  ⟨⟨st0, by decide +kernel⟩,
    ⟨st0, by decide +kernel⟩⟩

theorem test_LinkControl_met :
    (∃ s : State, (3 < 12) ∧
      (hostReaches s (oLnkCtl 3) = true) ∧
      (rbit s (oLnkCtl 3) 0 = false) ∧
      (rfld s (oLnkSts 3) 2 0 = 0)) ∧
    (∃ s : State, (3 < 12) ∧
      (hostReaches s (oLnkCtl 3) = true) ∧
      (rbit s (oLnkCtl 3) 0 = true) ∧
      (rfld s (oLnkSts 3) 2 0 ≠ 6)) ∧
    (∃ s : State, (3 < 12) ∧
      (hostReaches s (oLnkCtl 3) = true) ∧
      (rfld s (oLnkSts 3) 2 0 ≠ 6)) :=
  ⟨⟨st0, by decide +kernel⟩,
    ⟨regs [(oLnkCtl 3, 1#32), (oLnkSts 3, 2#32)] st0, by decide +kernel⟩,
    ⟨st0, by decide +kernel⟩⟩

theorem test_GroupRegisters_met :
    (∃ s : State, (hostReaches s oLkgCfg = true) ∧
      (rbit s oLkgCfg 0 = false)) ∧
    (∃ s : State, (hostReaches s oLkgCfg = true) ∧
      (rbit s oLkgCfg 0 = true) ∧
      (s.seq.st = SeqSt.idle)) ∧
    (∃ s : State, (hostReaches s oLkgCfg = true) ∧
      (rbit s oLkgCfg 0 = true) ∧
      (s.seq.st ≠ SeqSt.idle)) ∧
    (∃ s : State, (hostReaches s oLkgMode = true) ∧
      (rests s)) ∧
    (∃ s : State, (hostReaches s oLkgMode = true) ∧
      (¬rests s)) :=
  ⟨⟨st0, by decide +kernel⟩,
    ⟨regs [(oLkgCfg, 1#32), (oLkgSts, 1#32)] st0, by decide +kernel⟩,
    ⟨regs [(oLkgCfg, 1#32), (oLkgSts, 1#32)] stReady, by decide +kernel⟩,
    ⟨st0, by decide +kernel⟩,
    ⟨stRun, by decide +kernel⟩⟩

theorem test_RingRegisters_met :
    (∃ s : State, 63 < 64 ∧ hostReaches s (oXchRingCi 63) = true) ∧ (∃ s : State, hostReaches s oXchRetPi = true) ∧
    (∃ s : State, 1 < 2 ∧ hostReaches s (oGauRingCi 1) = true) ∧ (∃ s : State, 15 < 16 ∧ hostReaches s (oLkpCrPi 15) = true) ∧
    (∃ s : State, 15 < 16 ∧ hostReaches s (oLkpRrCi 15) = true) ∧
    (∀ i ∈ [Instr.xchRingLoWrite 63 0x12345106#32, .xchRetLoWrite 0x12345106#32, .gauRingLoWrite 1 0x12345106#32, .lkpCrLoWrite 15 0x1234510C#32,
        .lkpRrLoWrite 15 0x12345104#32], ∃ s : State, ∃ (lo pi ci lmin lmax : Nat) (v : Word),
      ((∃ r < 64, i = .xchRingLoWrite r v ∧ (lo, pi, ci, lmin, lmax) = (oXchRingLo r, oXchRingPi r, oXchRingCi r, 6, 20)) ∨
        (i = .xchRetLoWrite v ∧ (lo, pi, ci, lmin, lmax) = (oXchRetLo, oXchRetPi, oXchRetCi, 6, 20)) ∨
        (∃ r < 2, i = .gauRingLoWrite r v ∧ (lo, pi, ci, lmin, lmax) = (oGauRingLo r, oGauRingPi r, oGauRingCi r, 6, 20)) ∨
        (∃ n < 16, i = .lkpCrLoWrite n v ∧ (lo, pi, ci, lmin, lmax) = (oLkpCrLo n, oLkpCrPi n, oLkpCrCi n, 4, 12)) ∨
        (∃ n < 16, i = .lkpRrLoWrite n v ∧ (lo, pi, ci, lmin, lmax) = (oLkpRrLo n, oLkpRrPi n, oLkpRrCi n, 4, 12))) ∧
      hostReaches s lo = true ∧ lmin ≤ fld v 4 0 ∧ fld v 4 0 ≤ lmax ∧ bit (rget s lo) 8 = false) ∧
    (∃ s : State, hostReaches s (oGauRingLo 1) = true ∧ ¬6 ≤ fld 0x12345105#32 4 0) ∧
    (∃ s : State, hostReaches s oXchDone = true ∧ flowSt s (fld 5#32 13 0) = .service) ∧
    (∃ s : State, hostReaches s oXchDone = true ∧ flowSt s (fld 5#32 13 0) ≠ .service) := by
  refine ⟨⟨st0, by decide +kernel⟩, ⟨st0, by decide +kernel⟩, ⟨st0, by decide +kernel⟩, ⟨st0, by decide +kernel⟩, ⟨st0, by decide +kernel⟩, ?_,
    ⟨st0, by decide +kernel⟩, ⟨{ st0 with xch := { st0.xch with flows := [(5, .service)] } }, by decide +kernel⟩, ⟨st0, by decide +kernel⟩⟩
  intro i hi
  simp only [List.mem_cons, List.not_mem_nil, or_false] at hi
  obtain rfl | rfl | rfl | rfl | rfl := hi
  · exact ⟨st0, _, _, _, _, _, _, .inl ⟨63, by decide, rfl, rfl⟩, by decide +kernel⟩
  · exact ⟨st0, _, _, _, _, _, _, .inr (.inl ⟨rfl, rfl⟩), by decide +kernel⟩
  · exact ⟨st0, _, _, _, _, _, _, .inr (.inr (.inl ⟨1, by decide, rfl, rfl⟩)), by decide +kernel⟩
  · exact ⟨st0, _, _, _, _, _, _, .inr (.inr (.inr (.inl ⟨15, by decide, rfl, rfl⟩))), by decide +kernel⟩
  · exact ⟨st0, _, _, _, _, _, _, .inr (.inr (.inr (.inr ⟨15, by decide, rfl, rfl⟩))), by decide +kernel⟩

theorem test_LaneWrites_met :
    (∃ s : State, (5 < 512) ∧
      (hostReaches s (oGauLane 5) = true) ∧
      (rests s)) ∧
    (∃ s : State, (5 < 512) ∧
      (hostReaches s (oGauLane 5) = true) ∧
      (¬rests s)) ∧
    (∃ s : State, (1 < 64) ∧
      (hostReaches s (oGauZdmap 1) = true) ∧
      (rests s ∧ fld (513#32) 8 0 / 32 = 1 / 4 ∧ ∀ y < 64, y ≠ 1 → rbit s (oGauZdmap y) 9 = true → rfld s (oGauZdmap y) 8 0 ≠ fld (513#32) 8 0)) ∧
    (∃ s : State, (1 < 64) ∧
      (hostReaches s (oGauZdmap 1) = true) ∧
      (¬(rests s ∧ fld (545#32) 8 0 / 32 = 1 / 4 ∧ ∀ y < 64, y ≠ 1 → rbit s (oGauZdmap y) 9 = true → rfld s (oGauZdmap y) 8 0 ≠ fld (545#32) 8 0))) ∧
    (∃ s : State, (stepClock s = true) ∧
      (s.seq.st = SeqSt.flight) ∧
      (s.seq.pos = rfld s oSeqCfg 10 0) ∧
      (noneDue s) ∧
      (unitOn s 12 = true) ∧
      (3 < nLanes s) ∧
      (rfld s (oGauLane 3) 1 0 ≠ 0)) ∧
    (∃ s : State, (stepClock s = true) ∧
      (s.seq.st = SeqSt.flight) ∧
      (s.seq.pos = rfld s oSeqCfg 10 0) ∧
      (noneDue s) ∧
      (unitOn s 12 = true) ∧
      (3 < nLanes s) ∧
      (rfld s (oGauLane 3) 1 0 ≠ 0) ∧
      (rfld s (oGauLane 3) 1 0 = 2) ∧
      (s.saf.safe = false) ∧
      (s.gau.live = true) ∧
      (rfld s oPwrSts 2 0 < 3) ∧
      (rfld s oCfgBoot 3 0 ≠ 0) ∧
      (laneZd s 3 = none) ∧
      (pinAt [Happening.lanePin 3 PinIn.low] 3 = PinIn.low)) ∧
    (∃ s : State, (stepClock s = true) ∧
      (s.seq.st = SeqSt.flight) ∧
      (s.seq.pos = rfld s oSeqCfg 10 0) ∧
      (noneDue s) ∧
      (unitOn s 12 = true) ∧
      (3 < nLanes s) ∧
      (rfld s (oGauLane 3) 1 0 ≠ 0) ∧
      (rfld s (oGauLane 3) 1 0 = 2) ∧
      (s.saf.safe = false) ∧
      (s.gau.live = true) ∧
      (rfld s oPwrSts 2 0 < 3) ∧
      (rfld s oCfgBoot 3 0 ≠ 0) ∧
      (laneZd s 3 = none) ∧
      (pinAt [Happening.lanePin 3 PinIn.high] 3 = PinIn.high)) ∧
    (∃ s : State, (stepClock s = true) ∧
      (s.seq.st = SeqSt.flight) ∧
      (s.seq.pos = rfld s oSeqCfg 10 0) ∧
      (noneDue s) ∧
      (unitOn s 12 = true) ∧
      (3 < nLanes s) ∧
      (rfld s (oGauLane 3) 1 0 ≠ 0) ∧
      (rfld s (oGauLane 3) 1 0 = 2) ∧
      (s.saf.safe = false) ∧
      (s.gau.live = true) ∧
      (rfld s oPwrSts 2 0 < 3) ∧
      (rfld s oCfgBoot 3 0 ≠ 0) ∧
      (laneZd s 3 = some 0) ∧
      (zdAt [Happening.lanePin 3 PinIn.high, Happening.zdPin 0 PinIn.high] 0 = PinIn.high)) ∧
    (∃ s : State, (stepClock s = true) ∧
      (s.seq.st = SeqSt.flight) ∧
      (s.seq.pos = rfld s oSeqCfg 10 0) ∧
      (noneDue s) ∧
      (unitOn s 12 = true) ∧
      (3 < nLanes s) ∧
      (rfld s (oGauLane 3) 1 0 ≠ 0) ∧
      (rfld s (oGauLane 3) 1 0 = 2) ∧
      (s.saf.safe = false) ∧
      (s.gau.live = true) ∧
      (rfld s oPwrSts 2 0 < 3) ∧
      (rfld s oCfgBoot 3 0 ≠ 0) ∧
      (laneZd s 3 = some 0) ∧
      (zdAt [Happening.lanePin 3 PinIn.high, Happening.zdPin 0 PinIn.low] 0 = PinIn.low) ∧
      (pinAt [Happening.lanePin 3 PinIn.high, Happening.zdPin 0 PinIn.low] 3 = PinIn.high)) ∧
    (∃ s : State, (stepClock s = true) ∧
      (s.seq.st = SeqSt.flight) ∧
      (s.seq.pos = rfld s oSeqCfg 10 0 + 1) ∧
      (noneDue s) ∧
      (unitOn s 12 = true) ∧
      (3 < nLanes s) ∧
      (rfld s (oGauLane 3) 1 0 = 1 ∨ rfld s (oGauLane 3) 1 0 = 3)) ∧
    (∃ s : State, (stepClock s = true) ∧
      (s.seq.st = SeqSt.flight) ∧
      (s.seq.pos = rfld s oSeqCfg 10 0 + 1) ∧
      (noneDue s) ∧
      (unitOn s 12 = true)) ∧
    (∃ s : State, (stepClock s = true) ∧
      (s.seq.st = SeqSt.flight) ∧
      (s.seq.pos = rfld s oSeqCfg 10 0 + 1) ∧
      (noneDue s) ∧
      (unitOn s 12 = true) ∧
      (List.filter (fun x => decide (64 ≤ frDist x.frame s.seq.F.toNat)) s.gau.held = [{ frame := 36, unconf := false, fails := [3, 9], tsn := 7 : Verdict }]) ∧
      (frDist { frame := 36, unconf := false, fails := [3, 9], tsn := 7 : Verdict }.frame s.seq.F.toNat = 64)) :=
  ⟨⟨st0, by decide +kernel⟩,
    ⟨stRun, by decide +kernel⟩,
    ⟨st0, by decide +kernel⟩,
    ⟨st0, by decide +kernel⟩,
    ⟨laneS 3 { Lane.fresh with sdrv := some .one, sexp := some .zero } 1 stTick, by decide +kernel⟩,
    ⟨laneS 3 { Lane.fresh with smp := .z } 2 stTick, by decide +kernel⟩,
    ⟨laneS 3 { Lane.fresh with smp := .z } 2 stTick, by decide +kernel⟩,
    ⟨rset (oGauZdmap 0) 0x203#32 (laneS 3 { Lane.fresh with smp := .zero } 2 stTick), by decide +kernel⟩,
    ⟨rset (oGauZdmap 0) 0x203#32 (laneS 3 { Lane.fresh with smp := .zero } 2 stTick), by decide +kernel⟩,
    ⟨laneS 3 { Lane.fresh with drv := .one } 1 (atPos 17 stEval), by decide +kernel⟩,
    ⟨laneS 3 { Lane.fresh with exp := .one, smp := .zero } 2 (atPos 17 stEval), by decide +kernel⟩,
    ⟨{ atPos 17 stEval with seq := { (atPos 17 stEval).seq with F := 100 }, gau := { st0.gau with held := [⟨36, false, [3, 9], 7⟩, ⟨40, false, [], 7⟩] } }, by decide +kernel⟩⟩

theorem test_TraceControl_met :
    (∃ s : State, (hostReaches s oTrcCtl = true) ∧
      (rfld s oTrcSts 18 16 = 0) ∧
      (armRefusal (32#32 &&& 224#32) (rset oTrcCtl (32#32 &&& 224#32) s) = 0)) ∧
    (∃ s : State, (hostReaches s oTrcCtl = true) ∧
      (rfld s oTrcSts 18 16 = 0) ∧
      (armRefusal (32#32 &&& 224#32) (rset oTrcCtl (32#32 &&& 224#32) s) ≠ 0)) ∧
    (∃ s : State, (hostReaches s oTrcCtl = true) ∧
      (rfld s oTrcSts 18 16 ≠ 0)) ∧
    (∃ s : State, Canonical s = true) ∧
    (∃ s : State, (hostReaches s oTrcCtl = true) ∧
      (rfld s oTrcSts 18 16 ≠ 0)) ∧
    (∃ s : State, (hostReaches s oTrcCtl = true) ∧
      (rfld s oTrcSts 18 16 = 0)) ∧
    (∃ s : State, (hostReaches s oTrcRp = true) ∧
      (rbit s oTrcCtl 6 = true)) ∧
    (∃ s : State, (hostReaches s oTrcRp = true) ∧
      (rbit s oTrcCtl 6 = false) ∧
      (regionDist (rset oTrcRp (5#32 &&& 3221225471#32) s) = some 3) ∧
      (3 ≤ regionUsed s) ∧
      (fld (5#32) 29 0 < 128 * rfld s oTrcSize 23 0)) ∧
    (∃ s : State, (hostReaches s oTrcRp = true) ∧
      (∀ (d : Nat), regionDist (rset oTrcRp (1#32 &&& 3221225471#32) s) = some d → regionUsed s < d)) ∧
    (∃ s : State, (rget s oTrcWp = BitVec.ofNat 32 (8 + true.toNat * 2 ^ 31)) ∧
      (rget s oTrcRp = BitVec.ofNat 32 (2 + true.toNat * 2 ^ 31)) ∧
      (8 < 128 * rfld s oTrcSize 23 0) ∧
      (2 < 128 * rfld s oTrcSize 23 0) ∧
      (8 < 2 ^ 30) ∧
      (2 < 2 ^ 30) ∧
      (true = true)) ∧
    (∃ s : State, (rget s oTrcWp = BitVec.ofNat 32 (8 + true.toNat * 2 ^ 31)) ∧
      (rget s oTrcRp = BitVec.ofNat 32 (100 + false.toNat * 2 ^ 31)) ∧
      (8 < 128 * rfld s oTrcSize 23 0) ∧
      (100 < 128 * rfld s oTrcSize 23 0) ∧
      (8 < 2 ^ 30) ∧
      (100 < 2 ^ 30) ∧
      (true ≠ false)) ∧
    (∃ s : State, (accepted 12 (cm 12 1 0 0 0) s) ∧
      (cm 12 1 0 0 0).p0 = 0 ∧
      (cm 12 1 0 0 0).p1 = 0 ∧
      (cm 12 1 0 0 0).p2 = 0 ∧
      (noP3 (cm 12 1 0 0 0) = true) ∧
      (unitOn s 7 = true) ∧
      (cm 12 1 0 0 0).flags = 1 ∧
      (rfld s oTrcSts 18 16 = 0) ∧
      (armRefusal (rget s oTrcCtl) s = 0)) ∧
    (∃ s : State, (accepted 12 (cm 12 1 0 0 0) s) ∧
      (cm 12 1 0 0 0).p0 = 0 ∧
      (cm 12 1 0 0 0).p1 = 0 ∧
      (cm 12 1 0 0 0).p2 = 0 ∧
      (noP3 (cm 12 1 0 0 0) = true) ∧
      (unitOn s 7 = true) ∧
      (cm 12 1 0 0 0).flags = 1 ∧
      (rfld s oTrcSts 18 16 = 0) ∧
      (armRefusal (rget s oTrcCtl) s ≠ 0)) ∧
    (∃ s : State, (accepted 12 (cm 12 1 0 0 0) s) ∧
      (cm 12 1 0 0 0).p0 = 0 ∧
      (cm 12 1 0 0 0).p1 = 0 ∧
      (cm 12 1 0 0 0).p2 = 0 ∧
      (noP3 (cm 12 1 0 0 0) = true) ∧
      (unitOn s 7 = true) ∧
      (cm 12 1 0 0 0).flags = 1 ∧
      (rfld s oTrcSts 18 16 ≠ 0)) ∧
    (∃ s : State, (accepted 12 (cm 12 0 0 0 0) s) ∧
      (cm 12 0 0 0 0).p0 = 0 ∧
      (cm 12 0 0 0 0).p1 = 0 ∧
      (cm 12 0 0 0 0).p2 = 0 ∧
      (noP3 (cm 12 0 0 0 0) = true) ∧
      (unitOn s 7 = true) ∧
      (cm 12 0 0 0 0).flags = 0) ∧
    (∃ s : State, (accepted 13 (cm 13 0 0 0 0) s) ∧
      (cm 13 0 0 0 0).flags = 0 ∧
      (cm 13 0 0 0 0).p0 < 16 ∧
      (cm 13 0 0 0 0).p1 = 0 ∧
      (cm 13 0 0 0 0).p2 = 0 ∧
      (List.find? (fun x => decide (x.1 = (cm 13 0 0 0 0).p0)) s.trc.seals = some ((cm 13 0 0 0 0).p0, { verifier := sha256 (List.replicate 32 0#8 ++ [0#8]), clusters := [] : SealGrp })) ∧
      (unitOn s 7 = true) ∧
      (rfld s oTrcUnseal 19 16 < 8) ∧
      (sha256 (List.take 32 (cm 13 0 0 0 0).p3 ++ List.replicate (32 - (cm 13 0 0 0 0).p3.length) 0#8 ++ s.lkp.digest ++ [BitVec.ofNat 8 (cm 13 0 0 0 0).p0]) = { verifier := sha256 (List.replicate 32 0#8 ++ [0#8]), clusters := [] : SealGrp }.verifier)) ∧
    (∃ s : State, (accepted 13 (cm 13 0 0 0 0) s) ∧
      (cm 13 0 0 0 0).flags = 0 ∧
      (cm 13 0 0 0 0).p0 < 16 ∧
      (cm 13 0 0 0 0).p1 = 0 ∧
      (cm 13 0 0 0 0).p2 = 0 ∧
      (List.find? (fun x => decide (x.1 = (cm 13 0 0 0 0).p0)) s.trc.seals = some ((cm 13 0 0 0 0).p0, { verifier := [1#8], clusters := [] : SealGrp })) ∧
      (unitOn s 7 = true) ∧
      (rfld s oTrcUnseal 19 16 < 8) ∧
      (sha256 (List.take 32 (cm 13 0 0 0 0).p3 ++ List.replicate (32 - (cm 13 0 0 0 0).p3.length) 0#8 ++ s.lkp.digest ++ [BitVec.ofNat 8 (cm 13 0 0 0 0).p0]) ≠ { verifier := [1#8], clusters := [] : SealGrp }.verifier)) ∧
    (∃ s : State, (accepted 13 (cm 13 0 0 0 0) s) ∧
      (cm 13 0 0 0 0).flags = 0 ∧
      (cm 13 0 0 0 0).p0 < 16 ∧
      (cm 13 0 0 0 0).p1 = 0 ∧
      (cm 13 0 0 0 0).p2 = 0 ∧
      (List.find? (fun x => decide (x.1 = (cm 13 0 0 0 0).p0)) s.trc.seals = some ((cm 13 0 0 0 0).p0, { verifier := [1#8], clusters := [] : SealGrp })) ∧
      (unitOn s 7 = true) ∧
      (8 ≤ rfld s oTrcUnseal 19 16)) ∧
    (∃ s : State, (accepted 13 (cm 13 0 0 0 0) s) ∧
      (cm 13 0 0 0 0).flags = 0 ∧
      (cm 13 0 0 0 0).p0 < 16 ∧
      (cm 13 0 0 0 0).p1 = 0 ∧
      (cm 13 0 0 0 0).p2 = 0 ∧
      (List.find? (fun x => decide (x.1 = (cm 13 0 0 0 0).p0)) s.trc.seals = some ((cm 13 0 0 0 0).p0, { verifier := [1#8], clusters := [] : SealGrp })) ∧
      (unitOn s 7 = true) ∧
      (accepted 13 (cm 13 0 1 0 0) s) ∧
      (cm 13 0 1 0 0).p0 ∉ List.map (fun x => x.1) s.trc.seals) :=
  ⟨⟨stArm, by decide +kernel⟩,
    ⟨st0, by decide +kernel⟩,
    ⟨stArmed, by decide +kernel⟩,
    ⟨stArm, by decide +kernel⟩,
    ⟨stArmed, by decide +kernel⟩,
    ⟨stArm, by decide +kernel⟩,
    ⟨regs [(oTrcCtl, 0x40#32)] stArm, by decide +kernel⟩,
    ⟨regs [(oTrcSize, 64#32), (oTrcWp, 8#32)] stArm, by decide +kernel⟩,
    ⟨regs [(oTrcSize, 4096#32), (oTrcWp, 8#32), (oTrcRp, 2#32)] stReady, by decide +kernel⟩,
    ⟨regs [(oTrcSize, 1#32), (oTrcWp, 0x80000008#32), (oTrcRp, 0x80000002#32)] st0, by decide +kernel⟩,
    ⟨regs [(oTrcSize, 1#32), (oTrcWp, 0x80000008#32), (oTrcRp, 100#32)] st0, by decide +kernel⟩,
    ⟨stArm, by decide +kernel⟩,
    ⟨stReady, by decide +kernel⟩,
    ⟨stArmed, by decide +kernel⟩,
    ⟨stArmed, by decide +kernel⟩,
    ⟨stSealOk, by decide +kernel⟩,
    ⟨stSeal, by decide +kernel⟩,
    ⟨regs [(oTrcUnseal, 0x80000#32)] stSeal, by decide +kernel⟩,
    ⟨stSeal, by decide +kernel⟩⟩

theorem test_StepClock_met :
    (∃ s : State, (hostReaches s oCkgStep = true) ∧
      (500 < 2048) ∧
      (500 ≠ rfld s oCkgStep 26 16) ∧
      (rests s) ∧
      (s.clk.ramp = false) ∧
      (s.clk.relock = false) ∧
      (s.seq.restore = false) ∧
      (rfld s (oCkgPll 0) 31 30 = 0 ∨ rfld s (oCkgPll 0) 31 30 = 3) ∧
      (rbit s oCkgSts 7 = true) ∧
      (400 ≤ 500) ∧
      (500 ≤ 1600) ∧
      (500 % 25 = 0) ∧
      (s.lkp.maxMhz = 0 ∨ 500 ≤ s.lkp.maxMhz)) ∧
    (∃ s : State, (hostReaches s oCkgStep = true) ∧
      (510 < 2048) ∧
      (510 ≠ rfld s oCkgStep 26 16) ∧
      (510 < 400 ∨ 1600 < 510 ∨ 510 % 25 ≠ 0 ∨ s.lkp.maxMhz ≠ 0 ∧ s.lkp.maxMhz < 510 ∨ ¬rests s ∨ s.clk.ramp = true ∨ s.clk.relock = true ∨ s.seq.restore = true ∨ rfld s (oCkgPll 0) 31 30 = 1 ∨ rfld s (oCkgPll 0) 31 30 = 2)) ∧
    (∃ s : State, (hostReaches s oCkgStep = true) ∧
      (s.seq.emerg = false)) ∧
    (∃ s : State, (hostReaches s oCkgStep = true) ∧
      (s.seq.emerg = true)) ∧
    (∃ s : State, (accepted 22 (cm 22 0 0 0 0) s) ∧
      (bare (cm 22 0 0 0 0)) ∧
      (grpFormed s = false) ∧
      (s.seq.st = SeqSt.clkHalt) ∧
      (rbit s oCkgSts 8 = true) ∧
      (s.clk.ramp = false)) ∧
    (∃ s : State, (accepted 22 (cm 22 0 0 0 0) s) ∧
      (bare (cm 22 0 0 0 0)) ∧
      (grpFormed s = false) ∧
      (s.seq.st = SeqSt.clkHalt) ∧
      (rbit s oCkgSts 8 = false ∨ s.clk.ramp = true)) ∧
    (∃ s : State, (accepted 22 (cm 22 0 0 0 0) s) ∧
      (bare (cm 22 0 0 0 0)) ∧
      (s.seq.st ≠ SeqSt.clkHalt)) ∧
    (∃ s : State, (accepted 23 (cm 23 0 (500 * 65536) 0 0) s) ∧
      (cm 23 0 (500 * 65536) 0 0).flags = 0 ∧
      (cm 23 0 (500 * 65536) 0 0).p0 = 500 * 2 ^ 16 ∧
      (cm 23 0 (500 * 65536) 0 0).p1 = 0 ∧
      (cm 23 0 (500 * 65536) 0 0).p2 = 0 ∧
      (noP3 (cm 23 0 (500 * 65536) 0 0) = true) ∧
      (500 < 2048) ∧
      (grpFormed s = false) ∧
      (400 ≤ 500) ∧
      (500 ≤ 1600) ∧
      (500 % 25 = 0) ∧
      (s.lkp.maxMhz = 0 ∨ 500 ≤ s.lkp.maxMhz) ∧
      (rests s) ∧
      (s.clk.ramp = false) ∧
      (s.clk.relock = false) ∧
      (s.seq.restore = false) ∧
      (rfld s (oCkgPll 0) 31 30 = 0 ∨ rfld s (oCkgPll 0) 31 30 = 3) ∧
      (rbit s oCkgSts 7 = true)) ∧
    (∃ s : State, (accepted 23 (cm 23 0 (500 * 65536) 0 0) s) ∧
      (cm 23 0 (500 * 65536) 0 0).flags = 0 ∧
      (cm 23 0 (500 * 65536) 0 0).p0 = 500 * 2 ^ 16 ∧
      (cm 23 0 (500 * 65536) 0 0).p1 = 0 ∧
      (cm 23 0 (500 * 65536) 0 0).p2 = 0 ∧
      (noP3 (cm 23 0 (500 * 65536) 0 0) = true) ∧
      (500 < 2048) ∧
      (grpFormed s = false) ∧
      (400 ≤ 500) ∧
      (500 ≤ 1600) ∧
      (500 % 25 = 0) ∧
      (s.lkp.maxMhz = 0 ∨ 500 ≤ s.lkp.maxMhz) ∧
      (¬rests s)) ∧
    (∃ s : State, (accepted 23 (cm 23 0 (500 * 65536) 0 0) s) ∧
      (cm 23 0 (500 * 65536) 0 0).flags = 0 ∧
      (cm 23 0 (500 * 65536) 0 0).p0 = 500 * 2 ^ 16 ∧
      (cm 23 0 (500 * 65536) 0 0).p1 = 0 ∧
      (cm 23 0 (500 * 65536) 0 0).p2 = 0 ∧
      (noP3 (cm 23 0 (500 * 65536) 0 0) = true) ∧
      (500 < 2048) ∧
      (grpFormed s = false) ∧
      (400 ≤ 500) ∧
      (500 ≤ 1600) ∧
      (500 % 25 = 0) ∧
      (s.lkp.maxMhz = 0 ∨ 500 ≤ s.lkp.maxMhz) ∧
      (rests s) ∧
      (s.clk.ramp = true ∨ s.clk.relock = true ∨ s.seq.restore = true ∨ rfld s (oCkgPll 0) 31 30 = 1 ∨ rfld s (oCkgPll 0) 31 30 = 2)) ∧
    (∃ s : State, (accepted 23 (cm 23 0 1 0 0) s) ∧
      (cm 23 0 1 0 0).flags = 0 ∧
      (cm 23 0 1 0 0).p0 = 1 ∧
      (cm 23 0 1 0 0).p1 = 0 ∧
      (cm 23 0 1 0 0).p2 = 0 ∧
      (noP3 (cm 23 0 1 0 0) = true) ∧
      (grpFormed s = false) ∧
      (s.seq.emerg = false)) ∧
    (∃ s : State, (accepted 23 (cm 23 0 1 0 0) s) ∧
      (cm 23 0 1 0 0).flags = 0 ∧
      (cm 23 0 1 0 0).p0 = 1 ∧
      (cm 23 0 1 0 0).p1 = 0 ∧
      (cm 23 0 1 0 0).p2 = 0 ∧
      (noP3 (cm 23 0 1 0 0) = true) ∧
      (grpFormed s = false) ∧
      (s.seq.emerg = true)) :=
  ⟨⟨clkCfg, by decide +kernel⟩,
    ⟨clkCfg, by decide +kernel⟩,
    ⟨clkCfg, by decide +kernel⟩,
    ⟨{ stRun with seq := { stRun.seq with emerg := true, ratio := 8 } }, by decide +kernel⟩,
    ⟨stHalt, by decide +kernel⟩,
    ⟨{ stHalt with clk := { stHalt.clk with ramp := true } }, by decide +kernel⟩,
    ⟨stReady, by decide +kernel⟩,
    ⟨stReady, by decide +kernel⟩,
    ⟨stRun, by decide +kernel⟩,
    ⟨{ stReady with clk := { stReady.clk with ramp := true } }, by decide +kernel⟩,
    ⟨stReady, by decide +kernel⟩,
    ⟨{ st0 with seq := { st0.seq with emerg := true } }, by decide +kernel⟩⟩

theorem test_ClockEnables_met :
    (∃ s : State, (hostReaches s oCkgEn1 = true) ∧
      (s.bnw.draining = []) ∧
      (∀ b < nBasins s, nodeQuiet s b = true) ∧
      (∀ c ∈ s.lkp.run, c.op ≠ 9)) ∧
    (∃ s : State, (hostReaches s oCkgEn1 = true) ∧
      (s.bnw.draining = []) ∧
      (0 < nBasins s) ∧
      (rbit s oCkgEn1 0 = true) ∧
      (rbit s oCfgFenced 0 = true) ∧
      (nodeQuiet s 0 = false)) ∧
    (∃ s : State, (hostReaches s oCkgEn0 = true) ∧
      (∀ i < 32, enWritable s i = true → rbit s oCkgEn0 i = true → bit (36863#32) i = true)) ∧
    (∃ s : State, (hostReaches s oCkgEn0 = true) ∧
      (8 ∈ [8, 9, 11, 12, 13, 14, 15]) ∧
      (seqRuns s = true) ∧
      (unitPresent s 8 = true) ∧
      (rbit s oCkgEn0 8 = true)) :=
  ⟨⟨st0, by decide +kernel⟩,
    ⟨regs [(oCkgEn1, 1#32), (oCfgFenced, 1#32)] { st0 with bnw := { st0.bnw with taken := [bg 0 0] } }, by decide +kernel⟩,
    ⟨regs [(oCkgEn0, 0xFFF#32)] st0, by decide +kernel⟩,
    ⟨stRun, by decide +kernel⟩⟩

theorem test_TimeControl_met :
    (∃ s : State, (hostReaches s oTimCtl = true) ∧
      (fld (14#32) 1 0 ≠ rfld s oTimCtl 1 0) ∧
      (fld (14#32) 1 0 ≠ 3) ∧
      (rbit s oLkgCfg 0 = false)) ∧
    (∃ s : State, (hostReaches s oTimCtl = true) ∧
      (rfld s oTimCtl 1 0 ≠ 3) ∧
      (fld (15#32) 1 0 = 3)) ∧
    (∃ s : State, (hostReaches s oTimTrim = true) ∧
      (rfld s oTimCtl 1 0 = 0)) ∧
    (∃ s : State, (hostReaches s oTimTrim = true) ∧
      (rfld s oTimCtl 1 0 ≠ 0)) ∧
    (∃ s : State, (accepted 18 (cm 18 0 77 999999999 0) s) ∧
      (cm 18 0 77 999999999 0).flags = 0 ∧
      (cm 18 0 77 999999999 0).p0 < 2 ^ 48 ∧
      (cm 18 0 77 999999999 0).p1 < 1000000000 ∧
      (cm 18 0 77 999999999 0).p2 = 0 ∧
      (noP3 (cm 18 0 77 999999999 0) = true) ∧
      (unitOn s 6 = true) ∧
      (rfld s oTimCtl 1 0 ≠ 1) ∧
      (s.seq.st = SeqSt.idle ∨ s.seq.st = SeqSt.ready)) ∧
    (∃ s : State, (accepted 18 (cm 18 0 77 999999999 0) s) ∧
      (cm 18 0 77 999999999 0).flags = 0 ∧
      (cm 18 0 77 999999999 0).p0 < 2 ^ 48 ∧
      (cm 18 0 77 999999999 0).p1 < 1000000000 ∧
      (cm 18 0 77 999999999 0).p2 = 0 ∧
      (noP3 (cm 18 0 77 999999999 0) = true) ∧
      (unitOn s 6 = true) ∧
      (rfld s oTimCtl 1 0 ≠ 1) ∧
      (seqRuns s = true ∨ s.seq.st = SeqSt.paused)) ∧
    (∃ s : State, (accepted 18 (cm 18 0 77 999999999 0) s) ∧
      (cm 18 0 77 999999999 0).flags = 0 ∧
      (cm 18 0 77 999999999 0).p0 < 2 ^ 48 ∧
      (cm 18 0 77 999999999 0).p1 < 1000000000 ∧
      (cm 18 0 77 999999999 0).p2 = 0 ∧
      (noP3 (cm 18 0 77 999999999 0) = true) ∧
      (unitOn s 6 = true) ∧
      (rfld s oTimCtl 1 0 = 1)) :=
  ⟨⟨regs [(oTimCtl, 1#32)] st0, by decide +kernel⟩,
    ⟨regs [(oTimCtl, 1#32)] st0, by decide +kernel⟩,
    ⟨st0, by decide +kernel⟩,
    ⟨regs [(oTimCtl, 1#32)] st0, by decide +kernel⟩,
    ⟨stReady, by decide +kernel⟩,
    ⟨stRun, by decide +kernel⟩,
    ⟨regs [(oTimCtl, 1#32)] stRun, by decide +kernel⟩⟩

theorem test_FaultInjection_met :
    (∃ s : State, (hostReaches s oSafInject = true) ∧
      (s.saf.safe = false) ∧
      (faultListed (fld (4099#32) 15 0) = true)) ∧
    (∃ s : State, (hostReaches s oSafInject = true) ∧
      (s.saf.safe = true ∨ faultListed (fld (0#32) 15 0) = false)) ∧
    (∃ s : State, (hostReaches s oSafInject = true) ∧
      (s.saf.safe = false) ∧
      (s.seq.st = SeqSt.ready ∨ s.seq.st = SeqSt.idle) ∧
      (fld (16387#32) 15 0 ∈ [4099, 16387, 28673, 36867]) ∧
      (rget s oSafReact = 0#32) ∧
      (s.saf.log = []) ∧
      (s.saf.arm = true)) :=
  ⟨⟨st0, by decide +kernel⟩,
    ⟨st0, by decide +kernel⟩,
    ⟨regs [(oSafReact, 0#32)] stReady, by decide +kernel⟩⟩

theorem test_StandingRegisters_met :
    (∃ s : State, (1 < 256) ∧
      (hostReaches s (oStd 1) = true) ∧
      (stdPw 1 = 0#32) ∧
      (s.std.busy = none)) ∧
    (∃ s : State, (16 < 256) ∧
      (hostReaches s (oStd 16) = true) ∧
      (s.std.busy.isSome = true)) ∧
    (∃ s : State, (16 < 256) ∧
      (hostReaches s (oStd 16) = true) ∧
      (stdPw 16 ≠ 0#32) ∧
      (s.std.busy = none) ∧
      (mget Ecc.clean s.std.ecc 16 ≠ Ecc.double) ∧
      (rget s (oStd 16) &&& stdPw 16 = stdStored s 16 &&& stdPw 16)) ∧
    (∃ s : State, (16 < 256) ∧
      (hostReaches s (oStd 16) = true) ∧
      (stdPw 16 ≠ 0#32) ∧
      (s.std.busy = none) ∧
      (rget s (oStd 16) ^^^ stdPw 16) &&& stdPw 16 ≠ stdStored s 16 &&& stdPw 16 ∧
      (100000 ≤ rfld s (oStdCmp 16) 16 0)) ∧
    (∃ s : State, (16 < 256) ∧
      (hostReaches s (oStd 16) = true) ∧
      (stdPw 16 ≠ 0#32) ∧
      (s.std.busy = none) ∧
      (rget s (oStd 16) ^^^ stdPw 16) &&& stdPw 16 ≠ stdStored s 16 &&& stdPw 16 ∧
      (rfld s (oStdCmp 16) 16 0 < 100000)) ∧
    (∃ s : State, (16 < 256) ∧
      (s.std.busy = some (16, 5#32)) ∧
      (∀ c ∈ s.lkp.run, c.op ≠ 25)) ∧
    (∃ s : State, (accepted 25 (cm 25 0 16 7 0) s) ∧
      (cm 25 0 16 7 0).flags = 0 ∧
      (cm 25 0 16 7 0).p0 < 256 ∧
      (cm 25 0 16 7 0).p1 < 2 ^ 32 ∧
      (cm 25 0 16 7 0).p2 = 0 ∧
      (noP3 (cm 25 0 16 7 0) = true) ∧
      (stdPw (cm 25 0 16 7 0).p0 ≠ 0#32) ∧
      (s.std.busy.isSome = true)) ∧
    (∃ s : State, (accepted 25 (cm 25 0 16 (BitVec.toNat (rget s (oStd 16))) 0) s) ∧
      (cm 25 0 16 (BitVec.toNat (rget s (oStd 16))) 0).flags = 0 ∧
      (cm 25 0 16 (BitVec.toNat (rget s (oStd 16))) 0).p0 < 256 ∧
      (cm 25 0 16 (BitVec.toNat (rget s (oStd 16))) 0).p1 < 2 ^ 32 ∧
      (cm 25 0 16 (BitVec.toNat (rget s (oStd 16))) 0).p2 = 0 ∧
      (noP3 (cm 25 0 16 (BitVec.toNat (rget s (oStd 16))) 0) = true) ∧
      (stdPw (cm 25 0 16 (BitVec.toNat (rget s (oStd 16))) 0).p0 ≠ 0#32) ∧
      (s.std.busy = none) ∧
      (mget Ecc.clean s.std.ecc (cm 25 0 16 (BitVec.toNat (rget s (oStd 16))) 0).p0 ≠ Ecc.double) ∧
      (BitVec.ofNat 32 (cm 25 0 16 (BitVec.toNat (rget s (oStd 16))) 0).p1 &&& stdPw (cm 25 0 16 (BitVec.toNat (rget s (oStd 16))) 0).p0 = stdStored s (cm 25 0 16 (BitVec.toNat (rget s (oStd 16))) 0).p0 &&& stdPw (cm 25 0 16 (BitVec.toNat (rget s (oStd 16))) 0).p0)) ∧
    (∃ s : State, (accepted 25 (cm 25 0 16 (BitVec.toNat (rget s (oStd 16) ^^^ stdPw 16)) 0) s) ∧
      (cm 25 0 16 (BitVec.toNat (rget s (oStd 16) ^^^ stdPw 16)) 0).flags = 0 ∧
      (cm 25 0 16 (BitVec.toNat (rget s (oStd 16) ^^^ stdPw 16)) 0).p0 < 256 ∧
      (cm 25 0 16 (BitVec.toNat (rget s (oStd 16) ^^^ stdPw 16)) 0).p1 < 2 ^ 32 ∧
      (cm 25 0 16 (BitVec.toNat (rget s (oStd 16) ^^^ stdPw 16)) 0).p2 = 0 ∧
      (noP3 (cm 25 0 16 (BitVec.toNat (rget s (oStd 16) ^^^ stdPw 16)) 0) = true) ∧
      (stdPw (cm 25 0 16 (BitVec.toNat (rget s (oStd 16) ^^^ stdPw 16)) 0).p0 ≠ 0#32) ∧
      (s.std.busy = none) ∧
      (¬BitVec.ofNat 32 (cm 25 0 16 (BitVec.toNat (rget s (oStd 16) ^^^ stdPw 16)) 0).p1 &&& stdPw (cm 25 0 16 (BitVec.toNat (rget s (oStd 16) ^^^ stdPw 16)) 0).p0 = stdStored s (cm 25 0 16 (BitVec.toNat (rget s (oStd 16) ^^^ stdPw 16)) 0).p0 &&& stdPw (cm 25 0 16 (BitVec.toNat (rget s (oStd 16) ^^^ stdPw 16)) 0).p0) ∧
      (100000 ≤ rfld s (oStdCmp (cm 25 0 16 (BitVec.toNat (rget s (oStd 16) ^^^ stdPw 16)) 0).p0) 16 0)) ∧
    (∃ s : State, (accepted 25 (cm 25 0 16 (BitVec.toNat (rget s (oStd 16) ^^^ stdPw 16)) 0) s) ∧
      (cm 25 0 16 (BitVec.toNat (rget s (oStd 16) ^^^ stdPw 16)) 0).flags = 0 ∧
      (cm 25 0 16 (BitVec.toNat (rget s (oStd 16) ^^^ stdPw 16)) 0).p0 < 256 ∧
      (cm 25 0 16 (BitVec.toNat (rget s (oStd 16) ^^^ stdPw 16)) 0).p1 < 2 ^ 32 ∧
      (cm 25 0 16 (BitVec.toNat (rget s (oStd 16) ^^^ stdPw 16)) 0).p2 = 0 ∧
      (noP3 (cm 25 0 16 (BitVec.toNat (rget s (oStd 16) ^^^ stdPw 16)) 0) = true) ∧
      (stdPw (cm 25 0 16 (BitVec.toNat (rget s (oStd 16) ^^^ stdPw 16)) 0).p0 ≠ 0#32) ∧
      (s.std.busy = none) ∧
      (¬BitVec.ofNat 32 (cm 25 0 16 (BitVec.toNat (rget s (oStd 16) ^^^ stdPw 16)) 0).p1 &&& stdPw (cm 25 0 16 (BitVec.toNat (rget s (oStd 16) ^^^ stdPw 16)) 0).p0 = stdStored s (cm 25 0 16 (BitVec.toNat (rget s (oStd 16) ^^^ stdPw 16)) 0).p0 &&& stdPw (cm 25 0 16 (BitVec.toNat (rget s (oStd 16) ^^^ stdPw 16)) 0).p0) ∧
      (rfld s (oStdCmp (cm 25 0 16 (BitVec.toNat (rget s (oStd 16) ^^^ stdPw 16)) 0).p0) 16 0 < 100000)) :=
  ⟨⟨st0, by decide +kernel⟩,
    ⟨{ st0 with std := { st0.std with busy := some (30, 5#32) } }, by decide +kernel⟩,
    ⟨st0, by decide +kernel⟩,
    ⟨regs [(oStdCmp 16, 100000#32)] st0, by decide +kernel⟩,
    ⟨regs [(oStdCmp 16, 99999#32)] st0, by decide +kernel⟩,
    ⟨{ st0 with std := { st0.std with busy := some (16, 5#32), ecc := [(16, .double)] } }, by decide +kernel⟩,
    ⟨{ st0 with std := { st0.std with busy := some (30, 5#32) } }, by decide +kernel⟩,
    ⟨st0, by decide +kernel⟩,
    ⟨regs [(oStdCmp 16, 100000#32)] st0, by decide +kernel⟩,
    ⟨regs [(oStdCmp 16, 99999#32)] st0, by decide +kernel⟩⟩

theorem test_Replies_met :
    (∃ s : State, ({ cm 3 0 0 0 0 with port := 3 } : Cmd).port < 16 ∧
      (rbit s (oLkpRrLo ({ cm 3 0 0 0 0 with port := 3 } : Cmd).port) 8 = true)) ∧
    (∃ s : State, ({ cm 3 0 0 0 0 with port := 3 } : Cmd).port < 16 ∧
      (rbit s (oLkpRrLo ({ cm 3 0 0 0 0 with port := 3 } : Cmd).port) 8 = true) ∧
      (70 < BitVec.toNat (rget s (oLkpRrHi ({ cm 3 0 0 0 0 with port := 3 } : Cmd).port)) * 2 ^ 32 + rfld s (oLkpRrLo ({ cm 3 0 0 0 0 with port := 3 } : Cmd).port) 31 12 * 4096 + 32 * (BitVec.toNat (rget s (oLkpRrPi ({ cm 3 0 0 0 0 with port := 3 } : Cmd).port)) % 2 ^ rfld s (oLkpRrLo ({ cm 3 0 0 0 0 with port := 3 } : Cmd).port) 4 0) ∨ BitVec.toNat (rget s (oLkpRrHi ({ cm 3 0 0 0 0 with port := 3 } : Cmd).port)) * 2 ^ 32 + rfld s (oLkpRrLo ({ cm 3 0 0 0 0 with port := 3 } : Cmd).port) 31 12 * 4096 + 32 * (BitVec.toNat (rget s (oLkpRrPi ({ cm 3 0 0 0 0 with port := 3 } : Cmd).port)) % 2 ^ rfld s (oLkpRrLo ({ cm 3 0 0 0 0 with port := 3 } : Cmd).port) 4 0) + 32 ≤ 70)) ∧
    (∃ s : State, ({ cm 3 0 0 0 0 with port := 16 } : Cmd).port = 16) ∧
    (∃ s : State, ({ cm 3 0 0 0 0 with port := 16 } : Cmd).port = 16 ∧
      (7 < 8)) ∧
    (∃ s : State, hostReaches s oLkpMboxCtl = true) :=
  ⟨⟨stRing, by decide +kernel⟩,
    ⟨stRing, by decide +kernel⟩,
    ⟨stRing, by decide +kernel⟩,
    ⟨stRing, by decide +kernel⟩,
    ⟨st0, by decide +kernel⟩⟩

theorem test_CommandsTaken_met :
    (∃ s : State, (cmdOf (Instr.run (cm 3 0 0 0 0)) = some (3, cm 3 0 0 0 0)) ∧
      (takes s (cm 3 0 0 0 0).port = false)) ∧
    (∃ s : State, (cmdOf (Instr.imgLoad (({ cm 1 0 0 0 0 with rsv := 1 } : Cmd))) = some (1, ({ cm 1 0 0 0 0 with rsv := 1 } : Cmd))) ∧
      (takes s (({ cm 1 0 0 0 0 with rsv := 1 } : Cmd)).port = true) ∧
      (({ cm 1 0 0 0 0 with rsv := 1 } : Cmd)).rsv ≠ 0) ∧
    (∃ s : State, (cmdOf (Instr.halt (cm 4 0 0 0 0)) = some (4, cm 4 0 0 0 0)) ∧
      (4 ∈ [4, 14, 20, 22]) ∧
      (cm 4 0 0 0 0).op = 4 ∧
      (cm 4 0 0 0 0).rsv = 0 ∧
      (bare (cm 4 0 0 0 0)) ∧
      (takes s (cm 4 0 0 0 0).port = true) ∧
      (4 = 20 → unitOn s 9 = true) ∧
      (4 = 4 → unitOn s 8 = true) ∧
      (s.seq.st = SeqSt.safe)) ∧
    (∃ s : State, (cm 4 0 0 0 0).op = 4 ∧
      (cm 4 0 0 0 0).rsv = 0 ∧
      (bare (cm 4 0 0 0 0)) ∧
      (takes s (cm 4 0 0 0 0).port = true) ∧
      (unitOn s 8 = true) ∧
      (s.seq.st = SeqSt.clkHalt)) ∧
    (∃ s : State, (cm 1 0 0 4096 4096).rsv = 0 ∧
      (takes s (cm 1 0 0 4096 4096).port = true) ∧
      (s.seq.st ≠ SeqSt.safe) ∧
      (s.seq.st ≠ SeqSt.clkHalt) ∧
      (loading s = true) ∧
      (cm 1 0 0 4096 4096).op = 1 ∧
      (imgForm (cm 1 0 0 4096 4096) = true)) ∧
    (∃ s : State, (cm 10 0 1 0 0).rsv = 0 ∧
      (takes s (cm 10 0 1 0 0).port = true) ∧
      (s.seq.st ≠ SeqSt.safe) ∧
      (s.seq.st ≠ SeqSt.clkHalt) ∧
      (loading s = true) ∧
      (cm 10 0 1 0 0).op = 10 ∧
      (cm 10 0 1 0 0).flags = 0 ∧
      (cm 10 0 1 0 0).p0 < 2 ^ nBasins s ∧
      (cm 10 0 1 0 0).p1 = 0 ∧
      (cm 10 0 1 0 0).p2 = 0 ∧
      (noP3 (cm 10 0 1 0 0) = true) ∧
      (unitOn s 14 = true) ∧
      (∀ b < nBasins s, nbit (cm 10 0 1 0 0).p0 b = true → rbit s oCkgEn1 b = true)) ∧
    (∃ s : State, (rbit s oLkpSts 31 = true) ∧
      (endpointDown s = false) ∧
      (nextPort s = some 16) ∧
      (cmdRow 0 SwitchEnd.clean (portCmd s 16) = some (Instr.halt (portCmd s 16)))) ∧
    (∃ s : State, (rbit s oLkpSts 31 = true) ∧
      (endpointDown s = false) ∧
      (nextPort s = some 16) ∧
      (cmdRow 0 SwitchEnd.clean (portCmd s 16) = none)) ∧
    (∃ s : State, nextPort s = some 16) ∧
    (∃ s : State, (nextPort s = some 3) ∧
      (1 < 17) ∧
      (1 < (3 + 16 - s.lkp.turn % 17) % 17)) ∧
    (∃ s : State, 3 < 16) :=
  ⟨⟨State.reset, by decide +kernel⟩,
    ⟨st0, by decide +kernel⟩,
    ⟨atSeq .safe st0, by decide +kernel⟩,
    ⟨stHalt, by decide +kernel⟩,
    ⟨{ st0 with lkp := { st0.lkp with load := some ⟨cm 1 0 0 0 0, false, []⟩, run := [{ cm 1 0 0 0 0 with port := 2 }] } }, by decide +kernel⟩,
    ⟨{ st0 with lkp := { st0.lkp with load := some ⟨cm 1 0 0 0 0, false, []⟩, run := [{ cm 1 0 0 0 0 with port := 2 }] } }, by decide +kernel⟩,
    ⟨stMbox [4, 0, 0], by decide +kernel⟩,
    ⟨stMbox [0x1F, 0, 0], by decide +kernel⟩,
    ⟨stMbox [4, 0, 0], by decide +kernel⟩,
    ⟨stRing, by decide +kernel⟩,
    ⟨stRing, by decide +kernel⟩⟩

theorem test_LoadTaken_met :
    (∃ s : State, (accepted 1 (cm 1 0 4096 64 0) s) ∧
      (cm 1 0 4096 64 0).flags = 0 ∧
      (noP3 (cm 1 0 4096 64 0) = true) ∧
      (cm 1 0 4096 64 0).p2 % 4096 = 0 ∧
      (rests s) ∧
      (s.lkp.march = none)) ∧
    (∃ s : State, (accepted 1 (cm 1 0 4096 64 0) s) ∧
      (cm 1 0 4096 64 0).flags = 0 ∧
      (noP3 (cm 1 0 4096 64 0) = true) ∧
      (cm 1 0 4096 64 0).p2 % 4096 = 0 ∧
      (seqActive s = true)) ∧
    (∃ s : State, (accepted 2 (cm 2 0 4096 64 0) s) ∧
      (cm 2 0 4096 64 0).flags = 0 ∧
      (noP3 (cm 2 0 4096 64 0) = true) ∧
      (cm 2 0 4096 64 0).p2 % 4096 = 0 ∧
      (seqActive s = false) ∧
      (s.lkp.march = none)) :=
  ⟨⟨stReady, by decide +kernel⟩,
    ⟨stRun, by decide +kernel⟩,
    ⟨stReady, by decide +kernel⟩⟩

theorem test_LoadEnds_met :
    (∃ s : State, (s.lkp.load = some ld) ∧
      (ld.write = false) ∧
      (s.seq.st ≠ SeqSt.safe) ∧
      (imageCheck s (cmdImg s ld.cmd) ld.cmd.p2 = none)) ∧
    (∃ s : State, (s.lkp.load = some ld) ∧
      (ld.write = false) ∧
      (s.seq.st ≠ SeqSt.safe) ∧
      (imageCheck s (cmdImg s ld.cmd) ld.cmd.p2 = some (1, 2, 65535))) ∧
    (∃ s : State, (List.find? (fun x => decide (x.op = 2)) s.lkp.run = some (cm 2 0 4096 64 0)) ∧
      (imageCheck s (cmdImg s (cm 2 0 4096 64 0)) (cm 2 0 4096 64 0).p2 = none)) ∧
    (∃ s : State, (List.find? (fun x => decide (x.op = 2)) s.lkp.run = some (cm 2 0 4096 64 0)) ∧
      (imageCheck s (cmdImg s (cm 2 0 4096 64 0)) (cm 2 0 4096 64 0).p2 = some (1, 2, 65535))) ∧
    (∃ s : State, (s.lkp.load = some ldw) ∧
      (ldw.write = true) ∧
      (rbit s oCkgSts 8 = false)) ∧
    (∃ s : State, (s.lkp.load = some ld) ∧
      (ld.write = false)) ∧
    (∃ s : State, List.find? (fun x => decide (x.op = 2)) s.lkp.run = some (cm 2 0 4096 64 0)) ∧
    (∃ s : State, (3 < 16) ∧
      (rbit s (oLkpCrLo 3) 8 = true) ∧
      (rbit s (oLkpRrLo 3) 8 = true)) ∧
    (∃ s : State, (s.lkp.load = some ldw) ∧
      (ldw.write = true) ∧
      (s.seq.st ≠ SeqSt.safe) ∧
      (rbit s oCkgSts 8 = true) ∧
      (s.req = []) ∧
      (writeImage ldw none s = ((writeImage ldw none s).1, none))) ∧
    (∃ s : State, (s.lkp.load = some { cmd := cm 1 0 4096 88 0, write := true, place := [0] : LoadSt }) ∧
      ({ cmd := cm 1 0 4096 88 0, write := true, place := [0] : LoadSt }.write = true) ∧
      (s.seq.st ≠ SeqSt.safe) ∧
      (rbit s oCkgSts 8 = true) ∧
      (s.req = []) ∧
      (writeImage { cmd := cm 1 0 4096 88 0, write := true, place := [0] : LoadSt } none s = ((writeImage { cmd := cm 1 0 4096 88 0, write := true, place := [0] : LoadSt } none s).1, some (0, true)))) ∧
    (∃ s : State, (s.lkp.load = some ldw) ∧
      (ldw.write = true) ∧
      (s.seq.st ≠ SeqSt.safe) ∧
      (rbit s oCkgSts 8 = false ∨ s.req ≠ [])) :=
  ⟨⟨stImg false, by decide +kernel⟩,
    ⟨hostPut 4097 [0#8] (stImg false), by decide +kernel⟩,
    ⟨running (cm 2 0 4096 64 0) (hostPut 4096 imgAll stSlow), by decide +kernel⟩,
    ⟨running (cm 2 0 4096 64 0) st0, by decide +kernel⟩,
    ⟨regs [(oCkgSts, 0#32)] (stImg true), by decide +kernel⟩,
    ⟨stImg false, by decide +kernel⟩,
    ⟨running (cm 2 0 4096 64 0) st0, by decide +kernel⟩,
    ⟨stRing, by decide +kernel⟩,
    ⟨stImg true, by decide +kernel⟩,
    ⟨stBad, by decide +kernel⟩,
    ⟨regs [(oCkgSts, 0#32)] (stImg true), by decide +kernel⟩⟩

theorem test_RunAccepted_met :
    (∃ s : State, (runnable s) ∧
      (0 = 0 ∧ 0 = 0 ∨ 0 < 2 ^ 48 ∧ 0 < 1000000000 ∧ nowNs s + 100000 ≤ 0 * 1000000000 + 0)) ∧
    (∃ s : State, (accepted 3 (cm 3 1 0 5 0) s) ∧
      (cm 3 1 0 5 0).flags < 2 ∧
      (cm 3 1 0 5 0).p2 = 0 ∧
      (noP3 (cm 3 1 0 5 0) = true) ∧
      (grpFormed s = false) ∧
      ((cm 3 1 0 5 0).p0 ≠ 0 ∨ (cm 3 1 0 5 0).p1 ≠ 0) ∧
      ((cm 3 1 0 5 0).p0 * 1000000000 + (cm 3 1 0 5 0).p1 < nowNs s + 100000 ∨ 1000000000 ≤ (cm 3 1 0 5 0).p1)) ∧
    (∃ s : State, (accepted 3 (cm 3 1 0 0 0) s) ∧
      (cm 3 1 0 0 0).flags < 2 ∧
      (cm 3 1 0 0 0).p2 = 0 ∧
      (noP3 (cm 3 1 0 0 0) = true) ∧
      (grpFormed s = false) ∧
      (cm 3 1 0 0 0).p0 = 0 ∧
      (cm 3 1 0 0 0).p1 = 0 ∧
      (unitOn s 8 = true) ∧
      (unitOn s 14 = true) ∧
      (s.seq.st = SeqSt.idle ∨ ∃ b < nBasins s, rbit s oCfgPlaced b = true ∧ rbit s oCfgFenced b = true)) ∧
    (∃ s : State, (accepted 3 (cm 3 1 0 0 0) s) ∧
      (cm 3 1 0 0 0).flags < 2 ∧
      (cm 3 1 0 0 0).p2 = 0 ∧
      (noP3 (cm 3 1 0 0 0) = true) ∧
      (grpFormed s = false) ∧
      (cm 3 1 0 0 0).p0 = 0 ∧
      (cm 3 1 0 0 0).p1 = 0 ∧
      (unitOn s 8 = true) ∧
      (unitOn s 14 = true) ∧
      (runnable { s with seq := ({ s.seq with st := SeqSt.ready, runPend := none } : SeqState) }) ∧
      (seqRuns s = true)) :=
  ⟨⟨stRunOk, by decide +kernel⟩,
    ⟨stRunOk, by decide +kernel⟩,
    ⟨st0, by decide +kernel⟩,
    ⟨atSeq .flight stRunOk, by decide +kernel⟩⟩

theorem test_RunStarts_met :
    (∃ s : State, (Canonical s = true) ∧
      (s.seq.runPend = some { cont := true, steps := 0, sec := 0, ns := 0 : RunPend }) ∧
      (runnable { s with seq := ({ s.seq with runPend := none } : SeqState) }) ∧
      (s.seq.st = SeqSt.ready ∨ s.seq.st = SeqSt.paused ∧ { cont := true, steps := 0, sec := 0, ns := 0 : RunPend }.cont = false) ∧
      ({ cont := true, steps := 0, sec := 0, ns := 0 : RunPend }.sec * 1000000000 + { cont := true, steps := 0, sec := 0, ns := 0 : RunPend }.ns ≤ nowNs s)) ∧
    (∃ s : State, (s.seq.runPend = some { cont := true, steps := 4, sec := 0, ns := 0 : RunPend }) ∧
      (runnable { s with seq := ({ s.seq with runPend := none } : SeqState) }) ∧
      (s.seq.st = SeqSt.paused) ∧
      ({ cont := true, steps := 4, sec := 0, ns := 0 : RunPend }.cont = true) ∧
      ({ cont := true, steps := 4, sec := 0, ns := 0 : RunPend }.sec * 1000000000 + { cont := true, steps := 4, sec := 0, ns := 0 : RunPend }.ns ≤ nowNs s) ∧
      (s.seq.ret ≠ SeqSt.flight ∨ s.seq.pos ≠ 0 ∨ s.seq.fltPos ≠ 0)) ∧
    (∃ s : State, (s.seq.runPend = some { cont := true, steps := 4, sec := 0, ns := 0 : RunPend }) ∧
      (runnable { s with seq := ({ s.seq with runPend := none } : SeqState) }) ∧
      (s.seq.st = SeqSt.paused) ∧
      ({ cont := true, steps := 4, sec := 0, ns := 0 : RunPend }.cont = true) ∧
      ({ cont := true, steps := 4, sec := 0, ns := 0 : RunPend }.sec * 1000000000 + { cont := true, steps := 4, sec := 0, ns := 0 : RunPend }.ns ≤ nowNs s) ∧
      (s.seq.ret = SeqSt.flight) ∧
      (s.seq.pos = 0) ∧
      (s.seq.fltPos = 0)) ∧
    (∃ s : State, (s.seq.runPend = some { cont := true, steps := 0, sec := 2 ^ 45, ns := 0 : RunPend }) ∧
      (nowNs s < { cont := true, steps := 0, sec := 2 ^ 45, ns := 0 : RunPend }.sec * 1000000000 + { cont := true, steps := 0, sec := 2 ^ 45, ns := 0 : RunPend }.ns)) ∧
    (∃ s : State, (s.seq.runPend = some { cont := true, steps := 0, sec := 0, ns := 0 : RunPend }) ∧
      ({ cont := true, steps := 0, sec := 0, ns := 0 : RunPend }.sec * 1000000000 + { cont := true, steps := 0, sec := 0, ns := 0 : RunPend }.ns ≤ nowNs s) ∧
      (s.seq.st = SeqSt.safe ∨ s.seq.st = SeqSt.clkHalt) ∧
      (grpFormed s = false) ∧
      (unitOn s 8 = true) ∧
      (unitOn s 14 = true)) :=
  ⟨⟨pend stRunOk, by decide +kernel⟩,
    ⟨{ pend (atSeq .paused stRunOk) true 4 with seq := { (pend (atSeq .paused stRunOk) true 4).seq with ret := .stall } }, by decide +kernel⟩,
    ⟨pend (atSeq .paused stRunOk) true 4, by decide +kernel⟩,
    ⟨{ pend stRunOk with seq := { stReady.seq with runPend := some ⟨true, 0, 2 ^ 45, 0⟩ } }, by decide +kernel⟩,
    ⟨pend (atSeq .safe stRunOk), by decide +kernel⟩⟩

theorem test_HaltCommand_met :
    (∃ s : State, (accepted 4 (cm 4 0 0 0 0) s) ∧
      (bare (cm 4 0 0 0 0)) ∧
      (s.seq.runPend = none) ∧
      (unitOn s 8 = true) ∧
      (seqRuns s = true) ∧
      (s.seq.halt = none)) ∧
    (∃ s : State, (accepted 4 (cm 4 0 0 0 0) s) ∧
      (bare (cm 4 0 0 0 0)) ∧
      (s.seq.runPend = none) ∧
      (unitOn s 8 = true) ∧
      (seqRuns s = true ∧ s.seq.halt ≠ none ∨ pauseHeld s = true)) ∧
    (∃ s : State, (accepted 4 (cm 4 0 0 0 0) s) ∧
      (bare (cm 4 0 0 0 0)) ∧
      (s.seq.runPend = none) ∧
      (unitOn s 8 = true) ∧
      (rests s)) ∧
    (∃ s : State, (accepted 4 (cm 4 0 0 0 0) s) ∧
      (bare (cm 4 0 0 0 0)) ∧
      (s.seq.runPend = some { cont := false, steps := 0, sec := 100, ns := 5 : RunPend }) ∧
      (grpFormed s = false) ∧
      (rests s) ∧
      (unitOn s 8 = true) ∧
      (List.find? (fun x => decide (x.op = 3) || decide (x.op = 5)) s.lkp.run = some ({ cm 3 0 0 0 0 with port := 2 } : Cmd))) :=
  ⟨⟨stRun, by decide +kernel⟩,
    ⟨{ stRun with seq := { stRun.seq with halt := some 2048 } }, by decide +kernel⟩,
    ⟨stReady, by decide +kernel⟩,
    ⟨running { cm 3 0 0 0 0 with port := 2 } { stReady with seq := { stReady.seq with runPend := some ⟨false, 0, 100, 5⟩ } }, by decide +kernel⟩⟩

theorem test_StateAccess_met :
    (∃ s : State, (accepted 6 (cm 6 0 5 (3 + 4 * 2 ^ 32) 4096) s) ∧
      (accessJob (cm 6 0 5 (3 + 4 * 2 ^ 32) 4096)).space < 4 ∧
      (accessForm s false (cm 6 0 5 (3 + 4 * 2 ^ 32) 4096) = true) ∧
      (accessUnit s (accessJob (cm 6 0 5 (3 + 4 * 2 ^ 32) 4096)) = true) ∧
      (stubAnswers s (accessNode (accessJob (cm 6 0 5 (3 + 4 * 2 ^ 32) 4096))) 1 = false) ∧
      (rests s ∨ s.seq.st = SeqSt.clkHalt ∨ s.seq.st = SeqSt.safe ∨ rbit s oCfgFenced (accessBasin (accessJob (cm 6 0 5 (3 + 4 * 2 ^ 32) 4096))) = true)) ∧
    (∃ s : State, (accepted 6 (cm 6 0 (4 * 2 ^ 60) (3 + 4 * 2 ^ 32) 4096) s) ∧
      (accessJob (cm 6 0 (4 * 2 ^ 60) (3 + 4 * 2 ^ 32) 4096)).space = 4 ∧
      (accessForm s false (cm 6 0 (4 * 2 ^ 60) (3 + 4 * 2 ^ 32) 4096) = true) ∧
      (accessUnit s (accessJob (cm 6 0 (4 * 2 ^ 60) (3 + 4 * 2 ^ 32) 4096)) = true) ∧
      (stubAnswers s 47 1 = false) ∧
      (∀ x ∈ s.dmc.replies, x.master ≠ 1) ∧
      (s.lkp.access = []) ∧
      (s.bnw.queue = []) ∧
      (seqRuns s = false ∨ (accessJob (cm 6 0 (4 * 2 ^ 60) (3 + 4 * 2 ^ 32) 4096)).count = 1) ∧
      (bankFree s (accessJob (cm 6 0 (4 * 2 ^ 60) (3 + 4 * 2 ^ 32) 4096)).obj = true) ∧
      (∀ i < (accessJob (cm 6 0 (4 * 2 ^ 60) (3 + 4 * 2 ^ 32) 4096)).count, dmEcc s (accessJob (cm 6 0 (4 * 2 ^ 60) (3 + 4 * 2 ^ 32) 4096)).obj ((accessJob (cm 6 0 (4 * 2 ^ 60) (3 + 4 * 2 ^ 32) 4096)).first + i) = Ecc.clean)) ∧
    (∃ s : State, (accepted 6 (cm 6 0 (4 * 2 ^ 60) (3 + 4 * 2 ^ 32) 4096) s) ∧
      (accessJob (cm 6 0 (4 * 2 ^ 60) (3 + 4 * 2 ^ 32) 4096)).space = 4 ∧
      (accessForm s false (cm 6 0 (4 * 2 ^ 60) (3 + 4 * 2 ^ 32) 4096) = true) ∧
      (accessUnit s (accessJob (cm 6 0 (4 * 2 ^ 60) (3 + 4 * 2 ^ 32) 4096)) = true) ∧
      (stubAnswers s 47 1 = false) ∧
      (∀ x ∈ s.dmc.replies, x.master ≠ 1) ∧
      (schedAt s (accessJob (cm 6 0 (4 * 2 ^ 60) (3 + 4 * 2 ^ 32) 4096)).obj = none) ∧
      (s.lkp.access = []) ∧
      (memClockOn s = false ∨ bankBusy s (accessJob (cm 6 0 (4 * 2 ^ 60) (3 + 4 * 2 ^ 32) 4096)).obj = true ∨ patrolBehind s (accessJob (cm 6 0 (4 * 2 ^ 60) (3 + 4 * 2 ^ 32) 4096)).obj = true)) ∧
    (∃ s : State, (accepted 7 (cm 7 0 5 (3 + 2045 * 2 ^ 32) 4096) s) ∧
      (accessJob (cm 7 0 5 (3 + 2045 * 2 ^ 32) 4096)).space = 0 ∧
      (accessForm s true (cm 7 0 5 (3 + 2045 * 2 ^ 32) 4096) = true) ∧
      (accessUnit s (accessJob (cm 7 0 5 (3 + 2045 * 2 ^ 32) 4096)) = true) ∧
      (stubAnswers s (accessNode (accessJob (cm 7 0 5 (3 + 2045 * 2 ^ 32) 4096))) 1 = false) ∧
      (rests s ∧ s.seq.st ≠ SeqSt.idle ∨ s.seq.st = SeqSt.clkHalt ∨ rbit s oCfgFenced (accessBasin (accessJob (cm 7 0 5 (3 + 2045 * 2 ^ 32) 4096))) = true) ∧
      (grpFormed s = false) ∧
      (s.seq.diverged = false)) ∧
    (∃ s : State, (accepted 7 (cm 7 0 (5 + 2 ^ 60) (3 + 13 * 2 ^ 32) 4096) s) ∧
      (accessJob (cm 7 0 (5 + 2 ^ 60) (3 + 13 * 2 ^ 32) 4096)).space ∈ [1, 2, 3] ∧
      (accessForm s true (cm 7 0 (5 + 2 ^ 60) (3 + 13 * 2 ^ 32) 4096) = true) ∧
      (accessUnit s (accessJob (cm 7 0 (5 + 2 ^ 60) (3 + 13 * 2 ^ 32) 4096)) = true) ∧
      (stubAnswers s (accessNode (accessJob (cm 7 0 (5 + 2 ^ 60) (3 + 13 * 2 ^ 32) 4096))) 1 = false) ∧
      (rfld s oSeqCfg 10 0 ≤ 1024) ∧
      (rests s) ∧
      (s.seq.st ≠ SeqSt.idle) ∧
      (rbit s oCfgFenced (accessBasin (accessJob (cm 7 0 (5 + 2 ^ 60) (3 + 13 * 2 ^ 32) 4096))) = true) ∧
      (grpFormed s = false) ∧
      (s.seq.diverged = false)) ∧
    (∃ s : State, (accepted 7 (cm 7 0 5 (3 + 2045 * 2 ^ 32) 4096) s) ∧
      (accessJob (cm 7 0 5 (3 + 2045 * 2 ^ 32) 4096)).space = 0 ∧
      (accessForm s true (cm 7 0 5 (3 + 2045 * 2 ^ 32) 4096) = true) ∧
      (accessUnit s (accessJob (cm 7 0 5 (3 + 2045 * 2 ^ 32) 4096)) = true) ∧
      (seqActive s = true) ∧
      (rbit s oCfgFenced (accessBasin (accessJob (cm 7 0 5 (3 + 2045 * 2 ^ 32) 4096))) = false)) :=
  ⟨⟨regs [(oCkgEn1, 1#32)] stReady, by decide +kernel⟩,
    ⟨stOwn, by decide +kernel⟩,
    ⟨{ stOwn with dmc := { stOwn.dmc with time := 900000000 } }, by decide +kernel⟩,
    ⟨hostPut 4096 [0x1B#8] (regs [(oCkgEn1, 1#32)] stReady), by decide +kernel⟩,
    ⟨hostPut 4096 [0x1B#8] (regs [(oCfgFenced, 1#32), (oCkgEn1, 1#32), (oSeqCfg, 16#32)] stReady), by decide +kernel⟩,
    ⟨regs [(oCfgFenced, 0#32), (oCkgEn1, 1#32)] stRun, by decide +kernel⟩⟩

theorem test_Fencing_met :
    (∃ s : State, (accepted 9 (cm 9 0 1 0 0) s) ∧
      (cm 9 0 1 0 0).flags = 0 ∧
      (cm 9 0 1 0 0).p0 = 2 ^ 0 ∧
      (cm 9 0 1 0 0).p1 = 0 ∧
      (cm 9 0 1 0 0).p2 = 0 ∧
      (noP3 (cm 9 0 1 0 0) = true) ∧
      (0 < nBasins s) ∧
      (unitOn s 14 = true) ∧
      (rbit s oCkgEn1 0 = true) ∧
      (rbit s oCfgFenced 0 = false) ∧
      (rests s) ∧
      (s.bnw.draining = []) ∧
      (nodeQuiet s 0 = true)) ∧
    (∃ s : State, (accepted 9 (cm 9 0 1 0 0) s) ∧
      (cm 9 0 1 0 0).flags = 0 ∧
      (cm 9 0 1 0 0).p0 = 2 ^ 0 ∧
      (cm 9 0 1 0 0).p1 = 0 ∧
      (cm 9 0 1 0 0).p2 = 0 ∧
      (noP3 (cm 9 0 1 0 0) = true) ∧
      (0 < nBasins s) ∧
      (unitOn s 14 = true) ∧
      (rbit s oCkgEn1 0 = true) ∧
      (rbit s oCfgFenced 0 = false) ∧
      (rests s) ∧
      (s.bnw.draining = []) ∧
      (nodeQuiet s 0 = false)) ∧
    (∃ s : State, (0 < 32) ∧
      (s.bnw.draining = [(0, DrainFor.fence)]) ∧
      (nodeQuiet s 0 = true) ∧
      (s.bnw.forced = false) ∧
      (List.find? (fun x => decide (x.op = 9)) s.lkp.run = some (cm 9 0 1 0 0))) ∧
    (∃ s : State, (0 < 32) ∧
      (s.bnw.draining = [(0, DrainFor.fence)]) ∧
      (List.find? (fun x => decide (x.op = 9)) s.lkp.run = some (cm 9 0 1 0 0)) ∧
      (∀ x ∈ s.bnw.taken, x.dst = 0 → x.master ≠ 1)) ∧
    (∃ s : State, (accepted 10 (cm 10 0 1 0 0) s) ∧
      (cm 10 0 1 0 0).flags = 0 ∧
      (cm 10 0 1 0 0).p0 < 2 ^ nBasins s ∧
      (cm 10 0 1 0 0).p1 = 0 ∧
      (cm 10 0 1 0 0).p2 = 0 ∧
      (noP3 (cm 10 0 1 0 0) = true) ∧
      (unitOn s 14 = true) ∧
      (∀ b < nBasins s, nbit (cm 10 0 1 0 0).p0 b = true → rbit s oCkgEn1 b = true) ∧
      ((rests s ∧ s.seq.st ≠ SeqSt.idle) ∧ ∀ b < nBasins s, nbit (cm 10 0 1 0 0).p0 b = true → rbit s oCfgPlaced b = true ∧ rbit s oCfgLoaded b = true)) ∧
    (∃ s : State, (accepted 10 (cm 10 0 2 0 0) s) ∧
      (cm 10 0 2 0 0).flags = 0 ∧
      (cm 10 0 2 0 0).p0 < 2 ^ nBasins s ∧
      (cm 10 0 2 0 0).p1 = 0 ∧
      (cm 10 0 2 0 0).p2 = 0 ∧
      (noP3 (cm 10 0 2 0 0) = true) ∧
      (unitOn s 14 = true) ∧
      (∀ b < nBasins s, nbit (cm 10 0 2 0 0).p0 b = true → rbit s oCkgEn1 b = true) ∧
      (¬((rests s ∧ s.seq.st ≠ SeqSt.idle) ∧ ∀ b < nBasins s, nbit (cm 10 0 2 0 0).p0 b = true → rbit s oCfgPlaced b = true ∧ rbit s oCfgLoaded b = true))) :=
  ⟨⟨img1, by decide +kernel⟩,
    ⟨{ img1 with bnw := { img1.bnw with taken := [bg 0 0] } }, by decide +kernel⟩,
    ⟨running (cm 9 0 1 0 0) { img1 with bnw := { img1.bnw with draining := [(0, .fence)] } }, by decide +kernel⟩,
    ⟨running (cm 9 0 1 0 0) { img1 with bnw := { img1.bnw with draining := [(0, .fence)], taken := [bg 0 0] } }, by decide +kernel⟩,
    ⟨regs [(oCkgEn1, 3#32)] (atSeq .ready img1), by decide +kernel⟩,
    ⟨regs [(oCkgEn1, 3#32)] (atSeq .ready img1), by decide +kernel⟩⟩

theorem test_SequencerSteps_met :
    (∃ s : State, (stepClock s = true) ∧
      (s.seq.st = SeqSt.flight) ∧
      (s.seq.pos < rfld s oSeqCfg 10 0) ∧
      (noneDue s)) ∧
    (∃ s : State, (stepClock s = true) ∧
      (s.seq.st = SeqSt.flight) ∧
      (s.seq.pos = rfld s oSeqCfg 10 0) ∧
      (noneDue s)) ∧
    (∃ s : State, (stepClock s = true) ∧
      (s.seq.st = SeqSt.flight) ∧
      (s.seq.pos = rfld s oSeqCfg 10 0 + 1) ∧
      (noneDue s)) ∧
    (∃ s : State, (stepClock s = true) ∧
      (s.seq.st = SeqSt.lock) ∧
      (noneDue s)) ∧
    (∃ s : State, stepClock s = false) ∧
    (∃ s : State, (Canonical s = true) ∧
      (stepClock s = true) ∧
      (s.seq.st = SeqSt.flight) ∧
      (s.seq.pos = rfld s oSeqCfg 10 0) ∧
      (noneDue s)) ∧
    (∃ s : State, (Canonical s = true) ∧
      (stepClock s = true) ∧
      (s.seq.st = SeqSt.flight) ∧
      (s.seq.pos < rfld s oSeqCfg 10 0) ∧
      (rfld s oSeqCfg 10 0 ≤ 1024) ∧
      (noneDue s)) :=
  ⟨⟨stEval, by decide +kernel⟩,
    ⟨{ stEval with seq := { stEval.seq with pos := 16 } }, by decide +kernel⟩,
    ⟨{ stEval with seq := { stEval.seq with pos := 17 } }, by decide +kernel⟩,
    ⟨{ stEval with seq := { stEval.seq with st := .lock, lockPos := 63, lam := 64, len := 64 } }, by decide +kernel⟩,
    ⟨regs [(oCkgSts, 0x80#32)] stEval, by decide +kernel⟩,
    ⟨stTick, by decide +kernel⟩,
    ⟨stImp (rwd [(5, 0)]) .one .zero, by decide +kernel⟩⟩

theorem test_EvaluationWrites_met :
    (∃ s : State, (Canonical s = true) ∧
      (stepClock s = true) ∧
      (s.seq.st = SeqSt.flight) ∧
      (s.seq.pos < rfld s oSeqCfg 10 0) ∧
      (rfld s oSeqCfg 10 0 ≤ 1024) ∧
      (noneDue s)) ∧
    (∃ s : State, (mget Ecc.clean (getCl s 0).iEcc (1024 * physOf s 0 0 + 5) = Ecc.double ∨ mget Ecc.clean (getCl s 0).iEcc (1024 * physOf s 0 0 + 5) = Ecc.poison)) ∧
    (∃ s : State, (mget Ecc.clean (getCl s 0).iEcc (1024 * physOf s 0 0 + 5) = Ecc.clean ∨ mget Ecc.clean (getCl s 0).iEcc (1024 * physOf s 0 0 + 5) = Ecc.single) ∧
      (getCl s 0).badPar = []) ∧
    (∃ s : State, (mget Ecc.clean (getCl s 0).iEcc (1024 * physOf s 0 0 + 5) = Ecc.clean ∨ mget Ecc.clean (getCl s 0).iEcc (1024 * physOf s 0 0 + 5) = Ecc.single) ∧
      (getCl s 0).badPar = [] ∧
      (decodeWord (nBanks s) (hasWharf s) (mget (0#64) (getCl s 0).instr (1024 * physOf s 0 0 + 5)) = POp.rcol 3)) ∧
    (∃ s : State, (mget Ecc.clean (getCl s 0).iEcc (1024 * physOf s 0 0 + 5) = Ecc.clean ∨ mget Ecc.clean (getCl s 0).iEcc (1024 * physOf s 0 0 + 5) = Ecc.single) ∧
      (getCl s 0).badPar = [] ∧
      (decodeWord (nBanks s) (hasWharf s) (mget (0#64) (getCl s 0).instr (1024 * physOf s 0 0 + 5)) = POp.hcol 7 9)) ∧
    (∃ s : State, (mget Ecc.clean (getCl s 0).iEcc (1024 * physOf s 0 0 + 5) = Ecc.clean ∨ mget Ecc.clean (getCl s 0).iEcc (1024 * physOf s 0 0 + 5) = Ecc.single) ∧
      (getCl s 0).badPar = [] ∧
      (decodeWord (nBanks s) (hasWharf s) (mget (0#64) (getCl s 0).instr (1024 * physOf s 0 0 + 5)) = POp.gsmp 3) ∧
      (laneBound s 0 3 = true) ∧
      (laneMode s (64 * (0 / 64) + 3) ≠ 0)) ∧
    (∃ s : State, (mget Ecc.clean (getCl s 0).iEcc (1024 * physOf s 0 0 + 5) = Ecc.clean ∨ mget Ecc.clean (getCl s 0).iEcc (1024 * physOf s 0 0 + 5) = Ecc.single) ∧
      (getCl s 0).badPar = [] ∧
      (decodeWord (nBanks s) (hasWharf s) (mget (0#64) (getCl s 0).instr (1024 * physOf s 0 0 + 5)) = POp.gsmp 63 ∨ decodeWord (nBanks s) (hasWharf s) (mget (0#64) (getCl s 0).instr (1024 * physOf s 0 0 + 5)) = POp.gdrv 63) ∧
      (laneBound s 0 63 = false)) ∧
    (∃ s : State, (mget Ecc.clean (getCl s 0).iEcc (1024 * physOf s 0 0 + 5) = Ecc.clean ∨ mget Ecc.clean (getCl s 0).iEcc (1024 * physOf s 0 0 + 5) = Ecc.single) ∧
      (getCl s 0).badPar = [] ∧
      (decodeWord (nBanks s) (hasWharf s) (mget (0#64) (getCl s 0).instr (1024 * physOf s 0 0 + 5)) = POp.gsmp 63 ∨ decodeWord (nBanks s) (hasWharf s) (mget (0#64) (getCl s 0).instr (1024 * physOf s 0 0 + 5)) = POp.gdrv 63) ∧
      (laneBound s 0 63 = false) ∧
      (decodeWord (nBanks s) (hasWharf s) (mget (0#64) (getCl s 0).instr (1024 * physOf s 0 0 + 5)) = POp.gsmp 63)) ∧
    (∃ s : State, (mget Ecc.clean (getCl s 0).iEcc (1024 * physOf s 0 0 + 5) = Ecc.clean ∨ mget Ecc.clean (getCl s 0).iEcc (1024 * physOf s 0 0 + 5) = Ecc.single) ∧
      (getCl s 0).badPar = [] ∧
      (decodeWord (nBanks s) (hasWharf s) (mget (0#64) (getCl s 0).instr (1024 * physOf s 0 0 + 5)) = POp.wait 9) ∧
      (getTag s (sluiceOf 0) 9 ∈ [TagSt.data 4660#64, TagSt.dataX, TagSt.written, TagSt.null])) ∧
    (∃ s : State, (mget Ecc.clean (getCl s 0).iEcc (1024 * physOf s 0 0 + 5) = Ecc.clean ∨ mget Ecc.clean (getCl s 0).iEcc (1024 * physOf s 0 0 + 5) = Ecc.single) ∧
      (getCl s 0).badPar = [] ∧
      (decodeWord (nBanks s) (hasWharf s) (mget (0#64) (getCl s 0).instr (1024 * physOf s 0 0 + 5)) = POp.wait 9) ∧
      (getTag s (sluiceOf 0) 9 ∈ [TagSt.free, TagSt.waiting, TagSt.unknownAddr, TagSt.refused])) ∧
    (∃ s : State, (mget Ecc.clean (getCl s 0).iEcc (1024 * physOf s 0 0 + 5) = Ecc.clean ∨ mget Ecc.clean (getCl s 0).iEcc (1024 * physOf s 0 0 + 5) = Ecc.single) ∧
      (getCl s 0).badPar = [] ∧
      (decodeWord (nBanks s) (hasWharf s) (mget (0#64) (getCl s 0).instr (1024 * physOf s 0 0 + 5)) = POp.probe 2050 ∨ decodeWord (nBanks s) (hasWharf s) (mget (0#64) (getCl s 0).instr (1024 * physOf s 0 0 + 5)) = POp.trig 2050)) ∧
    (∃ s : State, (mget Ecc.clean (getCl s 0).iEcc (1024 * physOf s 0 0 + 5) = Ecc.clean ∨ mget Ecc.clean (getCl s 0).iEcc (1024 * physOf s 0 0 + 5) = Ecc.single) ∧
      (getCl s 0).badPar = [] ∧
      (decodeWord (nBanks s) (hasWharf s) (mget (0#64) (getCl s 0).instr (1024 * physOf s 0 0 + 5)) = POp.wire 1 1) ∧
      (∀ v ∈ List.map (dsGet (getCl s 0) (physOf s 0 0)) (List.take 1 [wA (mget (0#64) (getCl s 0).instr (1024 * physOf s 0 0 + 5)), wB (mget (0#64) (getCl s 0).instr (1024 * physOf s 0 0 + 5)), wC (mget (0#64) (getCl s 0).instr (1024 * physOf s 0 0 + 5)), wD (mget (0#64) (getCl s 0).instr (1024 * physOf s 0 0 + 5))]), v = V4.z)) ∧
    (∃ s : State, (mget Ecc.clean (getCl s 0).iEcc (1024 * physOf s 0 0 + 5) = Ecc.clean ∨ mget Ecc.clean (getCl s 0).iEcc (1024 * physOf s 0 0 + 5) = Ecc.single) ∧
      (getCl s 0).badPar = [] ∧
      (decodeWord (nBanks s) (hasWharf s) (mget (0#64) (getCl s 0).instr (1024 * physOf s 0 0 + 5)) = POp.wire 2 2) ∧
      (∃ v ∈ List.map (dsGet (getCl s 0) (physOf s 0 0)) (List.take 2 [wA (mget (0#64) (getCl s 0).instr (1024 * physOf s 0 0 + 5)), wB (mget (0#64) (getCl s 0).instr (1024 * physOf s 0 0 + 5)), wC (mget (0#64) (getCl s 0).instr (1024 * physOf s 0 0 + 5)), wD (mget (0#64) (getCl s 0).instr (1024 * physOf s 0 0 + 5))]), v ≠ V4.z) ∧
      (∀ v ∈ List.map (dsGet (getCl s 0) (physOf s 0 0)) (List.take 2 [wA (mget (0#64) (getCl s 0).instr (1024 * physOf s 0 0 + 5)), wB (mget (0#64) (getCl s 0).instr (1024 * physOf s 0 0 + 5)), wC (mget (0#64) (getCl s 0).instr (1024 * physOf s 0 0 + 5)), wD (mget (0#64) (getCl s 0).instr (1024 * physOf s 0 0 + 5))]), v = V4.z ∨ v = V4.zero)) ∧
    (∃ s : State, (mget Ecc.clean (getCl s 0).iEcc (1024 * physOf s 0 0 + 5) = Ecc.clean ∨ mget Ecc.clean (getCl s 0).iEcc (1024 * physOf s 0 0 + 5) = Ecc.single) ∧
      (getCl s 0).badPar = [] ∧
      (decodeWord (nBanks s) (hasWharf s) (mget (0#64) (getCl s 0).instr (1024 * physOf s 0 0 + 5)) = POp.wire 2 1) ∧
      (∃ v ∈ List.map (dsGet (getCl s 0) (physOf s 0 0)) (List.take 2 [wA (mget (0#64) (getCl s 0).instr (1024 * physOf s 0 0 + 5)), wB (mget (0#64) (getCl s 0).instr (1024 * physOf s 0 0 + 5)), wC (mget (0#64) (getCl s 0).instr (1024 * physOf s 0 0 + 5)), wD (mget (0#64) (getCl s 0).instr (1024 * physOf s 0 0 + 5))]), v ≠ V4.z) ∧
      (∀ v ∈ List.map (dsGet (getCl s 0) (physOf s 0 0)) (List.take 2 [wA (mget (0#64) (getCl s 0).instr (1024 * physOf s 0 0 + 5)), wB (mget (0#64) (getCl s 0).instr (1024 * physOf s 0 0 + 5)), wC (mget (0#64) (getCl s 0).instr (1024 * physOf s 0 0 + 5)), wD (mget (0#64) (getCl s 0).instr (1024 * physOf s 0 0 + 5))]), v = V4.z ∨ v = V4.one)) ∧
    (∃ s : State, (mget Ecc.clean (getCl s 0).iEcc (1024 * physOf s 0 0 + 5) = Ecc.clean ∨ mget Ecc.clean (getCl s 0).iEcc (1024 * physOf s 0 0 + 5) = Ecc.single) ∧
      (getCl s 0).badPar = [] ∧
      (decodeWord (nBanks s) (hasWharf s) (mget (0#64) (getCl s 0).instr (1024 * physOf s 0 0 + 5)) = POp.wire 2 1) ∧
      (∃ v ∈ List.map (dsGet (getCl s 0) (physOf s 0 0)) (List.take 2 [wA (mget (0#64) (getCl s 0).instr (1024 * physOf s 0 0 + 5)), wB (mget (0#64) (getCl s 0).instr (1024 * physOf s 0 0 + 5)), wC (mget (0#64) (getCl s 0).instr (1024 * physOf s 0 0 + 5)), wD (mget (0#64) (getCl s 0).instr (1024 * physOf s 0 0 + 5))]), v ≠ V4.z ∧ v ≠ V4.zero) ∧
      (∃ v ∈ List.map (dsGet (getCl s 0) (physOf s 0 0)) (List.take 2 [wA (mget (0#64) (getCl s 0).instr (1024 * physOf s 0 0 + 5)), wB (mget (0#64) (getCl s 0).instr (1024 * physOf s 0 0 + 5)), wC (mget (0#64) (getCl s 0).instr (1024 * physOf s 0 0 + 5)), wD (mget (0#64) (getCl s 0).instr (1024 * physOf s 0 0 + 5))]), v ≠ V4.z ∧ v ≠ V4.one)) ∧
    (∃ s : State, (mget Ecc.clean (getCl s 0).iEcc (1024 * physOf s 0 0 + 5) = Ecc.clean ∨ mget Ecc.clean (getCl s 0).iEcc (1024 * physOf s 0 0 + 5) = Ecc.single) ∧
      (getCl s 0).badPar = [] ∧
      (givesZ (decodeWord (nBanks s) (hasWharf s) (mget (0#64) (getCl s 0).instr (1024 * physOf s 0 0 + 5))) = true)) ∧
    (∃ s : State, (mget Ecc.clean (getCl s 0).iEcc (1024 * physOf s 0 0 + 5) = Ecc.clean ∨ mget Ecc.clean (getCl s 0).iEcc (1024 * physOf s 0 0 + 5) = Ecc.single) ∧
      (getCl s 0).badPar = [] ∧
      (decodeWord (nBanks s) (hasWharf s) (mget (0#64) (getCl s 0).instr (1024 * physOf s 0 0 + 5)) = POp.illegal)) :=
  ⟨⟨stEval, by decide +kernel⟩,
    ⟨(let s := stEval; setCl 0 { getCl s 0 with iEcc := [(5, .double)] } s), by decide +kernel⟩,
    ⟨stOp (iw 1 0x5003 1 2 3 4 1), by decide +kernel⟩,
    ⟨stOp (iw 1 0x5003), by decide +kernel⟩,
    ⟨stOp (iw 2 0x5079), by decide +kernel⟩,
    ⟨laneS 3 { Lane.fresh with smp := .one } 2 (stOp (iw 2 0xD003)), by decide +kernel⟩,
    ⟨stOp (iw 2 0xC03F), by decide +kernel⟩,
    ⟨stOp (iw 2 0xD03F), by decide +kernel⟩,
    ⟨stOp (iw 3 0x1009) (stTag (.data 0x1234#64)), by decide +kernel⟩,
    ⟨stOp (iw 3 0x1009) (stTag .waiting), by decide +kernel⟩,
    ⟨stOp (iw 3 0x2001 3 2), by decide +kernel⟩,
    ⟨stOp (iw 3 0x5100 3), by decide +kernel⟩,
    ⟨stOp (iw 3 0x5600 2 3), by decide +kernel⟩,
    ⟨stOp (iw 3 0x5500 1 3), by decide +kernel⟩,
    ⟨stOp (iw 3 0x5500 1 2), by decide +kernel⟩,
    ⟨stOp (iw 3 0), by decide +kernel⟩,
    ⟨stOp (iw 1 0), by decide +kernel⟩⟩

theorem test_EvaluatedExactly_met :
    ∃ s : State, (mget Ecc.clean (getCl s 0).iEcc (1024 * physOf s 0 0 + 5) = Ecc.clean ∨ mget Ecc.clean (getCl s 0).iEcc (1024 * physOf s 0 0 + 5) = Ecc.single) ∧
      (decodeWord (nBanks s) (hasWharf s) (mget (0#64) (getCl s 0).instr (1024 * physOf s 0 0 + 5)) = POp.eval (wTT 9223653511834916464#64) (wState 9223653511834916464#64)) ∧
      (getCl s 0).badPar = [] :=
  ⟨setCl 0 { getCl st0 0 with instr := [(5, 0x8001000000345670#64)], ds := [(5, .one)] } st0, by decide +kernel⟩

theorem test_ZbufResult_met :
    (∃ s : State, V4.one = if true = true then V4.one else V4.zero) ∧
    (∃ s : State, V4.zero = if true = true then V4.zero else V4.one) ∧
    (∃ s : State, (V4.z = V4.x ∨ V4.z = V4.z)) :=
  ⟨⟨st0, by decide +kernel⟩,
    ⟨st0, by decide +kernel⟩,
    ⟨st0, by decide +kernel⟩⟩

theorem test_Stalls_met :
    (∃ s : State, s.seq.st ≠ SeqSt.stall) ∧
    (∃ s : State, (s.seq.st = SeqSt.stall) ∧
      (s.seq.ownRel = none) ∧
      (stallHolds s = true) ∧
      (s.seq.resume = none)) ∧
    (∃ s : State, (s.seq.st = SeqSt.stall) ∧
      (s.seq.ownRel = none) ∧
      (stallHolds s = false) ∧
      (s.seq.resume = none) ∧
      (otherDevs s = [])) ∧
    (∃ s : State, (s.seq.st = SeqSt.stall) ∧
      (s.seq.ownRel.isSome = true) ∧
      (s.seq.resume = some 512) ∧
      (s.seq.stallCyc + 1 < 512)) ∧
    (∃ s : State, (s.seq.st = SeqSt.stall) ∧
      (s.seq.ownRel.isSome = true) ∧
      (s.seq.resume = some 512) ∧
      (512 ≤ s.seq.stallCyc + 1)) ∧
    (∃ s : State, (s.seq.st = SeqSt.stall) ∧
      (s.seq.ownRel = none) ∧
      (stallHolds s = true) ∧
      (rfld s oSeqStallTmo 23 0 ≠ 0) ∧
      (256 * rfld s oSeqStallTmo 23 0 ≤ s.seq.stallCyc) ∧
      (s.seq.stallCyc % 256 = 0)) ∧
    (∃ s : State, (stepClock s = true) ∧
      (s.seq.st = SeqSt.flight) ∧
      (s.seq.pos < rfld s oSeqCfg 10 0) ∧
      (¬noneDue s) ∧
      (∀ e ∈ s.seq.events, evDue s e = true → 1 ≤ e.kind ∧ e.kind ≤ 4)) :=
  ⟨⟨st0, by decide +kernel⟩,
    ⟨stHoldStall, by decide +kernel⟩,
    ⟨stStall, by decide +kernel⟩,
    ⟨{ stStall with seq := { stStall.seq with stallCyc := 5, ownRel := some 3, resume := some 512 } }, by decide +kernel⟩,
    ⟨{ stStall with seq := { stStall.seq with stallCyc := 511, ownRel := some 3, resume := some 512 } }, by decide +kernel⟩,
    ⟨regs [(oSeqStallTmo, 1#32)] { stHoldStall with seq := { stHoldStall.seq with stallCyc := 512 } }, by decide +kernel⟩,
    ⟨{ stEval with seq := { stEval.seq with gsc := 300, events := [⟨3, 2, .gsc 300⟩, ⟨1, 0, .gsc 300⟩, ⟨1, 0, .gsc 600⟩] } }, by decide +kernel⟩⟩

theorem test_PowerStateCommand_met :
    (∃ s : State, (accepted 11 (cm 11 0 512 0 0) s) ∧
      (cm 11 0 512 0 0).flags = 0 ∧
      (cm 11 0 512 0 0).p0 = 256 * 2 ∧
      (2 < 64) ∧
      (2 ≠ s.dev.devid) ∧
      (cm 11 0 512 0 0).p1 = 0 ∧
      (cm 11 0 512 0 0).p2 = 0 ∧
      (noP3 (cm 11 0 512 0 0) = true) ∧
      (rbit s oPwrSts 3 = false)) ∧
    (∃ s : State, (accepted 11 (cm 11 0 65280 0 0) s) ∧
      (cm 11 0 65280 0 0).flags = 0 ∧
      (cm 11 0 65280 0 0).p0 = 65280 ∧
      (cm 11 0 65280 0 0).p1 = 0 ∧
      (cm 11 0 65280 0 0).p2 = 0 ∧
      (noP3 (cm 11 0 65280 0 0) = true) ∧
      (rbit s oPwrSts 3 = false) ∧
      (rfld s oPwrSts 2 0 = 0)) ∧
    (∃ s : State, (accepted 11 (cm 11 0 65280 0 0) s) ∧
      (cm 11 0 65280 0 0).flags = 0 ∧
      (cm 11 0 65280 0 0).p0 = 65280 ∧
      (cm 11 0 65280 0 0).p1 = 0 ∧
      (cm 11 0 65280 0 0).p2 = 0 ∧
      (noP3 (cm 11 0 65280 0 0) = true) ∧
      (rbit s oPwrSts 3 = false) ∧
      (rfld s oPwrSts 2 0 ≠ 0) ∧
      (s.pwr.exit = none)) ∧
    (∃ s : State, (accepted 11 (cm 11 0 65281 0 0) s) ∧
      (cm 11 0 65281 0 0).flags = 0 ∧
      (cm 11 0 65281 0 0).p0 = 65280 + 1 ∧
      (cm 11 0 65281 0 0).p1 = 0 ∧
      (cm 11 0 65281 0 0).p2 = 0 ∧
      (noP3 (cm 11 0 65281 0 0) = true) ∧
      (rbit s oPwrSts 3 = false) ∧
      (rfld s oPwrSts 2 0 < 1) ∧
      (1 ≤ 5) ∧
      (rests s) ∧
      (s.lkp.load = none) ∧
      (s.lkp.march = none) ∧
      (3 ≤ 1 → s.xch.entries = [] ∧ ∀ f ∈ s.xch.flows, f.2 ≠ FlowSt.service) ∧
      (1 = 3 → rget s oCfgLoaded = 0#32 ∨ rbit s oPwrCtl 0 = true ∧ saveValid s = true) ∧
      (1 = 4 → keptCount s ≤ 8) ∧
      (4 ≤ 1 → rfld s oPwrCtl 6 4 ≠ 0 ∧ (rfld s oPwrCtl 6 4 = 4 → rget s oPwrWakeTmr ≠ 0#32)) ∧
      (s.bnw.draining = []) ∧
      (∀ x ∈ s.lkp.run, x.op ≠ 9)) :=
  ⟨⟨st0, by decide +kernel⟩,
    ⟨st0, by decide +kernel⟩,
    ⟨pwr 2 0 0, by decide +kernel⟩,
    ⟨st0, by decide +kernel⟩⟩

theorem test_SelfTests_met :
    (∃ s : State, (accepted 14 (cm 14 0 0 0 0) s) ∧
      (bare (cm 14 0 0 0 0)) ∧
      (rests s)) ∧
    (∃ s : State, (accepted 14 (cm 14 0 0 0 0) s) ∧
      (bare (cm 14 0 0 0 0)) ∧
      (s.seq.st = SeqSt.clkHalt)) ∧
    (∃ s : State, (accepted 14 (cm 14 0 0 0 0) s) ∧
      (bare (cm 14 0 0 0 0)) ∧
      (seqActive s = true)) ∧
    (∃ s : State, (accepted 15 (cm 15 0 3 (2 + 1 * 2 ^ 32) 1) s) ∧
      (cm 15 0 3 (2 + 1 * 2 ^ 32) 1).flags < 2 ∧
      (1 ≤ (cm 15 0 3 (2 + 1 * 2 ^ 32) 1).p0) ∧
      (cm 15 0 3 (2 + 1 * 2 ^ 32) 1).p0 < 8 ∧
      (noP3 (cm 15 0 3 (2 + 1 * 2 ^ 32) 1) = true) ∧
      (¬(nbit (cm 15 0 3 (2 + 1 * 2 ^ 32) 1).p0 1 = true ∧ (cm 15 0 3 (2 + 1 * 2 ^ 32) 1).flags = 1)) ∧
      (nbit (cm 15 0 3 (2 + 1 * 2 ^ 32) 1).p0 0 = true → 1 ≤ nfld (cm 15 0 3 (2 + 1 * 2 ^ 32) 1).p1 31 0 ∧ nfld (cm 15 0 3 (2 + 1 * 2 ^ 32) 1).p1 63 32 + nfld (cm 15 0 3 (2 + 1 * 2 ^ 32) 1).p1 31 0 ≤ nBanks s) ∧
      (cm 15 0 3 (2 + 1 * 2 ^ 32) 1).p2 < 2 ^ nBasins s ∧
      (unitOn s 15 = true) ∧
      (2 ≤ (cm 15 0 3 (2 + 1 * 2 ^ 32) 1).p0 → (cm 15 0 3 (2 + 1 * 2 ^ 32) 1).p2 ≠ 0 → unitOn s 14 = true ∧ ∀ b < nBasins s, nbit (cm 15 0 3 (2 + 1 * 2 ^ 32) 1).p2 b = true → rbit s oCkgEn1 b = true) ∧
      (marchDenied s (marchJob s (cm 15 0 3 (2 + 1 * 2 ^ 32) 1)) = false) ∧
      (s.lkp.march = none)) ∧
    (∃ s : State, (s.lkp.march = some (cm 15 0 3 (2 + 1 * 2 ^ 32) 1)) ∧
      (cm 15 0 3 (2 + 1 * 2 ^ 32) 1 ∈ s.lkp.run)) ∧
    (∃ s : State, s.lkp.march = none) ∧
    (∃ s : State, (accepted 16 (cm 16 1 1 0 4096) s) ∧
      (cm 16 1 1 0 4096).flags < 2 ∧
      (1 ≤ (cm 16 1 1 0 4096).p0) ∧
      (cm 16 1 1 0 4096).p0 ≤ 1024 ∧
      (cm 16 1 1 0 4096).p1 = 0 ∧
      (noP3 (cm 16 1 1 0 4096) = true)) ∧
    (∃ s : State, (accepted 17 (cm 17 0 131071 0 4096) s) ∧
      (cm 17 0 131071 0 4096).flags = 0 ∧
      (cm 17 0 131071 0 4096).p1 = 0 ∧
      (noP3 (cm 17 0 131071 0 4096) = true) ∧
      (cm 17 0 131071 0 4096).p0 < 131072) ∧
    (∃ s : State, (Canonical s = true) ∧
      (stepClock s = true) ∧
      (s.seq.st = SeqSt.flight) ∧
      (s.seq.pos < rfld s oSeqCfg 10 0) ∧
      (rfld s oSeqCfg 10 0 ≤ 1024) ∧
      (noneDue s) ∧
      (basinRuns s (0 / 64) = true)) :=
  ⟨⟨st0, by decide +kernel⟩,
    ⟨stHalt, by decide +kernel⟩,
    ⟨stRun, by decide +kernel⟩,
    ⟨regs [(oCkgEn1, 1#32)] st0, by decide +kernel⟩,
    ⟨{ running (cm 15 0 3 (2 + 1 * 2 ^ 32) 1) (regs [(oCkgEn1, 1#32)] st0) with lkp := { st0.lkp with run := [cm 15 0 3 (2 + 1 * 2 ^ 32) 1], march := some (cm 15 0 3 (2 + 1 * 2 ^ 32) 1) } }, by decide +kernel⟩,
    ⟨st0, by decide +kernel⟩,
    ⟨{ st0 with saf := { st0.saf with log := [{ code := 0x1002, react := 1, frame := some 3, inj := false, rep := 0, lkind := 1, locv := 5, tsn := 7 }, { code := 0x1003, react := 1, frame := none, inj := true, rep := 2, lkind := 1, locv := 5, tsn := 7 }] } }, by decide +kernel⟩,
    ⟨st0, by decide +kernel⟩,
    ⟨stEval, by decide +kernel⟩⟩

theorem test_TableLoadCommand_met :
    (∃ s : State, (accepted 19 (tl 1 2 5) s) ∧
      (tl 1 2 5).flags = 0 ∧
      (tl 1 2 5).p0 < 2 ∧
      (noP3 (tl 1 2 5) = true) ∧
      (1 ≤ nfld (tl 1 2 5).p1 31 0) ∧
      (nfld (tl 1 2 5).p1 63 32 + nfld (tl 1 2 5).p1 31 0 ≤ if (tl 1 2 5).p0 = 1 then 16384 else 32768) ∧
      (unitOn s 11 = true) ∧
      (rests s) ∧
      (s.xch.entries = []) ∧
      (s.xch.flows = []) ∧
      (∃ i < nfld (tl 1 2 5).p1 31 0, if (tl 1 2 5).p0 = 1 then nfld (if (tl 1 2 5).p0 = 1 then hostNum s ((tl 1 2 5).p2 + 2 * i) 2 else hostNum s ((tl 1 2 5).p2 + 4 * i) 4) 14 6 ≠ 0 else nbit (if (tl 1 2 5).p0 = 1 then hostNum s ((tl 1 2 5).p2 + 2 * i) 2 else hostNum s ((tl 1 2 5).p2 + 4 * i) 4) 30 = true ∨ nfld (if (tl 1 2 5).p0 = 1 then hostNum s ((tl 1 2 5).p2 + 2 * i) 2 else hostNum s ((tl 1 2 5).p2 + 4 * i) 4) 15 12 ≠ 0)) ∧
    (∃ s : State, (accepted 19 (tl 1 2 5) s) ∧
      (tl 1 2 5).flags = 0 ∧
      (tl 1 2 5).p0 < 2 ∧
      (noP3 (tl 1 2 5) = true) ∧
      (1 ≤ nfld (tl 1 2 5).p1 31 0) ∧
      (nfld (tl 1 2 5).p1 63 32 + nfld (tl 1 2 5).p1 31 0 ≤ if (tl 1 2 5).p0 = 1 then 16384 else 32768) ∧
      (unitOn s 11 = true) ∧
      (rests s) ∧
      (s.xch.entries = []) ∧
      (s.xch.flows = []) ∧
      (¬∃ i < nfld (tl 1 2 5).p1 31 0, if (tl 1 2 5).p0 = 1 then nfld (if (tl 1 2 5).p0 = 1 then hostNum s ((tl 1 2 5).p2 + 2 * i) 2 else hostNum s ((tl 1 2 5).p2 + 4 * i) 4) 14 6 ≠ 0 else nbit (if (tl 1 2 5).p0 = 1 then hostNum s ((tl 1 2 5).p2 + 2 * i) 2 else hostNum s ((tl 1 2 5).p2 + 4 * i) 4) 30 = true ∨ nfld (if (tl 1 2 5).p0 = 1 then hostNum s ((tl 1 2 5).p2 + 2 * i) 2 else hostNum s ((tl 1 2 5).p2 + 4 * i) 4) 15 12 ≠ 0) ∧
      (tl 1 2 5).p0 = 1) ∧
    (∃ s : State, (accepted 19 (tl 0 2 3) s) ∧
      (tl 0 2 3).flags = 0 ∧
      (tl 0 2 3).p0 < 2 ∧
      (noP3 (tl 0 2 3) = true) ∧
      (1 ≤ nfld (tl 0 2 3).p1 31 0) ∧
      (nfld (tl 0 2 3).p1 63 32 + nfld (tl 0 2 3).p1 31 0 ≤ if (tl 0 2 3).p0 = 1 then 16384 else 32768) ∧
      (unitOn s 11 = true) ∧
      (rests s) ∧
      (s.xch.entries = []) ∧
      (s.xch.flows = []) ∧
      (¬∃ i < nfld (tl 0 2 3).p1 31 0, if (tl 0 2 3).p0 = 1 then nfld (if (tl 0 2 3).p0 = 1 then hostNum s ((tl 0 2 3).p2 + 2 * i) 2 else hostNum s ((tl 0 2 3).p2 + 4 * i) 4) 14 6 ≠ 0 else nbit (if (tl 0 2 3).p0 = 1 then hostNum s ((tl 0 2 3).p2 + 2 * i) 2 else hostNum s ((tl 0 2 3).p2 + 4 * i) 4) 30 = true ∨ nfld (if (tl 0 2 3).p0 = 1 then hostNum s ((tl 0 2 3).p2 + 2 * i) 2 else hostNum s ((tl 0 2 3).p2 + 4 * i) 4) 15 12 ≠ 0) ∧
      (tl 0 2 3).p0 = 0 ∧
      (∃ x ∈ s.xch.sites, siteValid x.2.toNat = true ∧ bit (if nfld (tl 0 2 3).p1 63 32 ≤ siteBerth x.2.toNat ∧ siteBerth x.2.toNat < nfld (tl 0 2 3).p1 63 32 + nfld (tl 0 2 3).p1 31 0 then BitVec.ofNat 32 (if (tl 0 2 3).p0 = 1 then hostNum s ((tl 0 2 3).p2 + 2 * (siteBerth x.2.toNat - nfld (tl 0 2 3).p1 63 32)) 2 else hostNum s ((tl 0 2 3).p2 + 4 * (siteBerth x.2.toNat - nfld (tl 0 2 3).p1 63 32)) 4) else mget (0#32) s.xch.berths (siteBerth x.2.toNat)) 31 = false)) ∧
    (∃ s : State, (accepted 19 (tl 0 2 32766) s) ∧
      (tl 0 2 32766).flags = 0 ∧
      (tl 0 2 32766).p0 < 2 ∧
      (noP3 (tl 0 2 32766) = true) ∧
      (1 ≤ nfld (tl 0 2 32766).p1 31 0) ∧
      (nfld (tl 0 2 32766).p1 63 32 + nfld (tl 0 2 32766).p1 31 0 ≤ if (tl 0 2 32766).p0 = 1 then 16384 else 32768) ∧
      (unitOn s 11 = true) ∧
      (rests s) ∧
      (s.xch.entries = []) ∧
      (s.xch.flows = []) ∧
      (¬∃ i < nfld (tl 0 2 32766).p1 31 0, if (tl 0 2 32766).p0 = 1 then nfld (if (tl 0 2 32766).p0 = 1 then hostNum s ((tl 0 2 32766).p2 + 2 * i) 2 else hostNum s ((tl 0 2 32766).p2 + 4 * i) 4) 14 6 ≠ 0 else nbit (if (tl 0 2 32766).p0 = 1 then hostNum s ((tl 0 2 32766).p2 + 2 * i) 2 else hostNum s ((tl 0 2 32766).p2 + 4 * i) 4) 30 = true ∨ nfld (if (tl 0 2 32766).p0 = 1 then hostNum s ((tl 0 2 32766).p2 + 2 * i) 2 else hostNum s ((tl 0 2 32766).p2 + 4 * i) 4) 15 12 ≠ 0) ∧
      (tl 0 2 32766).p0 = 0 ∧
      (¬∃ x ∈ s.xch.sites, siteValid x.2.toNat = true ∧ bit (if nfld (tl 0 2 32766).p1 63 32 ≤ siteBerth x.2.toNat ∧ siteBerth x.2.toNat < nfld (tl 0 2 32766).p1 63 32 + nfld (tl 0 2 32766).p1 31 0 then BitVec.ofNat 32 (if (tl 0 2 32766).p0 = 1 then hostNum s ((tl 0 2 32766).p2 + 2 * (siteBerth x.2.toNat - nfld (tl 0 2 32766).p1 63 32)) 2 else hostNum s ((tl 0 2 32766).p2 + 4 * (siteBerth x.2.toNat - nfld (tl 0 2 32766).p1 63 32)) 4) else mget (0#32) s.xch.berths (siteBerth x.2.toNat)) 31 = false)) :=
  ⟨⟨hostPut 4096 [0xFF#8, 0xFF#8, 0xFF#8] stReady, by decide +kernel⟩,
    ⟨hostPut 4096 [0x3F#8, 0x80#8, 0x3F#8] stReady, by decide +kernel⟩,
    ⟨stSite stReady, by decide +kernel⟩,
    ⟨hostPut 4096 [0x3F#8, 0x0#8, 0x3F#8, 0x80#8] stReady, by decide +kernel⟩⟩

theorem test_IsolateAndReset_met :
    (∃ s : State, (accepted 20 (cm 20 0 0 0 0) s) ∧
      (bare (cm 20 0 0 0 0)) ∧
      (unitOn s 9 = true) ∧
      (grpFormed s = false ∨ seqActive s = false)) ∧
    (∃ s : State, (accepted 21 (cm 21 0 0 0 0) s) ∧
      (bare (cm 21 0 0 0 0)) ∧
      (rfld s oCfgBoot 3 0 = 7) ∧
      (s.rst.group = none)) ∧
    (∃ s : State, (accepted 21 (cm 21 0 258 0 0) s) ∧
      (cm 21 0 258 0 0).flags = 0 ∧
      (cm 21 0 258 0 0).p0 = 2 + 256 * 1 ∧
      (cm 21 0 258 0 0).p1 = 0 ∧
      (cm 21 0 258 0 0).p2 = 0 ∧
      (noP3 (cm 21 0 258 0 0) = true) ∧
      (1 < nBasins s) ∧
      (unitOn s 14 = true) ∧
      (rbit s oCkgEn1 1 = true) ∧
      (rbit s oCfgFenced 1 = true) ∧
      (rests s ∨ rbit s oCfgPlaced 1 = false)) ∧
    (∃ s : State, (accepted 21 (cm 21 0 258 0 0) s) ∧
      (cm 21 0 258 0 0).flags = 0 ∧
      (cm 21 0 258 0 0).p0 = 2 + 256 * 1 ∧
      (cm 21 0 258 0 0).p1 = 0 ∧
      (cm 21 0 258 0 0).p2 = 0 ∧
      (noP3 (cm 21 0 258 0 0) = true) ∧
      (1 < nBasins s) ∧
      (unitOn s 14 = true) ∧
      (rbit s oCkgEn1 1 = true) ∧
      (rbit s oCfgFenced 1 = false)) ∧
    (∃ s : State, (accepted 21 (cm 21 0 1 0 0) s) ∧
      (cm 21 0 1 0 0).flags = 0 ∧
      (cm 21 0 1 0 0).p0 = 1 ∧
      (cm 21 0 1 0 0).p1 = 0 ∧
      (cm 21 0 1 0 0).p2 = 0 ∧
      (noP3 (cm 21 0 1 0 0) = true) ∧
      (grpFormed s = true) ∧
      (leadDev s = s.dev.devid)) ∧
    (∃ s : State, (accepted 21 (cm 21 0 1 0 0) s) ∧
      (cm 21 0 1 0 0).flags = 0 ∧
      (cm 21 0 1 0 0).p0 = 1 ∧
      (cm 21 0 1 0 0).p1 = 0 ∧
      (cm 21 0 1 0 0).p2 = 0 ∧
      (noP3 (cm 21 0 1 0 0) = true) ∧
      (grpFormed s = false ∨ leadDev s ≠ s.dev.devid)) :=
  ⟨⟨st0, by decide +kernel⟩,
    ⟨st0, by decide +kernel⟩,
    ⟨regs [(oCfgFenced, 3#32), (oCkgEn1, 3#32)] st0, by decide +kernel⟩,
    ⟨regs [(oCfgFenced, 1#32), (oCkgEn1, 3#32)] st0, by decide +kernel⟩,
    ⟨stGrp, by decide +kernel⟩,
    ⟨st0, by decide +kernel⟩⟩

theorem test_SeqSetCommand_met :
    (∃ s : State, (accepted 24 (({ cm 24 0 31 (64 + 64 * 2 ^ 32) (5 + 7 * 2 ^ 32) with p3 := [9#8, 0#8, 0#8, 0#8] } : Cmd)) s) ∧
      (({ cm 24 0 31 (64 + 64 * 2 ^ 32) (5 + 7 * 2 ^ 32) with p3 := [9#8, 0#8, 0#8, 0#8] } : Cmd)).flags = 0 ∧
      (({ cm 24 0 31 (64 + 64 * 2 ^ 32) (5 + 7 * 2 ^ 32) with p3 := [9#8, 0#8, 0#8, 0#8] } : Cmd)).p0 < 32 ∧
      ((List.drop 4 (({ cm 24 0 31 (64 + 64 * 2 ^ 32) (5 + 7 * 2 ^ 32) with p3 := [9#8, 0#8, 0#8, 0#8] } : Cmd)).p3).all fun x => decide (x = 0#8)) = true ∧
      (unitOn s 8 = true) ∧
      (grpFormed s = false) ∧
      (seqSetOk (({ cm 24 0 31 (64 + 64 * 2 ^ 32) (5 + 7 * 2 ^ 32) with p3 := [9#8, 0#8, 0#8, 0#8] } : Cmd)).p0 (nfld (({ cm 24 0 31 (64 + 64 * 2 ^ 32) (5 + 7 * 2 ^ 32) with p3 := [9#8, 0#8, 0#8, 0#8] } : Cmd)).p1 31 0) (nfld (({ cm 24 0 31 (64 + 64 * 2 ^ 32) (5 + 7 * 2 ^ 32) with p3 := [9#8, 0#8, 0#8, 0#8] } : Cmd)).p1 63 32) (nfld (({ cm 24 0 31 (64 + 64 * 2 ^ 32) (5 + 7 * 2 ^ 32) with p3 := [9#8, 0#8, 0#8, 0#8] } : Cmd)).p2 31 0) (nfld (({ cm 24 0 31 (64 + 64 * 2 ^ 32) (5 + 7 * 2 ^ 32) with p3 := [9#8, 0#8, 0#8, 0#8] } : Cmd)).p2 63 32) (leNat (List.take 4 (({ cm 24 0 31 (64 + 64 * 2 ^ 32) (5 + 7 * 2 ^ 32) with p3 := [9#8, 0#8, 0#8, 0#8] } : Cmd)).p3)) = true)) ∧
    (∃ s : State, (accepted 24 (cm 24 0 1 0 0) s) ∧
      (cm 24 0 1 0 0).flags = 0 ∧
      (seqSetOk (cm 24 0 1 0 0).p0 (nfld (cm 24 0 1 0 0).p1 31 0) (nfld (cm 24 0 1 0 0).p1 63 32) (nfld (cm 24 0 1 0 0).p2 31 0) (nfld (cm 24 0 1 0 0).p2 63 32) (leNat (List.take 4 (cm 24 0 1 0 0).p3)) = false)) :=
  ⟨⟨st0, by decide +kernel⟩,
    ⟨st0, by decide +kernel⟩⟩

theorem test_HostApertures_met :
    (∃ s : State, (endpointDown s = false) ∧
      (stubAnswers s 47 0 = false) ∧
      (hostQuiet s = true) ∧
      (4 = 4 ∧ 44 % 4 = 0 ∨ 4 = 8 ∧ 44 % 8 = 0) ∧
      (44 < 301989888) ∧
      (bankFree s (bar2Bank 44) = true) ∧
      (dmEcc s (bar2Bank 44) (bar2WordOf 44) = Ecc.clean)) ∧
    (∃ s : State, (endpointDown s = false) ∧
      (stubAnswers s 47 0 = false) ∧
      (hostQuiet s = true) ∧
      (seqRuns s = false) ∧
      (262128 % 8 = 0) ∧
      (1 ≤ 4) ∧
      (262128 + 8 * 4 ≤ 301989888) ∧
      (∀ i < 4, bankFree s (bar2Bank (262128 + 8 * i)) = true ∧ dmEcc s (bar2Bank (262128 + 8 * i)) (bar2WordOf (262128 + 8 * i)) = Ecc.clean)) ∧
    (∃ s : State, (endpointDown s = false) ∧
      (stubAnswers s 47 0 = false) ∧
      (hostQuiet s = true) ∧
      ([1#8, 2#8, 3#8, 4#8].length = 4 ∧ 44 % 4 = 0 ∨ [1#8, 2#8, 3#8, 4#8].length = 8 ∧ 44 % 8 = 0) ∧
      (44 < 301989888) ∧
      (bankFree s (bar2Bank 44) = true) ∧
      (issuesNext s (bar2Bank 44) = false ∨ [1#8, 2#8, 3#8, 4#8].length = 8 ∧ 44 < 100663296) ∧
      (dmEcc s (bar2Bank 44) (bar2WordOf 44) = Ecc.clean ∨ [1#8, 2#8, 3#8, 4#8].length = 8 ∧ 44 < 100663296)) ∧
    (∃ s : State, (endpointDown s = false) ∧
      (hostWindow s = false ∨ bar2Form 41 4 = false ∧ bar2Form 41 [1#8].length = false)) ∧
    (∃ s : State, (endpointDown s = false) ∧
      (hostWindow s = true) ∧
      (stubAnswers s 45 0 = false) ∧
      (s.hold.jobs = []) ∧
      (1 ≤ 7) ∧
      (holdInside s 65 7 = 0 ∨ holdOffline s 65 (holdInside s 65 7) = false) ∧
      (bytesIdle s 65 (holdInside s 65 7) = true) ∧
      (∀ i < holdInside s 65 7, hdEcc s ((65 + i) / 8) = Ecc.clean) ∧
      (holdInside s 65 7 = 7)) ∧
    (∃ s : State, (endpointDown s = false) ∧
      (hostWindow s = true) ∧
      (stubAnswers s 45 0 = false) ∧
      (s.hold.jobs = []) ∧
      (1 ≤ 7) ∧
      (holdInside s (holdBytes s) 7 = 0 ∨ holdOffline s (holdBytes s) (holdInside s (holdBytes s) 7) = false) ∧
      (bytesIdle s (holdBytes s) (holdInside s (holdBytes s) 7) = true) ∧
      (∀ i < holdInside s (holdBytes s) 7, hdEcc s ((holdBytes s + i) / 8) = Ecc.clean) ∧
      (holdInside s (holdBytes s) 7 < 7)) ∧
    (∃ s : State, (endpointDown s = false) ∧
      (hostWindow s = true) ∧
      (stubAnswers s 45 0 = false) ∧
      (s.hold.jobs = []) ∧
      (1 ≤ [1#8, 2#8, 3#8, 0#8, 5#8, 6#8, 7#8, 8#8, 9#8].length) ∧
      (holdInside s 65 [1#8, 2#8, 3#8, 0#8, 5#8, 6#8, 7#8, 8#8, 9#8].length = 0 ∨ holdOffline s 65 (holdInside s 65 [1#8, 2#8, 3#8, 0#8, 5#8, 6#8, 7#8, 8#8, 9#8].length) = false) ∧
      (bytesIdle s 65 (holdInside s 65 [1#8, 2#8, 3#8, 0#8, 5#8, 6#8, 7#8, 8#8, 9#8].length) = true) ∧
      (65 % 8 = 0 ∧ holdInside s 65 [1#8, 2#8, 3#8, 0#8, 5#8, 6#8, 7#8, 8#8, 9#8].length % 8 = 0 ∨ ∀ i < holdInside s 65 [1#8, 2#8, 3#8, 0#8, 5#8, 6#8, 7#8, 8#8, 9#8].length, hdEcc s ((65 + i) / 8) = Ecc.clean)) ∧
    (∃ s : State, (endpointDown s = false) ∧
      (hostWindow s = false ∧ rbit s oCfgSts 4 = false ∨ hostWindow s = true ∧ stubAnswers s 45 0 = false ∧ (holdInside s 65 7 ≠ 0 ∧ holdOffline s 65 (holdInside s 65 7) = true) ∧ holdInside s 65 [1#8].length ≠ 0 ∧ holdOffline s 65 (holdInside s 65 [1#8].length) = true)) :=
  ⟨⟨{ stOwn with dmc := { stOwn.dmc with cells := [(44, 7#8), (41, 3#8)] } }, by decide +kernel⟩,
    ⟨{ stOwn with dmc := { stOwn.dmc with cells := [(0x3FFFC, 7#8), (0x40001, 3#8)] } }, by decide +kernel⟩,
    ⟨{ stOwn with dmc := { stOwn.dmc with cells := [(44, 7#8), (41, 3#8)] } }, by decide +kernel⟩,
    ⟨st0, by decide +kernel⟩,
    ⟨stHold, by decide +kernel⟩,
    ⟨stHold, by decide +kernel⟩,
    ⟨stHold, by decide +kernel⟩,
    ⟨regs [(oPwrSts, 2#32)] stHold, by decide +kernel⟩⟩

theorem test_BankService_met :
    (∃ s : State, (svc SvcOp.write 1).bank < nBanks s ∧
      (svc SvcOp.write 1).counted = false ∧
      (schedAt s { master := (svc SvcOp.write 1).master, tag := (svc SvcOp.write 1).tag, addr := (svc SvcOp.write 1).addr, half := (svc SvcOp.write 1).half, op := (svc SvcOp.write 1).op, bank := (svc SvcOp.write 1).bank, word := (svc SvcOp.write 1).word, data := (svc SvcOp.write 1).data, mask := (svc SvcOp.write 1).mask, poison := (svc SvcOp.write 1).poison, counted := (svc SvcOp.write 1).counted, answer := (svc SvcOp.write 1).answer, cycle := s.dmc.cycle : SvcReq }.bank = none)) ∧
    (∃ s : State, (svc SvcOp.write 1).bank < nBanks s ∧
      (svc SvcOp.write 1).counted = false ∧
      (schedAt s { master := (svc SvcOp.write 1).master, tag := (svc SvcOp.write 1).tag, addr := (svc SvcOp.write 1).addr, half := (svc SvcOp.write 1).half, op := (svc SvcOp.write 1).op, bank := (svc SvcOp.write 1).bank, word := (svc SvcOp.write 1).word, data := (svc SvcOp.write 1).data, mask := (svc SvcOp.write 1).mask, poison := (svc SvcOp.write 1).poison, counted := (svc SvcOp.write 1).counted, answer := (svc SvcOp.write 1).answer, cycle := s.dmc.cycle : SvcReq }.bank = some (mop MemKind.read 6)) ∧
      ((mop MemKind.read 6).addr ≠ { master := (svc SvcOp.write 1).master, tag := (svc SvcOp.write 1).tag, addr := (svc SvcOp.write 1).addr, half := (svc SvcOp.write 1).half, op := (svc SvcOp.write 1).op, bank := (svc SvcOp.write 1).bank, word := (svc SvcOp.write 1).word, data := (svc SvcOp.write 1).data, mask := (svc SvcOp.write 1).mask, poison := (svc SvcOp.write 1).poison, counted := (svc SvcOp.write 1).counted, answer := (svc SvcOp.write 1).answer, cycle := s.dmc.cycle : SvcReq }.word ∨ svcRmw { master := (svc SvcOp.write 1).master, tag := (svc SvcOp.write 1).tag, addr := (svc SvcOp.write 1).addr, half := (svc SvcOp.write 1).half, op := (svc SvcOp.write 1).op, bank := (svc SvcOp.write 1).bank, word := (svc SvcOp.write 1).word, data := (svc SvcOp.write 1).data, mask := (svc SvcOp.write 1).mask, poison := (svc SvcOp.write 1).poison, counted := (svc SvcOp.write 1).counted, answer := (svc SvcOp.write 1).answer, cycle := s.dmc.cycle : SvcReq }.op = true)) ∧
    (∃ s : State, (svc SvcOp.read).bank < nBanks s ∧
      (svc SvcOp.read).counted = false ∧
      (schedAt s { master := (svc SvcOp.read).master, tag := (svc SvcOp.read).tag, addr := (svc SvcOp.read).addr, half := (svc SvcOp.read).half, op := (svc SvcOp.read).op, bank := (svc SvcOp.read).bank, word := (svc SvcOp.read).word, data := (svc SvcOp.read).data, mask := (svc SvcOp.read).mask, poison := (svc SvcOp.read).poison, counted := (svc SvcOp.read).counted, answer := (svc SvcOp.read).answer, cycle := s.dmc.cycle : SvcReq }.bank = some (mop MemKind.read)) ∧
      (mop MemKind.read).addr = { master := (svc SvcOp.read).master, tag := (svc SvcOp.read).tag, addr := (svc SvcOp.read).addr, half := (svc SvcOp.read).half, op := (svc SvcOp.read).op, bank := (svc SvcOp.read).bank, word := (svc SvcOp.read).word, data := (svc SvcOp.read).data, mask := (svc SvcOp.read).mask, poison := (svc SvcOp.read).poison, counted := (svc SvcOp.read).counted, answer := (svc SvcOp.read).answer, cycle := s.dmc.cycle : SvcReq }.word ∧
      ({ master := (svc SvcOp.read).master, tag := (svc SvcOp.read).tag, addr := (svc SvcOp.read).addr, half := (svc SvcOp.read).half, op := (svc SvcOp.read).op, bank := (svc SvcOp.read).bank, word := (svc SvcOp.read).word, data := (svc SvcOp.read).data, mask := (svc SvcOp.read).mask, poison := (svc SvcOp.read).poison, counted := (svc SvcOp.read).counted, answer := (svc SvcOp.read).answer, cycle := s.dmc.cycle : SvcReq }.op = SvcOp.read ∨ { master := (svc SvcOp.read).master, tag := (svc SvcOp.read).tag, addr := (svc SvcOp.read).addr, half := (svc SvcOp.read).half, op := (svc SvcOp.read).op, bank := (svc SvcOp.read).bank, word := (svc SvcOp.read).word, data := (svc SvcOp.read).data, mask := (svc SvcOp.read).mask, poison := (svc SvcOp.read).poison, counted := (svc SvcOp.read).counted, answer := (svc SvcOp.read).answer, cycle := s.dmc.cycle : SvcReq }.op = SvcOp.readHalf) ∧
      (memReads (mop MemKind.read) = true) ∧
      (bankOff s { master := (svc SvcOp.read).master, tag := (svc SvcOp.read).tag, addr := (svc SvcOp.read).addr, half := (svc SvcOp.read).half, op := (svc SvcOp.read).op, bank := (svc SvcOp.read).bank, word := (svc SvcOp.read).word, data := (svc SvcOp.read).data, mask := (svc SvcOp.read).mask, poison := (svc SvcOp.read).poison, counted := (svc SvcOp.read).counted, answer := (svc SvcOp.read).answer, cycle := s.dmc.cycle : SvcReq }.bank = false) ∧
      (ownMode s { master := (svc SvcOp.read).master, tag := (svc SvcOp.read).tag, addr := (svc SvcOp.read).addr, half := (svc SvcOp.read).half, op := (svc SvcOp.read).op, bank := (svc SvcOp.read).bank, word := (svc SvcOp.read).word, data := (svc SvcOp.read).data, mask := (svc SvcOp.read).mask, poison := (svc SvcOp.read).poison, counted := (svc SvcOp.read).counted, answer := (svc SvcOp.read).answer, cycle := s.dmc.cycle : SvcReq }.bank ≠ 0) ∧
      (dmEcc s { master := (svc SvcOp.read).master, tag := (svc SvcOp.read).tag, addr := (svc SvcOp.read).addr, half := (svc SvcOp.read).half, op := (svc SvcOp.read).op, bank := (svc SvcOp.read).bank, word := (svc SvcOp.read).word, data := (svc SvcOp.read).data, mask := (svc SvcOp.read).mask, poison := (svc SvcOp.read).poison, counted := (svc SvcOp.read).counted, answer := (svc SvcOp.read).answer, cycle := s.dmc.cycle : SvcReq }.bank { master := (svc SvcOp.read).master, tag := (svc SvcOp.read).tag, addr := (svc SvcOp.read).addr, half := (svc SvcOp.read).half, op := (svc SvcOp.read).op, bank := (svc SvcOp.read).bank, word := (svc SvcOp.read).word, data := (svc SvcOp.read).data, mask := (svc SvcOp.read).mask, poison := (svc SvcOp.read).poison, counted := (svc SvcOp.read).counted, answer := (svc SvcOp.read).answer, cycle := s.dmc.cycle : SvcReq }.word = Ecc.clean)) ∧
    (∃ s : State, (svc SvcOp.write).bank < nBanks s ∧
      (svc SvcOp.write).counted = false ∧
      (schedAt s { master := (svc SvcOp.write).master, tag := (svc SvcOp.write).tag, addr := (svc SvcOp.write).addr, half := (svc SvcOp.write).half, op := (svc SvcOp.write).op, bank := (svc SvcOp.write).bank, word := (svc SvcOp.write).word, data := (svc SvcOp.write).data, mask := (svc SvcOp.write).mask, poison := (svc SvcOp.write).poison, counted := (svc SvcOp.write).counted, answer := (svc SvcOp.write).answer, cycle := s.dmc.cycle : SvcReq }.bank = some (mop MemKind.read)) ∧
      (mop MemKind.read).addr = { master := (svc SvcOp.write).master, tag := (svc SvcOp.write).tag, addr := (svc SvcOp.write).addr, half := (svc SvcOp.write).half, op := (svc SvcOp.write).op, bank := (svc SvcOp.write).bank, word := (svc SvcOp.write).word, data := (svc SvcOp.write).data, mask := (svc SvcOp.write).mask, poison := (svc SvcOp.write).poison, counted := (svc SvcOp.write).counted, answer := (svc SvcOp.write).answer, cycle := s.dmc.cycle : SvcReq }.word ∧
      ({ master := (svc SvcOp.write).master, tag := (svc SvcOp.write).tag, addr := (svc SvcOp.write).addr, half := (svc SvcOp.write).half, op := (svc SvcOp.write).op, bank := (svc SvcOp.write).bank, word := (svc SvcOp.write).word, data := (svc SvcOp.write).data, mask := (svc SvcOp.write).mask, poison := (svc SvcOp.write).poison, counted := (svc SvcOp.write).counted, answer := (svc SvcOp.write).answer, cycle := s.dmc.cycle : SvcReq }.op = SvcOp.write) ∧
      (memReads (mop MemKind.read) = true)) ∧
    (∃ s : State, (svc SvcOp.write).bank < nBanks s ∧
      (svc SvcOp.write).counted = false ∧
      (schedAt s { master := (svc SvcOp.write).master, tag := (svc SvcOp.write).tag, addr := (svc SvcOp.write).addr, half := (svc SvcOp.write).half, op := (svc SvcOp.write).op, bank := (svc SvcOp.write).bank, word := (svc SvcOp.write).word, data := (svc SvcOp.write).data, mask := (svc SvcOp.write).mask, poison := (svc SvcOp.write).poison, counted := (svc SvcOp.write).counted, answer := (svc SvcOp.write).answer, cycle := s.dmc.cycle : SvcReq }.bank = some (mop MemKind.write)) ∧
      (mop MemKind.write).addr = { master := (svc SvcOp.write).master, tag := (svc SvcOp.write).tag, addr := (svc SvcOp.write).addr, half := (svc SvcOp.write).half, op := (svc SvcOp.write).op, bank := (svc SvcOp.write).bank, word := (svc SvcOp.write).word, data := (svc SvcOp.write).data, mask := (svc SvcOp.write).mask, poison := (svc SvcOp.write).poison, counted := (svc SvcOp.write).counted, answer := (svc SvcOp.write).answer, cycle := s.dmc.cycle : SvcReq }.word ∧
      ({ master := (svc SvcOp.write).master, tag := (svc SvcOp.write).tag, addr := (svc SvcOp.write).addr, half := (svc SvcOp.write).half, op := (svc SvcOp.write).op, bank := (svc SvcOp.write).bank, word := (svc SvcOp.write).word, data := (svc SvcOp.write).data, mask := (svc SvcOp.write).mask, poison := (svc SvcOp.write).poison, counted := (svc SvcOp.write).counted, answer := (svc SvcOp.write).answer, cycle := s.dmc.cycle : SvcReq }.op = SvcOp.write) ∧
      (memReads (mop MemKind.write) = false)) ∧
    (∃ s : State, (svc SvcOp.readHalf).bank < nBanks s ∧
      (svc SvcOp.readHalf).counted = false ∧
      (schedAt s { master := (svc SvcOp.readHalf).master, tag := (svc SvcOp.readHalf).tag, addr := (svc SvcOp.readHalf).addr, half := (svc SvcOp.readHalf).half, op := (svc SvcOp.readHalf).op, bank := (svc SvcOp.readHalf).bank, word := (svc SvcOp.readHalf).word, data := (svc SvcOp.readHalf).data, mask := (svc SvcOp.readHalf).mask, poison := (svc SvcOp.readHalf).poison, counted := (svc SvcOp.readHalf).counted, answer := (svc SvcOp.readHalf).answer, cycle := s.dmc.cycle : SvcReq }.bank = some (mop MemKind.writePoison)) ∧
      (mop MemKind.writePoison).addr = { master := (svc SvcOp.readHalf).master, tag := (svc SvcOp.readHalf).tag, addr := (svc SvcOp.readHalf).addr, half := (svc SvcOp.readHalf).half, op := (svc SvcOp.readHalf).op, bank := (svc SvcOp.readHalf).bank, word := (svc SvcOp.readHalf).word, data := (svc SvcOp.readHalf).data, mask := (svc SvcOp.readHalf).mask, poison := (svc SvcOp.readHalf).poison, counted := (svc SvcOp.readHalf).counted, answer := (svc SvcOp.readHalf).answer, cycle := s.dmc.cycle : SvcReq }.word ∧
      ({ master := (svc SvcOp.readHalf).master, tag := (svc SvcOp.readHalf).tag, addr := (svc SvcOp.readHalf).addr, half := (svc SvcOp.readHalf).half, op := (svc SvcOp.readHalf).op, bank := (svc SvcOp.readHalf).bank, word := (svc SvcOp.readHalf).word, data := (svc SvcOp.readHalf).data, mask := (svc SvcOp.readHalf).mask, poison := (svc SvcOp.readHalf).poison, counted := (svc SvcOp.readHalf).counted, answer := (svc SvcOp.readHalf).answer, cycle := s.dmc.cycle : SvcReq }.op = SvcOp.read ∨ { master := (svc SvcOp.readHalf).master, tag := (svc SvcOp.readHalf).tag, addr := (svc SvcOp.readHalf).addr, half := (svc SvcOp.readHalf).half, op := (svc SvcOp.readHalf).op, bank := (svc SvcOp.readHalf).bank, word := (svc SvcOp.readHalf).word, data := (svc SvcOp.readHalf).data, mask := (svc SvcOp.readHalf).mask, poison := (svc SvcOp.readHalf).poison, counted := (svc SvcOp.readHalf).counted, answer := (svc SvcOp.readHalf).answer, cycle := s.dmc.cycle : SvcReq }.op = SvcOp.readHalf) ∧
      (memReads (mop MemKind.writePoison) = false)) ∧
    (∃ s : State, (memClockOn s = true) ∧
      (bankBusy s 0 = false) ∧
      (bankTaken s 0 = false) ∧
      (schedAt s 0 = none) ∧
      (patrolBehind s 0 = false) ∧
      (svcReady s 0 = some (svc SvcOp.write)) ∧
      (svc SvcOp.write).bank = 0 ∧
      (svcRefused s 0 = some 5)) ∧
    (∃ s : State, (memClockOn s = true) ∧
      (bankBusy s 0 = false) ∧
      (bankTaken s 0 = false) ∧
      (schedAt s 0 = none) ∧
      (patrolBehind s 0 = false) ∧
      (svcReady s 0 = some (svc SvcOp.write)) ∧
      (svc SvcOp.write).bank = 0 ∧
      (svcRefused s 0 = none) ∧
      ((svc SvcOp.write).op = SvcOp.write ∨ svcRmw (svc SvcOp.write).op = true ∧ dmEcc s 0 (svc SvcOp.write).word = Ecc.clean)) ∧
    (∃ s : State, (memClockOn s = true) ∧
      (bankBusy s 0 = false) ∧
      (bankTaken s 0 = false) ∧
      (schedAt s 0 = none) ∧
      (patrolBehind s 0 = false) ∧
      (svcReady s 0 = some (svc SvcOp.read 2)) ∧
      (svc SvcOp.read 2).bank = 0 ∧
      (svcRefused s 0 = none) ∧
      ((svc SvcOp.read 2).op = SvcOp.read ∨ (svc SvcOp.read 2).op = SvcOp.readHalf) ∧
      (dmEcc s 0 (svc SvcOp.read 2).word = Ecc.clean)) ∧
    (∃ s : State, (memClockOn s = true) ∧
      (schedAt s 0 = none) ∧
      (bankTaken s 0 = false) ∧
      (List.find? (fun x => decide (x.bank = 0)) s.dmc.deferred = some (svc SvcOp.write)) ∧
      (svc SvcOp.write).bank = 0 ∧
      (svc SvcOp.write).op = SvcOp.write ∧
      (bankOff s 0 = false) ∧
      (ownMode s 0 ≠ 0)) ∧
    (∃ s : State, (mget false s.dmc.writeback (32768 * 0 + 5) = true) ∧
      (schedAt s 0 = none) ∧
      (∀ x ∈ s.dmc.deferred, x.bank ≠ 0) ∧
      (memClockOn s = true) ∧
      (bankTaken s 0 = false) ∧
      (dmEcc s 0 5 = Ecc.single)) ∧
    (∃ s : State, (0 < nBanks s) ∧
      (ownMode s 0 ≠ 0) ∧
      (bankOff s 0 = false) ∧
      (bankBusy s 0 = false) ∧
      (bankTaken s 0 = false) ∧
      (schedAt s 0 = none) ∧
      (memClockOn s = true) ∧
      (patrolYields s 0 = false) ∧
      (mget 0 s.dmc.patrolPtr 0 < 32768) ∧
      (dmEcc s 0 (mget 0 s.dmc.patrolPtr 0) = Ecc.clean)) :=
  ⟨⟨stOwn, by decide +kernel⟩,
    ⟨stSched .read 6, by decide +kernel⟩,
    ⟨stSched .read, by decide +kernel⟩,
    ⟨stSched .read, by decide +kernel⟩,
    ⟨stSched .write, by decide +kernel⟩,
    ⟨stSched .writePoison, by decide +kernel⟩,
    ⟨stWait (svc .write) st0, by decide +kernel⟩,
    ⟨stWait (svc .write), by decide +kernel⟩,
    ⟨stWait (svc .read 2), by decide +kernel⟩,
    ⟨{ stOwn with dmc := { stOwn.dmc with deferred := [svc .write] } }, by decide +kernel⟩,
    ⟨{ stOwn with dmc := { stOwn.dmc with writeback := [(5, true)], ecc := [(5, .single)] } }, by decide +kernel⟩,
    ⟨stOwn, by decide +kernel⟩⟩

theorem test_LateChecks_met :
    (∃ s : State, unitOn s 15 = true) ∧
    (∃ s : State, unitOn s 14 = true) ∧
    (∃ s : State, unitOn s 15 = false) ∧
    (∃ s : State, unitOn s 14 = false) ∧
    (∃ s : State, unitOn s 13 = false) ∧
    (∃ s : State, unitOn s 13 = true) :=
  ⟨⟨st0, by decide +kernel⟩,
    ⟨stRun, by decide +kernel⟩,
    ⟨regs [(oCkgEn0, 0#32)] st0, by decide +kernel⟩,
    ⟨regs [(oCkgEn0, 0#32)] st0, by decide +kernel⟩,
    ⟨regs [(oCkgEn0, 0#32)] st0, by decide +kernel⟩,
    ⟨stRun, by decide +kernel⟩⟩

theorem test_HoldAndSluices_met :
    (∃ s : State, (stackOn s (1 % nStacks s) = true) ∧
      (s.hold.jobs = []) ∧
      (refreshForced s 1 = true)) ∧
    (∃ s : State, (stackOn s (1 % nStacks s) = true) ∧
      (s.hold.jobs = []) ∧
      (refreshForced s 1 = false) ∧
      (bankQueue s 1).head? = some (sreq true) ∧
      (∀ x ∈ bankQueue s 1, x.seen = true) ∧
      (sreq true).write = true) ∧
    (∃ s : State, (stackOn s (1 % nStacks s) = true) ∧
      (s.hold.jobs = []) ∧
      (refreshForced s 1 = false) ∧
      (bankQueue s 1).head? = some (sreq false) ∧
      (∀ x ∈ bankQueue s 1, x.seen = true) ∧
      (sreq false).write = false ∧
      (hdEcc s ((sreq false).addr / 8) = Ecc.clean)) ∧
    (∃ s : State, (s.hold.jobs = []) ∧
      (stackOn s (1 % nStacks s) = false ∨ dramIdle s 1 = true)) ∧
    (∃ s : State, (stackOn s (1 % nStacks s) = true) ∧
      (bankQueue s 1 ≠ [])) ∧
    (∃ s : State, (stackOn s (1 % nStacks s) = false ∨ bankQueue s 1 = [])) ∧
    (∃ s : State, (0 < nStacks s) ∧
      (stackOn s 0 = true) ∧
      (s.hold.jobs = []) ∧
      (dramIdle s (lineBank s (stackWord s 0 (mget 0 s.hold.scrubPtr 0) / 8)) = true) ∧
      (hdEcc s (stackWord s 0 (mget 0 s.hold.scrubPtr 0)) = Ecc.clean ∨ hdEcc s (stackWord s 0 (mget 0 s.hold.scrubPtr 0)) = Ecc.poison)) ∧
    (∃ s : State, (stackOn s (lineBank s 5 % nStacks s) = true) ∧
      (refreshForced s (lineBank s 5) = false) ∧
      (bankQueue s (lineBank s 5) = []) ∧
      (bankDue s (lineBank s 5) = false) ∧
      (nextJob s (lineBank s 5) = some (hjob HoldFor.host, 5)) ∧
      (List.map (fun x => x.id) s.hold.jobs).Nodup ∧
      ((hjob HoldFor.host).why = HoldFor.host ∨ (hjob HoldFor.host).why = HoldFor.barge) ∧
      (∀ x ∈ s.hold.jobs, x.lines ≠ [])) ∧
    (∃ s : State, (servedReq s 3 1 = some (sreq true true true)) ∧
      (rbit s (oHldStackSts (lineStack s ((sreq true true true).addr / 64))) 3 = false) ∧
      (sreq true true true).live = true ∧
      (getTag s 3 1 = TagSt.waiting)) ∧
    (∃ s : State, ((∀ r ∈ s.req, r.q = 4 → r.tag = 1 → r.served = false) ∨ ∃ r, servedReq s 4 1 = some r ∧ rbit s (oHldStackSts (lineStack s (r.addr / 64))) 3 = true)) ∧
    (∃ s : State, (1 < nStacks s) ∧
      (rbit s (oHldStackSts 1) 1 = true)) ∧
    (∃ s : State, 1 < nStacks s) :=
  ⟨⟨{ stHold with hold := { stHold.hold with refDue := [(1, Config.refreshLimit + 1)] } }, by decide +kernel, rfl, by
      have h : mget 0 [(1, Config.refreshLimit + 1)] 1 = Config.refreshLimit + 1 := rfl
      simp [refreshForced, h]⟩,
    ⟨stReq (sreq true), by decide +kernel, rfl, not_forced rfl, by decide +kernel⟩,
    ⟨stReq (sreq false), by decide +kernel, rfl, not_forced rfl, by decide +kernel⟩,
    ⟨stHold, by decide +kernel⟩,
    ⟨stReq (sreq false), by decide +kernel⟩,
    ⟨stHold, by decide +kernel⟩,
    ⟨stHold, by decide +kernel⟩,
    ⟨stJob (hjob .host), by decide +kernel, not_forced rfl, by decide +kernel⟩,
    ⟨setTag 3 1 .waiting (stReq (sreq true true true)), by decide +kernel⟩,
    ⟨stReq (sreq true true true), by decide +kernel⟩,
    ⟨regs [(oHldStackSts 1, 2#32)] stHold, by decide +kernel⟩,
    ⟨stHold, by decide +kernel⟩⟩

theorem test_WharfCalls_met :
    (∃ s : State, s.xch.frags = []) ∧
    (∃ s : State, (s.xch.frags = [frg 1]) ∧
      (frg 1).void = false ∧
      (siteValid (siteEntry s (frg 1).site) = true) ∧
      (nbit (siteReq (siteEntry s (frg 1).site)) (frg 1).idx = true) ∧
      (List.find? (fun x => decide (x.site = (frg 1).site) && decide (x.frame = (frg 1).frame) && decide (x.pass = (frg 1).pass) && !x.void && (decide (x.st = XSt.opened) || decide (x.st = XSt.complete))) s.xch.entries = none) ∧
      (partFree s (sitePart (siteEntry s (frg 1).site)) ≠ 0) ∧
      ((frg 1).idx + 1) * siteW (siteEntry s (frg 1).site) ≤ 128) ∧
    (∃ s : State, (s.xch.frags = [frg 1]) ∧
      (frg 1).void = false ∧
      (siteValid (siteEntry s (frg 1).site) = true) ∧
      (nbit (siteReq (siteEntry s (frg 1).site)) (frg 1).idx = true) ∧
      (List.find? (fun x => decide (x.site = (frg 1).site) && decide (x.frame = (frg 1).frame) && decide (x.pass = (frg 1).pass) && !x.void && (decide (x.st = XSt.opened) || decide (x.st = XSt.complete))) s.xch.entries = some (({ xe XSt.opened with site := 2, frame := 5, mask := 1 } : XEntry))) ∧
      (nbit (({ xe XSt.opened with site := 2, frame := 5, mask := 1 } : XEntry)).mask (frg 1).idx = false) ∧
      ((frg 1).idx + 1) * siteW (siteEntry s (frg 1).site) ≤ 128) ∧
    (∃ s : State, (s.xch.frags = [frg 2]) ∧
      (frg 2).void = false ∧
      (siteValid (siteEntry s (frg 2).site) = false ∨ nbit (siteReq (siteEntry s (frg 2).site)) (frg 2).idx = false)) ∧
    (∃ s : State, (s.xch.frags = [frg 1]) ∧
      (frg 1).void = false ∧
      (siteValid (siteEntry s (frg 1).site) = true) ∧
      (nbit (siteReq (siteEntry s (frg 1).site)) (frg 1).idx = true) ∧
      (List.find? (fun x => decide (x.site = (frg 1).site) && decide (x.frame = (frg 1).frame) && decide (x.pass = (frg 1).pass) && !x.void && (decide (x.st = XSt.opened) || decide (x.st = XSt.complete))) s.xch.entries = some (({ xe XSt.complete with site := 2, frame := 5, mask := 3 } : XEntry))) ∧
      (nbit (({ xe XSt.complete with site := 2, frame := 5, mask := 3 } : XEntry)).mask (frg 1).idx = true)) ∧
    (∃ s : State, (s.xch.frags = [frg 1]) ∧
      (frg 1).void = false ∧
      (siteValid (siteEntry s (frg 1).site) = true) ∧
      (nbit (siteReq (siteEntry s (frg 1).site)) (frg 1).idx = true) ∧
      (List.find? (fun x => decide (x.site = (frg 1).site) && decide (x.frame = (frg 1).frame) && decide (x.pass = (frg 1).pass) && !x.void && (decide (x.st = XSt.opened) || decide (x.st = XSt.complete))) s.xch.entries = none) ∧
      (partFree s (sitePart (siteEntry s (frg 1).site)) = 0)) ∧
    (∃ s : State, (frLt 5 s.seq.F.toNat = true) ∧
      (∀ g ∈ s.xch.frags, g.frame = 5 → g.void = true)) ∧
    (∃ s : State, (frLt 5 s.seq.F.toNat = false ∨ ∃ g ∈ s.xch.frags, g.frame = 5 ∧ g.void = false)) ∧
    (∃ s : State, (unitOn s 11 = true) ∧
      (s.xch.notices = [4, 5]) ∧
      (ringRoom s (xchRing (rfld s oXchCtl 5 0)) = true)) ∧
    (∃ s : State, (unitOn s 11 = true) ∧
      (s.xch.notices = []) ∧
      (s.xch.visit = some (0, 1)) ∧
      (1 ≠ 0) ∧
      (nextFlow s s.xch.grp 0 = some 1) ∧
      (mget 0 s.xch.deficit s.xch.grp ≠ 0) ∧
      (flowHead s 1 = some (xe XSt.queued))) ∧
    (∃ s : State, unitOn s 11 = false) :=
  ⟨⟨st0, by decide +kernel⟩,
    ⟨withFrag (frg 1), by decide +kernel⟩,
    ⟨{ withFrag (frg 1) with xch := { (withFrag (frg 1)).xch with entries := [{ xe .opened with site := 2, frame := 5, mask := 1 }] } }, by decide +kernel⟩,
    ⟨withFrag (frg 2), by decide +kernel⟩,
    ⟨{ withFrag (frg 1) with xch := { (withFrag (frg 1)).xch with entries := [{ xe .complete with site := 2, frame := 5, mask := 3 }] } }, by decide +kernel⟩,
    ⟨regs [(oXchPart 0, 0#32)] (withFrag (frg 1)), by decide +kernel⟩,
    ⟨{ st0 with seq := { st0.seq with F := 9 }, xch := { st0.xch with entries := [xe .opened] } }, by decide +kernel⟩,
    ⟨st0, by decide +kernel⟩,
    ⟨{ stRingsX stRun with xch := { st0.xch with notices := [4, 5] } }, by decide +kernel⟩,
    ⟨{ stRingsX (stSite stRun) with xch := { (stSite stRun).xch with entries := [xe .queued], visit := some (0, 1), deficit := [(0, 1)] } }, by decide +kernel⟩,
    ⟨regs [(oCkgEn0, 0#32)] st0, by decide +kernel⟩⟩

theorem test_Records_met :
    (∃ s : State, (unitOn s 11 = true) ∧
      (List.find? (fun y => ringRoom s (xchRing (grpRing s (flowGroup s (berthFlow s (siteBerth (siteEntry s y.1))))))) s.xch.losses = some (2, 5, 3))) ∧
    (∃ s : State, (unitOn s 11 = false ∨ s.xch.losses = [])) ∧
    (∃ s : State, (unitOn s 11 = true) ∧
      (rbit s oXchRetLo 8 = true) ∧
      (rget s oXchRetPi ≠ rget s oXchRetCi) ∧
      (List.find? (fun e => decide (e.st = XSt.ret) && decide (e.handle = leNat (hostGet s (ringBase s retRing + 32 * (BitVec.toNat (rget s oXchRetCi) % 2 ^ rfld s oXchRetLo 4 0)) 4))) s.xch.entries = some (xe XSt.ret)) ∧
      (xe XSt.ret).value = none) ∧
    (∃ s : State, (unitOn s 11 = true) ∧
      (rbit s oXchRetLo 8 = true) ∧
      (rget s oXchRetPi ≠ rget s oXchRetCi) ∧
      (List.find? (fun e => decide (e.st = XSt.ret) && decide (e.handle = leNat (hostGet s (ringBase s retRing + 32 * (BitVec.toNat (rget s oXchRetCi) % 2 ^ rfld s oXchRetLo 4 0)) 4))) s.xch.entries = none) ∧
      (leNat (hostGet s (ringBase s retRing + 32 * (BitVec.toNat (rget s oXchRetCi) % 2 ^ rfld s oXchRetLo 4 0)) 4) ∈ s.xch.lateH)) ∧
    (∃ s : State, (unitOn s 11 = true) ∧
      (rbit s oXchRetLo 8 = true) ∧
      (rget s oXchRetPi ≠ rget s oXchRetCi) ∧
      (List.find? (fun e => decide (e.st = XSt.ret) && decide (e.handle = leNat (hostGet s (ringBase s retRing + 32 * (BitVec.toNat (rget s oXchRetCi) % 2 ^ rfld s oXchRetLo 4 0)) 4))) s.xch.entries = none) ∧
      (leNat (hostGet s (ringBase s retRing + 32 * (BitVec.toNat (rget s oXchRetCi) % 2 ^ rfld s oXchRetLo 4 0)) 4) ∉ s.xch.lateH)) ∧
    (∃ s : State, (unitOn s 11 = false ∨ rbit s oXchRetLo 8 = false ∨ rget s oXchRetPi = rget s oXchRetCi)) ∧
    (∃ s : State, (s.gau.fifo = [frec]) ∧
      (frec.code.isSome = true) ∧
      (unitOn s 12 = true) ∧
      (s.gau.lost = none) ∧
      (ringRoom s (gauRing 0) = true)) ∧
    (∃ s : State, ((∀ (r : FailRec), s.gau.fifo.head? = some r → r.code = none) ∨ unitOn s 12 = false ∨ ringRoom s (gauRing 0) = false)) ∧
    (∃ s : State, (s.gau.edgeBuf = [erec]) ∧
      (unitOn s 12 = true) ∧
      (ringRoom s (gauRing 1) = true)) ∧
    (∃ s : State, (s.gau.edgeBuf = [] ∨ unitOn s 12 = false ∨ ringRoom s (gauRing 1) = false)) ∧
    (∃ s : State, (3 < 16) ∧
      (unitOn s 12 = true) ∧
      (clockRuns s = true) ∧
      (rbit s oGauEdgeCtl (2 * 3 + if true = true then 0 else 1) = true) ∧
      (∃ l, (mget EdgeIn.fresh s.gau.edges 3).last = some l ∧ l ≤ s.tim.mono + 5 ∧ s.tim.mono + 5 < l + 2)) ∧
    (∃ s : State, (3 < 16) ∧
      (unitOn s 12 = true) ∧
      (clockRuns s = true) ∧
      (rbit s oGauEdgeCtl (2 * 3 + if false = true then 0 else 1) = true) ∧
      (∀ (l : Nat), (mget EdgeIn.fresh s.gau.edges 3).last = some l → l + 2 ≤ s.tim.mono + 5) ∧
      (0 < min 64 ((mget EdgeIn.fresh s.gau.edges 3).budget + (s.tim.mono + 5 - (mget EdgeIn.fresh s.gau.edges 3).refill) / 20)) ∧
      (s.gau.edgeBuf.length < 4096)) ∧
    (∃ s : State, (3 < 16) ∧
      (unitOn s 12 = true) ∧
      (clockRuns s = true) ∧
      (rbit s oGauEdgeCtl (2 * 3 + if false = true then 0 else 1) = true) ∧
      (∀ (l : Nat), (mget EdgeIn.fresh s.gau.edges 3).last = some l → l + 2 ≤ s.tim.mono + 5) ∧
      (min 64 ((mget EdgeIn.fresh s.gau.edges 3).budget + (s.tim.mono + 5 - (mget EdgeIn.fresh s.gau.edges 3).refill) / 20) = 0 ∨ 4096 ≤ s.gau.edgeBuf.length)) ∧
    (∃ s : State, (unitOn s 12 = false ∨ clockRuns s = false ∨ 16 ≤ 3 ∨ rbit s oGauEdgeCtl (2 * 3 + if false = true then 0 else 1) = false)) ∧
    (∃ s : State, s.trc.staging = []) ∧
    (∃ s : State, (Instr.trcDrainWrite ∈ [Instr.trcDrainWrite, Instr.trcDrainRetry]) ∧
      (s.hold.jobs = []) ∧
      (s.trc.staging = [{ bytes := List.map (BitVec.ofNat 8) (List.range 32), frame := 0 : TrcRec }]) ∧
      (s.trc.sent = 0) ∧
      (unitOn s 7 = true) ∧
      (rbit s oTrcCtl 6 = false) ∧
      ({ bytes := List.map (BitVec.ofNat 8) (List.range 32), frame := 0 : TrcRec }.bytes.length % 32 = 0) ∧
      (0 < { bytes := List.map (BitVec.ofNat 8) (List.range 32), frame := 0 : TrcRec }.bytes.length) ∧
      ({ bytes := List.map (BitVec.ofNat 8) (List.range 32), frame := 0 : TrcRec }.bytes.length ≤ 256) ∧
      (128 * rfld s oTrcSize 23 0 ≤ 2 ^ 30) ∧
      (fld (rget s oTrcWp) 29 0 < 128 * rfld s oTrcSize 23 0) ∧
      (regionUsed s + { bytes := List.map (BitVec.ofNat 8) (List.range 32), frame := 0 : TrcRec }.bytes.length / 32 ≤ 128 * rfld s oTrcSize 23 0) ∧
      (∀ j < { bytes := List.map (BitVec.ofNat 8) (List.range 32), frame := 0 : TrcRec }.bytes.length, stackOn s ((4096 * rfld s oTrcBase 24 0 + (32 * fld (rget s oTrcWp) 29 0 + j) % (32 * (128 * rfld s oTrcSize 23 0))) / 64 % nStacks s) = true ∧ dramIdle s (lineBank s ((4096 * rfld s oTrcBase 24 0 + (32 * fld (rget s oTrcWp) 29 0 + j) % (32 * (128 * rfld s oTrcSize 23 0))) / 64)) = true)) ∧
    (∃ s : State, (hjob HoldFor.trace ∈ s.hold.jobs) ∧
      (hjob HoldFor.trace).why = HoldFor.trace) :=
  ⟨⟨{ stRingsX st0 with xch := { st0.xch with losses := [(2, 5, 3)] } }, by decide +kernel⟩,
    ⟨st0, by decide +kernel⟩,
    ⟨{ stWharf st0 with xch := { st0.xch with entries := [xe .ret] }, host := { st0.host with mem := [(0x10000, 7#8)] } }, by decide +kernel⟩,
    ⟨{ stWharf st0 with xch := { st0.xch with lateH := [0] } }, by decide +kernel⟩,
    ⟨stWharf st0, by decide +kernel⟩,
    ⟨st0, by decide +kernel⟩,
    ⟨ftake (stGau st0), by decide +kernel⟩,
    ⟨st0, by decide +kernel⟩,
    ⟨{ stGau st0 with gau := { st0.gau with edgeBuf := [erec] } }, by decide +kernel⟩,
    ⟨st0, by decide +kernel⟩,
    ⟨{ stGau st0 with gau := { st0.gau with edges := [(3, { EdgeIn.fresh with last := some 104 })] }, tim := { st0.tim with mono := 100 } }, by decide +kernel⟩,
    ⟨{ stGau st0 with gau := { st0.gau with edges := [(3, { EdgeIn.fresh with last := some 98 })] }, tim := { st0.tim with mono := 100 } }, by decide +kernel⟩,
    ⟨{ stGau st0 with gau := { st0.gau with edges := [(3, { EdgeIn.fresh with budget := 0, refill := 100 })] }, tim := { st0.tim with mono := 100 } }, by decide +kernel⟩,
    ⟨regs [(oGauEdgeCtl, 0#32)] (stGau st0), by decide +kernel⟩,
    ⟨st0, by decide +kernel⟩,
    ⟨stDrain 32, by decide +kernel⟩,
    ⟨stJob (hjob .trace), by decide +kernel⟩⟩

theorem test_LinkTraining_met :
    (∃ s : State, (3 < 12) ∧
      (unitOn s 9 = true) ∧
      (rfld s (oLnkSts 3) 2 0 = 1)) ∧
    (∃ s : State, (3 < 12) ∧
      (unitOn s 9 = true) ∧
      (rfld s (oLnkSts 3) 2 0 = 2)) ∧
    (∃ s : State, (3 < 12) ∧
      (unitOn s 9 = true) ∧
      (rfld s (oLnkSts 3) 2 0 = 3)) ∧
    (∃ s : State, (3 < 12) ∧
      (unitOn s 9 = true) ∧
      (Instr.linkDetectTimeout 3, 1) ∈ [(Instr.linkDetectTimeout 3, 1), (Instr.linkTrainTimeout 3, 2), (Instr.linkAlignTimeout 3, 3)] ∧
      (rfld s (oLnkSts 3) 2 0 = 1)) ∧
    (∃ s : State, (3 < 12) ∧
      (unitOn s 9 = true) ∧
      (Instr.linkAlignTimeout 3, 3) ∈ [(Instr.linkSignalDetected 3, 1), (Instr.linkTrainDone 3, 2), (Instr.linkAlignDone 3, 3), (Instr.linkDetectTimeout 3, 1), (Instr.linkTrainTimeout 3, 2), (Instr.linkAlignTimeout 3, 3)] ∧
      (rfld s (oLnkSts 3) 2 0 ≠ 3)) ∧
    (∃ s : State, (3 < 12) ∧
      (unitOn s 9 = true) ∧
      (rfld s (oLnkSts 3) 2 0 = 0)) ∧
    (∃ s : State, (3 < 12) ∧
      (unitOn s 9 = true) ∧
      (rfld s (oLnkSts 3) 2 0 ≠ 0)) ∧
    (∃ s : State, (3 < 12) ∧
      (unitOn s 9 = true) ∧
      (rfld s (oLnkSts 3) 2 0 = 4) ∧
      (2 < 64) ∧
      (5 < 12) ∧
      (7 < 2 ^ 16)) ∧
    (∃ s : State, (3 < 12) ∧
      (unitOn s 9 = true) ∧
      (rfld s (oLnkSts 3) 2 0 = 5) ∧
      (55000 - 55000 + 624) / 625 + 1 ≤ 255 ∧
      (55000 < 2 ^ 20)) ∧
    (∃ s : State, (3 < 12) ∧
      (unitOn s 9 = true) ∧
      (rfld s (oLnkSts 3) 2 0 = 5) ∧
      (255 < (55000 + 254 * 625 + 1 - 55000 + 624) / 625 + 1)) ∧
    (∃ s : State, (3 < 12) ∧
      (unitOn s 9 = true) ∧
      (rfld s (oLnkSts 3) 2 0 = 6) ∧
      (0 < 7) ∧
      (7 < 16)) ∧
    (∃ s : State, rfld s (oLnkSts 4) 2 0 ≠ 6) :=
  ⟨⟨lnkSt6 3 1, by decide +kernel⟩,
    ⟨lnkSt6 3 2, by decide +kernel⟩,
    ⟨lnkSt6 3 3, by decide +kernel⟩,
    ⟨lnkSt6 3 1, by decide +kernel⟩,
    ⟨lnkSt6 3 4, by decide +kernel⟩,
    ⟨regs [(oLnkCtl 3, 1#32)] (lnkSt6 3 0), by decide +kernel⟩,
    ⟨lnkSt6 3 3, by decide +kernel⟩,
    ⟨lnkSt6 3 4 stGrp, by decide +kernel⟩,
    ⟨lnkSt6 3 5, by decide +kernel⟩,
    ⟨lnkSt6 3 5 stGrp, by decide +kernel⟩,
    ⟨lnkSt6 3 6 stGrp, by decide +kernel⟩,
    ⟨lnkSt6 4 5 stRun, by decide +kernel⟩⟩

theorem test_LinkTraffic_met :
    (∃ s : State, (3 < 12) ∧
      (unitOn s 9 = true) ∧
      (rfld s (oLnkSts 3) 2 0 = 6) ∧
      (nfld (2 ^ 58 + 4 * 2 ^ 47) 59 58 = 1) ∧
      (nfld (2 ^ 58 + 4 * 2 ^ 47) 57 47 < rfld s oSeqCfg 10 0 + 2) ∧
      (List.filter (fun e => decide (s.seq.spos ≤ e.v + linkLat s 3)) (getLnk s 3).buf).length < 384) ∧
    (∃ s : State, (rfld s (oLnkSts 3) 2 0 ≠ 6 ∨ nfld (2 ^ 58 + 20 * 2 ^ 47) 59 58 ≠ 1 ∨ rfld s oSeqCfg 10 0 + 2 ≤ nfld (2 ^ 58 + 20 * 2 ^ 47) 57 47)) ∧
    (∃ s : State, (3 < 12) ∧
      (unitOn s 9 = true) ∧
      (4 ≤ rfld s (oLnkSts 3) 2 0)) ∧
    (∃ s : State, (3 < 12) ∧
      (unitOn s 9 = true) ∧
      (4 ≤ rfld s (oLnkSts 3) 2 0)) ∧
    (∃ s : State, (3 < 12) ∧
      (unitOn s 9 = true) ∧
      (rfld s (oLnkSts 3) 2 0 = 6) ∧
      (true = true) ∧
      (4096 % 4096 = (getLnk s 3).rxSeq)) ∧
    (∃ s : State, (3 < 12) ∧
      (unitOn s 9 = true) ∧
      (rfld s (oLnkSts 3) 2 0 = 6) ∧
      (true = false ∨ 1 % 4096 ≠ (getLnk s 3).rxSeq) ∧
      (getLnk s 3).rxSeq < 4096) ∧
    (∃ s : State, (3 < 12) ∧
      (unitOn s 9 = true) ∧
      (rfld s (oLnkSts 3) 2 0 = 6) ∧
      (false = false ∨ List.dropWhile (fun x => decide (0 < (0 + 4096 - x) % 4096) && decide ((0 + 4096 - x) % 4096 ≤ 128)) (getLnk s 3).unacked = [])) ∧
    (∃ s : State, (3 < 12) ∧
      (unitOn s 9 = true) ∧
      (rfld s (oLnkSts 3) 2 0 = 6) ∧
      (getLnk s 3).replays < 15 ∧
      (List.dropWhile (fun x => decide (0 < (0 + 4096 - x) % 4096) && decide ((0 + 4096 - x) % 4096 ≤ 128)) (getLnk s 3).unacked ≠ [])) ∧
    (∃ s : State, (3 < 12) ∧
      (unitOn s 9 = true) ∧
      (rfld s (oLnkSts 3) 2 0 = 6) ∧
      (lnkGroup s 3 = true)) ∧
    (∃ s : State, (3 < 12) ∧
      (unitOn s 9 = true) ∧
      (rfld s (oLnkSts 3) 2 0 = 6) ∧
      (lnkGroup s 3 = true) ∧
      (s.dev.devid = s.dev.devid ∨ 3 ∈ mget [] s.grp.seen s.dev.devid) ∧
      (1 ≠ 10)) ∧
    (∃ s : State, (3 < 12) ∧
      (unitOn s 9 = true) ∧
      (rfld s (oLnkSts 3) 2 0 = 6) ∧
      (lnkGroup s 3 = true) ∧
      (2 ≠ s.dev.devid) ∧
      (3 ∉ mget [] s.grp.seen 2) ∧
      (seqRuns s = true) ∧
      (s.seq.halt = none) ∧
      (haltDone s (256 * nearest 34 16 (s.seq.gsc.toNat / 256)) = false) ∧
      (256 * nearest 34 16 (s.seq.gsc.toNat / 256) ≠ s.seq.gsc.toNat)) ∧
    (∃ s : State, (3 < 12) ∧
      (unitOn s 9 = true) ∧
      (rfld s (oLnkSts 3) 2 0 = 6) ∧
      (lnkGroup s 3 = true) ∧
      (2 ≠ s.dev.devid) ∧
      (3 ∉ mget [] s.grp.seen 2) ∧
      (seqRuns s = true) ∧
      (haltDone s (256 * nearest 34 2 (s.seq.gsc.toNat / 256)) = true)) ∧
    (∃ s : State, (3 < 12) ∧
      (unitOn s 9 = true) ∧
      (rfld s (oLnkSts 3) 2 0 = 6) ∧
      (lnkGroup s 3 = true) ∧
      (getLnk s 3).marks = [5, 6]) ∧
    (∃ s : State, (3 < 12) ∧
      (unitOn s 9 = true) ∧
      (rfld s (oLnkSts 3) 2 0 = 6) ∧
      (lnkGroup s 3 = true) ∧
      (getLnk s 3).marks = [5, 6] ∧
      (s.seq.markHold = false)) ∧
    (∃ s : State, (3 < 12) ∧
      (unitOn s 9 = true) ∧
      (rfld s (oLnkSts 3) 2 0 = 6) ∧
      (lnkGroup s 3 = true) ∧
      (getLnk s 3).marks = [5, 6] ∧
      (9 % 2 ^ 32 ≠ 5 % 2 ^ 32)) :=
  ⟨⟨lnkSt6 3 6, by decide +kernel⟩,
    ⟨lnkSt6 3 6, by decide +kernel⟩,
    ⟨lnkSt6 3 6, by decide +kernel⟩,
    ⟨lnkSt6 3 6, by decide +kernel⟩,
    ⟨lnkSt6 3 6, by decide +kernel⟩,
    ⟨lnkSt6 3 6, by decide +kernel⟩,
    ⟨setLnk 3 { getLnk st0 3 with unacked := [4094, 4095, 0, 1], txWait := 3, txSeq := 2 } (lnkSt6 3 6), by decide +kernel⟩,
    ⟨setLnk 3 { getLnk st0 3 with unacked := [4094, 4095, 0, 1], txWait := 3, txSeq := 2 } (lnkSt6 3 6), by decide +kernel⟩,
    ⟨lnkSt6 3 6, by decide +kernel⟩,
    ⟨lnkSt6 3 6, by decide +kernel⟩,
    ⟨lnkSt6 3 6 stRun, by decide +kernel⟩,
    ⟨lnkSt6 3 6 stRun, by decide +kernel⟩,
    ⟨setLnk 3 { getLnk st0 3 with marks := [5, 6] } (lnkSt6 3 6), by decide +kernel⟩,
    ⟨setLnk 3 { getLnk st0 3 with marks := [5, 6] } (lnkSt6 3 6), by decide +kernel⟩,
    ⟨setLnk 3 { getLnk st0 3 with marks := [5, 6] } (lnkSt6 3 6), by decide +kernel⟩⟩

theorem test_GroupAndRing_met :
    (∃ s : State, (unitOn s 9 = true) ∧
      (rbit s oLkgSts 1 = true) ∧
      (formMismatch s = false) ∧
      (∀ n < 12, lnkGroup s n = true → rfld s (oLnkSts n) 2 0 = 6) ∧
      (rfld s oTimCtl 1 0 = 0 ∨ rbit s oTimSts 0 = true) ∧
      (members s ≠ [s.dev.devid]) ∧
      (stretchWanted s = 0) ∧
      (∀ d ∈ members s, mget none (pathsFrom (groupLinks s [{ a := 2, la := 0, b := 0, lb := 3, ps := 5000 : GLink }]) s.dev.devid (members s).length) d ≠ none)) ∧
    (∃ s : State, (unitOn s 9 = true) ∧
      (rbit s oLkgSts 1 = true) ∧
      (formMismatch s = false) ∧
      (rfld s oTimCtl 1 0 = 0 ∨ rbit s oTimSts 0 = true) ∧
      (members s = [s.dev.devid]) ∧
      (stretchWanted s = 0)) ∧
    (∃ s : State, (unitOn s 9 = true) ∧
      (rbit s oLkgSts 1 = true) ∧
      (formMismatch s = true ∨ 1 ≤ 3) ∧
      (3 ≤ 5)) ∧
    (∃ s : State, (unitOn s 9 = true) ∧
      (rbit s oLkgSts 1 = true)) ∧
    (∃ s : State, rbit s oLkgSts 1 = false) ∧
    (∃ s : State, (bypassed s = false) ∧
      (5 ≠ s.dev.devid)) ∧
    (∃ s : State, bypassed s = true) ∧
    (∃ s : State, (bypassed s = false) ∧
      (RingMsg.clkResume ≠ RingMsg.wake) ∧
      (grpFormed s = false ∨ 7 % 2 ^ 16 ≠ rfld s oLkgCfg 31 16 ∨ 1 ∉ otherDevs s)) ∧
    (∃ s : State, (bypassed s = false) ∧
      (rbit s oLkpSts 31 = true) ∧
      (grpFormed s = true) ∧
      (0 ∈ otherDevs s) ∧
      (0 = leadDev s)) ∧
    (∃ s : State, (bypassed s = false) ∧
      (rbit s oLkpSts 31 = true) ∧
      (grpFormed s = true) ∧
      (2 ∈ otherDevs s)) ∧
    (∃ s : State, (bypassed s = false) ∧
      (1 < 2)) :=
  ⟨⟨aw (regs [(oLnkSts 3, 6#32), (oLnkCtl 3, 1#32), (oLnkPeer 3, 0x82000000#32), (oLkgLinkmask, 8#32)] stForm), by decide +kernel⟩,
    ⟨aw (regs [(oLkgMembersLo, 1#32)] stForm), by decide +kernel⟩,
    ⟨aw (stForm), by decide +kernel⟩,
    ⟨aw (stForm), by decide +kernel⟩,
    ⟨aw (st0), by decide +kernel⟩,
    ⟨aw (st0), by decide +kernel⟩,
    ⟨aw (regs [(oPwrSts, 4#32)] st0), by decide +kernel⟩,
    ⟨aw (st0), by decide +kernel⟩,
    ⟨aw { stGrp with dev := { stGrp.dev with devid := 2 } }, by decide +kernel⟩,
    ⟨aw (stGrp), by decide +kernel⟩,
    ⟨aw (st0), by decide +kernel⟩⟩

theorem test_TimeEvents_met :
    (∃ s : State, (rfld s oTimCtl 1 0 = 1) ∧
      (1 < 2) ∧
      (bypassed s = false) ∧
      (rbit s oRingSts 1 = true) ∧
      (unitOn s 6 = true) ∧
      (0 = rfld s oLkgCfg 31 16) ∧
      (rbit s oCkgSts 7 = true) ∧
      (5 < 64) ∧
      (3 < 63) ∧
      (100 ≤ ↑(clockPs s 1000)) ∧
      (500 ≤ 900)) ∧
    (∃ s : State, (rfld s oTimCtl 1 0 ≠ 1 ∨ 1 < 0 ∨ bypassed s = true ∨ rbit s oRingSts 0 = false ∨ unitOn s 6 = false ∨ 1 ≠ rfld s oLkgCfg 31 16 ∨ rbit s oCkgSts 7 = false)) ∧
    (∃ s : State, (rfld s oTimCtl 1 0 = 2) ∧
      (rbit s oCkgSts 7 = true) ∧
      (unitOn s 6 = true) ∧
      (∀ (t : Nat), s.tim.pps = some t → t + 500000000000 ≤ 1000 * s.tim.mono + 7)) ∧
    (∃ s : State, (rfld s oTimCtl 1 0 ≠ 2 ∨ rbit s oCkgSts 7 = false ∨ unitOn s 6 = false ∨ ∃ t, s.tim.pps = some t ∧ 1000 * s.tim.mono + 7 < t + 500000000000)) ∧
    (∃ s : State, (rfld s oTimCtl 1 0 ≠ 0) ∧
      (unitOn s 6 = true)) ∧
    (∃ s : State, (rfld s oTimCtl 1 0 = 0 ∨ unitOn s 6 = false)) ∧
    (∃ s : State, (rbit s oCkgEn0 6 = true) ∧
      (s.tim.sec + 1) * 1000000000 * 2 ^ 32 ≤ clockAt s 40000 ∧
      (clockAt s 40000 < (s.tim.sec + 1) * 1000000000 * 2 ^ 32 + 1000000000 * 2 ^ 32) ∧
      (s.tim.sec < 2 ^ 48 - 1)) ∧
    (∃ s : State, (rbit s oCkgEn0 6 = true) ∧
      (clockAt s 40000 < (s.tim.sec + 1) * 1000000000 * 2 ^ 32)) ∧
    (∃ s : State, rbit s oCkgEn0 6 = false) :=
  ⟨⟨aw (regs [(oTimCtl, 1#32), (oRingSts, 3#32)] st0), by decide +kernel⟩,
    ⟨aw (regs [(oTimCtl, 1#32)] st0), by decide +kernel⟩,
    ⟨regs [(oTimCtl, 2#32)] st0, by decide +kernel⟩,
    ⟨regs [(oTimCtl, 1#32)] st0, by decide +kernel⟩,
    ⟨regs [(oTimCtl, 2#32)] st0, by decide +kernel⟩,
    ⟨st0, by decide +kernel⟩,
    ⟨{ st0 with tim := { st0.tim with ns := 999999970 } }, by decide +kernel⟩,
    ⟨{ st0 with tim := { st0.tim with ns := 999999950 } }, by decide +kernel⟩,
    ⟨regs [(oCkgEn0, 0#32)] st0, by decide +kernel⟩⟩

theorem test_Barges_met :
    (∃ s : State, (bg 4 46 ∉ s.bnw.taken) ∧
      (bg 4 46).cls = 0 ∧
      (bargeCredit s (bg 4 46) = true) ∧
      (bargeForm (bg 4 46) = true) ∧
      (bg 4 46).master < 8 ∧
      ((bg 4 46).remote = false ∨ (bg 4 46).master = 6) ∧
      (stubAnswers s (bg 4 46).dst (bg 4 46).master = false)) ∧
    (∃ s : State, (bg 4 46 ∉ s.bnw.taken) ∧
      (bg 4 46).cls = 0 ∧
      (bargeCredit s (bg 4 46) = true) ∧
      (bargeForm (bg 4 46) = true) ∧
      (bg 4 46).master < 8 ∧
      ((bg 4 46).remote = false ∨ (bg 4 46).master = 6) ∧
      (stubAnswers s (bg 4 46).dst (bg 4 46).master = false) ∧
      (bg 4 46).op = 4) ∧
    (∃ s : State, (bg 0 46 ∉ s.bnw.taken) ∧
      (bg 0 46).cls = 0 ∧
      (bargeCredit s (bg 0 46) = true) ∧
      (bargeForm (bg 0 46) = true) ∧
      (bg 0 46).master < 8 ∧
      ((bg 0 46).remote = false ∨ (bg 0 46).master = 6) ∧
      (stubAnswers s (bg 0 46).dst (bg 0 46).master = true)) ∧
    (∃ s : State, (({ bg 0 46 with len := 0 } : Barge)) ∉ s.bnw.taken ∧
      (({ bg 0 46 with len := 0 } : Barge)).cls ≠ 1 ∧
      (({ bg 0 46 with len := 0 } : Barge)).cls ≠ 2 ∧
      (bargeCredit s (({ bg 0 46 with len := 0 } : Barge)) = true) ∧
      (bargeForm (({ bg 0 46 with len := 0 } : Barge)) = false)) ∧
    (∃ s : State, (bg 0 47 ∉ s.bnw.taken) ∧
      (bargeCredit s (bg 0 47) = false)) ∧
    (∃ s : State, (bg 0 46 ∈ s.bnw.taken) ∧
      (bg 0 46).remote = false ∧
      (bg 0 46).op = 0 ∧
      (bg 0 46).dst = 46 ∧
      (bg 0 46).master ≠ 0) ∧
    (∃ s : State, (({ bg 0 47 with master := 9 } : Barge)) ∉ s.bnw.taken ∧
      (({ bg 0 47 with master := 9 } : Barge)).cls = 0 ∧
      (bargeCredit s (({ bg 0 47 with master := 9 } : Barge)) = true) ∧
      (bargeForm (({ bg 0 47 with master := 9 } : Barge)) = true) ∧
      (8 ≤ (({ bg 0 47 with master := 9 } : Barge)).master)) ∧
    (∃ s : State, (rbg ∉ s.bnw.taken) ∧
      (rbg.cls = 0) ∧
      (bargeCredit s rbg = true) ∧
      (bargeForm rbg = true) ∧
      (rbg.master < 6) ∧
      (rbg.remote = true) ∧
      (remoteLink rbg.dev s = some 3) ∧
      (mget 0 (getLnk s 3).bufs rbg.master ≠ 0)) ∧
    (∃ s : State, (rbg ∉ s.bnw.taken) ∧
      (rbg.cls = 0) ∧
      (bargeCredit s rbg = true) ∧
      (bargeForm rbg = true) ∧
      (rbg.master < 6) ∧
      (rbg.remote = true) ∧
      (remoteLink rbg.dev s = some 3) ∧
      (mget 0 (getLnk s 3).bufs rbg.master = 0)) ∧
    (∃ s : State, (rbg ∉ s.bnw.taken) ∧
      (rbg.cls = 0) ∧
      (bargeCredit s rbg = true) ∧
      (bargeForm rbg = true) ∧
      (rbg.master < 6) ∧
      (rbg.remote = true) ∧
      (remoteLink rbg.dev s = none)) ∧
    (∃ s : State, (bgR (bg 0 46) 0 0).cls = 1 ∧
      (bargeForm (bgR (bg 0 46) 0 0) = true) ∧
      (replyBehind s (bgR (bg 0 46) 0 0) = false) ∧
      (List.find? (repliesTo (bgR (bg 0 46) 0 0)) s.bnw.sent = some (bg 0 46)) ∧
      (∀ x ∈ s.bnw.held, x.2 ≠ bg 0 46) ∧
      (nodeFenced s (bgR (bg 0 46) 0 0).dst = false) ∧
      (2 ≤ (bg 0 46).master) ∧
      (bg 0 46).master ≠ 6) ∧
    (∃ s : State, (bgR (bg 1 47 0) 1 0).cls = 1 ∧
      (bargeForm (bgR (bg 1 47 0) 1 0) = true) ∧
      (replyBehind s (bgR (bg 1 47 0) 1 0) = false) ∧
      (List.find? (repliesTo (bgR (bg 1 47 0) 1 0)) s.bnw.sent = some (bg 1 47 0)) ∧
      (∀ x ∈ s.bnw.held, x.2 ≠ bg 1 47 0) ∧
      (nodeFenced s (bgR (bg 1 47 0) 1 0).dst = false) ∧
      (bg 1 47 0).master = 0 ∧
      (bg 1 47 0).op ≠ 0 ∧
      (bgR (bg 1 47 0) 1 0).status = 1) ∧
    (∃ s : State, (bgR (bg 0 47 0) 1 0).cls = 1 ∧
      (bargeForm (bgR (bg 0 47 0) 1 0) = true) ∧
      (replyBehind s (bgR (bg 0 47 0) 1 0) = false) ∧
      (List.find? (repliesTo (bgR (bg 0 47 0) 1 0)) s.bnw.sent = some (bg 0 47 0)) ∧
      (∀ x ∈ s.bnw.held, x.2 ≠ bg 0 47 0) ∧
      (nodeFenced s (bgR (bg 0 47 0) 1 0).dst = false) ∧
      (bg 0 47 0).master = 0 ∧
      (bg 0 47 0).op = 0 ∧
      (bgR (bg 0 47 0) 1 0).status = 1 ∧
      (bgR (bg 0 47 0) 1 0).code = 0) ∧
    (∃ s : State, (bgR (bg 0 47) 1 0).cls = 1 ∧
      (bargeForm (bgR (bg 0 47) 1 0) = true) ∧
      (replyBehind s (bgR (bg 0 47) 1 0) = false) ∧
      (List.find? (repliesTo (bgR (bg 0 47) 1 0)) s.bnw.sent = none) ∧
      (List.find? (repliesTo (bgR (bg 0 47) 1 0)) s.bnw.dead = some (bg 0 47)) ∧
      (∀ x ∈ s.bnw.held, x.2 ≠ bg 0 47)) ∧
    (∃ s : State, (bg 0 47 0 ∈ s.bnw.sent) ∧
      (bg 0 47 0).master ≠ 1) ∧
    (∃ s : State, (bg 0 47 0 ∉ s.bnw.sent) ∧
      (bg 0 47 0 ∉ svcSent s) ∧
      (bg 0 47 0 ∉ jobSent s)) ∧
    (∃ s : State, (2 < 3) ∧
      (47 < 48) ∧
      (43 < 48) ∧
      (∀ x ∈ List.find? (fun x => decide (x.2 = (47, 43))) s.bnw.control, x.1 = 2)) ∧
    (∃ s : State, (List.find? (fun x => decide (x.2 = (32, 5))) s.bnw.control = some (0, 32, 5)) ∧
      (0 ≠ 2)) ∧
    (∃ s : State, ((bg 0 46).cls ≠ 1 ∨ replyBehind s (bg 0 46) = true)) ∧
    (∃ s : State, (({ bgR (bg 0 46) 0 0 with len := 0 } : Barge)).cls = 1 ∧
      (replyBehind s (({ bgR (bg 0 46) 0 0 with len := 0 } : Barge)) = false) ∧
      (bargeForm (({ bgR (bg 0 46) 0 0 with len := 0 } : Barge)) = false)) ∧
    (∃ s : State, (bgR (({ bg 0 46 6 with src := 41 } : Barge)) 0 0).cls = 1 ∧
      (bargeForm (bgR (({ bg 0 46 6 with src := 41 } : Barge)) 0 0) = true) ∧
      (replyBehind s (bgR (({ bg 0 46 6 with src := 41 } : Barge)) 0 0) = false) ∧
      (List.find? (repliesTo (bgR (({ bg 0 46 6 with src := 41 } : Barge)) 0 0)) s.bnw.sent = some (({ bg 0 46 6 with src := 41 } : Barge))) ∧
      (nodeFenced s (bgR (({ bg 0 46 6 with src := 41 } : Barge)) 0 0).dst = false) ∧
      (({ bg 0 46 6 with src := 41 } : Barge)).master = 6 ∧
      (∀ x ∈ s.bnw.held, x.2 ≠ ({ bg 0 46 6 with src := 41 } : Barge)) ∧
      (List.find? (fun x => decide (x.2 = ({ bg 0 46 6 with src := 41 } : Barge))) s.bnw.inbound = some (3, ({ bg 0 46 6 with src := 41 } : Barge))) ∧
      (rfld s (oLnkSts 3) 2 0 = 6)) ∧
    (∃ s : State, (bgR rbg 0 0).cls = 1 ∧
      (bargeForm (bgR rbg 0 0) = true) ∧
      (replyBehind s (bgR rbg 0 0) = false) ∧
      (List.find? (repliesTo (bgR rbg 0 0)) s.bnw.sent = some rbg) ∧
      (2 ≤ rbg.master) ∧
      (rbg.master ≠ 6) ∧
      (List.filter (fun x => decide (x.2 = rbg)) s.bnw.held = [(3, rbg)])) :=
  ⟨⟨st0, by decide +kernel⟩,
    ⟨st0, by decide +kernel⟩,
    ⟨{ st0 with bnw := { st0.bnw with draining := [(46, .fence)] } }, by decide +kernel⟩,
    ⟨st0, by decide +kernel⟩,
    ⟨{ st0 with bnw := { st0.bnw with sent := [bg 0 47, { bg 0 47 with tag := 9 }] } }, by decide +kernel⟩,
    ⟨stTaken (bg 0 46), by decide +kernel⟩,
    ⟨st0, by decide +kernel⟩,
    ⟨stRemote 2, by decide +kernel⟩,
    ⟨stRemote 0, by decide +kernel⟩,
    ⟨st0, by decide +kernel⟩,
    ⟨stSent (bg 0 46), by decide +kernel⟩,
    ⟨stSent (bg 1 47 0), by decide +kernel⟩,
    ⟨stSent (bg 0 47 0), by decide +kernel⟩,
    ⟨{ st0 with bnw := { st0.bnw with dead := [bg 0 47] } }, by decide +kernel⟩,
    ⟨stSent (bg 0 47 0), by decide +kernel⟩,
    ⟨st0, by decide +kernel⟩,
    ⟨{ st0 with bnw := { st0.bnw with dead := [bg 0 43] } }, by decide +kernel⟩,
    ⟨{ st0 with bnw := { st0.bnw with control := [(0, 32, 5), (2, 32, 5)] } }, by decide +kernel⟩,
    ⟨stSent (bg 0 46), by decide +kernel⟩,
    ⟨stSent (bg 0 46), by decide +kernel⟩,
    ⟨(let b := { bg 0 46 6 with src := 41 }; let s := stRemote 2; { s with bnw := { s.bnw with sent := [b], inbound := [(3, b)] } }), by decide +kernel⟩,
    ⟨(let s := stRemote 2; { s with bnw := { s.bnw with sent := [rbg], held := [(3, rbg)] } }), by decide +kernel⟩⟩

theorem test_FaultsAndMonitors_met :
    (∃ s : State, faultListed 6553 = false) ∧
    (∃ s : State, (faultListed 3 = true) ∧
      (3 ≠ 8193) ∧
      (3 < 4096 ∨ (s.seq.st = SeqSt.idle ∨ s.seq.st = SeqSt.ready) ∧ reactOf s 3 ≠ 3)) ∧
    (∃ s : State, (115 ≤ 120) ∧
      (rfld s oPwrSts 2 0 = 0)) ∧
    (∃ s : State, 114 < 115) ∧
    (∃ s : State, (rfld s oSafTlim 7 0 ≤ 112) ∧
      (s.seq.emerg = false) ∧
      (∀ e ∈ s.seq.events, e.kind ≠ 6)) ∧
    (∃ s : State, 5 < rfld s oSafTlim 7 0) ∧
    (∃ s : State, railChecked s 3 = true) ∧
    (∃ s : State, (8 ≤ 8 ∨ (rfld s oPwrSts 2 0 = 4 ∨ rfld s oPwrSts 2 0 = 5) ∧ 8 ∈ [0, 1, 2, 4, 5])) :=
  ⟨⟨st0, by decide +kernel⟩,
    ⟨st0, by decide +kernel⟩,
    ⟨stRun, by decide +kernel⟩,
    ⟨stRun, by decide +kernel⟩,
    ⟨stRun, by decide +kernel⟩,
    ⟨stRun, by decide +kernel⟩,
    ⟨stRun, by decide +kernel⟩,
    ⟨stRun, by decide +kernel⟩⟩

theorem test_RecoveryRestart_met :
    (∃ s : State, rfld s oPwrSts 2 0 = 0) ∧
    (∃ s : State, (s.rst.recov = 1) ∧
      (seqActive s = false) ∧
      (s.lkp.load = none)) ∧
    (∃ s : State, (s.rst.recov ≠ 1 ∨ seqActive s = true)) ∧
    (∃ s : State, (s.rst.recov = 1) ∧
      (seqActive s = true) ∧
      (rfld s oPwrSts 2 0 = 0) ∧
      (s.saf.safe = false)) ∧
    (∃ s : State, s.rst.recov = 2) ∧
    (∃ s : State, s.rst.recov ≠ 2) :=
  ⟨⟨st0, by decide +kernel⟩,
    ⟨{ st0 with rst := { st0.rst with recov := 1 } }, by decide +kernel⟩,
    ⟨st0, by decide +kernel⟩,
    ⟨{ stRun with rst := { stRun.rst with recov := 1 } }, by decide +kernel⟩,
    ⟨{ st0 with rst := { st0.rst with recov := 2 } }, by decide +kernel⟩,
    ⟨{ st0 with rst := { st0.rst with recov := 1 } }, by decide +kernel⟩⟩

theorem test_PllJudging_met :
    (∃ s : State, (2 < 5) ∧
      (rbit s oCkgSts 7 = true) ∧
      (rfld s (oCkgPll 2) 31 30 = 1)) ∧
    (∃ s : State, (2 < 5) ∧
      (rbit s oCkgSts 7 = true) ∧
      (rfld s (oCkgPll 2) 31 30 = 2) ∧
      (Int.natAbs 0 ≤ mget 100 s.clk.tol 2) ∧
      (mget 0 s.clk.pass 2 = 2)) ∧
    (∃ s : State, (0 < 5) ∧
      (rbit s oCkgSts 7 = true) ∧
      (rfld s (oCkgPll 0) 31 30 = 2) ∧
      (Int.natAbs 0 ≤ mget 100 s.clk.tol 0) ∧
      (mget 0 s.clk.pass 0 < 2)) ∧
    (∃ s : State, (0 < 5) ∧
      (rbit s oCkgSts 7 = true) ∧
      (rfld s (oCkgPll 0) 31 30 = 2) ∧
      (mget 100 s.clk.tol 0 < (-5000).natAbs)) ∧
    (∃ s : State, (0 < 5) ∧
      (rbit s oCkgSts 7 = true) ∧
      (rfld s (oCkgPll 0) 31 30 = 3) ∧
      ((-5000).natAbs ≤ mget 100 s.clk.tol 0 ∨ mget 0 s.clk.fails 0 < 2)) ∧
    (∃ s : State, (0 < 5) ∧
      (rbit s oCkgSts 7 = true) ∧
      (rfld s (oCkgPll 0) 31 30 = 3) ∧
      (mget 100 s.clk.tol 0 < Int.natAbs 5000) ∧
      (mget 0 s.clk.fails 0 = 2)) ∧
    (∃ s : State, (4 < 2 ∨ rbit s oCkgSts 7 = false ∨ rfld s (oCkgPll 2) 31 30 = 0)) ∧
    (∃ s : State, (2 < 5) ∧
      (rfld s (oCkgPll 2) 31 30 = 1 ∨ rfld s (oCkgPll 2) 31 30 = 2)) ∧
    (∃ s : State, (rfld s (oCkgPll 2) 31 30 = 0 ∨ rfld s (oCkgPll 2) 31 30 = 3)) :=
  ⟨⟨pll 2 1, by decide +kernel⟩,
    ⟨{ pll 2 2 with clk := { st0.clk with pass := [(2, 2)] } }, by decide +kernel⟩,
    ⟨{ pll 0 2 with clk := { st0.clk with pass := [(0, 1)] } }, by decide +kernel⟩,
    ⟨{ pll 0 2 with clk := { st0.clk with pass := [(0, 1)] } }, by decide +kernel⟩,
    ⟨pll 0 3, by decide +kernel⟩,
    ⟨{ pll 0 3 with clk := { st0.clk with fails := [(0, 2)] } }, by decide +kernel⟩,
    ⟨pll 2 0, by decide +kernel⟩,
    ⟨pll 2 2, by decide +kernel⟩,
    ⟨pll 2 3, by decide +kernel⟩⟩

theorem test_ClockLossAndRamps_met :
    (∃ s : State, rfld s (oCkgPll 0) 31 30 = 3) ∧
    (∃ s : State, (rfld s (oCkgPll 4) 31 30 = 3) ∧
      (rbit s oCkgSts 7 = true)) ∧
    (∃ s : State, (1 < 3) ∧
      (rfld s (oCkgPll (1 + 1)) 31 30 = 3)) ∧
    (∃ s : State, rfld s (oCkgPll 0) 31 30 ≠ 3) ∧
    (∃ s : State, rfld s (oCkgPll 4) 31 30 ≠ 3) ∧
    (∃ s : State, (1 < 3) ∧
      (rfld s (oCkgPll (1 + 1)) 31 30 ≠ 3)) ∧
    (∃ s : State, rbit s oCkgSts 7 = true) ∧
    (∃ s : State, (s.clk.ramp = true) ∧
      (s.seq.ratio < 16)) ∧
    (∃ s : State, (s.clk.ramp = true) ∧
      (16 ≤ s.seq.ratio) ∧
      (s.clk.relock = false) ∧
      (s.clk.resume = false)) ∧
    (∃ s : State, (s.clk.ramp = true) ∧
      (16 ≤ s.seq.ratio) ∧
      (s.clk.relock = false) ∧
      (s.clk.resume = true) ∧
      (s.saf.safe = false) ∧
      (s.seq.tickPend = false)) ∧
    (∃ s : State, (s.clk.ramp = true) ∧
      (16 ≤ s.seq.ratio) ∧
      (s.clk.relock = true) ∧
      (s.clk.resume = false)) ∧
    (∃ s : State, s.clk.ramp = false) :=
  ⟨⟨pllOk stRun, by decide +kernel⟩,
    ⟨pllOk stRun, by decide +kernel⟩,
    ⟨pllOk stRun, by decide +kernel⟩,
    ⟨st0, by decide +kernel⟩,
    ⟨st0, by decide +kernel⟩,
    ⟨st0, by decide +kernel⟩,
    ⟨pllOk stRun, by decide +kernel⟩,
    ⟨{ st0 with clk := { st0.clk with ramp := true }, seq := { st0.seq with ratio := 3 } }, by decide +kernel⟩,
    ⟨{ st0 with clk := { st0.clk with ramp := true }, seq := { st0.seq with ratio := 16 } }, by decide +kernel⟩,
    ⟨{ stHalt with clk := { st0.clk with ramp := true, resume := true }, seq := { stHalt.seq with ratio := 16 } }, by decide +kernel⟩,
    ⟨running (cm 0x17 0 0 0 0) { st0 with clk := { st0.clk with ramp := true, relock := true }, seq := { st0.seq with ratio := 16 } }, by decide +kernel⟩,
    ⟨st0, by decide +kernel⟩⟩

theorem test_Resets_met :
    (∃ s : State, s.std.busy = none) ∧
    (∃ s : State, s.std.busy = none) ∧
    (∃ s : State, (s.std.busy = none) ∧
      (s.rst.ovp = true)) ∧
    (∃ s : State, s.rst.ovp = false) ∧
    (∃ s : State, (s.rst.warm = some 3) ∧
      (s.rst.group = none) ∧
      (rfld s oPwrSts 2 0 = 0)) ∧
    (∃ s : State, s.rst.group ≠ none) ∧
    (∃ s : State, s.rst.warm = none) ∧
    (∃ s : State, (s.rst.perst = false) ∧
      (s.rst.ovp = false) ∧
      (4 ≤ rfld s oCfgBoot 3 0) ∧
      (rfld s oPwrSts 2 0 < 3) ∧
      (s.pwr.off = false)) ∧
    (∃ s : State, (s.rst.perst = false) ∧
      (s.rst.ovp = false) ∧
      (rfld s oCfgBoot 3 0 < 4) ∧
      (rfld s oPwrSts 2 0 < 4 ∨ s.pwr.exit ≠ none)) ∧
    (∃ s : State, (s.rst.group = some (1, 0, 0)) ∧
      (rfld s oPwrSts 2 0 = 0) ∧
      (0 * 1000000000 + 0 ≤ nowNs s)) ∧
    (∃ s : State, (s.rst.group = some (1, 0, 0)) ∧
      (rfld s oPwrSts 2 0 = 0) ∧
      (0 * 1000000000 + 0 ≤ nowNs s)) ∧
    (∃ s : State, (s.rst.group = some (1, 2 ^ 45, 0)) ∧
      (rfld s oPwrSts 2 0 = 0) ∧
      (nowNs s < 2 ^ 45 * 1000000000 + 0)) ∧
    (∃ s : State, (s.rst.group = some (0, 0, 1000)) ∧
      (rfld s oPwrSts 2 0 = 0) ∧
      (groupResetCmd s = some (cm 21 0 1 0 0)) ∧
      (allAcked s 21 = false) ∧
      (0 * 1000000000 + 1000 ≤ nowNs s + 200000)) ∧
    (∃ s : State, (s.rst.group = some (0, 0, 1000)) ∧
      (rfld s oPwrSts 2 0 = 0) ∧
      (allAcked s 21 = true)) ∧
    (∃ s : State, (0 < 32) ∧
      (0 ∈ s.rst.basins) ∧
      (∀ r ∈ s.req, r.q / 4 = 0 → r.served = true)) ∧
    (∃ s : State, 0 ∉ s.rst.basins) ∧
    (∃ s : State, (s.rst.perst = false) ∧
      (s.rst.ovp = true)) :=
  ⟨⟨sm stRun, by decide +kernel⟩,
    ⟨sm stRun, by decide +kernel⟩,
    ⟨sm { st0 with rst := { st0.rst with ovp := true } }, by decide +kernel⟩,
    ⟨sm st0, by decide +kernel⟩,
    ⟨sm { stRun with rst := { st0.rst with warm := some 3 } }, by decide +kernel⟩,
    ⟨sm { stRun with rst := { st0.rst with warm := some 3, group := some (1, 0, 0) } }, by decide +kernel⟩,
    ⟨sm stRun, by decide +kernel⟩,
    ⟨sm stRun, by decide +kernel⟩,
    ⟨sm (boot 3), by decide +kernel⟩,
    ⟨sm { stRun with rst := { st0.rst with group := some (1, 0, 0) } }, by decide +kernel⟩,
    ⟨sm { stRun with rst := { st0.rst with group := some (1, 0, 0) } }, by decide +kernel⟩,
    ⟨sm { stRun with rst := { st0.rst with group := some (1, 2 ^ 45, 0) } }, by decide +kernel⟩,
    ⟨sm (running (cm 21 0 1 0 0) { stGrp with rst := { stGrp.rst with group := some (0, 0, 1000) } }), by decide +kernel⟩,
    ⟨sm (running (cm 21 0 1 0 0) { stGrp with rst := { stGrp.rst with group := some (0, 0, 1000) }, lkp := { stGrp.lkp with run := [cm 21 0 1 0 0], acks := [(21, 2)] } }), by decide +kernel⟩,
    ⟨sm { regs [(oCfgLoaded, 1#32)] stReady with rst := { st0.rst with basins := [0] } }, by decide +kernel⟩,
    ⟨sm st0, by decide +kernel⟩,
    ⟨sm { st0 with rst := { st0.rst with ovp := true } }, by decide +kernel⟩⟩

theorem test_BootStages_met :
    (∃ s : State, (rfld s oCfgBoot 3 0 = 0) ∧
      (s.rst.ovp = false) ∧
      (rfld s oPwrSts 2 0 = 0)) ∧
    (∃ s : State, rfld s oCfgBoot 3 0 = 1) ∧
    (∃ s : State, (rfld s oCfgBoot 3 0 = 1) ∧
      (s.rst.testEn = false)) ∧
    (∃ s : State, rfld s oCfgBoot 3 0 = 2) ∧
    (∃ s : State, (rfld s oCfgBoot 3 0 = 4) ∧
      (s.rst.held = false)) ∧
    (∃ s : State, (rfld s oCfgBoot 3 0 = 4) ∧
      (s.rst.held = false) ∧
      (s.rst.test = false)) ∧
    (∃ s : State, (rfld s oCfgBoot 3 0 = 4) ∧
      (s.rst.held = false) ∧
      (s.rst.test = true) ∧
      (rfld s (oCkgPll 0) 31 30 = 3)) ∧
    (∃ s : State, (rfld s oCfgBoot 3 0 = 5) ∧
      (s.clk.ramp = false) ∧
      (rfld s (oCkgPll 0) 31 30 = 3) ∧
      (∀ i < nStacks s, rbit s (oHldStackSts i) 0 = true)) ∧
    (∃ s : State, rfld s oCfgBoot 3 0 = 6) ∧
    (∃ s : State, (rfld s oCfgBoot 3 0 = 7) ∧
      (7 ≠ 0)) ∧
    (∃ s : State, (rfld s oCfgBoot 3 0 = 7) ∧
      (7 ≠ 1)) ∧
    (∃ s : State, (rfld s oCfgBoot 3 0 = 7) ∧
      (7 ≠ 2)) ∧
    (∃ s : State, (rfld s oCfgBoot 3 0 = 7) ∧
      (7 ≠ 4)) ∧
    (∃ s : State, (rfld s oCfgBoot 3 0 = 7) ∧
      (7 ≠ 5)) ∧
    (∃ s : State, (rfld s oCfgBoot 3 0 = 7) ∧
      (7 ≠ 6)) :=
  ⟨⟨boot 0, by decide +kernel⟩,
    ⟨boot 1, by decide +kernel⟩,
    ⟨boot 1, by decide +kernel⟩,
    ⟨boot 2, by decide +kernel⟩,
    ⟨boot 4, by decide +kernel⟩,
    ⟨{ boot 4 with rst := { State.reset.rst with test := false } }, by decide +kernel⟩,
    ⟨{ pllOk (boot 4) with rst := { State.reset.rst with test := true } }, by decide +kernel⟩,
    ⟨(fun s : State => { s with dev := { s.dev with member := .fx051 } }) <| stReadyMem (pllOk (boot 5)), by decide +kernel⟩,
    ⟨boot 6, by decide +kernel⟩,
    ⟨boot 7, by decide +kernel⟩,
    ⟨boot 7, by decide +kernel⟩,
    ⟨boot 7, by decide +kernel⟩,
    ⟨boot 7, by decide +kernel⟩,
    ⟨boot 7, by decide +kernel⟩,
    ⟨boot 7, by decide +kernel⟩⟩

theorem test_PowerLadder_met :
    (∃ s : State, (entryReady s = true) ∧
      (s.saf.safe = false)) ∧
    (∃ s : State, entryReady s = false) ∧
    (∃ s : State, (Instr.wakeNAsserted, 2) ∈ [(Instr.wakeNAsserted, 2), (Instr.ringWake, 3), (Instr.wakeTimerExpiry, 4)] ∧
      (rbit s oPwrCtl (2 + 2) = false)) ∧
    (∃ s : State, (Instr.wakeNAsserted, 2) ∈ [(Instr.wakeNAsserted, 2), (Instr.ringWake, 3), (Instr.wakeTimerExpiry, 4)] ∧
      (rbit s oPwrCtl (2 + 2) = true) ∧
      (rfld s oPwrSts 2 0 ≠ 0 ∨ rbit s oPwrSts 3 = true ∧ 2 ≠ 4) ∧
      (s.pwr.exit = none) ∧
      (s.rst.ovp = false) ∧
      (2 ≠ 4 ∨ rget s oPwrWakeTmr ≠ 0#32)) ∧
    (∃ s : State, (Instr.wakeNAsserted, 2) ∈ [(Instr.wakeNAsserted, 2), (Instr.ringWake, 3), (Instr.wakeTimerExpiry, 4)] ∧
      (s.pwr.exit = some (3, 9, false)) ∧
      (9 ≠ tsnOf s)) ∧
    (∃ s : State, (Instr.wakeNAsserted, 2) ∈ [(Instr.wakeNAsserted, 2), (Instr.ringWake, 3), (Instr.wakeTimerExpiry, 4)] ∧
      (s.pwr.exit = some (3, tsnOf s, false)) ∧
      (3 ≠ 0) ∧
      (3 ≠ 2) ∧
      (rbit s oPwrCtl (2 + 2) = true) ∧
      (s.rst.ovp = false) ∧
      (2 ≠ 4 ∨ rget s oPwrWakeTmr ≠ 0#32 ∧ rfld s oPwrSts 2 0 ≠ 0)) ∧
    (∃ s : State, (s.pwr.exit = some (2, 7, false)) ∧
      (2 < 5) ∧
      (exitClocks s = true) ∧
      (rfld s oPwrSts 2 0 = 5 → rfld s oCfgBoot 3 0 = 7) ∧
      (s.pwr.safeDue = false) ∧
      (s.pwr.warmDue = false)) ∧
    (∃ s : State, (s.pwr.exit = some (2, 7, false)) ∧
      (2 < 5) ∧
      (exitClocks s = false)) ∧
    (∃ s : State, s.pwr.exit = none) ∧
    (∃ s : State, 23999 < 24000) ∧
    (∃ s : State, 24000 ≤ 24000) ∧
    (∃ s : State, (24500 ≤ 24500) ∧
      (rbit s oPwrSts 9 = true)) ∧
    (∃ s : State, (24499 < 24500 ∨ rbit s oPwrSts 9 = false)) ∧
    (∃ s : State, rbit s oPwrSts 9 = false) ∧
    (∃ s : State, (rbit s oPwrSts 9 = true) ∧
      (rbit s oLkpSts 31 = true) ∧
      (400 < 500)) ∧
    (∃ s : State, rbit s oLkpSts 31 = true) :=
  ⟨⟨sm (pwr 0 1 1), by decide +kernel⟩,
    ⟨st0, by decide +kernel⟩,
    ⟨regs [(oPwrCtl, 0#32)] st0, by decide +kernel⟩,
    ⟨sm (regs [(oPwrCtl, 0x70#32)] (pwr 2 0 0)), by decide +kernel⟩,
    ⟨{ regs [(oPwrCtl, 0x70#32)] (pwr 2 0 0) with pwr := { st0.pwr with exit := some (3, 9, false) } }, by decide +kernel⟩,
    ⟨{ regs [(oPwrCtl, 0x70#32)] (pwr 2 0 0) with pwr := { st0.pwr with exit := some (3, 0, false) } }, by decide +kernel⟩,
    ⟨sm ({ pwr 1 0 1 with pwr := { st0.pwr with exit := some (2, 7, false), fences := [1] } }), by decide +kernel⟩,
    ⟨sm ({ pwr 3 0 1 with pwr := { st0.pwr with exit := some (2, 7, false), fences := [1] } }), by decide +kernel⟩,
    ⟨st0, by decide +kernel⟩,
    ⟨st0, by decide +kernel⟩,
    ⟨st0, by decide +kernel⟩,
    ⟨regs [(oPwrSts, 0x200#32)] st0, by decide +kernel⟩,
    ⟨regs [(oPwrSts, 0x200#32)] st0, by decide +kernel⟩,
    ⟨st0, by decide +kernel⟩,
    ⟨regs [(oPwrSts, 0x200#32)] st0, by decide +kernel⟩,
    ⟨st0, by decide +kernel⟩⟩

/-! ### Ill-formed operands, one for each check of `Instr.wf` -/

theorem test_wf_happenings : ([.instrUpset 2048 0 0 false 0, .instrUpset 0 66 0 false 0, .instrUpset 0 0 1024 false 0,
    .routeUpset 2048 0 0 false 0, .routeUpset 0 1026 0 false 0, .routeUpset 0 0 4 false 0, .parityUpset 2048 0 0, .parityUpset 0 66 0,
    .parityUpset 0 0 2048, .dmUpset 384 0 false 0, .dmUpset 0 32768 false 0, .holdUpset 0x300000000 false 0, .logicFault 2048 0 .x,
    .logicFault 0 64 .x, .portFault 2048 0 0 [], .portFault 0 64 0 [], .portFault 0 0 0 [.x, .x, .x, .x, .x], .shadowFault 2048,
    .scrubInstr 2048 0 0, .scrubInstr 0 66 0, .scrubInstr 0 0 1024, .scrubRoute 2048 0, .scrubRoute 0 1026, .slip 32 0,
    .lanePin 512 .none, .laneLeft 512 true, .zdPin 64 .high, .stdUpset 256 true] : List Happening).all
      (fun h => !(Instr.evaluationStep [h]).wf && !(Instr.firstTickStep [h]).wf && !(Instr.secondTickStep [h]).wf &&
        !(Instr.lockPhaseStep [h]).wf && !(Instr.bar0Read 0 4 [h]).wf && !(Instr.bootOscDone false [h]).wf &&
        !(Instr.bootArmDone 0 0 [h]).wf) = true := by decide +kernel

theorem test_wf_command_fields : ([{ cm 1 0 0 0 0 with port := 18 }, cm 2 0 0 0 0, cm 1 256 0 0 0, { cm 1 0 0 0 0 with rsv := 65536 },
    { cm 1 0 0 0 0 with tag := 2 ^ 32 }, cm 1 0 (2 ^ 64) 0 0, cm 1 0 0 (2 ^ 64) 0, cm 1 0 0 0 (2 ^ 64), cm 1 0 0 0 0] : List Cmd).all
      (fun c => !(Instr.imgLoad c).wf) = true := by decide +kernel

theorem test_wf_command_opcodes : ((fun c : Cmd => [Instr.imgLoad c, .imgVerify c, .run c, .halt c, .stepFrames c, .stateRead c,
    .stateWrite c, .bankOwner c, .fence c, .unfence c, .powerState c, .traceArm c, .unseal c, .selftest c 0, .march c, .faultRead c,
    .faultDump c, .timeSet c, .tableLoad c, .isolate c, .reset c, .clkResume c, .stepClock c .clean, .seqSet c, .stdWrite c])
      (cm 0 0 0 0 0 (List.replicate 32 0#8))).all (!·.wf) = true := by decide +kernel

theorem test_wf_march : ([⟨[384], [], [], 0⟩, ⟨[], [(2048, 0)], [], 0⟩, ⟨[], [(0, 66)], [], 0⟩, ⟨[], [], [(2048, 0)], 0⟩,
    ⟨[], [], [(0, 66)], 0⟩] : List MarchFinds).all (fun f => !(Instr.marchComplete f).wf && !(Instr.bootTestDone f []).wf) = true := by
  decide +kernel

theorem test_wf_barge_fields : ((fun b : Barge => [{ b with pri := 4 }, { b with cls := 4 }, { b with master := 16 },
    { b with dst := 64 }, { b with src := 64 }, { b with dev := 64 }, { b with tag := 4096 }, { b with op := 16 }, { b with status := 4 },
    { b with code := 16 }, { b with addr := 2 ^ 64 }]) (bg 0 0)).all
      (fun b => !(Instr.bargeRequestArrival b ⟨false, 0⟩).wf && !(Instr.bargeReplyArrival { b with cls := max b.cls 1 }).wf && !(Instr.bargeTimeout b).wf) = true := by
  decide +kernel

theorem test_wf_barge_class : ([.bargeRequestArrival { bg 0 0 with cls := 1 } ⟨false, 0⟩, .bargeRequestArrival (bg 0 0) ⟨false, 12⟩, .bargeReplyArrival (bg 0 0),
    .bargeTimeout { bg 0 0 with cls := 1 }] : List Instr).all (!·.wf) = true := by decide +kernel

theorem test_wf_host_operands : ([.bar0Read (2 ^ 26) 4 [], .bar0Read 0 4097 [], .registerWrite (2 ^ 26) [] ⟨.clean, false⟩,
    .registerWrite 0 (List.replicate 4097 0#8) ⟨.clean, false⟩, .bar2Read (2 ^ 29) 4, .bar2Read 0 4097, .bar2Write (2 ^ 29) [],
    .bar2Write 0 (List.replicate 4097 0#8), .bar4Read (2 ^ 37) 4, .bar4Read 0 4097, .bar4Write (2 ^ 37) [],
    .bar4Write 0 (List.replicate 4097 0#8), .selftest (cm 14 0 0 0 0 (List.replicate 32 0#8)) 512, .commandTaken 512 .clean,
    .hostReadError (.ring 16), .hostReadError (.load 65536), .hostReadError (.verify 65536), .hostReadError (.tableLoad (cm 0 0 0 0 0)),
    .hostReadError (.stateWrite (cm 0 0 0 0 0) 0)] : List Instr).all (!·.wf) = true := by decide +kernel

theorem test_wf_register_rows : ([.dmcOwnHandover 384 0, .dmcOwnHandover 0 0x80000000, .dmcOwnRefusalClear 384 0x80000000,
    .dmcOwnRefusalClear 0 0, .hldRegionWrite 128 0 true 0, .hldRegionWrite 0 16 true 0, .lnkCtlEnWrite 12 true, .lnkCtlRetrain 12 true,
    .xchRingCiWrite 64 0, .xchRingLoWrite 64 0, .gauLaneWrite 512 0, .gauZdmapWrite 64 0, .gauRingLoWrite 2 0, .gauRingCiWrite 2 0,
    .ckgStepMhzWrite 2048 .clean, .lkpCrPiWrite 16 0, .lkpRrCiWrite 16 0, .lkpCrLoWrite 16 0, .lkpRrLoWrite 16 0,
    .stdRegisterWrite 256 0] : List Instr).all (!·.wf) = true := by decide +kernel

theorem test_wf_memory_rows : ([.dmcServiceRequest { svc .read with bank := 384 }, .dmcServiceRequest { svc .read with word := 32768 },
    .dmcServiceRequest { svc .read with master := 16 }, .dmcServiceAccess 384, .dmcDeferredWrite 384, .dmcEccWriteback 384 0,
    .dmcEccWriteback 0 32768, .dmcPatrolRead 384, .holdAccessComplete 2048, .holdRefreshDue 2048, .holdScrubRead 4,
    .sluiceReplyArrival 128 0, .sluiceReplyArrival 0 16, .holdStackReady 4, .xchClosePoint (2 ^ 48), .edgeCapture 16 ⟨true, 0⟩, .edgeCapture 0 ⟨true, 40⟩,
    .holdRefreshDoubling 4 0, .holdRefreshDoubling 0 256] : List Instr).all (!·.wf) = true := by decide +kernel

theorem test_wf_link_rows : ([.linkSignalDetected 12, .linkDetectTimeout 12, .linkTrainDone 12, .linkTrainTimeout 12, .linkAlignDone 12,
    .linkAlignTimeout 12, .linkIdentReceived 12 0 0 0, .linkIdentReceived 0 64 0 0, .linkIdentReceived 0 0 12 0,
    .linkIdentReceived 0 0 0 65536, .linkMeasureDone 12 0, .linkRetryTimer 12, .linkDown 12 0, .linkDown 0 7,
    .linkCodewordReceived 12 .clean, .linkGroupReceived 12 0 (List.replicate 448 .z), .linkGroupReceived 0 (2 ^ 60) (List.replicate 448 .z),
    .linkGroupReceived 0 0 [], .doneMarkerReceived 12 0 true true, .doneMarkerReceived 0 (2 ^ 32) true true, .markerWindowClose 12,
    .linkFlitReceived 12 0 true, .linkFlitReceived 0 65536 true, .linkAckReceived 12 true 0, .linkAckReceived 0 true 65536,
    .expressWordReceived 12 0 0 0 0 true, .expressWordReceived 0 16 0 0 0 true, .expressWordReceived 0 0 64 0 0 true,
    .expressWordReceived 0 0 0 16 0 true, .expressWordReceived 0 0 0 0 (2 ^ 34) true] : List Instr).all (!·.wf) = true := by
  decide +kernel

theorem test_wf_group_rows : ([.groupFormationComplete 6 [], .groupFormationComplete 0 [⟨64, 0, 0, 0, 0⟩],
    .groupFormationComplete 0 [⟨0, 12, 0, 0, 0⟩], .groupFormationComplete 0 [⟨0, 0, 64, 0, 0⟩], .groupFormationComplete 0 [⟨0, 0, 0, 12, 0⟩],
    .ringMessageReceived 64 0 0 .wake .clean, .ringMessageReceived 0 64 0 .wake .clean, .ringMessageReceived 0 0 65536 .wake .clean,
    .ringPortRetrain 2 true 0, .timeBeaconExchange 2 0 0 0 0 0 0 0 true, .timeBeaconExchange 0 0 0 0 40000 0 0 0 true, .timeBeaconExchange 0 0 0 0 0 64 0 0 true,
    .timeBeaconExchange 0 0 0 0 0 0 64 0 true, .timeBeaconExchange 0 0 0 0 0 0 0 65536 true, .ppsInEdge 40000,
    .controlBargeArrival 3 0 0, .controlBargeArrival 0 48 0, .controlBargeArrival 0 0 48, .drainComplete 48, .drainTimeout 48] :
      List Instr).all (!·.wf) = true := by decide +kernel

theorem test_wf_system_rows : ([.faultReport 65536 0 0 0, .faultReport 0 16 0 0, .faultReport 0 0 (2 ^ 28) 0, .faultReport 0 0 0 (2 ^ 48),
    .railMonitorTrip 8 0, .railMonitorTrip 0 (2 ^ 48), .tempEmergency 256, .tempCritical 256, .stepPllLockLoss [(2048, 0, 0)],
    .stepPllLockLoss [(0, 66, 0)], .stepPllLockLoss [(0, 0, 2048)], .linkPllLockLoss 3, .pllWindowEnd 5 0 true ⟨.clean, []⟩, .pllWindowEnd 0 0 true ⟨.clean, [(0, 66, 0)]⟩, .crystalLost ⟨.clean, [(2048, 0, 0)]⟩, .pllJudgeTimeout 5,
    .powerOnReset 64, .bootTestDone ⟨[], [], [], 0⟩ [4], .bootArmDone 65536 0 [], .bootArmDone 0 4 [], .basinResetEffect 32,
    .vinBelow24v 65536, .powerCapEnd 65536, .powerCapSample 65536 0, .powerCapSample 0 65536, .thermalThrottleSample 256] :
      List Instr).all (!·.wf) = true := by decide +kernel

theorem test_wf_accepts : ([.evaluationStep [.logicFault 2047 63 .z], .imgLoad (cm 1 255 0 0 0 (List.replicate 32 0#8)), .lnkCtlEnWrite 11 true,
    .dmcOwnHandover 383 0x7FFFFFFF, .dmcOwnRefusalClear 383 0x80000000, .linkGroupReceived 11 (2 ^ 60 - 1) (List.replicate 448 .z),
    .bargeRequestArrival (bg 0 0) ⟨true, 11⟩] : List Instr).all (·.wf) = true := by decide +kernel

/-! ### The spec's worked examples -/

/-- 02, a half adder fed X: the four words decode to their tables, and give X, X, 1, X for a = 1 and b = X. -/
theorem test_half_adder_words : [0x6666801004000000#64, 0x8888801004000000#64, 0xEEEE801004000000#64, 0xEEEE000004000000#64].map
    (fun w => (decodeWord 384 true w, wA w, wB w)) =
      [(.eval 0x6666 false, 0x400, 0x401), (.eval 0x8888 false, 0x400, 0x401), (.eval 0xEEEE false, 0x400, 0x401), (.eval 0xEEEE false, 0, 1)] := by
  decide +kernel
theorem test_half_adder_one_x :
    [evalTT 0x6666 .one .x .zero .zero, evalTT 0x8888 .one .x .zero .zero, evalTT 0xEEEE .one .x .zero .zero, evalTT 0xEEEE .x .x .zero .zero] =
      [.x, .x, .one, .x] := by decide +kernel
theorem test_half_adder_zero_z :
    [evalTT 0x6666 .zero .z .x .x, evalTT 0x8888 .zero .z .x .x, evalTT 0xEEEE .zero .z .x .x] = [.x, .zero, .x] := by decide +kernel

/-- 02, an enabled D flip-flop: its word, and its entry in the frames F to F+2. -/
theorem test_flip_flop_word : (decodeWord 384 true 0x00B880500F807001#64, wA 0x00B880500F807001#64, wB 0x00B880500F807001#64,
    wC 0x00B880500F807001#64, wD 0x00B880500F807001#64) = (.eval 0x00B8 true, 0x402, 0x403, 0x700, 0x700) := by decide +kernel
theorem test_flip_flop_frames : [evalTT 0xB8 .one .zero .zero .zero, evalTT 0xB8 .one .one .zero .zero, evalTT 0xB8 .zero .x .one .zero,
    evalTT 0xB8 .one .x .one .zero] = [.zero, .one, .x, .one] := by decide +kernel

/-- 02, a tri-state bus: the words of ZBUF and WIRE, and the rows of the table. -/
theorem test_bus_words : [decodeWord 384 true 0x400082104400000C#64, decodeWord 384 true 0x5A0000000401000C#64] = [.zbuf false, .wire 3 2] := by
  decide +kernel
theorem test_bus_rows : [wireOf 2 [zbufOf false .zero .one, zbufOf false .x .zero, zbufOf false .x .zero], wireOf 2 [.z, .z, .z],
    wireOf 2 [.one, .zero, .z], wireOf 2 [.one, .one, .z], wireOf 2 [.z, .z, zbufOf false .one .x]] = [.zero, .one, .x, .one, .x] := by
  decide +kernel

/-- 02, a design-memory read and a sluice read: their words. -/
theorem test_memory_words : [0x1800881106210004#64, 0x1C0088711222C464#64, 0x30C87D0000000004#64, 0x5003000000000004#64].map (decodeWord 384 true) =
    [.ashl 3 false, .ashl 4 false, .rd 200, .rcol 3] := by decide +kernel
theorem test_sluice_words : [0x1D008C1186314638#64, 0x1C008C9196334678#64, 0x30397D0000000008#64, 0x100900000000000C#64, 0x5079000000000008#64].map
    (decodeWord 384 true) = [.hshl 4 true, .hshl 4 false, .hrd 3 9, .wait 9, .hcol 7 9] := by decide +kernel

/-- 04, hard contention on a lane: both export 1, then they differ. -/
theorem test_contention_rows : [resolve2 .one .z, resolve2 .one .one, resolve2 .one .zero] = [(.one, none), (.one, some false), (.x, some true)] := by
  decide +kernel

/-- 06, where a sluice read lands: stack 3, pseudo-channel 2, DRAM bank 0; the line 2,048 further on lies in the same bank. -/
theorem test_hold_place : lineBank st0 (0x1234002E0 / 64) = 3 + 4 * (2 + 32 * 0) ∧ lineBank st0 (0x1234002E0 / 64 + 2048) = lineBank st0 (0x1234002E0 / 64) ∧
    lineBank st0 (0x1234002E0 / 64 + 2049) % 4 = 0 := by decide +kernel

/-- 00, the global index of 17.42.05 and its sluice; 11, two faults in one step: the log's words. -/
theorem test_global_index : locProc 0 (64 * 17 + 42) 5 = 72325 ∧ sluiceOf (64 * 17 + 42) = 70 := by decide +kernel
theorem test_fault_record_parity :
    recBytes ⟨0x1004, 1, some 5000, false, 0, 1, locProc 14 609 14, 7⟩ =
      leBytes 4 0x10046000 ++ leBytes 4 0x101C984E ++ leBytes 4 0x1388 ++ leBytes 4 7 := by decide +kernel
theorem test_fault_record_contention :
    recBytes ⟨0x2001, 0, some 5000, false, 0, 2, locClu 22 7 609, 7⟩ =
      leBytes 4 0x20012000 ++ leBytes 4 0x202C3A61 ++ leBytes 4 0x1388 ++ leBytes 4 7 := by decide +kernel

/-- 03, throttling a 256-step model: the first horizon-aligned step at least 256 steps after GSC 1,000,000. -/
theorem test_horizon_alignment : alignUp (1000000 + 256) 256 = 1000448 := by decide

/-- 18, a refused handover: DMC_OWN[32] reads 0x9000_0000, and the reply in the mailbox says DENIED. -/
theorem test_handover_refused :
    let c : Cmd := { cm 8 0 0x010000AA 0x20 0 (List.replicate 32 0#8) with port := 16, tag := 0x17 }
    (nextOf (exec (.bankOwner c) (regs [(oCfgFenced, 0#32)] stRun))).map (fun t => (rget t (oDmcOwn 32), rget t (oLkpMboxRpl 0))) = some (0x90000000#32, 0x00080005#32) := by
  decide +kernel

/-! ### Single steps -/

/-- R12: a counter that clears on read gives its count once. -/
theorem test_read_clears : (nextOf (exec (.bar0Read (oDmcConf 1) 4 []) (regs [(oDmcConf 1, 9#32)] st0))).map
    (fun t => (t.host.cpl.map (·.data), rget t (oDmcConf 1))) = some ([leBytes 4 9], 0#32) := by decide +kernel

/-- R11: a host write of ones to SEQ_STALL_TMO sets its 24 bits, and no reserved bit. -/
theorem test_reserved_bits : (nextOf (exec (.registerWrite oSeqStallTmo [0xFF#8, 0xFF#8, 0xFF#8, 0xFF#8] ⟨.clean, false⟩) st0)).map
    (fun t => rget t oSeqStallTmo) = some 0xFFFFFF#32 := by decide +kernel

/-! ### The port sub-operations of EvaluationWrites: what each clause asks for, met by a state -/

/-- What a state's processor 0.0.0 presents in its next step. -/
def first (s : State) : ProcOut := procStep (strikes [] s) 0 s.seq.pos 0 (procFaultOf [] 0 0)

/-- One state for each clause: the shifts and sets; RD and WR issued, with enable 0, of a foreign bank, of an unknown address; HRD and HWR
issued, of unknown address, with enable 0, beyond the region, on an outstanding tag; WAIT of data, of a write, of a reply not yet come; XSEND,
GDRV, PROBE and TRIG; a read whose data arrive. -/
def portStates : List State := [
  stOp (iw 1 0x1C00), stOp (iw 2 0x1D00), stOp (iw 1 0x2C10), stOp (iw 2 0x2C10), stOp (iw 2 0x8C10),
  stOp (iw 1 0x3000) stBank, stOp (iw 1 0x4000) stBank, stOp (iw 1 0x3000 2) stBank, stOp (iw 1 0x3001) stBank,
  setCl 0 { getCl (stOp (iw 1 0x3000) stBank) 0 with ma := 2 } (stOp (iw 1 0x3000) stBank),
  stOp (iw 2 0x3039) stSlu, stOp (iw 2 0x4039) stSlu, setCl 0 { getCl (stOp (iw 2 0x4039) stSlu) 0 with ho := 2 } (stOp (iw 2 0x4039) stSlu),
  stOp (iw 2 0x4039 2) stSlu, setCl 0 { getCl (stOp (iw 2 0x4039) stSlu) 0 with ho := 2 ^ 20 } (stOp (iw 2 0x4039) stSlu),
  stOp (iw 2 0x4039) (stTag .written), stOp (iw 3 0x1009) (stTag (.data 0x1234#64)), stOp (iw 3 0x1009) (stTag .written),
  stOp (iw 3 0x1009) (stTag .waiting), stOp (iw 2 0x9003), stOp (iw 2 0xC003), stOp (iw 3 0x2001 1 2), stOp (iw 3 0x3002),
  setCl 0 { getCl (stOp 0) 0 with memOps := [⟨.read, 0, 0, 2, 5, BitVec.ofNat 1024 0x1234, true⟩] }
    { stOp 0 with seq := { (stOp 0).seq with spos := dmLatency st0 - 1 } }]

theorem test_EvaluationWrites_ports_met : portStates.all (fun s => Canonical s && stepClock s && decide (s.seq.st = .flight) &&
    decide (s.seq.pos < rfld s oSeqCfg 10 0) && decide (noneDue s) && basinRuns s 0 && decide ((procFaultOf [] 0 0).port = none)) = true := by
  decide +kernel
theorem test_EvaluationWrites_port_ops : portStates.map (fun s => (first s).op) =
    [.ashl 4 false, .hshl 4 true, .wset 4 16, .hset 4 16, .xset 4 16, .rd 0, .wr 0, .rd 0, .rd 1, .rd 0, .hrd 3 9, .hwr 3 9, .hwr 3 9,
      .hwr 3 9, .hwr 3 9, .hwr 3 9, .wait 9, .wait 9, .wait 9, .xsend 3 6146, .gdrv 3, .probe 2050, .trig 2, .eval 0 false] := by
  decide +kernel
theorem test_EvaluationWrites_banks_met :
    ((portStates.drop 5).take 5).map (fun s => (argAt (first s).vs 0, portOwns s 0 0, portOwns s 0 1, v4nat? (plist (getCl s 0).ma 15))) =
      [(.one, true, false, some 3), (.one, true, false, some 3), (.zero, true, false, some 3), (.one, true, false, some 3), (.one, true, false, none)] := by
  decide +kernel
theorem test_EvaluationWrites_tags_met :
    ((portStates.drop 10).take 9).map (fun s => (argAt (first s).vs 0, getTag s 0 9, v4nat? (plist (getCl s 0).ho 34), rfld s (oHldRgnSize 0 3) 24 0)) =
      [(.one, .free, some 6, 1), (.one, .free, some 6, 1), (.one, .free, none, 1), (.zero, .free, some 6, 1), (.one, .free, some 1024, 1),
        (.one, .written, some 6, 1), (.zero, .data 0x1234#64, some 6, 1), (.zero, .written, some 6, 1), (.zero, .waiting, some 6, 1)] := by
  decide +kernel
theorem test_EvaluationWrites_others_met : ((portStates.drop 19).take 4).all (fun s => decide (argAt (first s).vs 0 = .one) && !(getCl s 0).xsent &&
    decide (sentHere s 0 s = 0) && laneBound s 0 3 && decide (mget none s.trc.probe 2050 = none) && !sealed s 0) = true := by decide +kernel
theorem test_EvaluationWrites_data_met : portStates.getLast?.map (fun s => (getCl s 0).memOps.map fun m =>
    (m.kind, decide (m.issued + dmLatency s = s.seq.spos + 1), decide (m.issued + 1 ≠ s.seq.spos))) = some [(.read, true, true)] := by
  decide +kernel

/-- No other processor of the sluice presents a sub-operation of the same port. -/
theorem test_EvaluationWrites_alone : (List.range 16).all (fun d => (List.range 64).all fun i =>
    (d = 0 && i = 0) || decide ((procStep (stOp (iw 2 0x3039) stSlu) d 5 i {}).op = .eval 0 false)) = true := by decide +kernel

/-- The landings of SequencerSteps: no slot, one, two that agree, that differ, one of which drives nothing, three with LOCEN; a staged value. -/
theorem test_SequencerSteps_slots_met : landSlots 0 0 = [] ∧ landSlots (rwd [(5, 0)]) 0 = [0] ∧ landSlots (rwd [(5, 0), (6, 0)]) 0 = [0, 1] ∧
    (landSlots (rwd [(5, 0), (6, 0), (6, 0)] 1 1) 0).length = 3 ∧ rLocen (rwd [(5, 0), (6, 0), (6, 0)] 1 1) 0 = true ∧
    [stImp (rwd [(5, 0), (6, 0)]) .one .one, stImp (rwd [(5, 0), (6, 0)]) .one .zero, stImp (rwd [(5, 0), (6, 0)]) .z .one].map
      (fun s => (srcVal s 0 5, srcVal s 0 6, routeBad (getCl s 0) s.seq.pos)) = [(.one, .one, false), (.one, .zero, false), (.z, .one, false)] ∧
    routeBad { getCl st0 0 with rwEcc := [(21, .double)] } 5 = true ∧ mget none (getCl stTick 0).staged 1792 = some .one := by
  decide +kernel

end Sys2Proof.Tests
end

namespace Sys2Proof.Machine

/-! ## Register words, bit by bit -/

theorem nbit_eq_testBit (n i : Nat) : nbit n i = n.testBit i := by
  simp [nbit, Nat.testBit, Nat.and_comm, Nat.and_one_is_mod]

theorem bit_ofNat {n i : Nat} (hi : i < 32) : bit (BitVec.ofNat 32 n) i = nbit n i := by
  rw [bit, BitVec.getLsbD_ofNat, nbit_eq_testBit, decide_eq_true hi, Bool.true_and]

/-- Fields masked out, written through a mask, cleared and set, bit by bit. -/
theorem bit_and (x y : Word) (i : Nat) : bit (x &&& y) i = (bit x i && bit y i) := BitVec.getLsbD_and
theorem bit_or (x y : Word) (i : Nat) : bit (x ||| y) i = (bit x i || bit y i) := BitVec.getLsbD_or
theorem bit_not {i : Nat} (x : Word) (hi : i < 32) : bit (~~~x) i = !bit x i := by simp [bit, hi]

/-- A flag set: its own bit is 1, every other bit as it was. -/
theorem bit_setBit (w : Word) {i : Nat} (hi : i < 32) (b : Nat) : bit (setBit w i) b = (bit w b || decide (b = i)) := by
  by_cases hb : b < 32
  · rw [setBit, bit_or, bit_ofNat hb, nbit_eq_testBit, Nat.one_shiftLeft, Nat.testBit_two_pow]
    simp [eq_comm]
  · have hne : b ≠ i := by omega
    have hge (x : Word) : bit x b = false := BitVec.getLsbD_of_ge x b (by omega)
    simp [hge, hne]

/-- The bits of a field. -/
theorem testBit_fld (w : Word) (hi lo i : Nat) : (fld w hi lo).testBit i = (decide (i < hi + 1 - lo) && bit w (lo + i)) := by
  rw [fld, nfld, Nat.testBit_mod_two_pow, Nat.testBit_shiftRight, bit, BitVec.testBit_toNat]

/-- A field made `v` holds `v`, as far as the field is wide. -/
theorem fld_setFld (w : Word) {hi lo : Nat} (h : hi < 32) (v : Nat) : fld (setFld w hi lo v) hi lo = v % 2 ^ (hi + 1 - lo) := by
  apply Nat.eq_of_testBit_eq
  intro i
  rw [testBit_fld, Nat.testBit_mod_two_pow]
  by_cases hin : i < hi + 1 - lo
  · have hw : lo + i < 32 := by omega
    simp [setFld, bit_or, bit_and, bit_not _ hw, bit_ofNat hw, nbit_eq_testBit, Nat.testBit_shiftLeft, hin]
  · simp [hin]

/-- A mask of no bit leaves a word as it is. -/
theorem and_not_ofNat_zero (w : Word) : w &&& ~~~(BitVec.ofNat 32 0) = w := BitVec.and_allOnes

/-! ## Reads of one register -/

/-- A read that meets its register gives its value and has its effect. -/
theorem leadsTo_bar0Read {s : State} {off : Nat} (h : hostSees s off = true) (hf : regForm off 4 = true) :
    leadsTo (.bar0Read off 4 []) s (hostCpl .ok false 0 off (leBytes 4 (readValue s off).toNat) (readEffect off s)) :=
  leadsTo_settled (congrArg settled (bar0Read_sees h hf))

theorem hostSees_exists {s : State} {off : Nat} (h : hostSees s off = true) : regExists s off = true := by
  obtain ⟨-, -, -, hx, -⟩ := hostSees_parts h
  exact hx

theorem stdRead_restSame (i : Nat) (s : State) : restSame s (stdRead i s).2 := by
  unfold stdRead
  split <;> rfl

/-- Nothing but registers changes by a read (R12). -/
theorem readEffect_restSame (off : Nat) (s : State) : restSame s (readEffect off s) := by
  unfold readEffect
  split_ifs
  · rfl
  · rfl
  · rfl
  · rfl
  · exact stdRead_restSame _ s
  · split
    · rfl
    · split
      · split <;> rfl
      · rfl

theorem restSame_iff {s t : State} : restSame s t ↔ ∃ r, t = { s with regs := r } := by
  constructor
  · intro h
    exact ⟨t.regs, congrArg (fun x : State => { x with regs := t.regs }) h⟩
  · rintro ⟨r, rfl⟩
    rfl

/-- A read hands the host a completion, and apart from registers nothing else changes. -/
theorem hostCpl_frame {s t : State} (h : restSame s t) (st : CplSt) (ep : Bool) (bar addr : Nat) (data : List Byte) :
    let u := hostCpl st ep bar addr data t
    u.host.cpl = ⟨st, ep, bar, addr, data⟩ :: s.host.cpl ∧
      { u with regs := s.regs, host := { u.host with cpl := s.host.cpl } } = s := by
  obtain ⟨r, rfl⟩ := restSame_iff.1 h
  exact ⟨rfl, rfl⟩

theorem rget_hostCpl (st : CplSt) (ep : Bool) (bar addr : Nat) (data : List Byte) (s : State) (off : Nat) :
    rget (hostCpl st ep bar addr data s) off = rget s off := rfl

/-- One register written: every other holds what it held. -/
theorem regsBut_rset (off : Nat) (w : Word) (s : State) : regsBut [off] s (rset off w s) := fun o ho =>
  rget_rset_other off o w s (by simpa using ho)

theorem partAt_none {off : Nat} (h4 : off % 4 = 0) (h : ∀ j < 64, off ≠ oXchPartUse j) : partAt off = none := by
  unfold partAt
  rw [if_neg]
  intro hin
  simp only [Bool.and_eq_true, decide_eq_true_eq] at hin
  exact h ((off - 0xC0200) / 4) (by omega) (by unfold oXchPartUse; omega)

theorem partAt_partUse {j : Nat} (hj : j < 64) : partAt (oXchPartUse j) = some j := by
  unfold partAt oXchPartUse
  rw [if_pos (by simp; omega)]
  congr 1
  omega

/-- The RC fields of a register with no effect of its own read clear (R12). -/
theorem readEffect_card {s : State} {off : Nat} {c : Card} (hx : regExists s off = true) (hl : off ∉ [oSeqFrameLo, oSeqGscLo, oTimNs])
    (hstd : off < 0x60000 ∨ 0x60400 ≤ off) (hp : partAt off = none) (hc : cardAt off = some c) :
    readEffect off s = if c.rc = 0 then s else rmod off (· &&& ~~~(BitVec.ofNat 32 c.rc)) s := by
  simp only [List.mem_cons, List.not_mem_nil, or_false, not_or] at hl
  obtain ⟨h1, h2, h3⟩ := hl
  have hb : (blockOf off = 6 && off < 0x60400) = false := by
    unfold blockOf
    simp
    omega
  simp [readEffect, hx, h1, h2, h3, hb, hp, hc]

theorem readEffect_partUse {s : State} {j : Nat} (hj : j < 64) (hx : regExists s (oXchPartUse j) = true) :
    readEffect (oXchPartUse j) s = rput (oXchPartUse j) 29 18 (partHwm s j) s := by
  have hb : (blockOf (oXchPartUse j) = 6 && oXchPartUse j < 0x60400) = false := by
    unfold blockOf oXchPartUse
    simp
    omega
  have h1 : oXchPartUse j ≠ oSeqFrameLo := by unfold oXchPartUse oSeqFrameLo; omega
  have h2 : oXchPartUse j ≠ oSeqGscLo := by unfold oXchPartUse oSeqGscLo; omega
  have h3 : oXchPartUse j ≠ oTimNs := by unfold oXchPartUse oTimNs; omega
  simp [readEffect, hx, h1, h2, h3, hb, partAt_partUse hj]


/-- The first part of O7: a register of RC fields and none of its own. -/
theorem read_clears {s : State} {off : Nat} {c : Card} (h4 : off % 4 = 0) (ht : off < 0x4000000) (h : hostSees s off = true)
    (hstd : off < 0x60000 ∨ 0x60400 ≤ off) (hl : off ∉ [oSeqFrameLo, oSeqGscLo, oTimNs]) (hp : ∀ j < 64, off ≠ oXchPartUse j)
    (hc : cardAt off = some c) :
    ∃ u, leadsTo (.bar0Read off 4 []) s u ∧ rget u off = rget s off &&& ~~~(BitVec.ofNat 32 c.rc) ∧ regsBut [off] s u ∧
      { u with regs := s.regs, host := { u.host with cpl := s.host.cpl } } = s := by
  refine ⟨_, leadsTo_bar0Read h (by simp [regForm, h4, ht]), ?_, ?_, (hostCpl_frame (readEffect_restSame off s) ..).2⟩
  all_goals rw [readEffect_card (hostSees_exists h) hl hstd (partAt_none h4 hp) hc]
  · rw [rget_hostCpl]
    split
    · next h0 => rw [h0, and_not_ofNat_zero]
    · exact rget_rset_same ..
  · split
    · exact fun _ _ => rfl
    · exact regsBut_rset off _ s

theorem read_partUse {s : State} {j : Nat} (hj : j < 64) (h : hostSees s (oXchPartUse j) = true) :
    ∃ u, leadsTo (.bar0Read (oXchPartUse j) 4 []) s u ∧ rfld u (oXchPartUse j) 29 18 = (partUsed s j + 63) / 64 % 4096 ∧
      regsBut [oXchPartUse j] s u ∧ { u with regs := s.regs, host := { u.host with cpl := s.host.cpl } } = s := by
  have hf : regForm (oXchPartUse j) 4 = true := by
    have h4 : oXchPartUse j % 4 = 0 := by unfold oXchPartUse; omega
    have hlt : oXchPartUse j < 0x4000000 := by unfold oXchPartUse; omega
    simp [regForm, h4, hlt]
  refine ⟨_, leadsTo_bar0Read h hf, ?_, ?_, (hostCpl_frame (readEffect_restSame _ s) ..).2⟩
  all_goals rw [readEffect_partUse hj (hostSees_exists h)]
  · rw [rfld, rget_hostCpl, rput, rmod, rget_rset_same, fld_setFld _ (by decide)]
    rfl
  · exact regsBut_rset _ _ s

/-! ### Standing registers -/

/-- A read of standing register `i` is a read of the array. -/
theorem std_offset {i : Nat} (hi : i < 256) (s : State) (hx : regExists s (oStd i) = true) :
    readValue s (oStd i) = (stdRead i s).1 ∧ readEffect (oStd i) s = (stdRead i s).2 := by
  have hb : (blockOf (oStd i) = 6 && oStd i < 0x60400) = true := by
    unfold blockOf oStd
    simp
    omega
  have h1 : oStd i ≠ oSeqFrameLo := by unfold oStd oSeqFrameLo; omega
  have h2 : oStd i ≠ oSeqGscLo := by unfold oStd oSeqGscLo; omega
  have h3 : oStd i ≠ oTimNs := by unfold oStd oTimNs; omega
  have hi4 : (oStd i - 0x60000) / 4 = i := by unfold oStd; omega
  simp [readValue, readEffect, hx, h1, h2, h3, hb, hi4]

/-- What a read of the array answers, by the state of the word's check (R407). -/
theorem stdRead_eq (i : Nat) (s : State) :
    stdRead i s = (if mget .clean s.std.ecc i = .double then stdShipped i else stdStored s i,
      if mget .clean s.std.ecc i = .single then rflag (oStdCmp i) 28 s
      else if mget .clean s.std.ecc i = .double then rflag (oStdCmp i) 29 s else s) := by
  unfold stdRead
  cases mget .clean s.std.ecc i <;> rfl

/-- The flags of the check (R407): CE, UE, and every other bit as it was. -/
theorem stdRead_flags (i : Nat) (s : State) (b : Nat) :
    rbit (stdRead i s).2 (oStdCmp i) b = (rbit s (oStdCmp i) b || (decide (b = 28) && decide (mget .clean s.std.ecc i = .single)) ||
      (decide (b = 29) && decide (mget .clean s.std.ecc i = .double))) := by
  rw [stdRead_eq]
  cases mget .clean s.std.ecc i with
  | clean => simp
  | poison => simp
  | single => simp [rbit, rflag, rmod, bit_setBit]
  | double => simp [rbit, rflag, rmod, bit_setBit]

theorem stdRead_regsBut (i : Nat) (s : State) : regsBut [oStdCmp i] s (stdRead i s).2 := by
  rw [stdRead_eq]
  dsimp only
  split_ifs
  · exact regsBut_rset _ _ s
  · exact regsBut_rset _ _ s
  · exact fun _ _ => rfl

theorem read_standing {s : State} {i : Nat} (hi : i < 256) (h : hostSees s (oStd i) = true) :
    let e := mget .clean s.std.ecc i
    ∃ u, leadsTo (.bar0Read (oStd i) 4 []) s u ∧
      u.host.cpl = ⟨.ok, false, 0, oStd i, leBytes 4 (if e = .double then stdShipped i else stdStored s i).toNat⟩ :: s.host.cpl ∧
      rbit u (oStdCmp i) 28 = (rbit s (oStdCmp i) 28 || decide (e = .single)) ∧
      rbit u (oStdCmp i) 29 = (rbit s (oStdCmp i) 29 || decide (e = .double)) ∧
      (∀ b, b ≠ 28 → b ≠ 29 → rbit u (oStdCmp i) b = rbit s (oStdCmp i) b) ∧ regsBut [oStdCmp i] s u ∧
      { u with regs := s.regs, host := { u.host with cpl := s.host.cpl } } = s := by
  intro e
  have hf : regForm (oStd i) 4 = true := by
    have h4 : oStd i % 4 = 0 := by unfold oStd; omega
    have hlt : oStd i < 0x4000000 := by unfold oStd; omega
    simp [regForm, h4, hlt]
  obtain ⟨hval, heff⟩ := std_offset hi s (hostSees_exists h)
  have hread := leadsTo_bar0Read h hf
  rw [hval, heff] at hread
  obtain ⟨hcpl, hframe⟩ := hostCpl_frame (stdRead_restSame i s) .ok false 0 (oStd i) (leBytes 4 (stdRead i s).1.toNat)
  refine ⟨_, hread, ?_, ?_, ?_, ?_, stdRead_regsBut i s, hframe⟩
  · rw [hcpl, stdRead_eq]
  · exact (stdRead_flags i s 28).trans (by simp [e])
  · exact (stdRead_flags i s 29).trans (by simp [e])
  · exact fun b h28 h29 => (stdRead_flags i s b).trans (by simp [h28, h29])

/-! ### The latches -/

theorem cardAt_latches : (cardAt oSeqFrameLo).map (·.wo) = some 0 ∧ (cardAt oSeqGscLo).map (·.wo) = some 0 ∧
    (cardAt oTimNs).map (·.wo) = some 0 := by decide +kernel

/-- A register without write-only fields reads as its block shows it. -/
theorem regView_shown {s : State} {off : Nat} (hx : regExists s off = true) (hwo : (cardAt off).map (·.wo) = some 0) :
    regView s off = if blockOf off = 0 then capView s off else if blockOf off = 9 then seqView s off else liveView s off := by
  obtain ⟨c, hc, h0⟩ := Option.map_eq_some_iff.1 hwo
  simp only [regView, hx, hc, h0, and_not_ofNat_zero, Bool.not_true, Bool.false_eq_true, if_false]

theorem readValue_frameLo {s : State} (hx : regExists s oSeqFrameLo = true) : readValue s oSeqFrameLo = s.seq.F.truncate 32 :=
  regView_shown hx cardAt_latches.1
theorem readValue_gscLo {s : State} (hx : regExists s oSeqGscLo = true) : readValue s oSeqGscLo = s.seq.gsc.truncate 32 :=
  regView_shown hx cardAt_latches.2.1
theorem readValue_timNs {s : State} (hx : regExists s oTimNs = true) : readValue s oTimNs = BitVec.ofNat 32 s.tim.ns :=
  regView_shown hx cardAt_latches.2.2

/-- The upper words of F and GSC. -/
theorem truncate_ushiftRight32 {n : Nat} (x : BitVec n) : (x >>> 32).truncate 32 = BitVec.ofNat 32 (x.toNat / 2 ^ 32) := by
  apply BitVec.eq_of_toNat_eq
  simp [Nat.shiftRight_eq_div_pow]

theorem readEffect_frameLo {s : State} (hx : regExists s oSeqFrameLo = true) :
    readEffect oSeqFrameLo s = rset oSeqFrameHi (BitVec.ofNat 32 (s.seq.F.toNat / 2 ^ 32)) s := by
  rw [← truncate_ushiftRight32]
  simp [readEffect, hx]

theorem readEffect_gscLo {s : State} (hx : regExists s oSeqGscLo = true) :
    readEffect oSeqGscLo s = rset oSeqGscHi (BitVec.ofNat 32 (s.seq.gsc.toNat / 2 ^ 32)) s := by
  have hne : oSeqGscLo ≠ oSeqFrameLo := by decide
  rw [← truncate_ushiftRight32]
  simp [readEffect, hx, hne]

theorem readEffect_timNs {s : State} (hx : regExists s oTimNs = true) : readEffect oTimNs s = latchSec s := by
  have h1 : oTimNs ≠ oSeqFrameLo := by decide
  have h2 : oTimNs ≠ oSeqGscLo := by decide
  simp [readEffect, hx, h1, h2]

theorem latchSec_regs (s : State) : rget (latchSec s) oTimSecLo = BitVec.ofNat 32 s.tim.sec ∧
    rget (latchSec s) oTimSecHi = BitVec.ofNat 32 (s.tim.sec / 2 ^ 32 % 2 ^ 16) ∧ regsBut [oTimSecLo, oTimSecHi] s (latchSec s) := by
  unfold latchSec
  refine ⟨?_, rget_rset_same .., fun o ho => ?_⟩
  · rw [rget_rset_other _ _ _ _ (by decide), rget_rset_same]
  · simp only [List.mem_cons, List.not_mem_nil, or_false, not_or] at ho
    rw [rget_rset_other _ _ _ _ ho.2, rget_rset_other _ _ _ _ ho.1]

/-- Each of the three registers is read by a row of its own. -/
theorem exec_latchRead {s : State} {off : Nat} {i : Instr} (hi : exec i s = .next (bar0Read off 4 s)) (h : hostSees s off = true)
    (hf : regForm off 4 = true) :
    ∃ t, exec i s = .next t ∧ t.host.cpl = ⟨.ok, false, 0, off, leBytes 4 (readValue s off).toNat⟩ :: s.host.cpl ∧
      (∀ o, rget t o = rget (readEffect off s) o) ∧
      { t with regs := s.regs, host := { t.host with cpl := s.host.cpl } } = s := by
  obtain ⟨hcpl, hframe⟩ := hostCpl_frame (readEffect_restSame off s) .ok false 0 off (leBytes 4 (readValue s off).toNat)
  exact ⟨_, hi.trans (congrArg _ (bar0Read_sees h hf)), hcpl, fun _ => rfl, hframe⟩

theorem read_frameLo {s : State} (h : hostSees s oSeqFrameLo = true) : ∃ t, exec .seqFrameLoRead s = .next t ∧
    t.host.cpl = ⟨.ok, false, 0, oSeqFrameLo, leBytes 4 (s.seq.F.toNat % 2 ^ 32)⟩ :: s.host.cpl ∧
    rget t oSeqFrameHi = BitVec.ofNat 32 (s.seq.F.toNat / 2 ^ 32) ∧ regsBut [oSeqFrameHi] s t ∧
    { t with regs := s.regs, host := { t.host with cpl := s.host.cpl } } = s := by
  have hx := hostSees_exists h
  obtain ⟨t, hexec, hcpl, hregs, hframe⟩ := exec_latchRead (i := .seqFrameLoRead) rfl h (by decide)
  rw [readValue_frameLo hx, BitVec.truncate_eq_setWidth, BitVec.toNat_setWidth] at hcpl
  rw [readEffect_frameLo hx] at hregs
  exact ⟨t, hexec, hcpl, (hregs _).trans (rget_rset_same ..), fun o ho => (hregs o).trans (regsBut_rset _ _ s o ho), hframe⟩

theorem read_gscLo {s : State} (h : hostSees s oSeqGscLo = true) : ∃ t, exec .seqGscLoRead s = .next t ∧
    t.host.cpl = ⟨.ok, false, 0, oSeqGscLo, leBytes 4 (s.seq.gsc.toNat % 2 ^ 32)⟩ :: s.host.cpl ∧
    rget t oSeqGscHi = BitVec.ofNat 32 (s.seq.gsc.toNat / 2 ^ 32) ∧ regsBut [oSeqGscHi] s t ∧
    { t with regs := s.regs, host := { t.host with cpl := s.host.cpl } } = s := by
  have hx := hostSees_exists h
  obtain ⟨t, hexec, hcpl, hregs, hframe⟩ := exec_latchRead (i := .seqGscLoRead) rfl h (by decide)
  rw [readValue_gscLo hx, BitVec.truncate_eq_setWidth, BitVec.toNat_setWidth] at hcpl
  rw [readEffect_gscLo hx] at hregs
  exact ⟨t, hexec, hcpl, (hregs _).trans (rget_rset_same ..), fun o ho => (hregs o).trans (regsBut_rset _ _ s o ho), hframe⟩

theorem read_timNs {s : State} (h : hostSees s oTimNs = true) : ∃ t, exec .timNsRead s = .next t ∧
    t.host.cpl = ⟨.ok, false, 0, oTimNs, leBytes 4 (s.tim.ns % 2 ^ 32)⟩ :: s.host.cpl ∧
    rget t oTimSecLo = BitVec.ofNat 32 s.tim.sec ∧ rget t oTimSecHi = BitVec.ofNat 32 (s.tim.sec / 2 ^ 32 % 2 ^ 16) ∧
    regsBut [oTimSecLo, oTimSecHi] s t ∧ { t with regs := s.regs, host := { t.host with cpl := s.host.cpl } } = s := by
  have hx := hostSees_exists h
  obtain ⟨t, hexec, hcpl, hregs, hframe⟩ := exec_latchRead (i := .timNsRead) rfl h (by decide)
  rw [readValue_timNs hx, BitVec.toNat_ofNat] at hcpl
  rw [readEffect_timNs hx] at hregs
  obtain ⟨hlo, hhi, hrest⟩ := latchSec_regs s
  exact ⟨t, hexec, hcpl, (hregs _).trans hlo, (hregs _).trans hhi, fun o ho => (hregs o).trans (hrest o ho), hframe⟩

/-- Settles O7: the effect of a read is one of four, each a change of registers alone: RC fields that clear, an occupancy that begins anew,
the flags of a standing register's check, a latch. -/
theorem readEffects : Obligations.ReadEffects :=
  ⟨⟨fun _ _ _ h4 ht h hstd hl hp hc => read_clears h4 ht h hstd hl hp hc, fun _ _ hj h => read_partUse hj h,
      fun _ _ hi h => read_standing hi h⟩,
    fun _ h => read_frameLo h, fun _ h => read_gscLo h, fun _ h => read_timNs h⟩

/-! ## The form of a BAR0 read -/

/-- The endpoint's link is up, and one word of a BAR2 read (of the reserved range, which reads zero) waits at the endpoint with its credit
free: a CONTROL_BARGE_ARRIVAL that restores a credit leaves such a word for the next event to send. -/
def bar2WordWaits : State :=
  { State.reset with host := { State.reset.host with link := true },
                     bnw := { State.reset.bnw with queue := bar2Barges 0x12000000 8 false [] } }

/-- After a BAR0 read the waiting BAR2 word goes out, and the host has two completions. -/
theorem bar0Read_bar2WordWaits :
    (nextOf (exec (.bar0Read oCapId 4 []) bar2WordWaits)).map (·.host.cpl.length) = some 2 := by decide +kernel

/-- Refutes O6: that a BAR0 read leaves one completion more than before. Every event sends what waits at the endpoint (`lkpSettle`), so a
word of a BAR2 read that waits with its credit free is answered with it, and the host has two. -/
theorem not_registerAccessForm : ¬ Obligations.RegisterAccessForm := by
  rintro ⟨-, -, -, hread⟩
  obtain ⟨t, ht, hcpl⟩ := hread bar2WordWaits oCapId (by decide) (by decide) (by decide +kernel)
  have two := bar0Read_bar2WordWaits
  have none0 : bar2WordWaits.host.cpl = [] := rfl
  simp [ht, nextOf, hcpl, none0] at two

/-! ## Writes of registers without a rule of their own -/

/-- The registers of `Obligations.WriteByAccessType`. -/
def plainRegs : List Nat :=
  [oSeqSts, oSeqOvr, oSeqStallTmo, oSeqInt, oSafSts, oSafReact, oSafFnmask, oSafInt, oXchCtl, oGauInt, oGauEdgeCtl, oCkgSts,
    oPwrSts, oCfgSts, oTimSts, oTimServo, oTimStepNs, oTrcSts, oTrcInt, oLkpSts, oLkpOwnSel, oRingSts, oStdSts, oDmcMarchSts]

/-- A write that reaches one of them is the card's. -/
theorem regWrite_plain {off : Nat} (h : off ∈ plainRegs) (v : Word) (e : SwitchEnd) (s : State) :
    regWrite off v e s = cardWrite off v s := by
  revert off
  simp only [plainRegs, List.forall_mem_cons]
  refine ⟨rfl, rfl, rfl, rfl, rfl, rfl, rfl, rfl, rfl, rfl, rfl, rfl, rfl, rfl, rfl, rfl, rfl, rfl, rfl, rfl, rfl, rfl, rfl, rfl, ?_⟩
  simp

/-- Each is a register of BAR0, with no field that sets on 1 and no bit both writable and cleared by a 1. -/
theorem plainRegs_cards : plainRegs.all (fun off => regForm off 4 && (cardAt off).all fun c =>
    c.w1s = 0 && (List.range 32).all fun i => !(nbit c.rw i && nbit c.w1c i)) = true := by decide +kernel

/-- What a card's write leaves in a bit, where the card sets none on 1 and the masks are apart (R11, R12). -/
theorem cardWrite_bits {off : Nat} {c : Card} (hc : cardAt off = some c) (hs : c.w1s = 0) (v : Word) (s : State) :
    ∃ w, cardWrite off v s = rset off w s ∧ ∀ i < 32, (nbit c.rw i && nbit c.w1c i) = false →
      bit w i = if nbit c.rw i then bit v i else if nbit c.w1c i then bit (rget s off) i && !bit v i else bit (rget s off) i := by
  refine ⟨_, by simp only [cardWrite, hc]; rfl, fun i hi hd => ?_⟩
  have h0 : nbit 0 i = false := by simp [nbit]
  simp only [hs, bit_and, bit_or, bit_not _ hi, bit_ofNat hi]
  by_cases hrw : nbit c.rw i
  · have hw1 : nbit c.w1c i = false := by simpa [hrw] using hd
    simp [hrw, hw1, h0]
  · by_cases hw1 : nbit c.w1c i
    · simp [hrw, hw1, h0]
    · simp [hrw, hw1, h0]

/-- Settles O8: a write that reaches one of these registers is its card's, and a card's write sets each bit by its access type. -/
theorem writeByAccessType : Obligations.WriteByAccessType := by
  intro s off c v e hoff hc hr
  have h := List.all_eq_true.mp plainRegs_cards off hoff
  simp only [hc, Option.all_some, Bool.and_eq_true, decide_eq_true_eq, List.all_eq_true, List.mem_range, Bool.not_eq_true'] at h
  obtain ⟨hform, hw1s, hapart⟩ := h
  obtain ⟨w, hw, hbits⟩ := cardWrite_bits hc hw1s v s
  refine ⟨w, leadsTo_settled ?_, fun i hi => hbits i hi (hapart i hi)⟩
  rw [exec_registerWrite v e hr hform, regWrite_plain hoff, hw]

/-! ## What the sequencer executes next depends on the sequencer alone -/

/-- A fold of operations that leave the sequencer as it is. -/
theorem foldl_seq {β : Type} {f : State → β → State} (hf : ∀ s x, (f s x).seq = s.seq) (l : List β) (s : State) :
    (l.foldl f s).seq = s.seq := by
  induction l generalizing s with
  | nil => rfl
  | cons a t ih => exact (ih _).trans (hf s a)

theorem safInt_seq (n : Nat) (s : State) : (safInt n s).seq = s.seq := setInt_seq ..
theorem seqInt_seq (n : Nat) (s : State) : (seqInt n s).seq = s.seq := setInt_seq ..
theorem lastEvt_seq (kind src g : Nat) (s : State) : (lastEvt kind src g s).seq = s.seq := by
  rw [lastEvt, rset_seq]
theorem leaveReturn_seq (e : XEntry) (s : State) : (leaveReturn e s).seq = s.seq := rfl
theorem dmWrite_seq (k w : Nat) (v : BitVec 64) (poison : Bool) (s : State) : (dmWrite k w v poison s).seq = s.seq := rfl
theorem putEntry_seq (e : XEntry) (s : State) : (putEntry e s).seq = s.seq := rfl

theorem logFaultAs_seq (react : Nat) (r : Report) (s : State) : (logFaultAs react r s).seq = s.seq := by
  unfold logFaultAs
  dsimp only
  split <;> simp only [apply_ite State.seq, safInt_seq, rflag_seq, rcount_seq, ite_self]

theorem raiseEvent_seq (code lk locv : Nat) (s : State) : (raiseEvent code lk locv s).seq = s.seq := logFaultAs_seq ..

theorem enterBerth_seq (e : XEntry) (s : State) : (enterBerth e s).seq = s.seq := by
  unfold enterBerth
  dsimp only
  rw [rcount_seq]
  by_cases h : callKind s e = 2
  · rw [if_pos h]; rfl
  · rw [if_neg h]; rfl

theorem closeCall_seq (e : XEntry) (s : State) : (closeCall e s).seq = s.seq := by
  unfold closeCall
  dsimp only
  simp only [apply_ite State.seq, enterBerth_seq, putEntry_seq, raiseEvent_seq, rflag_seq, ite_self]

theorem supersede_seq (s : State) : (supersede s).seq = s.seq := foldl_seq (fun s e => leaveReturn_seq e s) _ s

theorem closeCalls_seq (p : XEntry → Bool) (s : State) : (closeCalls p s).seq = s.seq :=
  (supersede_seq _).trans (foldl_seq (fun s e => closeCall_seq e s) _ s)

theorem xchVoid_seq (f : Nat) (s : State) : (xchVoid f s).seq = s.seq := closeCalls_seq ..

theorem writeLands_seq (s0 : State) (cl : Nat) (m : MemOp) (s : State) : (writeLands s0 cl m s).seq = s.seq := by
  unfold writeLands
  dsimp only
  rw [setCl_seq, foldl_seq (fun s j => dmWrite_seq _ _ _ _ s)]

theorem finishWrites_seq (p : Nat) (s : State) : (finishWrites p s).seq = s.seq := by
  unfold finishWrites
  dsimp only
  exact foldl_seq (fun s (kv : Nat × Cluster) => foldl_seq (fun s m => writeLands_seq s kv.1 m s) _ s) _ s

theorem dropStaged_seq (s : State) : (dropStaged s).seq = s.seq := rfl

theorem voidFrame_st (s : State) : (voidFrame s).seq.st = s.seq.st := by
  unfold voidFrame
  dsimp only
  rw [xchVoid_seq, dropStaged_seq, finishWrites_seq]

theorem clockLossHalt_st (src : Nat) (s : State) : (clockLossHalt src s).seq.st = .clkHalt := by
  unfold clockLossHalt
  dsimp only
  rw [lastEvt_seq]
  by_cases h : frameBegun s = true
  · rw [if_pos h, voidFrame_st]
  · rw [if_neg h]

theorem ringSend_seq (dst : Nat) (m : RingMsg) (s : State) : (ringSend dst m s).seq = s.seq := by
  simp only [ringSend, apply_ite State.seq, ite_self]

theorem ringSendAll_seq (m : RingMsg) (s : State) : (ringSendAll m s).seq = s.seq :=
  foldl_seq (fun s d => ringSend_seq d m s) _ s

theorem setBound_seq (s : State) : (setBound s).seq = s.seq := by
  simp only [setBound, apply_ite State.seq, ringSendAll_seq, rput_seq, ite_self]

theorem restoreStep_st (s : State) : (restoreStep s).seq.st = s.seq.st := by
  unfold restoreStep
  dsimp only
  rw [setBound_seq]
  by_cases h : decide (s.seq.ratio + 1 < 16) = true
  · rw [if_pos h]
  · rw [if_neg h, rput_seq]

theorem applyHalving_st (src : Nat) (s : State) : (applyHalving src s).seq.st = s.seq.st := by
  unfold applyHalving
  dsimp only
  split_ifs
  · rw [lastEvt_seq]
  · rw [restoreStep_st, lastEvt_seq]
  · rw [setBound_seq]
    dsimp only
    rw [lastEvt_seq]

theorem beginStall_st (es : List GEvent) (s : State) : (beginStall es s).seq.st = .stall := by
  unfold beginStall
  dsimp only
  rw [lastEvt_seq, seqInt_seq, rcount_seq]

/-- The state the sequencer is in once the events due have been applied (R86): a clock loss halts it, a stall stalls it. -/
def stAfter (q : SeqState) (due : List GEvent) : SeqSt :=
  if due.filter (·.kind = 8) ≠ [] then .clkHalt else if due.filter (fun e => 1 ≤ e.kind && e.kind ≤ 4) ≠ [] then .stall else q.st

theorem halvings_st (l : List GEvent) (s : State) : (l.foldl (fun s e => applyHalving e.src s) s).seq.st = s.seq.st := by
  induction l generalizing s with
  | nil => rfl
  | cons e t ih => exact (ih _).trans (applyHalving_st ..)

theorem applyEvents_st (s : State) : (applyEvents s).seq.st = stAfter s.seq (s.seq.events.filter (evDue s)) := by
  unfold applyEvents stAfter
  generalize s.seq.events.filter (evDue s) = due
  dsimp only
  by_cases hdue : due = []
  · rw [if_pos hdue, hdue]; rfl
  · rw [if_neg hdue]
    cases hloss : due.filter (·.kind = 8) with
    | cons e t => simp [clockLossHalt_st]
    | nil =>
      by_cases hst : due.filter (fun e => 1 ≤ e.kind && e.kind ≤ 4) = []
      · simp only [hst, if_true]
        exact halvings_st _ _
      · simp only [hst, if_false, not_false_eq_true, ne_eq, not_true_eq_false, if_true]
        exact beginStall_st _ _

/-- Equal sequencers stand before the same step. -/
theorem cycleIsStep_congr {s t : State} (h : t.seq = s.seq) : cycleIsStep t = cycleIsStep s := by
  have he : evDue t = evDue s := by
    funext e
    unfold evDue
    rw [h]
  unfold cycleIsStep
  rw [applyEvents_st, applyEvents_st, he, h]

/-! ## A service access of the host to a bank in service and idle -/

/-- No report: nothing is raised. -/
@[simp] theorem settle_nil (s : State) : settle (s, []) = s := rfl

/-- The scheduled access that uses a bank, and the next one issued to it, do not depend on design memory's service side, on the barge network or
on the host. -/
theorem schedAt_side (s : State) (d : DmcState) (b : BnwState) (h : HostState) (k : Nat) :
    schedAt { s with dmc := d, bnw := b, host := h } k = schedAt s k := by
  have hc : cycleIsStep { s with dmc := d, bnw := b, host := h } = cycleIsStep s := cycleIsStep_congr rfl
  unfold schedAt
  rw [hc]
  rfl

theorem issuesNext_side (s : State) (d : DmcState) (b : BnwState) (h : HostState) (k : Nat) :
    issuesNext { s with dmc := d, bnw := b, host := h } k = issuesNext s k := by
  have hc : cycleIsStep { s with dmc := d, bnw := b, host := h } = cycleIsStep s := cycleIsStep_congr rfl
  unfold issuesNext
  rw [hc]
  rfl

/-- Every part of what `bankFree` says. -/
structure BankFree (s : State) (k : Nat) : Prop where
  clock  : memClockOn s = true
  present : k < nBanks s
  owned  : ownMode s k ≠ 0
  on     : bankOff s k = false
  busy   : bankBusy s k = false
  taken  : bankTaken s k = false
  sched  : schedAt s k = none
  patrol : patrolBehind s k = false
  empty  : ∀ x ∈ s.dmc.waiting, x.bank ≠ k

theorem bankFree_iff {s : State} {k : Nat} : bankFree s k = true ↔ BankFree s k := by
  simp only [bankFree, Bool.and_eq_true, decide_eq_true_eq, Bool.not_eq_true', Option.isNone_iff_eq_none, List.all_eq_true]
  exact ⟨fun ⟨⟨⟨⟨⟨⟨⟨⟨a, b⟩, c⟩, d⟩, e⟩, f⟩, g⟩, h⟩, i⟩ => ⟨a, b, c, d, e, f, g, h, i⟩,
    fun ⟨a, b, c, d, e, f, g, h, i⟩ => ⟨⟨⟨⟨⟨⟨⟨⟨a, b⟩, c⟩, d⟩, e⟩, f⟩, g⟩, h⟩, i⟩⟩

/-- The access as its bank counts it. -/
def atCycle (r : SvcReq) (s : State) : SvcReq := { r with cycle := s.dmc.cycle }

/-- The access `r` waits behind those that wait. -/
def withWaiting (r : SvcReq) (s : State) : State := { s with dmc := { s.dmc with waiting := s.dmc.waiting ++ [r] } }

theorem serviceRequest_free {r : SvcReq} {s : State} (h : BankFree s r.bank) :
    serviceRequest r s = withWaiting (atCycle r s) s := by
  simp [serviceRequest, h.present, svcResolve, h.sched, svcWait, withWaiting, atCycle]

theorem svcNext_free {r : SvcReq} {s : State} (h : BankFree s r.bank) : svcNext (withWaiting r s) r.bank = some r := by
  have hnone : s.dmc.waiting.filter (·.bank = r.bank) = [] := List.filter_eq_nil_iff.2 fun x hx => by simpa using h.empty x hx
  have hq : (withWaiting r s).dmc.waiting.filter (·.bank = r.bank) = [r] := by simp [withWaiting, hnone]
  unfold svcNext
  rw [hq]
  simp only [sortBy, List.foldl, insertBy, List.find?, List.head?]
  split
  · next w hw =>
    split at hw
    · split at hw <;> simp_all
    · simp at hw
  · rfl

/-- It can start, where it need not leave the next cycle to the design (R134). -/
theorem svcReady_free {r : SvcReq} {s : State} (h : BankFree s r.bank) (hrmw : svcRmw r.op = true → issuesNext s r.bank = false) :
    svcReady (withWaiting r s) r.bank = some r := by
  have hissue : issuesNext (withWaiting r s) r.bank = issuesNext s r.bank := issuesNext_side s _ s.bnw s.host _
  rw [svcReady, svcNext_free h, Option.filter_some, hissue, if_pos]
  cases hop : svcRmw r.op with
  | true => simp [hrmw hop]
  | false => rfl

theorem svcServe_free {r : SvcReq} {s : State} (h : BankFree s r.bank) (hrmw : svcRmw r.op = true → issuesNext s r.bank = false) :
    svcServe r.bank (withWaiting r s) = svcPerform r false (bankAccess r.bank s) := by
  have hgo : (!memClockOn (withWaiting r s) || bankBusy (withWaiting r s) r.bank || bankTaken (withWaiting r s) r.bank ||
      (schedAt (withWaiting r s) r.bank).isSome || patrolBehind (withWaiting r s) r.bank) = false := by
    have hsched : schedAt (withWaiting r s) r.bank = none := (schedAt_side s _ s.bnw s.host _).trans h.sched
    rw [hsched]
    simp only [Bool.or_eq_false_iff, Bool.not_eq_false']
    exact ⟨⟨⟨⟨h.clock, h.busy⟩, h.taken⟩, rfl⟩, h.patrol⟩
  have herase : (s.dmc.waiting ++ [r]).erase r = s.dmc.waiting := by
    rw [List.erase_append_right _ fun hm : r ∈ s.dmc.waiting => h.empty r hm rfl]
    simp
  rw [svcServe, hgo, svcReady_free h hrmw]
  simp only [Bool.false_eq_true, if_false, withWaiting, herase]

/-- An access that arrives at an idle bank is performed in the cycle of its arrival (R134). -/
theorem svcArrive_free {r : SvcReq} {s : State} (h : BankFree s r.bank) (hrmw : svcRmw r.op = true → issuesNext s r.bank = false) :
    svcArrive r s = settle (svcPerform (atCycle r s) false (bankAccess r.bank s)) := by
  have hnext := svcNext_free (r := atCycle r s) h
  have hserve := svcServe_free (r := atCycle r s) h hrmw
  change svcNext (withWaiting (atCycle r s) s) r.bank = _ at hnext
  change svcServe r.bank (withWaiting (atCycle r s) s) = _ at hserve
  unfold svcArrive serviceAccess
  rw [serviceRequest_free h]
  dsimp only
  rw [hserve, hnext]
  simp [atCycle]

/-! ### What the access does -/

/-- A bank's access of a cycle counts it, and leaves the words and their banks as they are. -/
theorem bankAccess_words (k : Nat) (s : State) : (∀ j w, dmWord (bankAccess k s) j w = dmWord s j w) ∧
    (∀ j w, dmEcc (bankAccess k s) j w = dmEcc s j w) ∧ ∀ j, svcRefused (bankAccess k s) j = svcRefused s j := by
  unfold bankAccess
  split <;> exact ⟨fun _ _ => rfl, fun _ _ => rfl, fun _ => rfl⟩

/-- Bank, word and completion of a host's access without error (R131, R133). -/
def hostData (r : SvcReq) (d : BitVec 64) : List Byte :=
  r.half.elim (leBytes 8 d.toNat) fun up => leBytes 4 (if up then d.toNat / 2 ^ 32 else d.toNat)

theorem svcReply_host {r : SvcReq} (ha : r.answer = .direct) (hm : r.master = 0) (d : BitVec 64) (s : State) :
    svcReply r 0 d s = if svcWrites r.op then s else hostCpl .ok false 2 r.addr (hostData r d) s := by
  rcases hh : r.half with _ | up
  · simp [svcReply, ha, hm, hostCode, hostData, hh]
  · simp [svcReply, ha, hm, hostCode, hostData, hh]

/-- What the access leaves in a word that holds `d` (R131). -/
def stored (r : SvcReq) (d : BitVec 64) : BitVec 64 :=
  match r.op with
  | .setBits => d ||| (r.data &&& r.mask)
  | .clearBits => d &&& ~~~(r.data &&& r.mask)
  | .partialW => (d &&& ~~~r.mask) ||| (r.data &&& r.mask)
  | _ => r.data

theorem dmCheck_clean {s : State} {k w : Nat} (h : dmEcc s k w = .clean) (src : Nat) : dmCheck src k w s = (s, []) := by
  simp [dmCheck, h]

theorem svcPerform_read {r : SvcReq} {s : State} (href : svcRefused s r.bank = none) (hw : svcWrites r.op = false)
    (hecc : dmEcc s r.bank r.word = .clean) :
    svcPerform r false s = (svcReply r 0 (dmWord s r.bank r.word) s, []) := by
  cases hop : r.op <;> simp_all [svcPerform, svcWrites, dmCheck_clean]

theorem svcPerform_write {r : SvcReq} {s : State} (href : svcRefused s r.bank = none) (hw : svcWrites r.op = true)
    (hecc : dmEcc s r.bank r.word = .clean ∨ r.op = .write) (hp : r.poison = false) :
    svcPerform r false s = (svcReply r 0 0#64 (dmWrite r.bank r.word (stored r (dmWord s r.bank r.word)) false s), []) := by
  cases hop : r.op <;> simp_all [svcPerform, svcWrites, dmCheck_clean, stored]

theorem bankFree_notRefused {s : State} {k : Nat} (h : BankFree s k) : svcRefused s k = none := by
  simp [svcRefused, h.on, h.owned]

theorem svcRmw_of_read {op : SvcOp} (h : svcWrites op = false) : svcRmw op = false := by
  cases op <;> simp_all [svcWrites, svcRmw]

/-- A read of the host that arrives at an idle bank is answered at once, and changes nothing else (R131). -/
theorem svcArrive_read {r : SvcReq} {s : State} (h : BankFree s r.bank) (ha : r.answer = .direct) (hm : r.master = 0)
    (hw : svcWrites r.op = false) (hecc : dmEcc s r.bank r.word = .clean) :
    svcArrive r s = hostCpl .ok false 2 r.addr (hostData r (dmWord s r.bank r.word)) (bankAccess r.bank s) := by
  obtain ⟨hword, heccs, href⟩ := bankAccess_words r.bank s
  rw [svcArrive_free h (by simp [svcRmw_of_read hw]),
    svcPerform_read (r := atCycle r s) ((href r.bank).trans (bankFree_notRefused h)) hw ((heccs ..).trans hecc), settle_nil,
    svcReply_host (r := atCycle r s) ha hm, hword]
  exact if_neg (by simp [atCycle, hw])

/-- A write stores what its operation makes of the word, with good check bits (R131, R138). -/
theorem svcArrive_write {r : SvcReq} {s : State} (h : BankFree s r.bank) (ha : r.answer = .direct) (hm : r.master = 0)
    (hw : svcWrites r.op = true) (hp : r.poison = false) (hecc : dmEcc s r.bank r.word = .clean ∨ r.op = .write)
    (hrmw : issuesNext s r.bank = false ∨ r.op = .write) :
    svcArrive r s = dmWrite r.bank r.word (stored r (dmWord s r.bank r.word)) false (bankAccess r.bank s) := by
  obtain ⟨hword, heccs, href⟩ := bankAccess_words r.bank s
  have hstart : svcRmw r.op = true → issuesNext s r.bank = false := fun hop =>
    hrmw.resolve_right fun e => by simp [svcRmw, e] at hop
  rw [svcArrive_free h hstart, svcPerform_write (r := atCycle r s) ((href r.bank).trans (bankFree_notRefused h)) hw
    (hecc.imp_left ((heccs ..).trans ·)) hp, settle_nil, svcReply_host (r := atCycle r s) ha hm, hword]
  exact if_pos hw

/-! ### One word of a BAR2 access -/

/-- The request of one word. -/
def hostWord (b : Barge) : SvcReq := svcWord b .direct b.addr b.len b.data

theorem hostWord_word (b : Barge) : (hostWord b).word = bar2WordOf b.addr := by
  change b.addr % 0x6000000 % 0x40000 / 8 = b.addr % 0x40000 / 8
  rw [Nat.mod_mod_of_dvd _ (by decide)]

/-- Within the windows and the member's banks a word goes to its bank. -/
theorem bar2Word_goes {s : State} {b : Barge} (hin : b.addr < 0x12000000) (hstub : stubAnswers s 47 0 = false)
    (h : BankFree s (bar2Bank b.addr)) : bar2Word b s = svcArrive (hostWord b) s := by
  have hk : ¬ nBanks s ≤ (svcWord b .direct b.addr b.len b.data).bank := not_le.2 h.present
  simp [bar2Word, hk, hstub, hostWord, not_le.2 hin]

/-- A read's word is not written. -/
theorem hostWord_reads {b : Barge} (hop : b.op = 0) : svcWrites (hostWord b).op = false := by
  simp only [hostWord, svcWord, hop]
  split_ifs <;> rfl

/-! ### The words of an access, and when they go out -/

/-- The barge of the word at `off` of a BAR2 access: `n` bytes, the `i`-th of its words. -/
def wordBarge (off n i op : Nat) (data : List Byte) : Barge :=
  { pri := 2, cls := 0, master := 0, dst := 47, src := 46, remote := false, dev := 0, tag := i, op := op, status := 0, code := 0,
    ndata := 0, len := n, addr := off, data := data }

/-- An access of one word is one barge. -/
theorem bar2Barges_one {off len : Nat} (h : len = 4 ∨ len = 8) (write : Bool) (data : List Byte) :
    bar2Barges off len write data = [wordBarge off len 0 (if write then 1 + off / 0x6000000 else 0) (data.take len)] := by
  rcases h with rfl | rfl <;> simp [bar2Barges, wordBarge, List.range_succ]

/-- No request of the host is under way on the network. -/
def hostIdle (s : State) : Prop := ∀ x ∈ s.bnw.sent ++ s.bnw.dead ++ svcSent s ++ jobSent s, x.master ≠ 0 ∧ x.src ≠ 46

theorem hostQuiet_iff {s : State} : hostQuiet s = true ↔ s.bnw.queue = [] ∧ hostIdle s := by
  simp only [hostQuiet, hostIdle, Bool.and_eq_true, List.isEmpty_iff, List.all_eq_true, decide_eq_true_eq]

/-- A word's credit and a reply buffer are free (R339). -/
theorem bar2Credit_free {s : State} {b : Barge} (hq : hostIdle s) (h : BankFree s (bargeBank b)) : bar2Credit s b = true := by
  have hwait : ((s.dmc.waiting ++ s.dmc.deferred).any fun x => x.master = 0 && x.bank = bargeBank b) = false := by
    have hdef := h.busy
    simp only [bankBusy, Bool.or_eq_false_iff, List.any_eq_false, decide_eq_true_eq] at hdef
    rw [List.any_eq_false]
    intro x hx
    rcases List.mem_append.1 hx with hx | hx
    · simp [h.empty x hx]
    · simp [hdef.1 x hx]
  have hsent : ((s.bnw.sent ++ s.bnw.dead).any fun x => x.master = 0 && x.dst = 47 && bargeBank x = bargeBank b) = false := by
    rw [List.any_eq_false]
    intro x hx
    have := (hq x (List.mem_append_left _ (List.mem_append_left _ hx))).1
    simp [this]
  have hbuf : (svcSent s ++ jobSent s ++ s.bnw.sent).filter (·.src = 46) = [] := by
    rw [List.filter_eq_nil_iff]
    intro x hx
    have := (hq x (by simp only [List.mem_append] at hx ⊢; tauto)).2
    simpa using this
  simp only [bar2Credit, hwait, hsent, hbuf]
  rfl

/-- The words waiting at the endpoint. -/
def withQueue (bs : List Barge) (s : State) : State := { s with bnw := { s.bnw with queue := bs } }

theorem withQueue_self {s : State} (h : s.bnw.queue = []) : withQueue [] s = s := by
  rw [withQueue, ← h]

theorem bar2Goes_cons {s : State} {b : Barge} (n : Nat) (rest : List Barge) (h : bar2Credit s b = true) :
    bar2Goes (n + 1) (withQueue (b :: rest) s) = bar2Goes n (bar2Word b (withQueue rest s)) := by
  have hc : bar2Credit (withQueue (b :: rest) s) b = true := h
  exact if_pos hc

theorem bar2Send_quiet {s : State} (h : s.bnw.queue = []) (bs : List Barge) : bar2Send bs s = bar2Goes bs.length (withQueue bs s) := by
  simp [bar2Send, bar2Pump, withQueue, h]

/-- A bank's freedom is untouched by the endpoint's queue. -/
theorem bankFree_withQueue {s : State} {k : Nat} (h : BankFree s k) (bs : List Barge) : BankFree (withQueue bs s) k :=
  { h with sched := (schedAt_side s s.dmc _ s.host k).trans h.sched }

/-- An access of one word that can go out does. -/
theorem bar2Send_one {s : State} {b : Barge} (hq : hostQuiet s = true) (hb : b.dst = 47) (h : BankFree s (bar2Bank b.addr)) :
    bar2Send [b] s = bar2Word b s := by
  obtain ⟨hqueue, hidle⟩ := hostQuiet_iff.1 hq
  have hbank : bargeBank b = bar2Bank b.addr := by simp [bargeBank, hb, bar2Bank]
  rw [bar2Send_quiet hqueue, List.length_singleton, bar2Goes_cons 0 [] (bar2Credit_free hidle (hbank ▸ h)), withQueue_self hqueue]
  rfl

/-! ### Reads -/

/-- The reads of BAR2 at a free bank with a good word. -/
theorem bar2Word_read {s : State} {off n i : Nat} (hin : off < 0x12000000) (hstub : stubAnswers s 47 0 = false)
    (h : BankFree s (bar2Bank off)) (hecc : dmEcc s (bar2Bank off) (bar2WordOf off) = .clean) :
    bar2Word (wordBarge off n i 0 []) s = hostCpl .ok false 2 off
      (hostData (hostWord (wordBarge off n i 0 [])) (dmWord s (bar2Bank off) (bar2WordOf off))) (bankAccess (bar2Bank off) s) := by
  have hw := hostWord_word (wordBarge off n i 0 [])
  have hread := svcArrive_read (r := hostWord (wordBarge off n i 0 [])) h rfl rfl (hostWord_reads rfl) (by rw [hw]; exact hecc)
  rw [hw] at hread
  rw [bar2Word_goes hin hstub h, hread]
  rfl

theorem length_leBytes (c n : Nat) : (leBytes c n).length = c := by simp [leBytes]

theorem leBytes_drop_take (a b c n : Nat) (h : a + c ≤ b) : ((leBytes b n).drop a).take c = leBytes c (n / 2 ^ (8 * a)) := by
  apply List.ext_getElem
  · simp [leBytes]; omega
  · intro i h1 h2
    simp [leBytes, Nat.shiftRight_eq_div_pow, Nat.div_div_eq_div_mul, ← Nat.pow_add, Nat.mul_add]

/-- The bytes that a 4-byte or an 8-byte read of a word gives (R131). -/
theorem hostData_bytes {off len i : Nat} (h : (len = 4 ∧ off % 4 = 0) ∨ (len = 8 ∧ off % 8 = 0)) (d : BitVec 64) :
    hostData (hostWord (wordBarge off len i 0 [])) d = ((leBytes 8 d.toNat).drop (off % 8)).take len := by
  rcases h with ⟨rfl, h4⟩ | ⟨rfl, h8⟩
  · rw [leBytes_drop_take _ _ _ _ (by omega)]
    have hmod : off % 0x6000000 % 8 = off % 8 := Nat.mod_mod_of_dvd _ (by decide)
    have hpos : off % 8 = 0 ∨ off % 8 = 4 := by omega
    rcases hpos with hpos | hpos <;> simp [hostData, hostWord, svcWord, wordBarge, hmod, hpos]
  · simp [hostData, hostWord, svcWord, wordBarge, h8, length_leBytes]

/-- Below Run and in Keep the memory clock stands (R128, R298). -/
theorem hostWindow_of_clock {s : State} (h : memClockOn s = true) : hostWindow s = true := by
  simp only [memClockOn, unitOn, Bool.and_eq_true] at h
  obtain ⟨⟨⟨-, hclocked⟩, hrun⟩, -⟩ := h
  have hkeep : rbit s oCfgSts 4 = false := by
    simp [unitClocked] at hclocked
    exact hclocked.1
  simp [hostWindow, hkeep, of_decide_eq_true hrun]

theorem bar2Read_goes {s : State} {off len : Nat} (hdown : endpointDown s = false) (hwin : hostWindow s = true)
    (hform : bar2Form off len = true) (hstub : stubAnswers s 47 0 = false) :
    bar2Read off len s = bar2Send (bar2Barges off len false []) s := by
  simp [bar2Read, hdown, hwin, hform, hstub]

theorem bar2Write_goes {s : State} {off : Nat} {data : List Byte} (hdown : endpointDown s = false) (hwin : hostWindow s = true)
    (hform : bar2Form off data.length = true) (hstub : stubAnswers s 47 0 = false) :
    bar2Write off data s = bar2Send (bar2Barges off data.length true data) s := by
  simp [bar2Write, hdown, hwin, hform, hstub]

theorem bar2Form_word {off len : Nat} (h : (len = 4 ∧ off % 4 = 0) ∨ (len = 8 ∧ off % 8 = 0)) (hin : off < 0x12000000) :
    bar2Form off len = true := by
  simp [bar2Form]
  omega

/-- The completion of the read `b`, of a good word. -/
def readCpl (s : State) (b : Barge) : HostCpl :=
  ⟨.ok, false, 2, b.addr, leBytes 8 (dmWord s (bar2Bank b.addr) (bar2WordOf b.addr)).toNat⟩

/-- A barge that reads a whole good word of a bank in service and idle. -/
def readGoes (s : State) (b : Barge) : Prop :=
  ∃ off i, b = wordBarge off 8 i 0 [] ∧ off < 0x12000000 ∧ off % 8 = 0 ∧ BankFree s (bar2Bank off) ∧
    dmEcc s (bar2Bank off) (bar2WordOf off) = .clean

/-- In a device that does not run an answered read leaves every bank as free as it was. -/
theorem readGoes_after {s : State} (hrun : seqRuns s = false) (c : HostCpl) {b : Barge} (h : readGoes s b) :
    readGoes { bankCycles s with host := { s.host with cpl := c :: s.host.cpl } } b := by
  obtain ⟨off, i, rfl, hin, h8, hfree, hecc⟩ := h
  refine ⟨off, i, rfl, hin, h8, { hfree with sched := (schedAt_side s _ s.bnw _ _).trans hfree.sched, taken := ?_ }, hecc⟩
  change (seqRuns s && _) = false
  rw [hrun]
  rfl

theorem bar2Word_readGoes {s : State} {b : Barge} (hrun : seqRuns s = false) (hstub : stubAnswers s 47 0 = false) (h : readGoes s b)
    (rest : List Barge) :
    bar2Word b (withQueue rest s) = withQueue rest { bankCycles s with host := { s.host with cpl := readCpl s b :: s.host.cpl } } := by
  obtain ⟨off, i, rfl, hin, h8, hfree, hecc⟩ := h
  have hacc : bankAccess (bar2Bank off) (withQueue rest s) = bankCycles (withQueue rest s) := if_neg (by
    change ¬ seqRuns s = true
    simp [hrun])
  have hread := bar2Word_read (s := withQueue rest s) (n := 8) (i := i) hin hstub (bankFree_withQueue hfree rest) hecc
  rw [hread, hostData_bytes (.inr ⟨rfl, h8⟩), hacc, h8, List.drop_zero,
    List.take_of_length_le (by simp [leBytes])]
  rfl

/-- Reads of several words go out one after the other (R131, R339). -/
theorem bar2Goes_reads (bs : List Barge) (s : State) (hrun : seqRuns s = false) (hstub : stubAnswers s 47 0 = false) (hidle : hostIdle s)
    (h : ∀ b ∈ bs, readGoes s b) :
    let u := bar2Goes bs.length (withQueue bs s)
    u.host.cpl = (bs.map (readCpl s)).reverse ++ s.host.cpl ∧
      { u with host := { u.host with cpl := s.host.cpl }, dmc := { u.dmc with cycle := s.dmc.cycle } } = withQueue [] s := by
  induction bs generalizing s with
  | nil => exact ⟨rfl, rfl⟩
  | cons b rest ih =>
    have hb := h b (by simp)
    have hcredit : bar2Credit s b = true := by
      obtain ⟨off, i, rfl, -, -, hfree, -⟩ := hb
      exact bar2Credit_free hidle hfree
    intro u
    have hu : u = bar2Goes rest.length
        (withQueue rest { bankCycles s with host := { s.host with cpl := readCpl s b :: s.host.cpl } }) := by
      rw [← bar2Word_readGoes hrun hstub hb rest]
      exact bar2Goes_cons _ rest hcredit
    obtain ⟨hcpl, hframe⟩ := ih { bankCycles s with host := { s.host with cpl := readCpl s b :: s.host.cpl } } hrun hstub hidle
      fun b' hb' => readGoes_after hrun _ (h b' (by simp [hb']))
    rw [← hu] at hcpl hframe
    constructor
    · rw [hcpl, List.map_cons, List.reverse_cons, List.append_assoc]
      rfl
    · exact congrArg (fun x : State => { x with host := { x.host with cpl := s.host.cpl }, dmc := { x.dmc with cycle := s.dmc.cycle } }) hframe

/-! ## Bytes and words of a memory -/

theorem mget_putBytes (m : List (Nat × Byte)) (a : Nat) (bs : List Byte) (x : Nat) :
    mget 0#8 (putBytes m a bs) x = if a ≤ x ∧ x < a + bs.length then bs.getD (x - a) 0#8 else mget 0#8 m x := by
  induction bs generalizing m a with
  | nil => simp [putBytes]
  | cons b t ih =>
    rw [putBytes, ih, mget_mset]
    by_cases hx : x = a
    · simp [hx]
    · by_cases hin : a + 1 ≤ x ∧ x < a + 1 + t.length
      · have hin' : a ≤ x ∧ x < a + (b :: t).length := by simp; omega
        have hsub : x - a = x - (a + 1) + 1 := by omega
        rw [if_pos hin, if_pos hin', hsub, List.getD_cons_succ]
      · have hout : ¬ (a ≤ x ∧ x < a + (b :: t).length) := by simp; omega
        rw [if_neg hin, if_neg hout, if_neg hx]

theorem leNat_lt (bs : List Byte) : leNat bs < 2 ^ (8 * bs.length) := by
  induction bs with
  | nil => simp [leNat]
  | cons b t ih =>
    have hb := b.isLt
    have hp : 2 ^ (8 * (b :: t).length) = 256 * 2 ^ (8 * t.length) := by
      rw [List.length_cons, Nat.mul_add, Nat.pow_add, Nat.mul_comm]
    rw [hp, leNat]
    omega

theorem leBytes_succ (c n : Nat) : leBytes (c + 1) n = BitVec.ofNat 8 n :: leBytes c (n / 256) := by
  have hshift (i : Nat) : n >>> (8 * (i + 1)) = (n / 256) >>> (8 * i) := by
    rw [Nat.mul_add, Nat.add_comm, Nat.shiftRight_add, Nat.shiftRight_eq_div_pow n]
  simp [leBytes, List.range_succ_eq_map, hshift]

theorem leNat_leBytes (c n : Nat) : leNat (leBytes c n) = n % 2 ^ (8 * c) := by
  induction c generalizing n with
  | zero => simp [leBytes, leNat, Nat.mod_one]
  | succ c ih =>
    have hp : 2 ^ (8 * (c + 1)) = 256 * 2 ^ (8 * c) := by rw [Nat.mul_add, Nat.pow_add, Nat.mul_comm]
    rw [leBytes_succ, leNat, ih, hp, Nat.mod_mul]
    simp

/-- A word written reads back. -/
theorem cells8_putBytes (m : List (Nat × Byte)) (a : Nat) (v : BitVec 64) : cells8 (putBytes m a (leBytes 8 v.toNat)) a = v := by
  have hbytes : ((List.range 8).map fun i => mget 0#8 (putBytes m a (leBytes 8 v.toNat)) (a + i)) = leBytes 8 v.toNat := by
    apply List.ext_getElem
    · simp [leBytes]
    · intro i h1 h2
      simp [leBytes] at h2
      simp [mget_putBytes, leBytes, h2]
  rw [cells8, hbytes, leNat_leBytes]
  apply BitVec.eq_of_toNat_eq
  simpa using v.isLt

/-- What a write of design memory leaves: the word, its check bits, and every byte of another word. -/
theorem dmWrite_word (k w : Nat) (v : BitVec 64) (s : State) :
    dmWord (dmWrite k w v false s) k w = v ∧ dmEcc (dmWrite k w v false s) k w = .clean ∧
      ∀ a, a < 0x40000 * k + 8 * w ∨ 0x40000 * k + 8 * w + 8 ≤ a →
        mget 0#8 (dmWrite k w v false s).dmc.cells a = mget 0#8 s.dmc.cells a := by
  refine ⟨cells8_putBytes .., by simp [dmEcc, dmWrite], fun a ha => ?_⟩
  rw [dmWrite, mget_putBytes, if_neg]
  simp [leBytes]
  omega

/-! ## The word of a host's write -/

/-- A value within a mask. -/
theorem ofNat_and_mask {x w : Nat} (hx : x < 2 ^ w) (sh : Nat) :
    BitVec.ofNat 64 (x * 2 ^ sh) &&& BitVec.ofNat 64 ((2 ^ w - 1) * 2 ^ sh) = BitVec.ofNat 64 (x * 2 ^ sh) := by
  apply BitVec.eq_of_getLsbD_eq
  intro i hi
  simp only [BitVec.getLsbD_and, BitVec.getLsbD_ofNat, Nat.testBit_mul_two_pow, Nat.testBit_two_pow_sub_one]
  by_cases hw : i - sh < w
  · simp only [hw, decide_true, Bool.and_true]
    cases decide (i < 64) <;> cases decide (sh ≤ i) <;> simp
  · have hbit : x.testBit (i - sh) = false := Nat.testBit_lt_two_pow (hx.trans_le (Nat.pow_le_pow_right (by decide) (not_lt.1 hw)))
    simp [hbit]

/-- The request of a write of `data`: the window that `off` lies in chooses its operation (R130). -/
def hostWriteWord (off : Nat) (data : List Byte) : SvcReq := hostWord (wordBarge off data.length 0 (1 + off / 0x6000000) data)

/-- Data and mask of the word's request (R131). -/
theorem hostWriteWord_fields {off : Nat} {data : List Byte} (h : (data.length = 4 ∧ off % 4 = 0) ∨ (data.length = 8 ∧ off % 8 = 0)) :
    (hostWriteWord off data).data = BitVec.ofNat 64 (leNat data * 2 ^ (8 * (off % 8))) ∧
      (hostWriteWord off data).mask =
        BitVec.ofNat 64 ((2 ^ (8 * data.length) - 1) * 2 ^ (8 * (off % 8))) := by
  have hmod : off % 0x6000000 % 8 = off % 8 := Nat.mod_mod_of_dvd _ (by decide)
  rcases h with ⟨hl, h4⟩ | ⟨hl, h8⟩
  · have hpos : off % 8 = 0 ∨ off % 8 = 4 := by omega
    rcases hpos with hpos | hpos <;> simp [hostWriteWord, hostWord, svcWord, wordBarge, hl, hmod, hpos]
  · simp [hostWriteWord, hostWord, svcWord, wordBarge, hl, h8]

/-- The action of each window: store, set, clear (R130). -/
theorem hostWriteWord_op {off : Nat} (hin : off < 0x12000000) (data : List Byte) :
    (hostWriteWord off data).op =
      if off < 0x6000000 then (if data.length = 4 then .partialW else .write) else if off < 0xC000000 then .setBits else .clearBits := by
  have hwin : (off < 0x6000000 ∧ off / 0x6000000 = 0) ∨ (¬ off < 0x6000000 ∧ off < 0xC000000 ∧ off / 0x6000000 = 1) ∨
      (¬ off < 0x6000000 ∧ ¬ off < 0xC000000 ∧ off / 0x6000000 = 2) := by omega
  rcases hwin with ⟨h1, hq⟩ | ⟨h1, h2, hq⟩ | ⟨h1, h2, hq⟩
  · by_cases hl : data.length = 4 <;> simp [hostWriteWord, hostWord, svcWord, wordBarge, h1, hq, hl]
  · simp [hostWriteWord, hostWord, svcWord, wordBarge, h1, h2, hq]
  · simp [hostWriteWord, hostWord, svcWord, wordBarge, h1, h2, hq]

/-- What a write through each window makes of a word (R130, R131). -/
theorem stored_hostWriteWord {off : Nat} {data : List Byte} (hf : (data.length = 4 ∧ off % 4 = 0) ∨ (data.length = 8 ∧ off % 8 = 0))
    (hin : off < 0x12000000) (d : BitVec 64) :
    let v := BitVec.ofNat 64 (leNat data * 2 ^ (8 * (off % 8)))
    let m := BitVec.ofNat 64 ((2 ^ (8 * data.length) - 1) * 2 ^ (8 * (off % 8)))
    stored (hostWriteWord off data) d =
      if off < 0x6000000 then (d &&& ~~~m) ||| v else if off < 0xC000000 then d ||| v else d &&& ~~~v := by
  intro v m
  obtain ⟨hdata, hmask⟩ := hostWriteWord_fields hf
  have hvm : v &&& m = v := ofNat_and_mask (leNat_lt data) _
  rw [stored, hostWriteWord_op hin, hdata, hmask]
  change (match (if off < 0x6000000 then _ else _ : SvcOp) with
    | .setBits => d ||| (v &&& m) | .clearBits => d &&& ~~~(v &&& m) | .partialW => (d &&& ~~~m) ||| (v &&& m) | _ => v) = _
  rw [hvm]
  split_ifs with h1 hl h2
  · rfl
  · obtain ⟨h8, hoff⟩ := hf.resolve_left fun h => hl h.1
    have hm : m = BitVec.allOnes 64 := by
      simp only [m, h8, hoff]
      rfl
    simp [hm]
  · rfl
  · rfl

/-! ## Hold memory: an access of the host whose DRAM banks are idle -/

theorem insertBy_ne_nil {α : Type} (f : α → Nat) (x : α) (l : List α) : insertBy f x l ≠ [] := by
  cases l with
  | nil => simp [insertBy]
  | cons y t => unfold insertBy; split <;> simp

/-- An order of nothing orders nothing. -/
theorem sortBy_eq_nil {α : Type} {f : α → Nat} {l : List α} (h : sortBy f l = []) : l = [] := by
  rcases List.eq_nil_or_concat l with rfl | ⟨t, x, rfl⟩
  · rfl
  · simp [sortBy, insertBy_ne_nil] at h

/-- DRAM bank `d` has nothing to do ahead of an access that arrives. -/
structure DramIdle (s : State) (d : Nat) : Prop where
  queue : bankQueue s d = []
  due   : bankDue s d = false

theorem dramIdle_iff {s : State} {d : Nat} : dramIdle s d = true ↔ DramIdle s d := by
  have hwb : (s.hold.writeback.any fun e => decide (lineBank s (e.1 / 8) = d)) = false ↔
      (s.hold.writeback.all fun e => decide (lineBank s (e.1 / 8) ≠ d)) = true := by
    simp [List.any_eq_false]
  constructor
  · intro h
    simp only [dramIdle, Bool.and_eq_true, decide_eq_true_eq] at h
    obtain ⟨⟨hq, hdue⟩, hall⟩ := h
    exact ⟨hq, by simp only [bankDue, hdue, hwb.2 hall]; rfl⟩
  · rintro ⟨hq, hdue⟩
    simp only [bankDue, Bool.or_eq_false_iff, decide_eq_false_iff_not, not_not] at hdue
    simp only [dramIdle, hq, hdue.1, hwb.1 hdue.2]
    rfl

/-- No sluice request waits for a line of an idle bank. -/
theorem DramIdle.noRequest {s : State} {n : Nat} (h : DramIdle s (lineBank s n)) : ∀ r ∈ s.req, r.addr / 64 = n → r.served = true := by
  intro r hr hn
  have := List.filter_eq_nil_iff.1 (sortBy_eq_nil h.queue) r hr
  simpa [hn] using this

/-- The only access under way. -/
def withJob (j : HoldJob) (s : State) : State := { s with hold := { s.hold with jobs := [j] } }

/-- A line of the only access under way is performed at once where its bank is idle (R155). -/
theorem jobAtOnce_idle {s : State} {n : Nat} (j : HoldJob) (h : DramIdle s (lineBank s n)) :
    jobAtOnce n (withJob j s) = jobLine j n (withJob j s) := by
  have hnext : jobNext (withJob j s) j n = true := by
    have hreq : (s.req.any fun r => !r.served && r.addr / 64 = n && j.ahead.contains (r.gsc, r.q)) = false := by
      rw [List.any_eq_false]
      intro r hr
      by_cases hn : r.addr / 64 = n
      · simp [h.noRequest r hr hn]
      · simp [hn]
    have hfirst : [j].takeWhile (fun x => decide (x ≠ j)) = [] := by simp
    simp only [jobNext, withJob, hreq, hfirst]
    rfl
  have hmine : (jobsAt (withJob j s) (lineBank s n)).all (fun x => x.1 = j) = true := by
    simp only [jobsAt, withJob, List.flatMap_cons, List.flatMap_nil, List.append_nil, List.all_map]
    simp
  have hqueue : bankQueue (withJob j s) (lineBank s n) = [] := h.queue
  have hdue : bankDue (withJob j s) (lineBank s n) = false := h.due
  have hlast : (withJob j s).hold.jobs.getLast? = some j := rfl
  have hbank : lineBank (withJob j s) n = lineBank s n := rfl
  simp only [jobAtOnce, hlast, hbank, hqueue, hdue, hmine, hnext]
  rfl

theorem putJob_only (j j' : HoldJob) (s : State) : putJob j j' (withJob j s) = withJob j' s := by
  simp [putJob, withJob]

theorem hdCheck_clean {s : State} {n : Nat} (h : hdEcc s n = .clean) (src : Nat) : hdCheck src n s = (s, []) := by
  simp [hdCheck, h]

/-! ### Reads -/

/-- A check of good words finds nothing. -/
theorem foldl_hdCheck_clean {s : State} {ws : List Nat} (h : ∀ w ∈ ws, hdEcc s w = .clean) (src : Nat) :
    ws.foldl (fun x w => andThen (hdCheck src w) x) (s, []) = (s, []) := by
  induction ws with
  | nil => rfl
  | cons w t ih =>
    rw [List.foldl_cons, andThen, hdCheck_clean (h w (by simp))]
    exact ih fun w' hw => h w' (by simp [hw])

/-- A byte of an access, read where its line is one of `ls`. -/
def fillByte (s : State) (ls : List Nat) (e : Nat × Byte) : Nat × Byte :=
  if e.1 / 64 ∈ ls then (e.1, mget 0#8 s.hold.cells e.1) else e

theorem fillByte_fst (s : State) (ls : List Nat) (e : Nat × Byte) : (fillByte s ls e).1 = e.1 := by
  unfold fillByte
  split <;> rfl

theorem fillByte_cons (s : State) (n : Nat) (ls : List Nat) : fillByte s ls ∘ fillByte s [n] = fillByte s (n :: ls) := by
  funext e
  simp only [Function.comp_apply, fillByte, List.mem_cons, List.not_mem_nil, or_false]
  split_ifs <;> simp_all

/-- The access once the lines `ls` of good words are read into it, and `rest` is left. -/
def readJob (s : State) (j : HoldJob) (ls rest : List Nat) : HoldJob := { j with lines := rest, cells := j.cells.map (fillByte s ls) }

/-- A read of good words, none of them yet found bad. -/
structure CleanRead (s : State) (j : HoldJob) : Prop where
  op     : j.b.op = 0
  poison : j.poison = false
  ue     : j.ue = false
  ecc    : ∀ e ∈ j.cells, hdEcc s (e.1 / 8) = .clean

theorem CleanRead.readJob {s : State} {j : HoldJob} (h : CleanRead s j) (ls rest : List Nat) : CleanRead s (readJob s j ls rest) := by
  refine { h with ecc := fun e he => ?_ }
  obtain ⟨e', he', rfl⟩ := List.mem_map.1 he
  rw [fillByte_fst]
  exact h.ecc e' he'

/-- The words of line `n` that the access touches. -/
def lineWords (es : List (Nat × Byte)) (n : Nat) : List Nat := ((es.filter fun e => e.1 / 64 = n).map fun e => e.1 / 8).eraseDups

theorem mem_lineWords {es : List (Nat × Byte)} {n w : Nat} : w ∈ lineWords es n ↔ w / 8 = n ∧ ∃ e ∈ es, e.1 / 8 = w := by
  simp only [lineWords, List.mem_eraseDups, List.mem_map, List.mem_filter, decide_eq_true_eq]
  constructor
  · rintro ⟨e, ⟨he, hn⟩, hw⟩
    exact ⟨by omega, e, he, hw⟩
  · rintro ⟨hn, e, he, hw⟩
    exact ⟨e, ⟨he, by omega⟩, hw⟩

/-- A line of good words is read into the access (R150, R154). -/
theorem jobLine_read {s : State} {j : HoldJob} (h : CleanRead s j) (n : Nat) :
    jobLine j n (withJob j s) = (withJob (readJob s j [n] (j.lines.erase n)) s, []) := by
  have hword : ∀ w ∈ lineWords j.cells n, hdEcc (withJob j s) w = .clean := by
    intro w hw
    obtain ⟨-, e, he, rfl⟩ := mem_lineWords.1 hw
    exact h.ecc e he
  have hnone (c : Ecc) (hc : c ≠ .clean) : ((lineWords j.cells n).any fun w => decide (hdEcc (withJob j s) w = c)) = false :=
    List.any_eq_false.2 fun w hw => by simp [hword w hw, hc.symm]
  have hpoison := hnone .poison (by decide)
  have hdouble := hnone .double (by decide)
  have hcells : j.cells.map (fun e => if e.1 / 64 = n then
      (e.1, if hdEcc (withJob j s) (e.1 / 8) = .poison then 0#8 else mget 0#8 (withJob j s).hold.cells e.1) else e) =
      j.cells.map (fillByte s [n]) := by
    refine List.map_congr_left fun e he => ?_
    have hclean : hdEcc (withJob j s) (e.1 / 8) = .clean := h.ecc e he
    simp only [fillByte, List.mem_singleton, hclean, reduceCtorEq, if_false]
    rfl
  rw [lineWords] at hword hpoison hdouble
  simp only [jobLine, h.op, if_true, foldl_hdCheck_clean hword, hpoison, hdouble, hcells, Bool.or_false]
  rw [putJob_only]
  rfl

/-- The lines of a read whose banks are idle are all performed at once (R154, R155). -/
theorem jobLines_read {s : State} (ls : List Nat) (hidle : ∀ n ∈ ls, DramIdle s (lineBank s n)) {j : HoldJob} (h : CleanRead s j)
    (hl : j.lines = ls) :
    ls.foldl (fun x n => andThen (jobAtOnce n) x) (withJob j s, []) = (withJob (readJob s j ls []) s, []) := by
  induction ls generalizing j with
  | nil =>
    have hid : fillByte s [] = id := by funext e; simp [fillByte]
    have hj : readJob s j [] [] = j := by
      rw [readJob, hid, List.map_id]
      exact congrArg (fun l => { j with lines := l }) hl.symm
    rw [List.foldl_nil, hj]
  | cons n rest ih =>
    have hnext : readJob s (readJob s j [n] rest) rest [] = readJob s j (n :: rest) [] := by
      simp only [readJob, List.map_map, fillByte_cons]
    have herase : j.lines.erase n = rest := by simp [hl]
    rw [List.foldl_cons, andThen, jobAtOnce_idle j (hidle n (by simp)), jobLine_read h, herase, ← hnext]
    exact ih (fun n' hn => hidle n' (by simp [hn])) (h.readJob _ _) rfl

/-! ### The access is over -/

/-- A host's access that is over leaves, with its effect. -/
theorem jobsEnd_only {j : HoldJob} (hwhy : j.why = .host) (hl : j.lines = []) {s : State} (hs : s.hold.jobs = []) :
    jobsEnd (withJob j s) = jobEnds s j := by
  have hdone : jobsDone (withJob j s) = [j] := by simp [jobsDone, withJob, hl]
  have htrace : traceEnds (withJob j s) = withJob j s := by
    have hpast : (jobsDone (withJob j s)).filter (·.why = .trace) = [] := by simp [hdone, hwhy]
    rw [traceEnds, hpast]
    rfl
  have hleave : jobsLeave (withJob j s) = s := by
    have hnone : [j].filter (fun x => decide (x.lines ≠ [])) = s.hold.jobs := by simp [hl, hs]
    exact congrArg (fun l : List HoldJob => { s with hold := { s.hold with jobs := l } }) hnone
  rw [jobsEnd, hdone, htrace, hleave]
  rfl

/-- The completion of a host's read that met no bad word (R154). -/
theorem jobEnds_read {j : HoldJob} (hwhy : j.why = .host) (hop : j.b.op = 0) (hp : j.poison = false) (hu : j.ue = false) (s : State) :
    jobEnds s j = hostCpl .ok false 4 j.b.addr (j.cells.map (·.2) ++ List.replicate (j.b.len - j.cells.length) 0#8) s := by
  simp [jobEnds, hwhy, hop, hp, hu]

/-- An access that arrives where no other is under way. -/
theorem jobArrives_only {s : State} (hs : s.hold.jobs = []) (b : Barge) (why : HoldFor) (cells : List (Nat × Byte)) :
    jobArrives b why cells s = (jobNew b why cells s).lines.foldl (fun x n => andThen (jobAtOnce n) x)
      (withJob (jobNew b why cells s) s, []) := by
  rw [jobArrives, withJob, hs]
  rfl

/-- The lines of the bytes of an access. -/
theorem mem_jobNew_lines {s : State} {b : Barge} {why : HoldFor} {cells : List (Nat × Byte)} {n : Nat} :
    n ∈ (jobNew b why cells s).lines ↔ ∃ e ∈ cells, e.1 / 64 = n := by
  simp [jobNew, List.mem_eraseDups]

/-- The access of a host's read of the `n` bytes at `a`, of `len` that it asks for. -/
def hostReadJob (a n len : Nat) (s : State) : HoldJob := jobNew (bar4Barge 0 a len []) .host (readCells a n) s

/-- A host's read of good words at idle banks: their bytes, and zeros beyond populated memory (R153, R154). -/
theorem holdSettle_read {s : State} (hs : s.hold.jobs = []) {a n len : Nat} (hidle : bytesIdle s a n = true)
    (hecc : ∀ i < n, hdEcc s ((a + i) / 8) = .clean) :
    holdSettle (jobArrives (bar4Barge 0 a len []) .host (readCells a n) s) =
      hostCpl .ok false 4 a (((List.range n).map fun i => mget 0#8 s.hold.cells (a + i)) ++ List.replicate (len - n) 0#8) s := by
  have hmem : ∀ e ∈ readCells a n, ∃ i < n, e = (a + i, 0#8) := by
    simp [readCells, eq_comm]
  have hclean : CleanRead s (hostReadJob a n len s) := by
    refine ⟨rfl, rfl, rfl, fun e he => ?_⟩
    obtain ⟨i, hi, rfl⟩ := hmem e he
    exact hecc i hi
  have hlines : ∀ m ∈ (hostReadJob a n len s).lines, DramIdle s (lineBank s m) := by
    intro m hm
    obtain ⟨e, he, rfl⟩ := mem_jobNew_lines.1 hm
    obtain ⟨i, hi, rfl⟩ := hmem e he
    exact dramIdle_iff.1 (List.all_eq_true.1 hidle i (by simpa using hi))
  have hbytes : (readJob s (hostReadJob a n len s) (hostReadJob a n len s).lines []).cells.map (·.2) =
      (List.range n).map fun i => mget 0#8 s.hold.cells (a + i) := by
    change ((readCells a n).map _).map _ = _
    rw [readCells, List.map_map, List.map_map]
    refine List.map_congr_left fun i hi => ?_
    have hline : (a + i) / 64 ∈ (hostReadJob a n len s).lines :=
      mem_jobNew_lines.2 ⟨(a + i, 0#8), by simpa [readCells] using hi, rfl⟩
    simp [fillByte, hline]
  have hlen : (readJob s (hostReadJob a n len s) (hostReadJob a n len s).lines []).cells.length = n := by
    simp [readJob, hostReadJob, jobNew, readCells]
  have harrive : jobArrives (bar4Barge 0 a len []) .host (readCells a n) s =
      (withJob (readJob s (hostReadJob a n len s) (hostReadJob a n len s).lines []) s, []) :=
    (jobArrives_only hs ..).trans (jobLines_read _ hlines hclean rfl)
  rw [harrive, holdSettle, settle_nil, jobsEnd_only rfl rfl hs, jobEnds_read rfl rfl rfl rfl, hbytes, hlen]
  rfl

/-! ### Writes -/

theorem mget_filter (d : Byte) {p : Nat × Byte → Bool} (l : List (Nat × Byte)) {x : Nat} (h : ∀ v, p (x, v) = true) :
    mget d (l.filter p) x = mget d l x := by
  induction l with
  | nil => rfl
  | cons e t ih =>
    obtain ⟨k, v⟩ := e
    by_cases hk : k = x
    · subst hk
      simp [h, mget]
    · by_cases hp : p (k, v) = true
      · simp [hp, mget, hk, ih]
      · simp [hp, mget, hk, ih]

/-- What a map says of a key does not change by saying it twice. -/
theorem mget_mget (d : Byte) (l : List (Nat × Byte)) (x : Nat) : mget (mget d l x) l x = mget d l x := by
  induction l with
  | nil => rfl
  | cons e t ih =>
    by_cases he : e.1 = x
    · simp [mget, he]
    · simpa [mget, he] using ih

theorem leBytes_leNat (bs : List Byte) : leBytes bs.length (leNat bs) = bs := by
  induction bs with
  | nil => rfl
  | cons b t ih =>
    have hdiv : (b.toNat + 256 * leNat t) / 256 = leNat t := by have := b.isLt; omega
    have hbyte : BitVec.ofNat 8 (b.toNat + 256 * leNat t) = b := by
      apply BitVec.eq_of_toNat_eq
      simpa using b.isLt
    rw [List.length_cons, leBytes_succ, leNat, hdiv, hbyte, ih]

/-- Hold memory after the words `ws` took the bytes of `es`: their cells, good check bits, and no write-back that was not outstanding. -/
structure HoldWrote (es : List (Nat × Byte)) (ws : List Nat) (s t : State) : Prop where
  cells : ∀ x, mget 0#8 t.hold.cells x = if x / 8 ∈ ws then mget (mget 0#8 s.hold.cells x) es x else mget 0#8 s.hold.cells x
  ecc   : ∀ w, hdEcc t w = if w ∈ ws then .clean else hdEcc s w
  back  : ∀ e ∈ t.hold.writeback, e ∈ s.hold.writeback
  frame : { t with hold := { t.hold with cells := s.hold.cells, ecc := s.hold.ecc, writeback := s.hold.writeback } } = s

theorem HoldWrote.refl (es : List (Nat × Byte)) (s : State) : HoldWrote es [] s s :=
  ⟨fun _ => rfl, fun _ => rfl, fun _ he => he, rfl⟩

theorem HoldWrote.append {es : List (Nat × Byte)} {vs ws : List Nat} {s t u : State} (h : HoldWrote es vs s t)
    (h' : HoldWrote es ws t u) : HoldWrote es (vs ++ ws) s u := by
  refine ⟨fun x => ?_, fun w => ?_, fun e he => h.back e (h'.back e he), ?_⟩
  · rw [h'.cells, h.cells]
    by_cases hv : x / 8 ∈ vs <;> by_cases hw : x / 8 ∈ ws <;> simp [hv, hw, mget_mget]
  · rw [h'.ecc, h.ecc]
    by_cases hv : w ∈ vs <;> by_cases hw : w ∈ ws <;> simp [hv, hw]
  · exact (congrArg (fun x : State =>
      { x with hold := { x.hold with cells := s.hold.cells, ecc := s.hold.ecc, writeback := s.hold.writeback } }) h'.frame).trans h.frame

/-- A word that the access can write: it covers all of it, or the word is without error (R153). -/
def canWrite (es : List (Nat × Byte)) (s : State) (w : Nat) : Prop := (es.filter fun e => e.1 / 8 = w).length = 8 ∨ hdEcc s w = .clean

theorem HoldWrote.canWrite {es : List (Nat × Byte)} {ws : List Nat} {s t : State} (h : HoldWrote es ws s t) {w : Nat}
    (hw : canWrite es s w) : canWrite es t w :=
  hw.imp_right fun hc => by rw [h.ecc, hc, ite_self]

/-- A DRAM bank with nothing to do has nothing to do after a write. -/
theorem HoldWrote.dramIdle {es : List (Nat × Byte)} {ws : List Nat} {s t : State} (h : HoldWrote es ws s t) {n : Nat}
    (hi : DramIdle s (lineBank s n)) : DramIdle t (lineBank t n) := by
  obtain ⟨hq, hd⟩ := hi
  have hreq : t.req = s.req := (congrArg State.req h.frame :)
  have hdev : t.dev = s.dev := (congrArg State.dev h.frame :)
  have hdue : t.hold.refDue = s.hold.refDue := (congrArg (·.hold.refDue) h.frame :)
  have hbank (m : Nat) : lineBank t m = lineBank s m := by unfold lineBank nStacks; rw [hdev]
  constructor
  · simpa only [bankQueue, hreq, hbank] using hq
  · simp only [bankDue, Bool.or_eq_false_iff, List.any_eq_false] at hd ⊢
    obtain ⟨href, hback⟩ := hd
    refine ⟨by rw [hbank, hdue]; exact href, fun e he => ?_⟩
    rw [hbank, hbank]
    exact hback e (h.back e he)

/-- The new bytes of word `w`. -/
def newBytes (s : State) (es : List (Nat × Byte)) (w : Nat) : List Byte :=
  (List.range 8).map fun i => mget (mget 0#8 s.hold.cells (8 * w + i)) es (8 * w + i)

/-- A word written with its new bytes. -/
theorem holdWrote_hdWrite (es : List (Nat × Byte)) (s : State) (w : Nat) :
    HoldWrote es [w] s (hdWrite w (BitVec.ofNat 64 (leNat (newBytes s es w))) false s) := by
  have hlen : (newBytes s es w).length = 8 := by simp [newBytes]
  have hval : (BitVec.ofNat 64 (leNat (newBytes s es w))).toNat = leNat (newBytes s es w) := by
    have hlt := leNat_lt (newBytes s es w)
    rw [hlen] at hlt
    rw [BitVec.toNat_ofNat, Nat.mod_eq_of_lt hlt]
  have hbytes : leBytes 8 (leNat (newBytes s es w)) = newBytes s es w := by
    have h := leBytes_leNat (newBytes s es w)
    rwa [hlen] at h
  refine ⟨fun x => ?_, fun v => ?_, fun e he => ?_, rfl⟩
  · simp only [hdWrite, hval, hbytes, mget_putBytes, hlen, List.mem_singleton]
    by_cases hx : x / 8 = w
    · have hin : 8 * w ≤ x ∧ x < 8 * w + 8 := by omega
      have hi : x - 8 * w < 8 := by omega
      have hsub : 8 * w + (x - 8 * w) = x := by omega
      rw [if_pos hin, if_pos hx]
      simp [newBytes, List.getD, hi, hsub]
    · rw [if_neg (by omega), if_neg hx]
  · simp [hdEcc, hdWrite, mget_mset]
  · simp only [hdWrite, mset, if_true, mdel_eq_filter] at he
    exact List.mem_of_mem_filter he

/-- One word's part of a write (R153). -/
theorem holdWordWrite_can {es : List (Nat × Byte)} {s : State} {w : Nat} (h : canWrite es s w) :
    holdWordWrite w (es.filter fun e => e.1 / 64 = w / 8) (s, [], true) =
      (hdWrite w (BitVec.ofNat 64 (leNat (newBytes s es w))) false s, [], true) := by
  have hmine : ((es.filter fun e => e.1 / 64 = w / 8).filter fun e => e.1 / 8 = w) = es.filter fun e => e.1 / 8 = w := by
    rw [List.filter_filter]
    refine List.filter_congr fun e _ => ?_
    by_cases he : e.1 / 8 = w
    · have : e.1 / 64 = w / 8 := by omega
      simp [he, this]
    · simp [he]
  have hnew : ((List.range 8).map fun i => mget (mget 0#8 s.hold.cells (8 * w + i)) (es.filter fun e => e.1 / 8 = w) (8 * w + i)) =
      newBytes s es w := by
    refine List.map_congr_left fun i hi => mget_filter _ _ fun v => ?_
    have := List.mem_range.1 hi
    simp
    omega
  simp only [holdWordWrite, hmine, hnew]
  rcases h with h8 | hclean
  · rw [if_pos h8]
  · split
    · rfl
    · simp [hdCheck_clean hclean, hclean]

/-- The words of a line, one after the other. -/
theorem foldl_holdWordWrite {es : List (Nat × Byte)} {n : Nat} (ws : List Nat) (s : State)
    (h : ∀ w ∈ ws, w / 8 = n ∧ canWrite es s w) :
    ∃ t, ws.foldl (fun x w => holdWordWrite w (es.filter fun e => e.1 / 64 = n) x) (s, [], true) = (t, [], true) ∧
      HoldWrote es ws s t := by
  induction ws generalizing s with
  | nil => exact ⟨s, rfl, .refl es s⟩
  | cons w rest ih =>
    obtain ⟨rfl, hw⟩ := h w (by simp)
    have hfirst := holdWrote_hdWrite es s w
    obtain ⟨t, ht, hwrote⟩ := ih _ fun v hv => ⟨(h v (by simp [hv])).1, hfirst.canWrite (h v (by simp [hv])).2⟩
    refine ⟨t, ?_, hfirst.append hwrote⟩
    rw [List.foldl_cons, holdWordWrite_can hw, ht]

/-- A line of a write of bytes that the access can write (R153). -/
theorem jobLine_write {s : State} {j : HoldJob} (hop : j.b.op ≠ 0) (hr : j.refused = false) (n : Nat)
    (h : ∀ e ∈ j.cells, canWrite j.cells s (e.1 / 8)) :
    ∃ t, jobLine j n (withJob j s) = (withJob { j with lines := j.lines.erase n } t, []) ∧ HoldWrote j.cells (lineWords j.cells n) s t := by
  obtain ⟨t, ht, hwrote⟩ := foldl_holdWordWrite (es := j.cells) (n := n) (lineWords j.cells n) (withJob j s) fun w hw => by
    obtain ⟨hn, e, he, rfl⟩ := mem_lineWords.1 hw
    exact ⟨hn, h e he⟩
  have hjobs : t.hold.jobs = [j] := congrArg (·.hold.jobs) hwrote.frame
  refine ⟨{ t with hold := { t.hold with jobs := s.hold.jobs } }, ?_, hwrote.cells, hwrote.ecc, hwrote.back,
    congrArg (fun x : State => { x with hold := { x.hold with jobs := s.hold.jobs } }) hwrote.frame⟩
  rw [lineWords] at ht
  simp only [jobLine, hop, if_false, ht, hr]
  simp [putJob, withJob, hjobs]

/-- The lines of a write whose banks are idle are all performed at once (R153, R155). -/
theorem jobLines_write (ls : List Nat) {s : State} (hidle : ∀ n ∈ ls, DramIdle s (lineBank s n)) {j : HoldJob} (hop : j.b.op ≠ 0)
    (hr : j.refused = false) (hl : j.lines = ls) (h : ∀ e ∈ j.cells, canWrite j.cells s (e.1 / 8)) :
    ∃ t, ls.foldl (fun x n => andThen (jobAtOnce n) x) (withJob j s, []) = (withJob { j with lines := [] } t, []) ∧
      HoldWrote j.cells (ls.flatMap (lineWords j.cells)) s t := by
  induction ls generalizing s j with
  | nil =>
    have hj : { j with lines := [] } = j := congrArg (fun l => { j with lines := l }) hl.symm
    exact ⟨s, by rw [hj]; rfl, .refl _ s⟩
  | cons n rest ih =>
    obtain ⟨t, ht, hline⟩ := jobLine_write hop hr n h
    have herase : j.lines.erase n = rest := by simp [hl]
    obtain ⟨u, hu, hrest⟩ := ih (s := t) (j := { j with lines := rest }) (fun m hm => hline.dramIdle (hidle m (by simp [hm]))) hop hr rfl
      fun e he => hline.canWrite (h e he)
    refine ⟨u, ?_, hline.append hrest⟩
    rw [List.foldl_cons, andThen, jobAtOnce_idle j (hidle n (by simp)), ht, herase]
    exact hu

/-! ### The bytes of a write -/

theorem writeCells_fst (a : Nat) (data : List Byte) : (writeCells a data).map (·.1) = List.range' a data.length := by
  apply List.ext_getElem
  · simp [writeCells]
  · intro i h1 h2
    simp [writeCells]

theorem mem_writeCells_fst {a : Nat} {data : List Byte} {x : Nat} : (∃ e ∈ writeCells a data, e.1 = x) ↔ ∃ i < data.length, a + i = x := by
  have h : (∃ e ∈ writeCells a data, e.1 = x) ↔ x ∈ (writeCells a data).map (·.1) := by simp
  rw [h, writeCells_fst, List.mem_range'_1]
  constructor
  · rintro ⟨h1, h2⟩
    exact ⟨x - a, by omega, by omega⟩
  · rintro ⟨i, hi, rfl⟩
    omega

theorem mget_writeCells (d : Byte) (a : Nat) (data : List Byte) (x : Nat) :
    mget d (writeCells a data) x = if a ≤ x ∧ x < a + data.length then data.getD (x - a) 0#8 else d := by
  induction data generalizing a with
  | nil => simp [writeCells]
  | cons b t ih =>
    have hcons : writeCells a (b :: t) = (a, b) :: writeCells (a + 1) t := by
      simp only [writeCells, List.zipIdx_cons', List.map_cons, List.map_map]
      simp
      intros
      omega
    rw [hcons, mget, ih]
    by_cases hx : a = x
    · simp [hx]
    · by_cases hin : a + 1 ≤ x ∧ x < a + 1 + t.length
      · have hin' : a ≤ x ∧ x < a + (b :: t).length := by simp; omega
        have hsub : x - a = x - (a + 1) + 1 := by omega
        rw [if_neg hx, if_pos hin, if_pos hin', hsub, List.getD_cons_succ]
      · have hout : ¬ (a ≤ x ∧ x < a + (b :: t).length) := by simp; omega
        rw [if_neg hx, if_neg hin, if_neg hout]

/-- The bytes within hold memory take the data, every other byte keeps what it held. -/
theorem mget_writeCells_words {a n : Nat} {data : List Byte} (hn : n ≤ data.length) {ws : List Nat}
    (hws : ∀ w, w ∈ ws ↔ ∃ i < n, (a + i) / 8 = w) (d : Byte) (x : Nat) :
    (if x / 8 ∈ ws then mget d (writeCells a (data.take n)) x else d) = if a ≤ x ∧ x < a + n then data.getD (x - a) 0#8 else d := by
  rw [mget_writeCells, List.length_take_of_le hn]
  by_cases hx : a ≤ x ∧ x < a + n
  · have hin : x / 8 ∈ ws := (hws _).2 ⟨x - a, by omega, by congr 1; omega⟩
    have hlt : x - a < n := by omega
    rw [if_pos hin, if_pos hx, if_pos hx, List.getD_eq_getElem?_getD, List.getD_eq_getElem?_getD, List.getElem?_take_of_lt hlt]
  · rw [if_neg hx, if_neg hx, ite_self]

/-- Of an access of whole words, every word it touches is covered. -/
theorem whole_writeCells {a w : Nat} {data : List Byte} (ha : a % 8 = 0) (hn : data.length % 8 = 0)
    (hw : ∃ i < data.length, (a + i) / 8 = w) : ((writeCells a data).filter fun e => e.1 / 8 = w).length = 8 := by
  have hmap : ((writeCells a data).filter fun e => e.1 / 8 = w).length = ((List.range' a data.length).filter fun x => x / 8 = w).length := by
    rw [← writeCells_fst, List.filter_map, List.length_map]
    rfl
  obtain ⟨i, hi, hiw⟩ := hw
  obtain ⟨p, hp⟩ : ∃ p, 8 * w = a + p := ⟨8 * w - a, by omega⟩
  obtain ⟨q, hq⟩ : ∃ q, data.length = p + (8 + q) := ⟨data.length - (p + 8), by omega⟩
  have hsplit : List.range' a data.length = List.range' a p ++ (List.range' (a + p) 8 ++ List.range' (a + p + 8) q) := by
    rw [List.range'_append_1, List.range'_append_1, hq]
  have hbefore : (List.range' a p).filter (fun x => decide (x / 8 = w)) = [] := by
    refine List.filter_eq_nil_iff.2 fun x hx => ?_
    have := List.mem_range'_1.1 hx
    simp only [decide_eq_true_eq]
    omega
  have hword : (List.range' (a + p) 8).filter (fun x => decide (x / 8 = w)) = List.range' (a + p) 8 := by
    refine List.filter_eq_self.2 fun x hx => ?_
    have := List.mem_range'_1.1 hx
    simp only [decide_eq_true_eq]
    omega
  have hafter : (List.range' (a + p + 8) q).filter (fun x => decide (x / 8 = w)) = [] := by
    refine List.filter_eq_nil_iff.2 fun x hx => ?_
    have := List.mem_range'_1.1 hx
    simp only [decide_eq_true_eq]
    omega
  rw [hmap, hsplit, List.filter_append, List.filter_append, hbefore, hword, hafter]
  simp

/-- The access of a host's write of `data`, the part within hold memory of the `len` bytes `whole`. -/
def hostWriteJob (a len : Nat) (whole data : List Byte) (s : State) : HoldJob :=
  jobNew (bar4Barge 1 a len whole) .host (writeCells a data) s

theorem mem_hostWriteJob_lines {a len : Nat} {whole data : List Byte} {s : State} {n : Nat} :
    n ∈ (hostWriteJob a len whole data s).lines ↔ ∃ e ∈ writeCells a data, e.1 / 64 = n := mem_jobNew_lines

/-- A host's write at idle banks, of whole words or of words without error: its bytes, with good check bits (R153). -/
theorem holdSettle_write {s : State} (hs : s.hold.jobs = []) {a : Nat} (len : Nat) (whole : List Byte) {data : List Byte}
    (hidle : bytesIdle s a data.length = true)
    (hok : (a % 8 = 0 ∧ data.length % 8 = 0) ∨ ∀ i < data.length, hdEcc s ((a + i) / 8) = .clean) :
    ∃ ws, (∀ w, w ∈ ws ↔ ∃ i < data.length, (a + i) / 8 = w) ∧
      HoldWrote (writeCells a data) ws s (holdSettle (jobArrives (bar4Barge 1 a len whole) .host (writeCells a data) s)) := by
  have hlines : ∀ m ∈ (hostWriteJob a len whole data s).lines, DramIdle s (lineBank s m) := by
    intro m hm
    obtain ⟨e, he, rfl⟩ := mem_hostWriteJob_lines.1 hm
    obtain ⟨i, hi, hx⟩ := mem_writeCells_fst.1 ⟨e, he, rfl⟩
    rw [← hx]
    exact dramIdle_iff.1 (List.all_eq_true.1 hidle i (by simpa using hi))
  have hcan : ∀ e ∈ writeCells a data, canWrite (writeCells a data) s (e.1 / 8) := by
    intro e he
    obtain ⟨i, hi, hx⟩ := mem_writeCells_fst.1 ⟨e, he, rfl⟩
    rw [← hx]
    exact hok.imp (fun h => whole_writeCells h.1 h.2 ⟨i, hi, rfl⟩) fun h => h i hi
  obtain ⟨t, ht, hwrote⟩ := jobLines_write _ hlines (j := hostWriteJob a len whole data s)
    Nat.one_ne_zero rfl rfl hcan
  have hjobs : t.hold.jobs = [] := (congrArg (·.hold.jobs) hwrote.frame).trans hs
  have hend : holdSettle (jobArrives (bar4Barge 1 a len whole) .host (writeCells a data) s) = t := by
    have harrive : jobArrives (bar4Barge 1 a len whole) .host (writeCells a data) s = _ := (jobArrives_only hs ..).trans ht
    rw [harrive, holdSettle, settle_nil, jobsEnd_only rfl rfl hjobs]
    rfl
  rw [hend]
  refine ⟨_, fun w => ?_, hwrote⟩
  simp only [List.mem_flatMap, mem_hostWriteJob_lines, mem_lineWords]
  change (∃ n, (∃ e ∈ writeCells a data, e.1 / 64 = n) ∧ w / 8 = n ∧ ∃ e ∈ writeCells a data, e.1 / 8 = w) ↔ _
  constructor
  · rintro ⟨n, -, -, e, he, rfl⟩
    obtain ⟨i, hi, hx⟩ := mem_writeCells_fst.1 ⟨e, he, rfl⟩
    exact ⟨i, hi, by rw [hx]⟩
  · rintro ⟨i, hi, rfl⟩
    obtain ⟨e, he, hx⟩ := mem_writeCells_fst.2 ⟨i, hi, rfl⟩
    exact ⟨_, ⟨e, he, by omega⟩, rfl, e, he, by rw [hx]⟩

/-! ## BAR2 and BAR4 -/

/-! ### The flags of the host's accesses to hold memory -/

/-- No part of the machine changes but HLD_HSTS and HLD_HADDR. -/
def hostFlagsOnly (s t : State) : Prop := restSame s t ∧ regsBut [oHldHsts, oHldHaddr] s t

theorem hostFlagsOnly_refl (s : State) : hostFlagsOnly s s := ⟨rfl, fun _ _ => rfl⟩

theorem hostFlagsOnly_rset {s t : State} (h : hostFlagsOnly s t) {off : Nat} (hoff : off ∈ [oHldHsts, oHldHaddr]) (w : Word) :
    hostFlagsOnly s (rset off w t) :=
  ⟨h.1, fun o ho => (rget_rset_other off o w t fun e => ho (e ▸ hoff)).trans (h.2 o ho)⟩

theorem hostFlagsOnly_hostHold {s t : State} (h : hostFlagsOnly s t) (f a : Nat) : hostFlagsOnly s (hostHold f a t) := by
  unfold hostHold
  refine hostFlagsOnly_rset ?_ (by simp) _
  split
  · exact hostFlagsOnly_rset h (by simp) _
  · exact h

theorem hostHold_flag {f : Nat} (hf : f < 32) (a : Nat) (s : State) : rbit (hostHold f a s) oHldHsts f = true := by
  simp [hostHold, rbit, rflag, rmod, bit_setBit _ hf]

/-- The flag of an access that reaches beyond populated memory (R153). -/
def flagPast (n len a : Nat) (s : State) : State := if n < len then hostHold 3 a s else s

theorem flagPast_inside (a : Nat) (s : State) (len : Nat) : flagPast len len a s = s := if_neg (lt_irrefl _)

theorem hostFlagsOnly_flagPast (n len a : Nat) (s : State) : hostFlagsOnly s (flagPast n len a s) := by
  unfold flagPast
  split
  · exact hostFlagsOnly_hostHold (hostFlagsOnly_refl s) 3 a
  · exact hostFlagsOnly_refl s

theorem flagPast_flag {n len : Nat} (h : n < len) (a : Nat) (s : State) : rbit (flagPast n len a s) oHldHsts 3 = true := by
  rw [flagPast, if_pos h]
  exact hostHold_flag (by decide) a s

/-! ### The rows of the four accesses -/

theorem leadsTo_bar4Read {s : State} (h : endpointDown s = false) (a len : Nat) : leadsTo (.bar4Read a len) s (bar4Read a len s) :=
  leadsTo_settled (congrArg settled (by simp [h]) : exec (.bar4Read a len) s = _)

theorem leadsTo_bar4Write {s : State} (h : endpointDown s = false) (a : Nat) (data : List Byte) :
    leadsTo (.bar4Write a data) s (bar4Write a data s) :=
  leadsTo_settled (congrArg settled (by simp [h]) : exec (.bar4Write a data) s = _)

/-- An access that hold memory takes, on stacks that are available or beyond them all (R153). -/
structure HoldTakes (s : State) (a len : Nat) : Prop where
  window : hostWindow s = true
  stub   : stubAnswers s 45 0 = false
  available : holdInside s a len = 0 ∨ holdOffline s a (holdInside s a len) = false

theorem HoldTakes.online {s : State} {a len : Nat} (h : HoldTakes s a len) :
    (holdOffline s a (holdInside s a len) && decide (holdInside s a len ≠ 0)) = false := by
  rcases h.available with h0 | hon
  · simp [h0]
  · simp [hon]

theorem bar4Read_takes {s : State} {a len : Nat} (h : HoldTakes s a len) (hs : s.hold.jobs = [])
    (hidle : bytesIdle s a (holdInside s a len) = true) (hecc : ∀ i < holdInside s a len, hdEcc s ((a + i) / 8) = .clean) :
    bar4Read a len s = hostCpl .ok false 4 a (((List.range (holdInside s a len)).map fun i => mget 0#8 s.hold.cells (a + i)) ++
      List.replicate (len - holdInside s a len) 0#8) (flagPast (holdInside s a len) len a s) := by
  have hgo : bar4Read a len s = holdSettle (jobArrives (bar4Barge 0 a len []) .host (readCells a (holdInside s a len))
      (flagPast (holdInside s a len) len a s)) := by
    simp only [bar4Read, h.window, h.stub, h.online]
    rfl
  obtain ⟨r, hr⟩ := restSame_iff.1 (hostFlagsOnly_flagPast (holdInside s a len) len a s).1
  rw [hgo, hr]
  exact holdSettle_read (s := { s with regs := r }) (n := holdInside s a len) hs hidle hecc

theorem bar4Write_takes {s : State} {a : Nat} {data : List Byte} (h : HoldTakes s a data.length) (hs : s.hold.jobs = [])
    (hidle : bytesIdle s a (holdInside s a data.length) = true)
    (hok : (a % 8 = 0 ∧ holdInside s a data.length % 8 = 0) ∨ ∀ i < holdInside s a data.length, hdEcc s ((a + i) / 8) = .clean) :
    ∃ ws, (∀ w, w ∈ ws ↔ ∃ i < holdInside s a data.length, (a + i) / 8 = w) ∧
      HoldWrote (writeCells a (data.take (holdInside s a data.length))) ws (flagPast (holdInside s a data.length) data.length a s)
        (bar4Write a data s) := by
  have hgo : bar4Write a data s = holdSettle (jobArrives (bar4Barge 1 a data.length data) .host
      (writeCells a (data.take (holdInside s a data.length))) (flagPast (holdInside s a data.length) data.length a s)) := by
    simp only [bar4Write, h.window, h.stub, h.online]
    rfl
  have hlen : (data.take (holdInside s a data.length)).length = holdInside s a data.length :=
    List.length_take_of_le (min_le_left _ _)
  obtain ⟨r, hr⟩ := restSame_iff.1 (hostFlagsOnly_flagPast (holdInside s a data.length) data.length a s).1
  rw [hgo, hr]
  have hwrote := holdSettle_write (s := { s with regs := r }) hs data.length data (data := data.take (holdInside s a data.length))
    (a := a) (by rw [hlen]; exact hidle) (by rw [hlen]; exact hok)
  rwa [hlen] at hwrote

/-- An access that hold memory does not take: below Run, or on a stack that is not available (R153, R321). -/
theorem bar4_away {s : State} {a len : Nat} (data : List Byte)
    (h : (hostWindow s = false ∧ rbit s oCfgSts 4 = false) ∨ (hostWindow s = true ∧ stubAnswers s 45 0 = false ∧
      (holdInside s a len ≠ 0 ∧ holdOffline s a (holdInside s a len) = true) ∧
      holdInside s a data.length ≠ 0 ∧ holdOffline s a (holdInside s a data.length) = true)) :
    ∃ t u, bar4Read a len s = hostCpl .unsupported false 4 a [] (hostHold 4 a t) ∧ bar4Write a data s = hostHold 4 a u ∧
      hostFlagsOnly s t ∧ hostFlagsOnly s u := by
  rcases h with ⟨hwin, hkeep⟩ | ⟨hwin, hstub, ⟨hr0, hroff⟩, hw0, hwoff⟩
  · exact ⟨s, s, by simp [bar4Read, bar4Away, hwin, hkeep], by simp [bar4Write, bar4Away, hwin, hkeep], hostFlagsOnly_refl s,
      hostFlagsOnly_refl s⟩
  · refine ⟨_, _, ?_, ?_, hostFlagsOnly_flagPast (holdInside s a len) len a s,
      hostFlagsOnly_flagPast (holdInside s a data.length) data.length a s⟩
    · simp [bar4Read, hwin, hstub, hr0, hroff, flagPast]
    · simp [bar4Write, hwin, hstub, hw0, hwoff, flagPast]

/-! ### A word of BAR2 -/

/-- A read of one word of a bank in service and idle (R131). -/
theorem bar2Read_word {off len : Nat} {s : State} (hdown : endpointDown s = false) (hstub : stubAnswers s 47 0 = false)
    (hquiet : hostQuiet s = true) (hform : (len = 4 ∧ off % 4 = 0) ∨ (len = 8 ∧ off % 8 = 0)) (hin : off < 0x12000000)
    (hfree : BankFree s (bar2Bank off)) (hecc : dmEcc s (bar2Bank off) (bar2WordOf off) = .clean) :
    bar2Read off len s = hostCpl .ok false 2 off
      (((leBytes 8 (dmWord s (bar2Bank off) (bar2WordOf off)).toNat).drop (off % 8)).take len) (bankAccess (bar2Bank off) s) := by
  have hlen : len = 4 ∨ len = 8 := hform.imp And.left And.left
  rw [bar2Read_goes hdown (hostWindow_of_clock hfree.clock) (bar2Form_word hform hin) hstub, bar2Barges_one hlen, List.take_nil]
  simp only [Bool.false_eq_true, if_false]
  rw [bar2Send_one hquiet rfl hfree, bar2Word_read hin hstub hfree hecc, hostData_bytes hform]

/-- Reads of several words are as many reads (R131). -/
theorem bar2Barges_reads (off n : Nat) : bar2Barges off (8 * n) false [] = (List.range n).map fun i => wordBarge (off + 8 * i) 8 i 0 [] := by
  have h4 : 8 * n ≠ 4 := by omega
  simp [bar2Barges, wordBarge, h4]

theorem bar2Read_words {off n : Nat} {s : State} (hdown : endpointDown s = false) (hstub : stubAnswers s 47 0 = false)
    (hquiet : hostQuiet s = true) (hrun : seqRuns s = false) (h8 : off % 8 = 0) (hn : 1 ≤ n) (hin : off + 8 * n ≤ 0x12000000)
    (hgood : ∀ i < n, BankFree s (bar2Bank (off + 8 * i)) ∧ dmEcc s (bar2Bank (off + 8 * i)) (bar2WordOf (off + 8 * i)) = .clean) :
    let u := bar2Read off (8 * n) s
    u.host.cpl = ((List.range n).map fun i => readCpl s (wordBarge (off + 8 * i) 8 i 0 [])).reverse ++ s.host.cpl ∧
      { u with host := { u.host with cpl := s.host.cpl }, dmc := { u.dmc with cycle := s.dmc.cycle } } = s := by
  intro u
  obtain ⟨hqueue, hidle⟩ := hostQuiet_iff.1 hquiet
  have hform : bar2Form off (8 * n) = true := by
    simp [bar2Form, h8]
    omega
  have hgoes : ∀ b ∈ bar2Barges off (8 * n) false [], readGoes s b := by
    rw [bar2Barges_reads]
    intro b hb
    obtain ⟨i, hi, rfl⟩ := List.mem_map.1 hb
    have hlt := List.mem_range.1 hi
    obtain ⟨hfree, hecc⟩ := hgood i hlt
    exact ⟨off + 8 * i, i, rfl, by omega, by omega, hfree, hecc⟩
  have hu : u = bar2Goes (bar2Barges off (8 * n) false []).length (withQueue (bar2Barges off (8 * n) false []) s) := by
    rw [← bar2Send_quiet hqueue]
    exact bar2Read_goes hdown (hostWindow_of_clock (hgood 0 hn).1.clock) hform hstub
  obtain ⟨hcpl, hframe⟩ := bar2Goes_reads _ s hrun hstub hidle hgoes
  rw [← hu] at hcpl hframe
  refine ⟨?_, hframe.trans (withQueue_self hqueue)⟩
  rw [hcpl, bar2Barges_reads, List.map_map]
  rfl

/-- A write of one word through the plain, the set or the clear window (R130, R131). -/
theorem bar2Write_word {off : Nat} {data : List Byte} {s : State} (hdown : endpointDown s = false) (hstub : stubAnswers s 47 0 = false)
    (hquiet : hostQuiet s = true) (hform : (data.length = 4 ∧ off % 4 = 0) ∨ (data.length = 8 ∧ off % 8 = 0)) (hin : off < 0x12000000)
    (hfree : BankFree s (bar2Bank off)) (hissue : issuesNext s (bar2Bank off) = false ∨ (data.length = 8 ∧ off < 0x6000000))
    (hecc : dmEcc s (bar2Bank off) (bar2WordOf off) = .clean ∨ (data.length = 8 ∧ off < 0x6000000)) :
    bar2Write off data s = dmWrite (bar2Bank off) (bar2WordOf off)
      (stored (hostWriteWord off data) (dmWord s (bar2Bank off) (bar2WordOf off))) false
      (bankAccess (bar2Bank off) s) := by
  have hlen : data.length = 4 ∨ data.length = 8 := hform.imp And.left And.left
  have hword : (hostWriteWord off data).word = bar2WordOf off := hostWord_word _
  have hop := hostWriteWord_op hin data
  have hplain (h : data.length = 8 ∧ off < 0x6000000) : (hostWriteWord off data).op = .write := by
    rw [hop, if_pos h.2, if_neg (by omega)]
  have hwrites : svcWrites (hostWriteWord off data).op = true := by
    rw [hop]
    split_ifs <;> rfl
  rw [bar2Write_goes hdown (hostWindow_of_clock hfree.clock) (bar2Form_word hform hin) hstub, bar2Barges_one hlen, List.take_length]
  simp only [if_true]
  rw [bar2Send_one hquiet rfl hfree, bar2Word_goes hin hstub hfree]
  change svcArrive (hostWriteWord off data) s = _
  rw [svcArrive_write hfree rfl rfl hwrites rfl (hecc.imp (by rw [hword]; exact id) hplain) (hissue.imp_right hplain), hword]
  rfl

/-- Beside the word written and the cycle it takes, a write of a bank changes nothing. -/
theorem dmWrite_frame (k w : Nat) (v : BitVec 64) (s : State) :
    let u := dmWrite k w v false (bankAccess k s)
    (∀ x, mget 0#8 (bankAccess k s).dmc.cells x = mget 0#8 s.dmc.cells x) ∧
    { u with dmc := { u.dmc with cells := s.dmc.cells, ecc := s.dmc.ecc, writeback := s.dmc.writeback, cycle := s.dmc.cycle,
                                 used := s.dmc.used } } = s := by
  unfold bankAccess
  split <;> exact ⟨fun _ => rfl, rfl⟩

/-- An access that the window or its form turns away (R130, R153). -/
theorem bar2_away {off len : Nat} {data : List Byte} {s : State} (hdown : endpointDown s = false)
    (h : hostWindow s = false ∨ (bar2Form off len = false ∧ bar2Form off data.length = false)) :
    bar2Read off len s = hostCpl .unsupported false 2 off [] s ∧ bar2Write off data s = s := by
  rcases h with hwin | ⟨hread, hwrite⟩
  · simp [bar2Read, bar2Write, hdown, hwin]
  · simp [bar2Read, bar2Write, hdown, hread, hwrite]

/-- Settles O43: an access that arrives at an idle bank is performed at once, word by word through BAR2, line by line in hold memory. -/
theorem hostApertures : Obligations.HostApertures := by
  refine ⟨⟨?wordRead, ?wordsRead, ?wordWrite, ?away⟩, ?holdRead, ?holdWrite, ?holdAway⟩
  case wordRead =>
    intro off len s hdown hstub hquiet hform hin hfree hecc
    rw [← bar2Read_word hdown hstub hquiet hform hin (bankFree_iff.1 hfree) hecc]
    exact leadsTo_settled rfl
  case wordsRead =>
    intro off n s hdown hstub hquiet hrun h8 hn hin hgood
    exact ⟨_, leadsTo_settled rfl, bar2Read_words hdown hstub hquiet hrun h8 hn hin fun i hi => (hgood i hi).imp_left bankFree_iff.1⟩
  case wordWrite =>
    intro off data s hdown hstub hquiet hform hin k w v m hfree hissue hecc
    obtain ⟨hword, hclean, hother⟩ := dmWrite_word k w
      (stored (hostWriteWord off data) (dmWord s k w)) (bankAccess k s)
    obtain ⟨hcells, hframe⟩ := dmWrite_frame k w
      (stored (hostWriteWord off data) (dmWord s k w)) s
    refine ⟨_, leadsTo_settled rfl, ?_⟩
    rw [bar2Write_word hdown hstub hquiet hform hin (bankFree_iff.1 hfree) hissue hecc]
    exact ⟨hword.trans (stored_hostWriteWord hform hin _), hclean, fun x hx => (hother x hx).trans (hcells x), hframe⟩
  case away =>
    intro off len data s hdown h
    obtain ⟨hread, hwrite⟩ := bar2_away hdown h
    exact ⟨hread ▸ leadsTo_settled rfl, leadsTo_settled (congrArg settled hwrite)⟩
  case holdRead =>
    intro a len s hdown hwin hstub hs _ n hon hidle hecc bytes
    have hread := leadsTo_bar4Read hdown a len
    rw [bar4Read_takes ⟨hwin, hstub, hon⟩ hs hidle hecc] at hread
    constructor
    · intro hn
      have hin : flagPast n len a s = s := hn ▸ flagPast_inside a s n
      rwa [hin] at hread
    · intro hn
      obtain ⟨hsame, hregs⟩ := hostFlagsOnly_flagPast n len a s
      obtain ⟨hcpl, hframe⟩ := hostCpl_frame hsame .ok false 4 a bytes
      exact ⟨_, hread, flagPast_flag hn a s, hcpl, hregs, hframe⟩
  case holdWrite =>
    intro a data s hdown hwin hstub hs _ n hon hidle hok
    obtain ⟨ws, hws, hwrote⟩ := bar4Write_takes ⟨hwin, hstub, hon⟩ hs hidle hok
    obtain ⟨hsame, hbut⟩ := hostFlagsOnly_flagPast n data.length a s
    obtain ⟨r, hr⟩ := restSame_iff.1 hsame
    rw [hr] at hwrote
    obtain ⟨hcells, hecc, -, hframe⟩ := hwrote
    have hregs : (bar4Write a data s).regs = (flagPast n data.length a s).regs := by
      rw [hr]
      exact (congrArg State.regs hframe :)
    have hget (o : Nat) : rget (bar4Write a data s) o = rget (flagPast n data.length a s) o := congrArg (mget _ · o) hregs
    refine ⟨_, leadsTo_bar4Write hdown a data, fun x => ?_, fun i hi => ?_, fun j hj => ?_, fun hn => ?_, fun hn => ?_,
      fun o ho => (hget o).trans (hbut o ho), congrArg (fun x : State => { x with regs := s.regs }) hframe⟩
    · exact (hcells x).trans (mget_writeCells_words (min_le_left _ _) hws _ x)
    · rw [hecc, if_pos ((hws _).2 ⟨i, hi, rfl⟩)]
    · refine (hecc j).trans (if_neg fun hin => ?_)
      obtain ⟨i, hi, hij⟩ := (hws j).1 hin
      exact hj i hi hij
    · rw [rbit, hget]
      exact flagPast_flag hn a s
    · rw [hregs, hn, flagPast_inside]
  case holdAway =>
    intro a len data s hdown h
    obtain ⟨t, u, hread, hwrite, ht, hu⟩ := bar4_away data h
    obtain ⟨hsame, hregs⟩ := hostFlagsOnly_hostHold ht 4 a
    obtain ⟨hcpl, -⟩ := hostCpl_frame hsame .unsupported false 4 a []
    obtain ⟨hwsame, hwregs⟩ := hostFlagsOnly_hostHold hu 4 a
    refine ⟨⟨_, leadsTo_bar4Read hdown a len, ?_⟩, _, leadsTo_bar4Write hdown a data, ?_⟩
    · rw [hread]
      exact ⟨hostHold_flag (by decide) a t, hcpl, hregs, (congrArg State.hold hsame :)⟩
    · rw [hwrite]
      exact ⟨hostHold_flag (by decide) a u, hwregs, hwsame⟩

end Sys2Proof.Machine

namespace Sys2Proof.Machine

/-! ## One processor's step (R34-R41) -/

/-- The instruction word that processor `p` fetches in step `st`, and its error state (R25, R34). -/
def wordAt (s : State) (cl st p : Nat) : BitVec 64 := mget 0#64 (getCl s cl).instr (1024 * physOf s cl p + st)
def wordEcc (s : State) (cl st p : Nat) : Ecc := mget .clean (getCl s cl).iEcc (1024 * physOf s cl p + st)

/-- The instruction it spells, and the values its operand reads deliver (R31, R33). -/
def opAt (s : State) (cl st p : Nat) : POp := decodeWord (nBanks s) (hasWharf s) (wordAt s cl st p)
def valsAt (s : State) (cl st p : Nat) : List V4 :=
  ((opFields (wordAt s cl st p) (opAt s cl st p)).map (readEntry (getCl s cl) (physOf s cl p))).map (·.1)

/-- The value a WAIT writes; X for every other instruction. -/
def waitAt (s : State) (cl st p : Nat) : V4 :=
  match opAt s cl st p with
  | .wait t => waitValue s (sluiceOf cl) t
  | _ => .x

/-- The word is uncorrectable (R34). -/
abbrev wordBad (s : State) (cl st p : Nat) : Prop := wordEcc s cl st p = .double ∨ wordEcc s cl st p = .poison

section
variable {s : State} {cl st p : Nat} {f : ProcFault}

theorem wordGood_iff : ¬ wordBad s cl st p ↔ wordEcc s cl st p = .clean ∨ wordEcc s cl st p = .single := by
  unfold wordBad
  cases wordEcc s cl st p <;> simp

/-- An uncorrectable word is not executed and writes X (R34). -/
theorem procStep_bad (h : wordBad s cl st p) :
    procStep s cl st p f = { lp := p, phys := physOf s cl p, op := .nop, vs := [], res := .x, expo := some .x, stage := none, flags := [2],
                             reps := [{ code := 0x1003, lk := 1, locv := locProc (physOf s cl p) cl p, frame := frameNow s }],
                             fixed := false } := by
  have hb : ((mget .clean (getCl s cl).iEcc (1024 * physOf s cl p + st) = Ecc.double) ||
      (mget .clean (getCl s cl).iEcc (1024 * physOf s cl p + st) = Ecc.poison) : Bool) = true := by
    simpa [wordBad, wordEcc] using h
  unfold procStep
  dsimp only
  rw [if_pos hb]

/-- What an executed word leaves: the value it offers, the correction, the result, and at a sound port its own sub-operation and operands. -/
structure Executed (s : State) (cl st p : Nat) (f : ProcFault) : Prop where
  fixed : (procStep s cl st p f).fixed = decide (wordEcc s cl st p = .single)
  expo  : (procStep s cl st p f).expo = if wExp (wordAt s cl st p) then some (procStep s cl st p f).res else none
  legal : opAt s cl st p ≠ .illegal →
    (procStep s cl st p f).res = f.res.getD (resultOf s cl (opAt s cl st p) (valsAt s cl st p) (waitAt s cl st p))
  port  : opAt s cl st p ≠ .illegal → f.port = none → (procStep s cl st p f).op = opAt s cl st p ∧ (procStep s cl st p f).vs = valsAt s cl st p
  illegal : opAt s cl st p = .illegal →
    (procStep s cl st p f).op = .illegal ∧ (procStep s cl st p f).res = .x ∧ 5 ∈ (procStep s cl st p f).flags
  unbound : (∀ l, opAt s cl st p = .gdrv l ∨ opAt s cl st p = .gsmp l → laneBound s cl l = false → 6 ∈ (procStep s cl st p f).flags)

theorem procStep_executed (h : ¬ wordBad s cl st p) : Executed s cl st p f := by
  have hb : ¬ ((mget .clean (getCl s cl).iEcc (1024 * physOf s cl p + st) = Ecc.double) ||
      (mget .clean (getCl s cl).iEcc (1024 * physOf s cl p + st) = Ecc.poison) : Bool) = true := by
    simpa [wordBad, wordEcc] using h
  have hdec : decodeWord (nBanks s) (hasWharf s) (mget 0#64 (getCl s cl).instr (1024 * physOf s cl p + st)) = opAt s cl st p := rfl
  constructor
  case fixed =>
    unfold procStep
    dsimp only
    rw [if_neg hb]
    split <;> rfl
  case expo =>
    unfold procStep
    dsimp only
    rw [if_neg hb]
    split <;> rfl
  case legal =>
    intro hl
    unfold procStep
    dsimp only
    rw [if_neg hb, hdec]
    split
    · exact absurd ‹_› hl
    · rfl
  case port =>
    intro hl hf
    unfold procStep
    dsimp only
    rw [if_neg hb, hdec, hf]
    split
    · exact absurd ‹_› hl
    · exact ⟨by dsimp only; split <;> trivial, by dsimp only; split <;> trivial⟩
  case illegal =>
    intro hl
    unfold procStep
    dsimp only
    rw [if_neg hb, hdec, hl]
    simp
  case unbound =>
    intro l hl hb'
    unfold procStep
    dsimp only
    rw [if_neg hb, hdec]
    rcases hl with hl | hl <;> rw [hl] <;> simp [hb']

/-- A processor without failing logic or a failing port writes what its instruction gives. -/
theorem procStep_res (h : ¬ wordBad s cl st p) (hl : opAt s cl st p ≠ .illegal) :
    (procStep s cl st p {}).res = resultOf s cl (opAt s cl st p) (valsAt s cl st p) (waitAt s cl st p) :=
  (procStep_executed h).legal hl

/-- Where no entry has bad parity the operands are the entries' values. -/
theorem valsAt_sound (hpar : (getCl s cl).badPar = []) :
    valsAt s cl st p = (opFields (wordAt s cl st p) (opAt s cl st p)).map (dsGet (getCl s cl) (physOf s cl p)) := by
  unfold valsAt
  rw [List.map_map]
  refine List.map_congr_left fun e _ => ?_
  simp [readEntry, hpar]

end

/-! ## EVAL and ZBUF (R36, R37, R61) -/

/-- An assignment of 0 and 1 that agrees with an operand: its own value where that is known. -/
def agrees (b : Bool) (v : V4) : Prop := (v = .zero → b = false) ∧ (v = .one → b = true)

theorem agrees_iff (b : Bool) (v : V4) : agrees b v ↔ (!v4known v || (v = .one) == b) = true := by
  cases v <;> cases b <;> simp [agrees, v4known]

/-- The truth table's answers over every completion of the operands. -/
def outsOf (tt : Nat) (a b c d : V4) : List Bool :=
  ((List.range 16).filter fun i =>
    (!v4known a || (a = .one) == nbit i 0) && (!v4known b || (b = .one) == nbit i 1) && (!v4known c || (c = .one) == nbit i 2) &&
      (!v4known d || (d = .one) == nbit i 3)).map (nbit tt)

theorem evalTT_eq (tt : Nat) (a b c d : V4) :
    evalTT tt a b c d = if (outsOf tt a b c d).all (!·) then .zero else if (outsOf tt a b c d).all id then .one else .x := rfl

/-- Row `i` of a truth table, from its four input bits. -/
theorem nbit_row (a b d e : Bool) : let i := a.toNat + 2 * b.toNat + 4 * d.toNat + 8 * e.toNat
    i < 16 ∧ nbit i 0 = a ∧ nbit i 1 = b ∧ nbit i 2 = d ∧ nbit i 3 = e := by
  cases a <;> cases b <;> cases d <;> cases e <;> decide

theorem row_of_bits : ∀ i < 16, i = (nbit i 0).toNat + 2 * (nbit i 1).toNat + 4 * (nbit i 2).toNat + 8 * (nbit i 3).toNat := by
  decide

/-- The answers are those of the assignments that agree with the operands. -/
theorem mem_outsOf {tt : Nat} {a b c d : V4} {r : Bool} : r ∈ outsOf tt a b c d ↔ ∃ w x y z, agrees w a ∧ agrees x b ∧ agrees y c ∧ agrees z d ∧
    nbit tt (w.toNat + 2 * x.toNat + 4 * y.toNat + 8 * z.toNat) = r := by
  simp only [outsOf, List.mem_map, List.mem_filter, List.mem_range, Bool.and_eq_true, ← agrees_iff]
  constructor
  · rintro ⟨i, ⟨hi, ⟨⟨ha, hb⟩, hc⟩, hd⟩, rfl⟩
    exact ⟨_, _, _, _, ha, hb, hc, hd, congrArg (nbit tt) (row_of_bits i hi).symm⟩
  · rintro ⟨w, x, y, z, ha, hb, hc, hd, rfl⟩
    obtain ⟨hi, h0, h1, h2, h3⟩ := nbit_row w x y z
    exact ⟨_, ⟨hi, by rw [h0, h1, h2, h3]; exact ⟨⟨⟨ha, hb⟩, hc⟩, hd⟩⟩, rfl⟩

theorem exists_agrees (v : V4) : ∃ b, agrees b v := ⟨decide (v = .one), by cases v <;> simp [agrees]⟩

/-- Some assignment agrees with the operands, so that not all answers are 0 and all 1. -/
theorem outsOf_nonempty (tt : Nat) (a b c d : V4) : ∃ r, r ∈ outsOf tt a b c d := by
  obtain ⟨w, ha⟩ := exists_agrees a
  obtain ⟨x, hb⟩ := exists_agrees b
  obtain ⟨y, hc⟩ := exists_agrees c
  obtain ⟨z, hd⟩ := exists_agrees d
  exact ⟨_, mem_outsOf.2 ⟨w, x, y, z, ha, hb, hc, hd, rfl⟩⟩

theorem evalTT_one {tt : Nat} {a b c d : V4} : evalTT tt a b c d = .one ↔ ∀ r ∈ outsOf tt a b c d, r = true := by
  obtain ⟨r, hr⟩ := outsOf_nonempty tt a b c d
  rw [evalTT_eq]
  split_ifs with h0 h1
  · simp only [false_iff]
    intro h
    have := List.all_eq_true.1 h0 r hr
    simp [h r hr] at this
  · simpa using h1
  · simpa using h1

theorem evalTT_zero {tt : Nat} {a b c d : V4} : evalTT tt a b c d = .zero ↔ ∀ r ∈ outsOf tt a b c d, r = false := by
  rw [evalTT_eq]
  split_ifs with h0 h1
  · simpa using h0
  · simpa using h0
  · simpa using h0

theorem evalTT_ne_z (tt : Nat) (a b c d : V4) : evalTT tt a b c d ≠ .z := by
  rw [evalTT_eq]
  split_ifs <;> simp

/-- Settles O35: the answers of the truth table are those of the assignments that agree with the operands. -/
theorem evaluatedExactly : Obligations.EvaluatedExactly := by
  intro s cl st p tt state c ph w ecc r agr fits out hecc hdec hpar
  have hop : opAt s cl st p = .eval tt state := hdec
  have hr : r = evalTT tt (dsGet c ph (wA w)) (dsGet c ph (wB w)) (dsGet c ph (wC w)) (if state then .zero else dsGet c ph (wD w)) := by
    have hres := procStep_res (wordGood_iff.2 hecc) (by rw [hop]; simp)
    rw [valsAt_sound hpar, hop] at hres
    cases state <;> exact hres
  have hfits (a b d e : Bool) : fits a b d e ↔ agrees a (dsGet c ph (wA w)) ∧ agrees b (dsGet c ph (wB w)) ∧ agrees d (dsGet c ph (wC w)) ∧
      agrees e (if state then .zero else dsGet c ph (wD w)) := by
    cases state
    · rfl
    · simp [fits, agr, agrees]
  have hall (v : Bool) : (∀ x ∈ outsOf tt (dsGet c ph (wA w)) (dsGet c ph (wB w)) (dsGet c ph (wC w))
      (if state then .zero else dsGet c ph (wD w)), x = v) ↔ ∀ a b d e, fits a b d e → out a b d e = v := by
    constructor
    · intro h a b d e hf
      obtain ⟨ha, hb, hd, he⟩ := (hfits a b d e).1 hf
      exact h _ (mem_outsOf.2 ⟨a, b, d, e, ha, hb, hd, he, rfl⟩)
    · intro h x hx
      obtain ⟨a, b, d, e, ha, hb, hd, he, rfl⟩ := mem_outsOf.1 hx
      exact h a b d e ((hfits a b d e).2 ⟨ha, hb, hd, he⟩)
  rw [hr]
  exact ⟨evalTT_one.trans (hall true), evalTT_zero.trans (hall false), evalTT_ne_z _ _ _ _ _⟩

/-- Settles O36: ZBUF passes `a` where the enable is 1, floats where it is 0, and is X where the enable is unknown. -/
theorem zbufResult : Obligations.ZbufResult := by
  intro s cl pol a b wv
  change (_ → zbufOf pol a b = .z) ∧ (_ → zbufOf pol a b = _) ∧ (_ → zbufOf pol a b = .x)
  refine ⟨?_, ?_, ?_⟩
  · rintro rfl
    cases pol <;> rfl
  · rintro rfl
    cases pol <;> cases a <;> rfl
  · rintro (rfl | rfl) <;> rfl

end Sys2Proof.Machine

namespace Sys2Proof.Machine

/-! ## What the books of a step leave as it was

Logging a fault, tainting frames, voting, the pre-checks and the advance of GSC change little: `quiet` is what they all leave. -/

/-- A fold of operations that keep what `π` reads. -/
theorem foldl_fix {σ β γ : Type} (π : σ → γ) {f : σ → β → σ} (hf : ∀ s x, π (f s x) = π s) (l : List β) (s : σ) :
    π (l.foldl f s) = π s := by
  induction l generalizing s with
  | nil => rfl
  | cons a t ih => exact (ih _).trans (hf s a)

theorem ite_fix {σ γ : Type} (π : σ → γ) {c : Prop} [Decidable c] {a b : σ} {x : γ} (ha : π a = x) (hb : π b = x) :
    π (if c then a else b) = x := by
  split_ifs
  · exact ha
  · exact hb

/-- The registers of the books: all below the gauge unit's block but SAF_CTL. -/
abbrev bookReg (off : Nat) : Prop := off < 0xD0000 ∧ off ≠ oSafCtl

/-- A register as far as the books leave it: of a sluice's counts REFUSED alone. -/
def quietReg (s : State) (off : Nat) : Nat :=
  if bookReg off then 0 else if 0xE1200 ≤ off ∧ off < 0xE1400 then fld (rget s off) 31 16 else (rget s off).toNat

/-- What the books leave of the sequencer, the trace unit, the wharf, the gauge unit and the host's side. -/
def seqKept (q : SeqState) : SeqState :=
  { q with taint := [], carry := none, halt := none, haltSrc := 0, events := [], preRet := [], emerg := false, restore := false, ratio := 0 }
def trcKept (t : TrcState) : TrcState := { t with given := [], staging := [], lastF := 0, lost := none, dac := 0 }
def xchKept (x : XchState) : XchState := { x with notices := [], written := [] }
def gauKept (g : GauState) : GauState := { g with held := [] }
def hostKept (h : HostState) : HostState := { h with msix := [], pba := 0 }
/-- Frames and failing lanes of the held verdicts. -/
def heldKept (g : GauState) : List (Nat × List Nat) := g.held.map fun v => (v.frame, v.fails)

/-- What the books of a step leave as it was: the fields of `rest` that stand, the registers from the gauge unit's block on, the sluices but
for the modes of their pre-checks, the held verdicts but for their confirmation. -/
structure Quiet where
  rest : State
  regs : Nat → Nat
  slu  : Nat → Sluice
  held : List (Nat × List Nat)

@[irreducible] def quiet (s : State) : Quiet :=
  { rest := { s with
      regs := [], slu := [], grp := GroupState.init, saf := { State.reset.saf with safe := s.saf.safe }, seq := seqKept s.seq,
      dmc := { s.dmc with cycle := 0 }, xch := xchKept s.xch, gau := gauKept s.gau, trc := trcKept s.trc, host := hostKept s.host,
      clk := State.reset.clk, pwr := State.reset.pwr },
    regs := quietReg s,
    slu := fun q => { getSlu s q with modeAt := [] },
    held := heldKept s.gau }

/-- `t` is `s` after nothing but books: `quiet` stands, and no flag of SAF_STS is lost. -/
structure Noise (s t : State) : Prop where
  view : quiet t = quiet s
  safSts : ∀ i, rbit s oSafSts i = true → rbit t oSafSts i = true

theorem Noise.refl (s : State) : Noise s s := ⟨rfl, fun _ h => h⟩

theorem Noise.trans {s t u : State} (h1 : Noise s t) (h2 : Noise t u) : Noise s u :=
  ⟨h2.view.trans h1.view, fun i h => h2.safSts i (h1.safSts i h)⟩

theorem Noise.foldl {β : Type} {f : State → β → State} (hf : ∀ s x, Noise s (f s x)) (l : List β) (s : State) : Noise s (l.foldl f s) := by
  induction l generalizing s with
  | nil => exact .refl s
  | cons a t ih => exact (hf s a).trans (ih _)

theorem Noise.ite {s a b : State} {c : Prop} [Decidable c] (ha : Noise s a) (hb : Noise s b) : Noise s (if c then a else b) := by
  split_ifs
  · exact ha
  · exact hb

theorem quietReg_of_regs {s t : State} (h : ∀ off, ¬ bookReg off → rget t off = rget s off) : quietReg t = quietReg s := by
  funext off
  unfold quietReg
  split_ifs with hb
  · rfl
  · rw [h off hb]
  · rw [h off hb]

/-- A state written field by field, in what the books may change. -/
theorem noise_upd {s : State} {seq' : SeqState} {dmc' : DmcState} {grp' : GroupState} {xch' : XchState} {gau' : GauState} {saf' : SafState}
    {trc' : TrcState} {host' : HostState} {clk' : ClkState} {pwr' : PwrState} (hseq : seqKept seq' = seqKept s.seq)
    (hdmc : ({ dmc' with cycle := 0 } : DmcState) = { s.dmc with cycle := 0 }) (hxch : xchKept xch' = xchKept s.xch)
    (hgau : gauKept gau' = gauKept s.gau) (hheld : heldKept gau' = heldKept s.gau) (hsaf : saf'.safe = s.saf.safe)
    (htrc : trcKept trc' = trcKept s.trc) (hhost : hostKept host' = hostKept s.host) :
    Noise s { s with seq := seq', dmc := dmc', grp := grp', xch := xch', gau := gau', saf := saf', trc := trc', host := host',
                     clk := clk', pwr := pwr' } := by
  refine ⟨?_, fun _ h => h⟩
  unfold quiet
  dsimp only
  rw [hseq, hdmc, hxch, hgau, hheld, hsaf, htrc, hhost]
  rfl

theorem noise_grp (s : State) (g : GroupState) : Noise s { s with grp := g } := noise_upd rfl rfl rfl rfl rfl rfl rfl rfl
theorem noise_pwr (s : State) (p : PwrState) : Noise s { s with pwr := p } := noise_upd rfl rfl rfl rfl rfl rfl rfl rfl
theorem noise_clk (s : State) (c : ClkState) : Noise s { s with clk := c } := noise_upd rfl rfl rfl rfl rfl rfl rfl rfl
theorem noise_seq (s : State) {q : SeqState} (h : seqKept q = seqKept s.seq := by rfl) : Noise s { s with seq := q } :=
  noise_upd h rfl rfl rfl rfl rfl rfl rfl
theorem noise_trc (s : State) {t : TrcState} (h : trcKept t = trcKept s.trc := by rfl) : Noise s { s with trc := t } :=
  noise_upd rfl rfl rfl rfl rfl rfl h rfl
theorem noise_saf (s : State) {x : SafState} (h : x.safe = s.saf.safe := by rfl) : Noise s { s with saf := x } :=
  noise_upd rfl rfl rfl rfl rfl h rfl rfl
theorem noise_xch (s : State) {x : XchState} (h : xchKept x = xchKept s.xch := by rfl) : Noise s { s with xch := x } :=
  noise_upd rfl rfl h rfl rfl rfl rfl rfl
theorem noise_cycle (s : State) (n : Nat) : Noise s { s with dmc := { s.dmc with cycle := n } } := noise_upd rfl rfl rfl rfl rfl rfl rfl rfl

/-! ### The registers of the books -/

theorem quiet_rset {off : Nat} (h : bookReg off) (w : Word) (s : State) : quiet (rset off w s) = quiet s := by
  have hregs : quietReg (rset off w s) = quietReg s := quietReg_of_regs fun o ho => rget_rset_other off o w s (by rintro rfl; exact ho h)
  unfold quiet
  rw [hregs]
  rfl

theorem rbit_rset_other {off o : Nat} (h : o ≠ off) (w : Word) (s : State) (i : Nat) : rbit (rset off w s) o i = rbit s o i :=
  congrArg (bit · i) (rget_rset_other off o w s h)

theorem rfld_rset_other {off o : Nat} (h : o ≠ off) (w : Word) (s : State) (hi lo : Nat) : rfld (rset off w s) o hi lo = rfld s o hi lo :=
  congrArg (fld · hi lo) (rget_rset_other off o w s h)

/-- A flag once set stays, whatever flag of whatever register is set. -/
theorem rbit_rflag_mono {s : State} {o i : Nat} (off k : Nat) (h : rbit s o i = true) : rbit (rflag off k s) o i = true := by
  by_cases e : o = off
  · subst e
    have hb : bit (rget s o) i = true := h
    simp only [rbit, rflag, rmod, rget_rset_same]
    unfold bit setBit at *
    rw [BitVec.getLsbD_or, hb, Bool.true_or]
  · exact (rbit_rset_other e _ s i).trans h

theorem noise_rset {off : Nat} (h : bookReg off) (hs : off ≠ oSafSts) (w : Word) (s : State) : Noise s (rset off w s) :=
  ⟨quiet_rset h w s, fun i hi => (rbit_rset_other (Ne.symm hs) w s i).trans hi⟩
theorem noise_rmod {off : Nat} (h : bookReg off) (hs : off ≠ oSafSts) (f : Word → Word) (s : State) : Noise s (rmod off f s) := noise_rset h hs _ s
theorem noise_rput {off : Nat} (h : bookReg off) (hs : off ≠ oSafSts) (hi lo v : Nat) (s : State) : Noise s (rput off hi lo v s) :=
  noise_rset h hs _ s
theorem noise_rcount {off : Nat} (h : bookReg off) (hs : off ≠ oSafSts) (hi lo k : Nat) (s : State) : Noise s (rcount off hi lo k s) :=
  noise_rset h hs _ s
theorem noise_rflag {off : Nat} (h : bookReg off) (i : Nat) (s : State) : Noise s (rflag off i s) :=
  ⟨quiet_rset h _ s, fun _ hb => rbit_rflag_mono off i hb⟩

theorem noise_signal (v : Nat) (s : State) : Noise s (signal v s) := by
  obtain ⟨m, p, h⟩ := signal_cases v s
  rw [h]
  exact noise_upd rfl rfl rfl rfl rfl rfl rfl rfl

theorem noise_setInt {off : Nat} (h : bookReg off) (hs : off ≠ oSafSts) (n v : Nat) (s : State) : Noise s (setInt off n v s) :=
  .ite ((noise_rset h hs _ s).trans (noise_signal v _)) (noise_rset h hs _ s)

theorem noise_safInt (n : Nat) (s : State) : Noise s (safInt n s) := noise_setInt (by decide) (by decide) ..
theorem noise_seqInt (n : Nat) (s : State) : Noise s (seqInt n s) := noise_setInt (by decide) (by decide) ..
theorem noise_trcInt (n : Nat) (s : State) : Noise s (trcInt n s) := noise_setInt (by decide) (by decide) ..
theorem noise_lastEvt (kind src g : Nat) (s : State) : Noise s (lastEvt kind src g s) := noise_rset (by decide) (by decide) ..

/-! ### Votes, markers and taints -/

theorem noise_sendExpress (kind arg : Nat) (s : State) : Noise s (sendExpress kind arg s) := .ite (.refl s) (noise_grp s _)

theorem noise_stagePut (bytes : List Byte) (f : Nat) (s : State) : Noise s (stagePut bytes f s) := noise_trc s

theorem noise_stageLoss (s : State) : Noise s (stageLoss s) := by
  unfold stageLoss
  split
  · exact (noise_trc s).trans (noise_stagePut ..)
  · exact .refl s

theorem noise_stageMarker (rtype f arg count : Nat) (s : State) : Noise s (stageMarker rtype f arg count s) :=
  (noise_stageLoss s).trans (noise_stagePut ..)

theorem noise_taintOne (f : Nat) (s : State) : Noise s (taintOne f s) := by
  have notice (u : State) : Noise u (if u.xch.written.contains f then
      { u with xch := { u.xch with notices := u.xch.notices ++ [f], written := u.xch.written.erase f } } else u) := .ite (noise_xch u) (.refl u)
  have marker (u : State) : Noise u (if u.trc.given.contains f then
      stageMarker 4 f 0 0 { u with trc := { u.trc with given := u.trc.given.erase f } } else u) :=
    .ite ((noise_trc u).trans (noise_stageMarker ..)) (.refl u)
  have both : Noise s _ := ((noise_seq s (q := { s.seq with taint := mset false s.seq.taint f true })).trans (marker _)).trans (notice _)
  exact .ite (.refl s) (.ite both ((both.trans (noise_sendExpress 10 f _)).trans (noise_grp _ _)))

theorem noise_taintFrame (f : Nat) (s : State) : Noise s (taintFrame f s) := by
  unfold taintFrame
  refine .ite (.refl s) (.ite ?_ (noise_taintOne f s))
  split
  · exact noise_taintOne _ s
  · exact .refl s

theorem noise_taintSpan (a b : Nat) (s : State) : Noise s (taintSpan a b s) :=
  .ite (.refl s) ((noise_taintFrame a s).trans (.foldl (fun s _ => noise_taintFrame _ s) _ _))

/-! ### The fault log -/

/-- The class of a fault flagged in SAF_STS, with the arming of SAF_FIRST (R275). -/
def classFlagged (r : Report) (s : State) : State :=
  rflag oSafSts (r.code / 4096) { s with saf := { s.saf with arm := s.saf.arm || decide (rfld s oSafSts 15 1 = 0) } }

theorem noise_afterFlag (react : Nat) (r : Report) (s : State) : Noise (classFlagged r s) (logFaultAs react r s) := by
  unfold logFaultAs classFlagged
  dsimp only
  generalize rflag oSafSts (r.code / 4096) { s with saf := { s.saf with arm := s.saf.arm || decide (rfld s oSafSts 15 1 = 0) } } = s1
  generalize hs2 : (if r.code / 4096 = 0 then s1 else safInt 0 s1) = told
  have h2 : Noise s1 told := hs2 ▸ .ite (.refl s1) (noise_safInt 0 s1)
  have booked (x : SafState) (hx : x.safe = told.saf.safe := by rfl) : Noise s1 { told with saf := x } := h2.trans (noise_saf told hx)
  split
  · exact booked _
  · exact .ite (noise_rcount (by decide) (by decide) ..) (.ite ((booked _).trans (noise_safInt 3 _)) (booked _))

theorem noise_logFaultAs (react : Nat) (r : Report) (s : State) : Noise s (logFaultAs react r s) :=
  ((noise_saf s).trans (noise_rflag (by decide) ..)).trans (noise_afterFlag react r s)

theorem noise_logFault (r : Report) (s : State) : Noise s (logFault r s) := by
  rw [logFault]
  exact noise_logFaultAs ..

theorem noise_raiseEvent (code lk locv : Nat) (s : State) : Noise s (raiseEvent code lk locv s) := by
  rw [raiseEvent]
  exact noise_logFault ..

/-- A downgrade changes no verdict's frame and no failing lane. -/
theorem noise_unconfirm (s : State) (p : Verdict → Prop) [DecidablePred p] :
    Noise s { s with gau := { s.gau with held := s.gau.held.map fun v => if p v then { v with unconf := true } else v } } := by
  refine noise_upd rfl rfl rfl rfl ?_ rfl rfl rfl
  simp only [heldKept, List.map_map]
  refine List.map_congr_left fun v _ => ?_
  simp only [Function.comp]
  split_ifs <;> rfl

theorem noise_downgrade (a b : Nat) (s : State) : Noise s (downgrade a b s) := noise_unconfirm s _

theorem noise_carry (s : State) (c : Option Nat) : Noise s { s with seq := { s.seq with carry := c } } := noise_seq s

theorem noise_placeHalt (e src : Nat) (s : State) : Noise s (placeHalt e src s) := .ite (noise_seq s) (.refl s)

theorem noise_requestHalt (s : State) : Noise s (requestHalt s) :=
  .ite ((noise_placeHalt ..).trans (noise_sendExpress ..)) (.refl s)

theorem noise_haltReaction (f : Nat) (s : State) : Noise s (haltReaction f s) :=
  .ite ((((noise_safInt 1 s).trans (noise_taintSpan f _ _)).trans (noise_carry _ _)).trans (noise_requestHalt _)) (noise_safInt 1 s)

theorem noise_taintReport (r : Report) (s : State) : Noise s (taintReport r s) := by
  unfold taintReport
  split
  · exact noise_taintFrame _ s
  · exact .refl s

/-- No fault of the list is a loss of the step clock, which halts the device at once (R97). -/
def noClockLoss (acts : List (Report × Nat)) : Prop := ∀ a ∈ acts, a.1.code ≠ 0x9001

/-- The faults of a list logged, one after another. -/
def logAll (acts : List (Report × Nat)) (s : State) : State := acts.foldl (fun s a => logFault a.1 s) s

theorem noise_logAll (acts : List (Report × Nat)) (s : State) : Noise s (logAll acts s) := .foldl (fun _ _ => noise_logFault ..) _ _

/-- Faults but a loss of the step clock taint and ask for a halt once they are logged: books. -/
theorem noise_afterLog {acts : List (Report × Nat)} (h : noClockLoss acts) (s : State) : Noise (logAll acts s) (raiseFirst acts s) := by
  have hlost : (acts.any fun a => a.2 = 2 && a.1.code = 0x9001) = false := by
    rw [List.any_eq_false]
    intro a ha
    simp [h a ha]
  have tainted (u : State) : Noise u (acts.foldl (fun s a => if 1 ≤ a.2 then taintReport a.1 s else s) u) :=
    .foldl (fun _ _ => .ite (noise_taintReport ..) (.refl _)) _ _
  have downgraded (u : State) : Noise u (if acts.any fun a => a.1.code = 0x1001 then downgrade (frBack u.seq.F.toNat 63) u.seq.F.toNat u else u) :=
    .ite (noise_downgrade _ _ u) (.refl u)
  unfold raiseFirst
  simp only [hlost, Bool.false_and, Bool.false_eq_true, if_false]
  have done := (downgraded (logAll acts s)).trans (tainted _)
  split
  · exact .ite done (done.trans (noise_haltReaction ..))
  · exact done

theorem noise_raiseFirst {acts : List (Report × Nat)} (h : noClockLoss acts) (s : State) : Noise s (raiseFirst acts s) :=
  (noise_logAll acts s).trans (noise_afterLog h s)

end Sys2Proof.Machine

namespace Sys2Proof.Machine

/-! ## What entering safe state leaves as it was (R267)

Beside books, safe state voids the frame in progress and ends the run: staged values, memory operations, the wharf, the held verdicts and
the sequencer's state change; everything else stands. -/

/-- What safe state leaves of the sequencer. -/
def seqStill (q : SeqState) : SeqState := { q with st := .idle, stood := .idle, voided := false, finalTo := none, tickPend := false }

/-- What safe state leaves as it was, of what the books leave: the registers from hold memory's block on, the gauge lanes. -/
def stillOf (q : Quiet) : Quiet :=
  { rest := { q.rest with fab := [], dmc := State.reset.dmc, xch := XchState.init, saf := State.reset.saf, seq := seqStill q.rest.seq,
                          gau := { GauState.init with lanes := q.rest.gau.lanes, live := q.rest.gau.live } },
    regs := fun off => if off < 0xE0000 then 0 else q.regs off,
    slu := q.slu, held := [] }

@[irreducible] def still (s : State) : Quiet := stillOf (quiet s)

/-- What safe state leaves of a cluster: all but staged values and memory operations. -/
def settledCl (c : Cluster) : Cluster := { c with staged := [], memOps := [] }

/-- Of clusters in canonical form, safe state takes away staged values and memory operations alone. -/
def FabKept (m m' : List (Nat × Cluster)) : Prop :=
  mwf Cluster.fresh m = true → mwf Cluster.fresh m' = true ∧ ∀ cl,
    settledCl (mget Cluster.fresh m' cl) = settledCl (mget Cluster.fresh m cl) ∧
      (∀ x ∈ (mget Cluster.fresh m' cl).memOps, x ∈ (mget Cluster.fresh m cl).memOps) ∧
      ∀ x ∈ (mget Cluster.fresh m' cl).staged, x ∈ (mget Cluster.fresh m cl).staged

theorem FabKept.refl (m : List (Nat × Cluster)) : FabKept m m := fun h => ⟨h, fun _ => ⟨rfl, fun _ hx => hx, fun _ hx => hx⟩⟩

theorem FabKept.trans {m m' m'' : List (Nat × Cluster)} (h1 : FabKept m m') (h2 : FabKept m' m'') : FabKept m m'' := by
  intro h
  obtain ⟨w1, k1⟩ := h1 h
  obtain ⟨w2, k2⟩ := h2 w1
  refine ⟨w2, fun cl => ?_⟩
  obtain ⟨s1, o1, g1⟩ := k1 cl
  obtain ⟨s2, o2, g2⟩ := k2 cl
  exact ⟨s2.trans s1, fun x hx => o1 x (o2 x hx), fun x hx => g1 x (g2 x hx)⟩

/-- One cluster loses memory operations. -/
theorem FabKept.mset {m : List (Nat × Cluster)} {cl : Nat} {c : Cluster} (hc : settledCl c = settledCl (mget Cluster.fresh m cl))
    (hops : ∀ x ∈ c.memOps, x ∈ (mget Cluster.fresh m cl).memOps) (hst : c.staged = (mget Cluster.fresh m cl).staged) : FabKept m (mset Cluster.fresh m cl c) := by
  refine fun h => ⟨mwf_mset h cl c, fun d => ?_⟩
  rw [mget_mset]
  split_ifs with e
  · subst e
    exact ⟨hc, hops, fun x hx => hst ▸ hx⟩
  · exact ⟨rfl, fun _ hx => hx, fun _ hx => hx⟩

/-- A change of every value reads back at every key of a canonical map. -/
theorem mget_mmapv {α : Type} [DecidableEq α] {d : α} {f : α → α} (hf : f d = d) {m : List (Nat × α)} (h : mwf d m = true) (k : Nat) :
    mget d (mmapv d f m) k = f (mget d m k) := by
  have missing (t : List (Nat × α)) (lo : Nat) (ht : rises (fun _ => d) lo t) (hk : k < lo) : mget d (mmapv d f t) k = d := by
    induction t generalizing lo with
    | nil => rfl
    | cons a t ih =>
      obtain ⟨hlo, -, ht⟩ := ht
      have hrest := ih (a.1 + 1) ht (by omega)
      unfold mmapv at hrest ⊢
      rw [List.map_cons]
      by_cases hv : f a.2 = d
      · rw [List.filter_cons_of_neg (by simp [hv])]
        exact hrest
      · rw [List.filter_cons_of_pos (by simp [hv])]
        simp only [mget]
        rw [if_neg (by omega)]
        exact hrest
  have gen (t : List (Nat × α)) (lo : Nat) (ht : rises (fun _ => d) lo t) : mget d (mmapv d f t) k = f (mget d t k) := by
    induction t generalizing lo with
    | nil => exact hf.symm
    | cons a t ih =>
      obtain ⟨-, -, ht⟩ := ht
      have hrest := ih (a.1 + 1) ht
      have hlow := missing t (a.1 + 1) ht
      unfold mmapv at hrest hlow ⊢
      rw [List.map_cons]
      by_cases hv : f a.2 = d
      · rw [List.filter_cons_of_neg (by simp [hv])]
        simp only [mget]
        split_ifs with e
        · exact (hlow (by omega)).trans hv.symm
        · exact hrest
      · rw [List.filter_cons_of_pos (by simp [hv])]
        simp only [mget]
        split_ifs
        · rfl
        · exact hrest
  exact gen m 0 ((mwf_iff d m).1 h)

/-- Every cluster loses its staged values. -/
theorem FabKept.unstage (m : List (Nat × Cluster)) : FabKept m (mmapv Cluster.fresh (fun c => { c with staged := [] }) m) := by
  refine fun h => ⟨mwf_mmapv h _, fun cl => ?_⟩
  rw [mget_mmapv rfl h]
  exact ⟨rfl, fun _ hx => hx, fun _ hx => absurd hx (List.not_mem_nil)⟩

/-- `t` is `s` after at most safe state: `still` and `FabKept` stand, and no flag of SAF_STS is lost. -/
structure Still (s t : State) : Prop where
  view : still t = still s
  safSts : ∀ i, rbit s oSafSts i = true → rbit t oSafSts i = true
  fab : FabKept s.fab t.fab

theorem quiet_fab (s : State) : (quiet s).rest.fab = s.fab := by unfold quiet; rfl

theorem Noise.fab {s t : State} (h : Noise s t) : t.fab = s.fab := by rw [← quiet_fab, h.view, quiet_fab]

theorem Noise.still {s t : State} (h : Noise s t) : Still s t := ⟨by unfold Machine.still; rw [h.view], h.safSts, h.fab ▸ .refl _⟩

theorem Still.refl (s : State) : Still s s := ⟨rfl, fun _ h => h, .refl _⟩

theorem Still.trans {s t u : State} (h1 : Still s t) (h2 : Still t u) : Still s u :=
  ⟨h2.view.trans h1.view, fun i h => h2.safSts i (h1.safSts i h), h1.fab.trans h2.fab⟩

theorem Still.foldl {β : Type} {f : State → β → State} (hf : ∀ s x, Still s (f s x)) (l : List β) (s : State) : Still s (l.foldl f s) := by
  induction l generalizing s with
  | nil => exact .refl s
  | cons a t ih => exact (hf s a).trans (ih _)

theorem Still.ite {s a b : State} {c : Prop} [Decidable c] (ha : Still s a) (hb : Still s b) : Still s (if c then a else b) := by
  split_ifs
  · exact ha
  · exact hb

/-- A state written field by field, in what safe state may change. -/
theorem still_upd {s : State} {seq' : SeqState} {fab' : List (Nat × Cluster)} {dmc' : DmcState} {xch' : XchState} {gau' : GauState}
    {saf' : SafState} {trc' : TrcState} (hseq : seqStill (seqKept seq') = seqStill (seqKept s.seq)) (hlanes : gau'.lanes = s.gau.lanes)
    (hlive : gau'.live = s.gau.live) (htrc : trcKept trc' = trcKept s.trc) (hfab : FabKept s.fab fab') :
    Still s { s with seq := seq', fab := fab', dmc := dmc', xch := xch', gau := gau', saf := saf', trc := trc' } := by
  refine ⟨?_, fun _ h => h, hfab⟩
  unfold still quiet stillOf
  dsimp only [gauKept]
  rw [hseq, hlanes, hlive, htrc]
  rfl

theorem still_seq (s : State) {q : SeqState} (h : seqStill (seqKept q) = seqStill (seqKept s.seq) := by rfl) :
    Still s { s with seq := q } := still_upd h rfl rfl rfl (.refl _)
theorem still_fab (s : State) {m : List (Nat × Cluster)} (h : FabKept s.fab m) : Still s { s with fab := m } := still_upd rfl rfl rfl rfl h
theorem still_dmc (s : State) (d : DmcState) : Still s { s with dmc := d } := still_upd rfl rfl rfl rfl (.refl _)
theorem still_xch (s : State) (x : XchState) : Still s { s with xch := x } := still_upd rfl rfl rfl rfl (.refl _)
theorem still_gau (s : State) {g : GauState} (hl : g.lanes = s.gau.lanes := by rfl) (hv : g.live = s.gau.live := by rfl) :
    Still s { s with gau := g } := still_upd rfl hl hv rfl (.refl _)

theorem still_rset {off : Nat} (h : off < 0xE0000) (hs : off ≠ oSafSts) (w : Word) (s : State) : Still s (rset off w s) := by
  refine ⟨?_, fun i hi => (rbit_rset_other (Ne.symm hs) w s i).trans hi, .refl _⟩
  have hregs : (fun o => if o < 0xE0000 then 0 else quietReg (rset off w s) o) = fun o => if o < 0xE0000 then 0 else quietReg s o := by
    funext o
    split_ifs with ho
    · rfl
    · simp only [quietReg]
      rw [rget_rset_other off o w s (by omega)]
  unfold still quiet stillOf
  dsimp only
  rw [hregs]
  rfl

theorem still_rflag {off : Nat} (h : off < 0xE0000) (hs : off ≠ oSafSts) (i : Nat) (s : State) : Still s (rflag off i s) := still_rset h hs _ s
theorem still_rcount {off : Nat} (h : off < 0xE0000) (hs : off ≠ oSafSts) (hi lo k : Nat) (s : State) : Still s (rcount off hi lo k s) :=
  still_rset h hs _ s
theorem still_gauInt (n : Nat) (s : State) : Still s (gauInt n s) :=
  .ite ((still_rset (by decide) (by decide) _ s).trans (noise_signal 19 _).still) (still_rset (by decide) (by decide) _ s)

/-! ### The voided frame -/

/-- A memory operation of a cluster is over. -/
theorem still_dropOps (cl : Nat) (p : MemOp → Bool) (s : State) :
    Still s (setCl cl { getCl s cl with memOps := (getCl s cl).memOps.filter p } s) :=
  still_fab s (.mset rfl (fun _ hx => (List.mem_filter.1 hx).1) rfl)

theorem still_dmWrite (k w : Nat) (v : BitVec 64) (poison : Bool) (s : State) : Still s (dmWrite k w v poison s) := still_dmc s _

theorem still_writeLands (s0 : State) (cl : Nat) (m : MemOp) (s : State) : Still s (writeLands s0 cl m s) :=
  (Still.foldl (fun s _ => still_dmWrite _ _ _ _ s) _ s).trans (still_dropOps _ _ _)

theorem still_finishWrites (p : Nat) (s : State) : Still s (finishWrites p s) :=
  .foldl (fun _ _ => .foldl (fun _ _ => still_writeLands ..) _ _) _ s

theorem still_dropStaged (s : State) : Still s (dropStaged s) := still_fab s (.unstage _)

theorem still_putEntry (e : XEntry) (s : State) : Still s (putEntry e s) := still_xch s _
theorem still_setFlow (f : Nat) (x : FlowSt) (s : State) : Still s (setFlow f x s) := still_xch s _
theorem still_dropEntry (id : Nat) (s : State) : Still s (dropEntry id s) := still_xch s _
theorem still_leaveReturn (e : XEntry) (s : State) : Still s (leaveReturn e s) :=
  (still_dropEntry _ s).trans (still_setFlow ..)

theorem still_nextOrd (s : State) : Still s { s with xch := { s.xch with nextOrd := s.xch.nextOrd + 1 } } := still_xch s _

theorem still_enterBerth (e : XEntry) (s : State) : Still s (enterBerth e s) := by
  have entered (u : State) (x : XEntry) : Still u (rcount oXchFired 31 0 1
      { putEntry x u with xch := { (putEntry x u).xch with nextOrd := (putEntry x u).xch.nextOrd + 1 } }) :=
    ((still_putEntry x u).trans (still_nextOrd _)).trans (still_rcount (by decide) (by decide) ..)
  have taken : Still s (if callKind s e = 2 then takeHandle s else (0, s)).2 := by
    split_ifs
    · exact still_xch s _
    · exact .refl s
  unfold enterBerth
  generalize (if callKind s e = 2 then takeHandle s else (0, s)) = x at taken ⊢
  obtain ⟨h, u⟩ := x
  exact taken.trans (entered u _)

theorem still_closeCall (e : XEntry) (s : State) : Still s (closeCall e s) := by
  have flagged (c : Prop) [Decidable c] : Still s (if c then raiseEvent 0x0006 8 e.site (rflag oXchSts 3 s) else s) :=
    .ite ((still_rflag (by decide) (by decide) 3 s).trans (noise_raiseEvent ..).still) (.refl s)
  exact .ite ((flagged _).trans (still_enterBerth ..)) (((flagged _).trans (still_putEntry _ _)).trans (still_nextOrd _))

theorem still_supersede (s : State) : Still s (supersede s) := .foldl (fun s e => still_leaveReturn e s) _ s

theorem still_closeCalls (p : XEntry → Bool) (s : State) : Still s (closeCalls p s) :=
  (Still.foldl (fun s e => still_closeCall e s) _ s).trans (still_supersede _)

theorem still_xchVoid (f : Nat) (s : State) : Still s (xchVoid f s) := (still_xch s _).trans (still_closeCalls _ _)

theorem still_voidFrame (s : State) : Still s (voidFrame s) :=
  ((((still_seq s).trans (still_finishWrites _ _)).trans (still_dropStaged _)).trans (still_xchVoid _ _))

/-! ### The end of the run -/

/-- An unconfirmed verdict is never a FAIL. -/
theorem verdictCode_unconf (s : State) (v : Verdict) : verdictCode s { v with unconf := true } ≠ 1 := by
  unfold verdictCode
  split_ifs <;> simp_all

theorem still_releaseVerdict_unconf (v : Verdict) (s : State) : Still s (releaseVerdict { v with unconf := true } s) := by
  have hc := verdictCode_unconf s v
  have counted (c : Nat) (hc : c < 4) (w : Word) : Still s (rset oGauVerF w (rcount (oGauCnt c) 31 0 1 s)) := by
    have h1 : oGauCnt c < 0xE0000 := by unfold oGauCnt; omega
    have h2 : oGauCnt c ≠ oSafSts := by unfold oGauCnt oSafSts; omega
    exact (still_rcount h1 h2 ..).trans (still_rset (by decide) (by decide) ..)
  have told (i : Nat) (u : State) : Still u (gauInt 3 (rflag oGauSts i u)) := (still_rflag (by decide) (by decide) i u).trans (still_gauInt 3 _)
  have hlt : verdictCode s { v with unconf := true } < 4 := by unfold verdictCode; split_ifs <;> omega
  unfold releaseVerdict
  dsimp only
  rw [if_neg hc]
  exact (((counted _ hlt _).trans (.ite (told 1 _) (.ite (told 2 _) (.refl _))))).trans (still_gau _)

theorem still_gauRunEnd (s : State) : Still s (gauRunEnd s) :=
  (still_gau s).trans (.foldl (fun s v => still_releaseVerdict_unconf v s) _ _)

theorem still_xchMarks (s : State) : Still s (xchMarks s) := still_xch s _
theorem still_fragsEnd (s : State) : Still s (fragsEnd s) := still_xch s _

theorem still_xchRunEnd (s : State) : Still s (xchRunEnd s) :=
  ((Still.foldl (fun s _ => .ite (.ite (((still_xch s _).trans (still_dropEntry ..)).trans (still_setFlow ..)) (still_putEntry ..)) (.refl s)) _ s).trans
    (still_xchMarks _)).trans (still_fragsEnd _)

theorem still_runEnd (s : State) : Still s (runEnd s) := by
  have final (u : State) : Still u { u with trc := { u.trc with given := [] }, seq := { u.seq with finalTo := finalFrame u } } :=
    still_upd rfl rfl rfl rfl (.refl _)
  exact ((still_gauRunEnd s).trans (still_xchRunEnd _)).trans (final _)

/-! ### Waking, and safe state -/

theorem noise_pllStart (short : Bool) {i : Nat} (hi : i < 5) (s : State) : Noise s (pllStart short i s) := by
  have h1 : bookReg (oCkgPll i) := by unfold bookReg oCkgPll oSafCtl; omega
  have h2 : oCkgPll i ≠ oSafSts := by unfold oCkgPll oSafSts; omega
  have started : Noise s (setPllSt i 1 s) := noise_rput h1 h2 ..
  exact (Noise.ite (c := i = 0) (started.trans (noise_rmod (by decide) (by decide) _ _)) started).trans (noise_clk _ _)

/-- All PLLs of the device start. -/
theorem noise_pllStarts (short : Bool) (l : List Nat) (hl : ∀ i ∈ l, i < 5) (s : State) : Noise s (l.foldl (fun s i => pllStart short i s) s) := by
  induction l generalizing s with
  | nil => exact .refl s
  | cons a t ih =>
    exact (noise_pllStart short (hl a (by simp)) s).trans (ih (fun i hi => hl i (by simp [hi])) _)

theorem noise_setStage (n : Nat) (s : State) : Noise s (setStage n s) := noise_rput (by decide) (by decide) ..

/-- A wake changes power state, clocks and the boot stage, and no more. -/
theorem noise_wakeBegin (src : Nat) (s : State) : Noise s (wakeBegin src s) := by
  have five (i : Nat) (h : i ∈ List.range 5) : i < 5 := List.mem_range.1 h
  have begun (p : PwrState) : Noise s (rput oPwrSts 6 3 1 { s with pwr := p }) :=
    (noise_pwr s p).trans (noise_rput (by decide) (by decide) ..)
  exact .ite (.refl s) (.ite ((begun _).trans (noise_pllStarts true _ five _))
    (.ite (((begun _).trans (noise_setStage 7 _)).trans (noise_pllStarts false _ five _)) (.ite ((begun _).trans (noise_setStage 1 _)) (begun _))))

/-- Safe state, or books alone where the device is in safe state already or wakes first. -/
theorem still_enterSafe (s : State) : Still s (enterSafe s) := by
  have closed (u : State) : Still u (safInt 2 { u with
      seq := { u.seq with st := .safe, stood := s.seq.st, halt := none, carry := none }, saf := { u.saf with safe := true } }) :=
    (still_upd (seq' := { u.seq with st := .safe, stood := s.seq.st, halt := none, carry := none }) rfl rfl rfl rfl (.refl _)).trans
      (noise_safInt 2 _).still
  have ended : Still s (if frameBegun s then voidFrame s else if framePast s then taintFrame s.seq.F.toNat s else s) :=
    .ite (still_voidFrame s) (.ite (noise_taintFrame _ s).still (.refl s))
  exact .ite (.refl s) (.ite ((noise_pwr s _).trans (noise_wakeBegin 0 _)).still
    (((ended.trans (noise_sendExpress ..).still).trans (still_runEnd _)).trans (closed _)))

/-- Unless the device wakes first or is in safe state already, it is in safe state afterwards. -/
theorem enterSafe_cases (s : State) : (enterSafe s).seq.st = .safe ∨ Noise s (enterSafe s) := by
  have closed (u : State) : (safInt 2 { u with
      seq := { u.seq with st := .safe, stood := s.seq.st, halt := none, carry := none }, saf := { u.saf with safe := true } }).seq.st = .safe := by
    simp [safInt]
  unfold enterSafe
  by_cases hs : s.saf.safe = true
  · rw [if_pos hs]
    exact .inr (.refl s)
  · rw [if_neg hs]
    by_cases hp : rfld s oPwrSts 2 0 ≠ 0
    · rw [if_pos hp]
      exact .inr ((noise_pwr s _).trans (noise_wakeBegin 0 _))
    · rw [if_neg hp]
      exact .inl (closed _)

theorem still_raiseLast (acts : List (Report × Nat)) (s : State) : Still s (raiseLast acts s) := .ite (still_enterSafe s) (.refl s)

theorem raiseLast_cases (acts : List (Report × Nat)) (s : State) : (raiseLast acts s).seq.st = .safe ∨ Noise s (raiseLast acts s) := by
  unfold raiseLast
  split_ifs
  · exact enterSafe_cases s
  · exact .inr (.refl s)

/-! ### Faults of any code -/

theorem still_clockLossHalt (src : Nat) (s : State) : Still s (clockLossHalt src s) :=
  ((still_seq s).trans (.ite (c := frameBegun s = true) (still_voidFrame _) (.refl _))).trans (noise_lastEvt ..).still

theorem still_clockLossOwn (s : State) : Still s (clockLossOwn s) :=
  .ite ((noise_sendExpress ..).still.trans (still_clockLossHalt ..)) (.refl s)

theorem still_raiseFirst (acts : List (Report × Nat)) (s : State) : Still s (raiseFirst acts s) := by
  have logged : Still s (acts.foldl (fun s a => logFault a.1 s) s) := .foldl (fun _ _ => (noise_logFault ..).still) _ _
  have tainted (u : State) : Still u (acts.foldl (fun s a => if 1 ≤ a.2 then taintReport a.1 s else s) u) :=
    .foldl (fun _ _ => .ite (noise_taintReport ..).still (.refl _)) _ _
  have halted (u : State) (c : Prop) [Decidable c] : Still u (if c then clockLossOwn (safInt 1 u) else u) :=
    .ite ((noise_safInt 1 u).still.trans (still_clockLossOwn _)) (.refl u)
  have downgraded (u : State) : Still u (if acts.any fun a => a.1.code = 0x1001 then downgrade (frBack u.seq.F.toNat 63) u.seq.F.toNat u else u) :=
    .ite (noise_downgrade _ _ u).still (.refl u)
  unfold raiseFirst
  dsimp only
  have done := ((logged.trans (halted _ ((acts.any (fun a => a.2 = 2 && a.1.code = 0x9001) && !toSafe acts) = true))).trans
    (downgraded _)).trans (tainted _)
  split
  · exact .ite done (done.trans (noise_haltReaction ..).still)
  · exact done

theorem still_raiseAll (rs : List Report) (s : State) : Still s (raiseAll rs s) :=
  (still_raiseFirst _ s).trans (still_raiseLast _ _)

/-- The lockkeeper's own state is not touched. -/
theorem Still.lkp {s t : State} (h : Still s t) : t.lkp = s.lkp := by
  have kept (u : State) : (still u).rest.lkp = u.lkp := by
    unfold still quiet stillOf
    rfl
  rw [← kept t, h.view, kept]

end Sys2Proof.Machine

namespace Sys2Proof.Machine

/-! ## The march under way

What the lockkeeper does after an event ends no march. -/

/-- The MARCH under way. -/
def marchOf (s : State) : Option Cmd := s.lkp.march

theorem march_still {s t : State} (h : Still s t) : marchOf t = marchOf s := congrArg (·.march) h.lkp

theorem march_replies {s t : State} (h : repliesOnly s t) : marchOf t = marchOf s := by rw [h.1]; rfl

theorem march_reply (c : Cmd) (st r0 r1 r2 : Nat) (s : State) : marchOf (reply c st r0 r1 r2 s) = marchOf s :=
  march_replies (.reply c st r0 r1 r2 s)

theorem march_rset (off : Nat) (w : Word) (s : State) : marchOf (rset off w s) = marchOf s := rfl
theorem march_rcount (off hi lo k : Nat) (s : State) : marchOf (rcount off hi lo k s) = marchOf s := rfl
theorem march_rflag (off i : Nat) (s : State) : marchOf (rflag off i s) = marchOf s := rfl
theorem march_dmc (s : State) (d : DmcState) : marchOf { s with dmc := d } = marchOf s := rfl

/-! ### Service accesses -/

theorem march_returnWritten (id : Nat) (s : State) : marchOf (returnWritten id s) = marchOf s := by
  unfold returnWritten
  dsimp only
  split
  · exact march_still ((still_xch s _).trans (still_leaveReturn ..))
  · exact march_still (still_xch s _)

theorem march_hostCpl (st : CplSt) (ep : Bool) (bar addr : Nat) (data : List Byte) (s : State) :
    marchOf (hostCpl st ep bar addr data s) = marchOf s := rfl

theorem march_hostCode (code addr : Nat) (s : State) : marchOf (hostCode code addr s) = marchOf s :=
  ite_fix marchOf rfl ((march_rflag ..).trans (ite_fix marchOf (march_rset ..) rfl))

theorem march_svcReply (r : SvcReq) (code : Nat) (data : BitVec 64) (s : State) : marchOf (svcReply r code data s) = marchOf s := by
  have hosted := march_hostCode code r.addr s
  exact ite_fix marchOf (ite_fix marchOf ((march_returnWritten ..).trans (march_rcount ..)) (march_rcount ..))
    (ite_fix marchOf (march_dmc ..) (ite_fix marchOf (ite_fix marchOf hosted ((march_hostCpl ..).trans hosted))
      (ite_fix marchOf (march_returnWritten ..) (march_dmc ..))))

theorem march_dmWrite (k w : Nat) (v : BitVec 64) (poison : Bool) (s : State) : marchOf (dmWrite k w v poison s) = marchOf s := rfl

theorem march_dmCheck (src k w : Nat) (s : State) : marchOf (dmCheck src k w s).1 = marchOf s := by
  unfold dmCheck
  dsimp only
  split
  · rfl
  · rfl
  · exact (march_dmc ..).trans ((march_rflag ..).trans (march_rcount ..))
  · exact (march_rflag ..).trans (ite_fix marchOf (march_rcount ..) ((march_rset ..).trans (march_rcount ..)))

theorem march_svcPerform (r : SvcReq) (shared : Bool) (s : State) : marchOf (svcPerform r shared s).1 = marchOf s := by
  have checked (src : Nat) (x : State × List Report) (hx : x = if shared then (s, []) else dmCheck src r.bank r.word s) :
      marchOf x.1 = marchOf s := by
    subst hx
    split_ifs
    · rfl
    · exact march_dmCheck ..
  unfold svcPerform
  dsimp only
  split
  · exact march_svcReply ..
  · split
    · exact (march_svcReply ..).trans (march_dmWrite ..)
    all_goals
      dsimp only
      split
      all_goals simp only [march_svcReply, march_dmWrite, march_dmCheck, checked 1 _ rfl]

theorem march_svcWait (r : SvcReq) (forSched : Bool) (s : State) : marchOf (svcWait r forSched s) = marchOf s :=
  ite_fix marchOf ((march_rcount ..).trans (march_dmc ..)) (march_dmc ..)

theorem march_svcResolve (r : SvcReq) (s : State) : marchOf (svcResolve r s).1 = marchOf s := by
  unfold svcResolve
  dsimp only
  split
  · exact march_svcWait ..
  · refine ite_fix (fun x : State × List Report => marchOf x.1) (march_svcWait ..) (ite_fix (fun x : State × List Report => marchOf x.1) ?_ ?_)
    · exact ite_fix (fun x : State × List Report => marchOf x.1) (march_dmc ..) (march_svcPerform ..)
    · exact ite_fix (fun x : State × List Report => marchOf x.1) (march_svcReply ..) (march_svcReply ..)

theorem march_bankAccess (k : Nat) (s : State) : marchOf (bankAccess k s) = marchOf s := ite_fix marchOf (march_dmc ..) (march_dmc ..)

theorem march_svcServe (k : Nat) (s : State) : marchOf (svcServe k s).1 = marchOf s := by
  unfold svcServe
  split_ifs
  · rfl
  · split
    · rfl
    · exact (march_svcPerform ..).trans ((march_bankAccess ..).trans (march_dmc ..))

theorem march_settle (x : State × List Report) : marchOf (settle x) = marchOf x.1 := march_still (still_raiseAll ..)

theorem march_svcArrive (r : SvcReq) (s : State) : marchOf (svcArrive r s) = marchOf s := by
  have requested : marchOf (serviceRequest r s) = marchOf s :=
    ite_fix marchOf ((march_settle _).trans (march_svcResolve ..)) rfl
  exact ite_fix marchOf (((march_settle _).trans (march_svcServe ..)).trans requested) requested

/-! ### What is done after an event -/

theorem march_loadFails (l : LoadSt) (status code sec : Nat) (s : State) : marchOf (loadFails l status code sec s) = marchOf s := by
  have ended : marchOf (if l.write then s else runEnd s) = marchOf s := ite_fix marchOf rfl (march_still (still_runEnd s))
  have unloaded (u : State) : marchOf (unloadAll u) = marchOf u := rfl
  have dropped (u : State) : marchOf { u with lkp := { u.lkp with load := none } } = marchOf u := rfl
  exact (march_reply ..).trans ((march_rset ..).trans ((dropped _).trans ((unloaded _).trans ((march_rset ..).trans ((march_rset ..).trans ended)))))

theorem march_settleLoad (s : State) : marchOf (settleLoad s) = marchOf s := by
  unfold settleLoad
  split
  · exact ite_fix marchOf (march_loadFails ..) rfl
  · rfl

theorem march_bar2Word (b : Barge) (s : State) : marchOf (bar2Word b s) = marchOf s := by
  have zero (u : State) : marchOf (if b.op = 0 then hostCpl .ok false 2 b.addr (List.replicate b.len 0#8) u else u) = marchOf u :=
    ite_fix marchOf (march_hostCpl ..) rfl
  exact ite_fix marchOf (zero s) (ite_fix marchOf ((zero _).trans ((march_rflag ..).trans (march_rcount ..))) (march_svcArrive ..))

theorem march_bar2Goes (n : Nat) (s : State) : marchOf (bar2Goes n s) = marchOf s := by
  induction n generalizing s with
  | zero => rfl
  | succ n ih =>
    unfold bar2Goes
    split
    · exact ite_fix marchOf ((ih _).trans (march_bar2Word ..)) rfl
    · rfl

theorem march_putRun (a a' : AccessRun) (s : State) : marchOf (putRun a a' s) = marchOf s := rfl

theorem march_accessStep {a a' : AccessRun} {s s' : State} (h : accessStep a s = some (a', s')) : marchOf s' = marchOf s := by
  unfold accessStep at h
  dsimp only at h
  split_ifs at h
  · obtain ⟨x, -, hx⟩ := Option.map_eq_some_iff.1 h
    cases hx
    exact (march_putRun ..).trans (march_dmc ..)
  · cases h
    exact (march_svcArrive ..).trans (march_putRun ..)

theorem march_restoredOn (d : Nat) (s : State) : marchOf (restoredOn d s) = marchOf s :=
  ite_fix marchOf rfl (ite_fix marchOf rfl rfl)

theorem march_ringSend (dst : Nat) (m : RingMsg) (s : State) : marchOf (ringSend dst m s) = marchOf s := ite_fix marchOf rfl rfl

theorem march_ringSendAll (m : RingMsg) (s : State) : marchOf (ringSendAll m s) = marchOf s :=
  foldl_fix marchOf (fun _ d => march_ringSend d m _) _ s

theorem march_accessAnswer (a : AccessRun) (status : Nat) (s : State) : marchOf (accessAnswer a status s) = marchOf s := by
  have erased : marchOf { s with lkp := { s.lkp with access := s.lkp.access.erase a } } = marchOf s := rfl
  have put (b : Nat) (bs : List Byte) (u : State) : marchOf (hostPut b bs u) = marchOf u := rfl
  exact (march_reply ..).trans (ite_fix marchOf erased ((put ..).trans erased))

theorem march_accessGoes (n : Nat) (a : AccessRun) (s : State) : marchOf (accessGoes n a s) = marchOf s := by
  induction n generalizing a s with
  | zero => rfl
  | succ n ih =>
    unfold accessGoes
    split
    · exact (ih _ _).trans (march_accessStep ‹_›)
    · exact ite_fix marchOf rfl ((march_accessAnswer ..).trans
        (ite_fix marchOf ((march_ringSendAll ..).trans (march_restoredOn ..)) rfl))

theorem march_lkpSettle (s : State) : marchOf (lkpSettle s) = marchOf s := by
  have pumped (u : State) : marchOf (accessPump u) = marchOf u := foldl_fix marchOf (fun _ _ => march_accessGoes ..) _ u
  have replied (u : State) : marchOf (reportState (settleAcks (settleRestore (settleResume (settlePaused u))))) = marchOf u :=
    march_replies (((((repliesOnly.settlePaused u).trans (.settleResume _)).trans (.settleRestore _)).trans (.settleAcks _)).trans (.reportState _))
  exact (replied _).trans ((pumped _).trans ((march_bar2Goes _ _).trans (march_settleLoad s)))

/-! ## SELFTEST, MARCH and the fault log: the obligation fails -/

/-- A march of bank 0 that stands while the device is in Keep (CFG_STS.KEEP), where its clocks stand (R298). -/
def keptMarch : Cmd := { port := 16, op := 0x0F, flags := 0, rsv := 0, tag := 0, p0 := 1, p1 := 1, p2 := 0, p3 := [] }
def keepState : State :=
  rflag oCfgSts 4 { State.reset with lkp := { State.reset.lkp with march := some keptMarch, run := [keptMarch] } }

/-- What the march has found does not matter. -/
def noFinds : MarchFinds := { rows := [], stores := [], tiers := [], repaired := 0 }

/-- In Keep MARCH_COMPLETE changes nothing. -/
theorem marchComplete_kept (f : MarchFinds) : marchComplete f keepState = keepState := by
  have h : rbit keepState oCfgSts 4 = true := by decide
  rw [marchComplete, if_pos h]

/-- Refutes O39: in Keep the march under way does not end at MARCH_COMPLETE, for the clocks of what it marches stand. -/
theorem not_selfTests : ¬ Obligations.SelfTests := by
  intro h
  obtain ⟨-, ⟨-, ends, -⟩, -⟩ := h
  obtain ⟨t, hleads, hnone, -⟩ := ends keptMarch noFinds keepState rfl (by decide)
  obtain ⟨u, hexec, hu, -⟩ := hleads
  have hexec' : exec (.marchComplete noFinds) keepState = .next (lkpSettle keepState) := by
    change settled (marchComplete _ keepState) = _
    rw [marchComplete_kept]
    rfl
  have hsame : lkpSettle keepState = u := by
    rw [hexec'] at hexec
    injection hexec
  have hmarch : marchOf u = some keptMarch := by
    rw [← hsame, march_lkpSettle]
    rfl
  rw [hu, march_lkpSettle, march_reply] at hmarch
  rw [marchOf, hnone] at hmarch
  cases hmarch

end Sys2Proof.Machine

namespace Sys2Proof.Machine

/-! ## What a step of the sequencer writes, piece by piece

Every operation of a step is a row of small writes. `Touch` names the kinds of them, `Trail A` is a row of writes of the kinds in `A`: what
survives every write of those kinds survives the operation. -/

inductive Touch where
  | clu (cl : Nat) (R : Cluster → Cluster → Prop) -- a cluster, as `R` says
  | exports                     -- nothing is exported any longer
  | reg (off : Nat)             -- a register
  | first (off : Nat)           -- a record register that holds no record
  | flag (off : Nat)            -- a flag of a register set
  | count (off hi lo : Nat)     -- a counter of a register raised
  | slu (q : Nat)               -- a sluice's tags and buffers
  | req (q : Nat)               -- a sluice's requests
  | lane (n : Nat)              -- a gauge lane
  | gau                         -- the gauge unit
  | probes                      -- the frame's probes and triggers
  | trc                         -- the trace unit
  | frags (cl : Nat)            -- fragments of a cluster leave
  | bas (b : Nat)               -- a basin's lanes
  | lnk (n : Nat)               -- a fabric link
  | free                        -- a free value is used
  | dmc                         -- design memory
  | books                       -- books: a fault logged, a frame tainted, a vote

def writes : Touch → State → State → Prop
  | .clu cl R, s, t => ∃ c, R (getCl s cl) c ∧ t = setCl cl c s
  | .exports, s, t => t = clearExports s
  | .reg off, s, t => ∃ w, t = rset off w s
  | .first off, s, t => ∃ w, t = rset off w s ∧ rbit s off 31 = false
  | .flag off, s, t => ∃ i, t = rflag off i s
  | .count off hi lo, s, t => ∃ k, t = rcount off hi lo k s
  | .slu q, s, t => ∃ x, t = setSlu q x s
  | .req q, s, t => ∃ l, t = { s with req := l } ∧ l.filter (·.q ≠ q) = s.req.filter (·.q ≠ q)
  | .lane n, s, t => ∃ x, t = setLane n x s
  | .gau, s, t => ∃ g, t = { s with gau := g }
  | .probes, s, t => ∃ p b g, t = { s with trc := { s.trc with probe := p, probeBy := b, trig := g } }
  | .trc, s, t => ∃ x, t = { s with trc := x }
  | .frags cl, s, t => ∃ l, t = { s with xch := { s.xch with frags := s.xch.frags ++ l } } ∧ ∀ g ∈ l, g.src = cl
  | .bas b, s, t => ∃ x, t = setBas b x s
  | .lnk n, s, t => ∃ x, t = setLnk n x s
  | .free, s, t => ∃ n, t = { s with freeCtr := n }
  | .dmc, s, t => ∃ d, t = { s with dmc := d }
  | .books, s, t => Noise s t

/-- What a write of a cluster may change: anything; its import entries; its memory operations and MRD; the error state of its words. -/
def anyhow (_ _ : Cluster) : Prop := True
def landed (c c' : Cluster) : Prop :=
  ∃ ds bp, c' = { c with ds := ds, badPar := bp } ∧ ∀ p e, e < 2048 → e < 1024 ∨ 1792 ≤ e →
    mget .x ds (2048 * p + e) = mget .x c.ds (2048 * p + e) ∧ mget false bp (2048 * p + e) = mget false c.badPar (2048 * p + e)
def memMoved (c c' : Cluster) : Prop := ∃ ops mrd, c' = { c with memOps := ops, mrd := mrd }
def scrubbed (c c' : Cluster) : Prop := ∃ i r, c' = { c with iEcc := i, rwEcc := r }

/-- Memory operations issued, and the shadow's mismatches noted. -/
def extended (c c' : Cluster) : Prop := ∃ ops shd, c' = { c with memOps := c.memOps ++ ops, shd := shd }

theorem extended.refl (c : Cluster) : extended c c := ⟨[], c.shd, by simp⟩

/-- Mismatches of the shadow noted, and no more. -/
def noted (c c' : Cluster) : Prop := ∃ shd, c' = { c with shd := shd }

theorem noted.extended {c c' : Cluster} (h : noted c c') : extended c c' := by
  obtain ⟨l, rfl⟩ := h
  exact ⟨[], l, by simp⟩

theorem extended.trans {a b c : Cluster} (h1 : extended a b) (h2 : extended b c) : extended a c := by
  obtain ⟨o1, x1, rfl⟩ := h1
  obtain ⟨o2, x2, rfl⟩ := h2
  exact ⟨o1 ++ o2, x2, by simp⟩

theorem landed.refl (c : Cluster) : landed c c := ⟨_, _, rfl, fun _ _ _ _ => ⟨rfl, rfl⟩⟩

theorem landed.trans {a b c : Cluster} (h1 : landed a b) (h2 : landed b c) : landed a c := by
  obtain ⟨d1, p1, rfl, k1⟩ := h1
  obtain ⟨d2, p2, rfl, k2⟩ := h2
  refine ⟨d2, p2, rfl, fun p e he ho => ?_⟩
  obtain ⟨a1, b1⟩ := k1 p e he ho
  obtain ⟨a2, b2⟩ := k2 p e he ho
  exact ⟨a2.trans a1, b2.trans b1⟩

/-- A landing writes an import entry of its port. -/
theorem landed_landAt (phys pos : Nat) {port : Nat} (hp : port < 2) (v : V4) (c : Cluster) : landed c (landAt phys port pos v c) := by
  refine ⟨_, _, rfl, fun p e he ho => ?_⟩
  have hne : 2048 * p + e ≠ 2048 * phys + (1024 + 384 * port + pos % 384) := by
    rw [Nat.add_assoc 1024]
    have hr : 384 * port + pos % 384 < 768 := by have := Nat.mod_lt pos (by decide : 384 > 0); omega
    generalize 384 * port + pos % 384 = r at hr
    rcases ho with ho | ho <;> omega
  exact ⟨mget_mset_other _ _ _ _ _ hne, mget_mset_other _ _ _ _ _ hne⟩

/-- A row of writes of the kinds in `A`. -/
inductive Trail (A : Touch → Prop) : State → State → Prop where
  | refl (s : State) : Trail A s s
  | step {s t u : State} {τ : Touch} : Trail A s t → A τ → writes τ t u → Trail A s u

section
variable {A B : Touch → Prop}

theorem Trail.one {s t : State} (τ : Touch) (hA : A τ) (h : writes τ s t) : Trail A s t := .step (.refl s) hA h

theorem Trail.trans {s t u : State} (h1 : Trail A s t) (h2 : Trail A t u) : Trail A s u := by
  induction h2 with
  | refl => exact h1
  | step _ hA hw ih => exact .step ih hA hw

theorem Trail.mono {s t : State} (h : Trail A s t) (hAB : ∀ τ, A τ → B τ) : Trail B s t := by
  induction h with
  | refl => exact .refl _
  | step _ hA hw ih => exact .step ih (hAB _ hA) hw

theorem Trail.foldl {β : Type} {f : State → β → State} (l : List β) (hf : ∀ s, ∀ x ∈ l, Trail A s (f s x)) (s : State) :
    Trail A s (l.foldl f s) := by
  induction l generalizing s with
  | nil => exact .refl s
  | cons a t ih => exact (hf s a (by simp)).trans (ih (fun s x hx => hf s x (by simp [hx])) _)

theorem Trail.ite {s a b : State} {c : Prop} [Decidable c] (ha : Trail A s a) (hb : Trail A s b) : Trail A s (if c then a else b) := by
  split_ifs
  · exact ha
  · exact hb

/-- What survives every write of the row's kinds survives the row. -/
theorem Trail.keep {P : State → Prop} {s t : State} (h : Trail A s t) (hP : ∀ τ, A τ → ∀ u v, writes τ u v → P u → P v) (hs : P s) : P t := by
  induction h with
  | refl => exact hs
  | step _ hA hw ih => exact hP _ hA _ _ hw ih

/-- What no write of the row's kinds changes stands. -/
theorem Trail.fix {γ : Type} (φ : State → γ) {s t : State} (h : Trail A s t) (hφ : ∀ τ, A τ → ∀ u v, writes τ u v → φ v = φ u) : φ t = φ s :=
  h.keep (P := fun u => φ u = φ s) (fun τ hτ u v hw hu => (hφ τ hτ u v hw).trans hu) rfl

theorem trail_setCl {R : Cluster → Cluster → Prop} {cl : Nat} (c : Cluster) (s : State) (hR : R (getCl s cl) c) (h : A (.clu cl R)) : Trail A s (setCl cl c s) :=
  .one _ h ⟨c, hR, rfl⟩
theorem trail_rset (off : Nat) (w : Word) (s : State) (h : A (.reg off)) : Trail A s (rset off w s) := .one _ h ⟨w, rfl⟩
theorem trail_rflag (off i : Nat) (s : State) (h : A (.flag off)) : Trail A s (rflag off i s) := .one _ h ⟨i, rfl⟩
theorem trail_rcount (off hi lo k : Nat) (s : State) (h : A (.count off hi lo)) : Trail A s (rcount off hi lo k s) := .one _ h ⟨k, rfl⟩
theorem trail_setSlu (q : Nat) (x : Sluice) (s : State) (h : A (.slu q)) : Trail A s (setSlu q x s) := .one _ h ⟨x, rfl⟩
theorem trail_noise {s t : State} (hn : Noise s t) (h : A .books) : Trail A s t := .one _ h hn

end

/-! ### Writes with their reports -/

/-- A row of writes, and the faults it reports: none is a loss of the step clock, all are of frame `f`. -/
structure Work (A : Touch → Prop) (f : Option Nat) (x y : State × List Report) : Prop where
  trail : Trail A x.1 y.1
  reps : ∃ rs, y.2 = x.2 ++ rs ∧ ∀ r ∈ rs, r.code ≠ 0x9001 ∧ r.frame = f

section
variable {A B : Touch → Prop} {f : Option Nat}

theorem Work.refl (x : State × List Report) : Work A f x x := ⟨.refl _, [], by simp⟩

theorem Work.trans {x y z : State × List Report} (h1 : Work A f x y) (h2 : Work A f y z) : Work A f x z := by
  obtain ⟨t1, rs1, e1, c1⟩ := h1
  obtain ⟨t2, rs2, e2, c2⟩ := h2
  refine ⟨t1.trans t2, rs1 ++ rs2, by rw [e2, e1, List.append_assoc], ?_⟩
  intro r hr
  rcases List.mem_append.1 hr with hr | hr
  · exact c1 r hr
  · exact c2 r hr

theorem Work.mono {x y : State × List Report} (h : Work A f x y) (hAB : ∀ τ, A τ → B τ) : Work B f x y := ⟨h.trail.mono hAB, h.reps⟩

theorem Work.foldl {β : Type} {g : State × List Report → β → State × List Report} (l : List β) (hg : ∀ x, ∀ b ∈ l, Work A f x (g x b))
    (x : State × List Report) : Work A f x (l.foldl g x) := by
  induction l generalizing x with
  | nil => exact .refl x
  | cons a t ih => exact (hg x a (by simp)).trans (ih (fun x b hb => hg x b (by simp [hb])) _)

theorem Work.ite {x a b : State × List Report} {c : Prop} [Decidable c] (ha : Work A f x a) (hb : Work A f x b) :
    Work A f x (if c then a else b) := by
  split_ifs
  · exact ha
  · exact hb

/-- Writes that report nothing. -/
theorem Work.quiet {s t : State} {rs : List Report} (h : Trail A s t) : Work A f (s, rs) (t, rs) := ⟨h, [], by simp⟩

theorem Work.state {x : State × List Report} {t : State} (h : Trail A x.1 t) : Work A f x (t, x.2) := ⟨h, [], by simp⟩

/-- An operation that reports by itself, joined to the reports so far. -/
theorem Work.andThen {g : State → State × List Report} {x : State × List Report} (h : Work A f (x.1, []) (g x.1)) : Work A f x (andThen g x) := by
  obtain ⟨t, rs, e, c⟩ := h
  refine ⟨t, rs, ?_, c⟩
  simp only [Machine.andThen, e, List.nil_append]

theorem Work.one {s t : State} {rs : List Report} (h : Trail A s t) (hrs : ∀ r ∈ rs, r.code ≠ 0x9001 ∧ r.frame = f) : Work A f (s, []) (t, rs) :=
  ⟨h, rs, by simp, hrs⟩

end

/-! ### What every write of a step leaves -/

/-- What every write of a step leaves: the sequencer but for its books, hold memory, the host's memory, the lockkeeper, time. -/
@[irreducible] def core (s : State) : State :=
  { (quiet s).rest with
    fab := [], bas := [], slu := [], req := [], lnk := [], dmc := State.reset.dmc, gau := GauState.init, trc := State.reset.trc,
    xch := XchState.init, freeCtr := 0 }

theorem core_noise {s t : State} (h : Noise s t) : core t = core s := by unfold core; rw [h.view]

/-- A state written in what `core` does not look at. -/
theorem core_upd (s : State) {regs' : List (Nat × Word)} {fab' : List (Nat × Cluster)} {bas' : List (Nat × Basin)} {slu' : List (Nat × Sluice)}
    {req' : List SluReq} {lnk' : List (Nat × Link)} {dmc' : DmcState} {gau' : GauState} {trc' : TrcState} {xch' : XchState} {n : Nat} :
    core { s with regs := regs', fab := fab', bas := bas', slu := slu', req := req', lnk := lnk', dmc := dmc', gau := gau', trc := trc',
                  xch := xch', freeCtr := n } = core s := by
  unfold core quiet
  rfl

theorem core_writes {τ : Touch} {s t : State} (h : writes τ s t) : core t = core s := by
  cases τ with
  | books => exact core_noise h
  | req q => obtain ⟨l, rfl, -⟩ := h; exact core_upd s
  | first off => obtain ⟨w, rfl, -⟩ := h; exact core_upd s
  | frags cl => obtain ⟨l, rfl, -⟩ := h; exact core_upd s
  | probes => obtain ⟨_, _, _, rfl⟩ := h; exact core_upd s
  | exports => rw [h]; exact core_upd s
  | clu cl R => obtain ⟨_, -, rfl⟩ := h; exact core_upd s
  | reg | flag | count | slu | lane | gau | trc | bas | lnk | free | dmc => obtain ⟨_, rfl⟩ := h; exact core_upd s

theorem Trail.core {A : Touch → Prop} {s t : State} (h : Trail A s t) : core t = core s := h.fix _ fun _ _ _ _ hw => core_writes hw

section
variable {s t : State}

theorem core_seq (s : State) : (core s).seq = seqKept s.seq := by unfold core quiet; rfl
theorem core_hold (s : State) : (core s).hold = s.hold := by unfold core quiet; rfl
theorem core_mem (s : State) : (core s).host.mem = s.host.mem := by unfold core quiet; rfl
theorem core_dev (s : State) : (core s).dev = s.dev := by unfold core quiet; rfl
theorem core_safe (s : State) : (core s).saf.safe = s.saf.safe := by unfold core quiet; rfl

theorem seqKept_of_core (h : core t = core s) : seqKept t.seq = seqKept s.seq := by rw [← core_seq, h, core_seq]
theorem hold_of_core (h : core t = core s) : t.hold = s.hold := by rw [← core_hold, h, core_hold]
theorem mem_of_core (h : core t = core s) : t.host.mem = s.host.mem := by rw [← core_mem, h, core_mem]
theorem dev_of_core (h : core t = core s) : t.dev = s.dev := by rw [← core_dev, h, core_dev]
theorem st_of_core (h : core t = core s) : t.seq.st = s.seq.st := by simpa [seqKept] using congrArg SeqState.st (seqKept_of_core h)
theorem F_of_core (h : core t = core s) : t.seq.F = s.seq.F := by simpa [seqKept] using congrArg SeqState.F (seqKept_of_core h)
theorem pos_of_core (h : core t = core s) : t.seq.pos = s.seq.pos := by simpa [seqKept] using congrArg SeqState.pos (seqKept_of_core h)
theorem spos_of_core (h : core t = core s) : t.seq.spos = s.seq.spos := by simpa [seqKept] using congrArg SeqState.spos (seqKept_of_core h)
theorem gsc_of_core (h : core t = core s) : t.seq.gsc = s.seq.gsc := by simpa [seqKept] using congrArg SeqState.gsc (seqKept_of_core h)
theorem fltPos_of_core (h : core t = core s) : t.seq.fltPos = s.seq.fltPos := by
  simpa [seqKept] using congrArg SeqState.fltPos (seqKept_of_core h)

theorem frameNow_of_core (h : core t = core s) : frameNow t = frameNow s := by
  unfold frameNow
  rw [st_of_core h, F_of_core h]

end

/-! ## Upsets inside the part -/

section
variable (hs : List Happening) (s : State)

@[simp] theorem strikes_regs : (strikes hs s).regs = s.regs := foldl_fix (·.regs) (fun s h => by cases h <;> rfl) hs s
@[simp] theorem strikes_seq : (strikes hs s).seq = s.seq := foldl_fix (·.seq) (fun s h => by cases h <;> rfl) hs s
@[simp] theorem strikes_dev : (strikes hs s).dev = s.dev := foldl_fix (·.dev) (fun s h => by cases h <;> rfl) hs s
@[simp] theorem strikes_slu : (strikes hs s).slu = s.slu := foldl_fix (·.slu) (fun s h => by cases h <;> rfl) hs s
@[simp] theorem strikes_req : (strikes hs s).req = s.req := foldl_fix (·.req) (fun s h => by cases h <;> rfl) hs s
@[simp] theorem strikes_xch : (strikes hs s).xch = s.xch := foldl_fix (·.xch) (fun s h => by cases h <;> rfl) hs s
@[simp] theorem strikes_gau : (strikes hs s).gau = s.gau := foldl_fix (·.gau) (fun s h => by cases h <;> rfl) hs s
@[simp] theorem strikes_saf : (strikes hs s).saf = s.saf := foldl_fix (·.saf) (fun s h => by cases h <;> rfl) hs s
@[simp] theorem strikes_tim : (strikes hs s).tim = s.tim := foldl_fix (·.tim) (fun s h => by cases h <;> rfl) hs s
@[simp] theorem strikes_trc : (strikes hs s).trc = s.trc := foldl_fix (·.trc) (fun s h => by cases h <;> rfl) hs s
@[simp] theorem strikes_host : (strikes hs s).host = s.host := foldl_fix (·.host) (fun s h => by cases h <;> rfl) hs s

/-- What an upset leaves of a cluster: all but its instruction words, its routing words and its parity bits. -/
def unstruck (c : Cluster) : Cluster := { c with instr := [], iEcc := [], rw := [], rwEcc := [], badPar := [] }

theorem unstruck_setCl {cl : Nat} {c : Cluster} {s : State} (x : Nat) (h : unstruck c = unstruck (getCl s cl) := by rfl) :
    unstruck (getCl (setCl cl c s) x) = unstruck (getCl s x) := by
  unfold getCl setCl
  dsimp only
  rw [mget_mset]
  split_ifs with e
  · rw [h, e]; rfl
  · rfl

theorem strike_cluster (h : Happening) (s : State) (x : Nat) : unstruck (getCl (strike h s) x) = unstruck (getCl s x) := by
  cases h with
  | instrUpset => exact unstruck_setCl x
  | routeUpset => exact unstruck_setCl x
  | parityUpset => exact unstruck_setCl x
  | _ => rfl

theorem strikes_cluster (x : Nat) : unstruck (getCl (strikes hs s) x) = unstruck (getCl s x) :=
  foldl_fix (fun s => unstruck (getCl s x)) (fun s h => strike_cluster h s x) hs s

end

end Sys2Proof.Machine

namespace Sys2Proof.Machine

/-! ## The fabric's writes in an evaluation step -/

/-- What a cluster's own part of a step writes: its stores and ports, its own registers, its fragments. -/
def cluTouch (cl : Nat) : Touch → Prop
  | .clu d _ => d = cl
  | .frags d => d = cl
  | .reg off => off = cShd cl ∨ off = cRepair cl
  | .flag off => off = cStat cl
  | .count off _ _ => off = cEcc cl ∨ off = cXev cl
  | _ => False

/-- What its memory port writes, once its stores and port registers are written. -/
def issueTouch (cl : Nat) : Touch → Prop
  | .clu d R => d = cl ∧ R = extended
  | .flag off => off = cStat cl
  | .count off _ _ => off = cXev cl
  | _ => False

/-- What its exchange port and its shadow write then. -/
def noteTouch (cl : Nat) : Touch → Prop
  | .clu d R => d = cl ∧ R = noted
  | .frags d => d = cl
  | .reg off => off = cShd cl ∨ off = cRepair cl
  | .flag off => off = cStat cl
  | _ => False

def tailTouch (cl : Nat) : Touch → Prop := fun τ => issueTouch cl τ ∨ noteTouch cl τ

theorem cluTouch_of_tail {cl : Nat} {τ : Touch} (h : tailTouch cl τ) : cluTouch cl τ := by
  rcases h with h | h
  · cases τ with
    | clu d R => exact h.1
    | count off hi lo => exact .inr h
    | flag off => exact h
    | _ => exact h.elim
  · cases τ with
    | clu d R => exact h.1
    | frags d | reg off | flag off => exact h
    | _ => exact h.elim

/-- What its sub-operations at the sluice write. -/
def sluTouch (cl : Nat) : Touch → Prop
  | .slu q => q = sluiceOf cl
  | .req q => q = sluiceOf cl
  | .flag off => off = oHldSts ∨ off = cStat cl
  | .count off hi lo => off = oHldSluCnt (sluiceOf cl) ∧ hi = 31 ∧ lo = 16
  | _ => False

/-- What the gauge port and the probe path write: lanes, probes, clash flags. -/
def gauTouch : Touch → Prop
  | .lane _ => True
  | .flag off => ∃ d, off = cStat d
  | _ => False
def trcTouch : Touch → Prop
  | .probes => True
  | .flag off => ∃ d, off = cStat d
  | _ => False

section
variable {A : Touch → Prop} {s0 : State} {cl : Nat}

theorem work_portClash (lp : Nat) (s : State) (h : A (.flag (cStat cl))) : Work A (frameNow s0) (s, []) (portClash s0 cl lp s) :=
  .one (trail_rflag _ _ _ h) (by simp)

theorem work_memIssue (o : ProcOut) (s : State) : Work (issueTouch cl) (frameNow s0) (s, []) (memIssue s0 cl o s) := by
  have flag (u : State) : Trail (issueTouch cl) u (rflag (cStat cl) 7 u) := trail_rflag _ _ _ rfl
  have count (hi lo : Nat) (u : State) : Trail (issueTouch cl) u (rcount (cXev cl) hi lo 1 u) := trail_rcount _ _ _ _ _ rfl
  have push (m : MemOp) (u : State) : Trail (issueTouch cl) u (setCl cl { getCl u cl with memOps := (getCl u cl).memOps ++ [m] } u) :=
    trail_setCl _ _ ⟨[m], _, rfl⟩ ⟨rfl, rfl⟩
  have lost (k : Nat) (u : State) : Work (issueTouch cl) (frameNow s0) (u, []) (if (List.range (ownGw s0 k)).all (laneOwned s0 cl k) then (u, [])
      else (rflag (cStat cl) 7 u, [{ code := 0x3002, lk := 2, locv := locClu s0.seq.pos o.lp cl, frame := frameNow s0 }])) :=
    .ite (.refl _) (.one (flag u) (by simp))
  have counted (c : Prop) [Decidable c] : Trail (issueTouch cl) s (if c then rcount (cXev cl) 15 0 1 s else s) := .ite (count 15 0 s) (.refl s)
  unfold memIssue
  refine .ite (.refl _) ?_
  split
  · refine .ite (.one ((flag s).trans (push _ _)) (by simp)) ?_
    split
    · exact .one ((count 31 16 s).trans (push _ _)) (by simp)
    · exact (Work.one (push _ s) (by simp)).trans (lost _ _)
  · refine .ite (.one (flag s) (by simp)) ?_
    split
    · exact .one (count 31 16 s) (by simp)
    · exact (Work.one ((counted _).trans (push _ _)) (by simp)).trans (lost _ _)
  · exact .refl _

theorem trail_xsendIssue (o : ProcOut) (s : State) : Trail (noteTouch cl) s (xsendIssue s0 cl o s) := by
  unfold xsendIssue
  split
  · exact .one (.frags cl) rfl ⟨_, rfl, by simp⟩
  · exact .refl s

theorem work_shadowMiss (st : Nat) (s : State) : Work (noteTouch cl) (frameNow s0) (s, []) (shadowMiss s0 cl st s) := by
  have once (u : State) (c : Prop) [Decidable c] (off : Nat) (h : noteTouch cl (.reg off)) (w : Word) :
      Trail (noteTouch cl) u (if c then u else rset off w u) := .ite (.refl u) (trail_rset _ _ _ h)
  unfold shadowMiss
  extract_lets f lp phys s1 s2 s3 c recent s4 rep
  have h1 : Trail (noteTouch cl) s s1 := trail_rflag _ _ _ rfl
  have h4 : Trail (noteTouch cl) s s4 :=
    ((h1.trans (once s1 _ _ (.inl rfl) _)).trans (once s2 _ _ (.inr rfl) _)).trans (trail_setCl _ _ ⟨_, rfl⟩ ⟨rfl, rfl⟩)
  exact .ite (.one (h4.trans (trail_rset _ _ _ (.inr rfl))) (by simp [rep])) (.one h4 (by simp [rep]))

/-- A processor's step reports faults of its own frame, and no loss of the step clock. -/
theorem procStep_reps (st p : Nat) (f : ProcFault) : ∀ r ∈ (procStep s0 cl st p f).reps, r.code ≠ 0x9001 ∧ r.frame = frameNow s0 := by
  by_cases hbad : wordBad s0 cl st p
  · rw [procStep_bad hbad]
    simp
  · have hb : ¬ ((mget .clean (getCl s0 cl).iEcc (1024 * physOf s0 cl p + st) = Ecc.double) ||
        (mget .clean (getCl s0 cl).iEcc (1024 * physOf s0 cl p + st) = Ecc.poison) : Bool) = true := by
      simpa [wordBad, wordEcc] using hbad
    have one (c : Prop) [Decidable c] (r r' : Report) (hr' : r'.code ≠ 0x9001 ∧ r'.frame = frameNow s0) (h : r ∈ if c then [r'] else []) :
        r.code ≠ 0x9001 ∧ r.frame = frameNow s0 := by
      split_ifs at h
      · rwa [List.mem_singleton.1 h]
      · cases h
    intro r hr
    unfold procStep at hr
    dsimp only at hr
    rw [if_neg hb] at hr
    split at hr
    · rcases List.mem_append.1 hr with hr | hr
      · exact one _ r _ (by simp) hr
      · rw [List.mem_singleton.1 hr]
        simp
    · simp only [List.mem_append] at hr
      rcases hr with ((hr | hr) | hr) | hr
      all_goals exact one _ r _ (by simp) hr

theorem clusterOuts_reps {hs : List Happening} {st : Nat} {o : ProcOut} (ho : o ∈ clusterOuts s0 hs cl st) :
    ∀ r ∈ o.reps, r.code ≠ 0x9001 ∧ r.frame = frameNow s0 := by
  obtain ⟨p, -, rfl⟩ := List.mem_map.1 ho
  exact procStep_reps st p _

/-! ### A cluster's own part of an evaluation step -/

/-- The results, staged values and exports of a cluster's processors (R28, R39, R41); its port registers after its sub-operations. -/
def written (st : Nat) (outs : List ProcOut) (c : Cluster) : Cluster := outs.foldl (fun c o => procWrite st o c) c
def portAcc (s0 : State) (cl st : Nat) (outs : List ProcOut) (c : Cluster) : PortAcc :=
  outs.foldl (portReg (getCl s0 cl)) { c := written st outs c }

/-- A cluster's stores and port registers written, its processors' flags set; then its port conflicts, its memory port, its exchange port and its
shadow. -/
def storesAct (s0 : State) (cl st : Nat) (outs : List ProcOut) (x : State × List Report) : State × List Report :=
  (rcount (cEcc cl) 15 0 (outs.filter (·.fixed)).length (outs.foldl (fun s o => o.flags.foldl (fun s b => rflag (cStat cl) b s) s)
    (setCl cl (portAcc s0 cl st outs (getCl x.1 cl)).c x.1)), x.2 ++ outs.flatMap (·.reps))
def clashAct (s0 : State) (cl : Nat) (acc : PortAcc) (y : State × List Report) : State × List Report :=
  acc.clash.foldl (fun y lp => andThen (portClash s0 cl lp) y) y
def memAct (s0 : State) (cl : Nat) (acc : PortAcc) (y : State × List Report) : State × List Report :=
  match acc.mem with
  | some o => andThen (memIssue s0 cl o) y
  | none => y
def sendAct (s0 : State) (cl : Nat) (acc : PortAcc) (y : State × List Report) : State × List Report :=
  match acc.send with
  | some o => if 2 ≤ sentHere s0 (cl / 64) y.1 then andThen (portClash s0 cl o.lp) y else (xsendIssue s0 cl o y.1, y.2)
  | none => y
def shadowAct (s0 : State) (hs : List Happening) (cl st : Nat) (outs : List ProcOut) (y : State × List Report) : State × List Report :=
  let right := procStep s0 cl st (s0.seq.F.toNat % 64) {}
  if shadowFaultOf hs cl || outs.any (fun o => o.lp = s0.seq.F.toNat % 64 && (o.res ≠ right.res || o.op ≠ right.op || o.vs ≠ right.vs)) then
    andThen (shadowMiss s0 cl st) y
  else y

theorem clusterApply_eq (hs : List Happening) (st : Nat) (outs : List ProcOut) (x : State × List Report) : clusterApply s0 hs cl st outs x =
    shadowAct s0 hs cl st outs (sendAct s0 cl (portAcc s0 cl st outs (getCl x.1 cl))
      (memAct s0 cl (portAcc s0 cl st outs (getCl x.1 cl)) (clashAct s0 cl (portAcc s0 cl st outs (getCl x.1 cl)) (storesAct s0 cl st outs x)))) := rfl

section
variable (acc : PortAcc) (y : State × List Report)

theorem work_clashAct {A : Touch → Prop} (h : A (.flag (cStat cl))) : Work A (frameNow s0) y (clashAct s0 cl acc y) :=
  .foldl _ (fun y _ _ => .andThen (work_portClash _ y.1 h)) y

theorem work_memAct : Work (issueTouch cl) (frameNow s0) y (memAct s0 cl acc y) := by
  unfold memAct
  split
  · exact .andThen (work_memIssue _ _)
  · exact .refl _

theorem work_sendAct : Work (noteTouch cl) (frameNow s0) y (sendAct s0 cl acc y) := by
  unfold sendAct
  split
  · exact .ite (.andThen (work_portClash _ _ rfl)) (.quiet (trail_xsendIssue _ _))
  · exact .refl _

theorem work_shadowAct (hs : List Happening) (st : Nat) (outs : List ProcOut) : Work (noteTouch cl) (frameNow s0) y (shadowAct s0 hs cl st outs y) :=
  .ite (.andThen (work_shadowMiss _ _)) (.refl _)

/-- The ports of a cluster, once its stores are written. -/
theorem work_clusterTail (hs : List Happening) (st : Nat) (outs : List ProcOut) (x : State × List Report) :
    Work (tailTouch cl) (frameNow s0) (storesAct s0 cl st outs x) (clusterApply s0 hs cl st outs x) := by
  rw [clusterApply_eq]
  exact (((work_clashAct (A := tailTouch cl) _ _ (.inl rfl)).trans ((work_memAct _ _).mono fun _ => .inl)).trans
    ((work_sendAct _ _).mono fun _ => .inr)).trans ((work_shadowAct _ hs st outs).mono fun _ => .inr)

theorem trail_storesFlags (st : Nat) (outs : List ProcOut) (x : State × List Report) {A : Touch → Prop} (hf : A (.flag (cStat cl)))
    (hc : A (.count (cEcc cl) 15 0)) : Trail A (setCl cl (portAcc s0 cl st outs (getCl x.1 cl)).c x.1) (storesAct s0 cl st outs x).1 :=
  Trail.trans (.foldl _ (fun _ _ _ => .foldl _ (fun u _ _ => trail_rflag _ _ u hf) _) _) (trail_rcount _ _ _ _ _ hc)

end

/-- A cluster's own part of an evaluation step (R28, R42-R46, R64). -/
theorem work_clusterApply (hs : List Happening) (st : Nat) (x : State × List Report) :
    Work (cluTouch cl) (frameNow s0) x (clusterApply s0 hs cl st (clusterOuts s0 hs cl st) x) := by
  have h1 : Work (cluTouch cl) (frameNow s0) x (storesAct s0 cl st (clusterOuts s0 hs cl st) x) := by
    refine ⟨(trail_setCl (A := cluTouch cl) (R := anyhow) _ _ trivial rfl).trans (trail_storesFlags st _ x rfl (.inl rfl)), _, rfl, fun r hr => ?_⟩
    obtain ⟨o, ho, hr⟩ := List.mem_flatMap.1 hr
    exact clusterOuts_reps ho r hr
  exact h1.trans ((work_clusterTail hs st _ x).mono fun _ => cluTouch_of_tail)

/-! ### The sluice port -/

theorem trail_setTag (t : Nat) (x : TagSt) (s : State) : Trail (sluTouch cl) s (setTag (sluiceOf cl) t x s) := trail_setSlu _ _ _ rfl
theorem trail_setCollect (t : Nat) (v : BitVec 128) (s : State) : Trail (sluTouch cl) s (setCollect (sluiceOf cl) t v s) :=
  trail_setSlu _ _ _ rfl
theorem trail_tagIssued (t : Nat) (s : State) : Trail (sluTouch cl) s (tagIssued (sluiceOf cl) t s) := trail_setSlu _ _ _ rfl

/-- The requests of a tag lose their replies: those of other sluices stand. -/
theorem trail_killReq (q t : Nat) (s : State) (h : A (.req q)) :
    Trail A s { s with req := s.req.map fun r => if r.q = q && r.tag = t then { r with live := false } else r } := by
  refine .one _ h ⟨_, rfl, ?_⟩
  rw [List.filter_map]
  have hq : ((fun r : SluReq => decide (r.q ≠ q)) ∘ fun r => if r.q = q && r.tag = t then { r with live := false } else r) =
      fun r => decide (r.q ≠ q) := by
    funext r
    simp only [Function.comp]
    split_ifs <;> rfl
  rw [hq]
  refine (List.map_congr_left fun r hr => ?_).trans (List.map_id _)
  have : r.q ≠ q := by simpa using (List.mem_filter.1 hr).2
  simp [this]

theorem trail_refuseReq (t : Nat) (s : State) : Trail (sluTouch cl) s (refuseReq (sluiceOf cl) t s) :=
  (((trail_rcount _ _ _ _ s ⟨rfl, rfl, rfl⟩).trans (trail_setTag t .refused _)).trans (trail_tagIssued t _)).trans (trail_killReq _ t _ rfl)

theorem work_sluWait (st t : Nat) (s : State) : Work (sluTouch cl) (frameNow s0) (s, []) (sluWait s0 cl st t s) := by
  unfold sluWait
  extract_lets q rep x unmapped s1 m free
  have h1 : Trail (sluTouch cl) s s1 := .ite (trail_rflag _ _ _ (.inl rfl)) (.refl s)
  have hm : ∀ r ∈ m, r.code ≠ 0x9001 ∧ r.frame = frameNow s0 := by
    intro r hr
    unfold m at hr
    split_ifs at hr <;> simp_all [rep]
  have hfree (u : State) : Trail (sluTouch cl) u (free u) := (trail_setSlu (A := sluTouch cl) q _ _ rfl).trans (trail_setTag t .free _)
  have collected (v : BitVec 128) : Trail (sluTouch cl) s (free (setCollect q t v s1)) := (h1.trans (trail_setCollect t v _)).trans (hfree _)
  have more (code lk locv : Nat) (hc : code ≠ 0x9001) : ∀ r ∈ m ++ rep code lk locv, r.code ≠ 0x9001 ∧ r.frame = frameNow s0 := by
    intro r hr
    rcases List.mem_append.1 hr with hr | hr
    · exact hm r hr
    · rw [List.mem_singleton.1 hr]
      exact ⟨hc, rfl⟩
  split
  · exact .one (collected _) hm
  · exact .one (collected _) hm
  · exact .one (collected _) (more _ _ _ (by decide))
  · exact .one (h1.trans (hfree _)) hm
  · exact .one (h1.trans (hfree _)) hm
  · exact .one (collected _) hm
  · exact .one (collected _) hm
  · exact .one (collected _) hm
  · exact .one (((collected _).trans (trail_rflag _ _ _ (.inl rfl))).trans (trail_killReq _ t _ rfl)) (more _ _ _ (by decide))

theorem work_sluIssue (o : ProcOut) (s : State) : Work (sluTouch cl) (frameNow s0) (s, []) (sluIssue s0 cl o s) := by
  have told (t code : Nat) (hc : code ≠ 0x9001) {u : State} (h : Trail (sluTouch cl) s u) : Work (sluTouch cl) (frameNow s0) (s, [])
      (u, [{ code := code, lk := 5, locv := locSlu (sluiceOf cl) t, frame := frameNow s0 }]) := .one h (by simpa using hc)
  have refused (t : Nat) := trail_refuseReq (cl := cl) t s
  have flagged (t b : Nat) : Trail (sluTouch cl) s (rflag oHldSts b (rflag (cStat cl) 6 (refuseReq (sluiceOf cl) t s))) :=
    ((refused t).trans (trail_rflag _ _ _ (.inr rfl))).trans (trail_rflag _ _ _ (.inl rfl))
  have tagged (t : Nat) (x : TagSt) : Trail (sluTouch cl) s (tagIssued (sluiceOf cl) t (setTag (sluiceOf cl) t x s)) :=
    (trail_setTag t x s).trans (trail_tagIssued t _)
  have put (r : SluReq) (hr : r.q = sluiceOf cl) (u : State) : Trail (sluTouch cl) u { u with req := u.req ++ [r] } :=
    .one (.req (sluiceOf cl)) rfl ⟨_, rfl, by simp [hr]⟩
  unfold sluIssue
  extract_lets c0 q en ho unk go
  have hgo (r t : Nat) (wr : Bool) : Work (sluTouch cl) (frameNow s0) (s, []) (go r t wr) := by
    have hclash := told t 0x4003 (by decide) (flagged t 6)
    unfold go
    clear go
    dsimp only
    clear_value ho
    split
    · exact .ite hclash (.one (tagged t _) (by simp))
    · exact .ite (.ite hclash (.one (tagged t _) (by simp))) (.ite (told t 0x4002 (by decide) (flagged t 5)) (.ite hclash
        (.ite (told t 0x4004 (by decide) ((refused t).trans (trail_rflag _ _ _ (.inl rfl)))) (.one ((tagged t _).trans (put _ rfl _)) (by simp)))))
  split
  · exact hgo ..
  · exact hgo ..
  · exact .refl _

end

end Sys2Proof.Machine

namespace Sys2Proof.Machine

/-- A fold that carries a list beside its state and reports. -/
theorem Work.foldl_snd {A : Touch → Prop} {f : Option Nat} {α β : Type} {g : α × (State × List Report) → β → α × (State × List Report)}
    (l : List β) (hg : ∀ x, ∀ b ∈ l, Work A f x.2 (g x b).2) (x : α × (State × List Report)) : Work A f x.2 (l.foldl g x).2 := by
  induction l generalizing x with
  | nil => exact .refl _
  | cons a t ih => exact (hg x a (by simp)).trans (ih (fun x b hb => hg x b (by simp [hb])) _)

/-- A cluster's part in the ports that several clusters share. -/
def sharedTouch (cls : List Nat) : Touch → Prop := fun τ => ∃ cl ∈ cls, sluTouch cl τ

section
variable {s0 : State}

/-- A second request of a step at its sluice is refused, as a clash (R44). -/
theorem work_secondReq {cl : Nat} (t lp : Nat) (s : State) :
    Work (sluTouch cl) (frameNow s0) (s, []) (portClash s0 cl lp (refuseReq (sluiceOf cl) t s)) :=
  .one ((trail_refuseReq t s).trans (trail_rflag (A := sluTouch cl) _ _ _ (.inr rfl))) (by simp)

/-- The sluice port over the sub-operations of a step (R43, R44, R54, R55). -/
theorem work_sluicePort (st : Nat) (outs : List (Nat × ProcOut)) (x : State × List Report) :
    Work (sharedTouch (outs.map (·.1))) (frameNow s0) x (sluicePort s0 st outs x) := by
  have here {co : Nat × ProcOut} (h : co ∈ outs) (τ : Touch) (hτ : sluTouch co.1 τ) : sharedTouch (outs.map (·.1)) τ :=
    ⟨co.1, List.mem_map.2 ⟨co, h, rfl⟩, hτ⟩
  unfold sluicePort
  extract_lets waits x1 reqs
  have h1 : Work (sharedTouch (outs.map (·.1))) (frameNow s0) x x1 := by
    refine .foldl _ (fun y ct hct => ?_) x
    obtain ⟨co, hco, hw⟩ := List.mem_filterMap.1 hct
    have hcl : ct.1 = co.1 := by
      dsimp only at hw
      split at hw
      · cases hw; rfl
      · cases hw
    exact .andThen ((work_sluWait st ct.2 y.1).mono fun τ hτ => here hco τ (hcl ▸ hτ))
  refine h1.trans (.foldl_snd (f := frameNow s0) _ (fun y co hco => ?_) ([], x1))
  have hmem : co ∈ outs := (List.mem_filter.1 hco).1
  dsimp only
  split_ifs
  · dsimp only
    refine .andThen ?_
    exact (work_secondReq _ _ y.2.1).mono (here hmem)
  · exact .andThen ((work_sluIssue co.2 y.2.1).mono (here hmem))

/-- The gauge port (R43, R58). -/
theorem work_gaugePort (outs : List (Nat × ProcOut)) (x : State × List Report) : Work gauTouch (frameNow s0) x (gaugePort s0 outs x) := by
  refine .foldl_snd (f := frameNow s0) outs (fun y co _ => ?_) ([], x)
  dsimp only
  split
  · split_ifs
    · exact .refl _
    · exact .andThen (work_portClash _ _ ⟨_, rfl⟩)
    · exact .quiet (.one (.lane _) trivial ⟨_, rfl⟩)
  · exact .refl _

/-- The trace probe path (R43, R44, R60). -/
theorem work_tracePort (outs : List (Nat × ProcOut)) (x : State × List Report) : Work trcTouch (frameNow s0) x (tracePort s0 outs x) := by
  have clash (d lp : Nat) (y : State × List Report) : Work trcTouch (frameNow s0) y (andThen (portClash s0 d lp) y) :=
    .andThen (work_portClash _ _ ⟨_, rfl⟩)
  have offer (u : State) (p : List (Nat × Option V4)) (b : List (Nat × Nat)) :
      Trail trcTouch u { u with trc := { u.trc with probe := p, probeBy := b } } := .one .probes trivial ⟨p, b, u.trc.trig, rfl⟩
  refine .foldl outs (fun y co _ => ?_) x
  dsimp only
  split
  · exact .ite (.quiet (offer _ _ _)) (.ite ((Work.quiet (offer _ _ _)).trans (clash _ _ _)) (clash _ _ _))
  · exact .ite (.refl _) (.quiet (.one .probes trivial ⟨y.1.trc.probe, y.1.trc.probeBy, _, rfl⟩))
  · exact .refl _

/-- What the fabric writes in an evaluation step. -/
def fabTouch (cls : List Nat) : Touch → Prop := fun τ => (∃ cl ∈ cls, cluTouch cl τ) ∨ sharedTouch cls τ ∨ gauTouch τ ∨ trcTouch τ

/-- The sub-operations of a step, with their clusters. -/
def stepOuts (s0 : State) (hs : List Happening) (st : Nat) : List (Nat × ProcOut) :=
  (runClusters s0).flatMap fun cl => (clusterOuts s0 hs cl st).map (cl, ·)

/-- The clusters' own parts of a step. -/
def clusterPhase (s0 : State) (hs : List Happening) (st : Nat) (x : State × List Report) : State × List Report :=
  (runClusters s0).foldl (fun x cl => clusterApply s0 hs cl st (clusterOuts s0 hs cl st) x) x

/-- The fabric's step is its clusters, then the ports they share. -/
theorem fabricStep_eq (hs : List Happening) (st : Nat) (s : State) : fabricStep s0 hs st s =
    tracePort s0 (stepOuts s0 hs st) (gaugePort s0 (stepOuts s0 hs st) (sluicePort s0 st (stepOuts s0 hs st) (clusterPhase s0 hs st (s, [])))) := by
  have houts : ((runClusters s0).map fun cl => (cl, clusterOuts s0 hs cl st)).flatMap (fun co => co.2.map fun o => (co.1, o)) =
      stepOuts s0 hs st := by
    rw [stepOuts, List.flatMap_map]
  unfold fabricStep clusterPhase
  dsimp only
  rw [List.foldl_map, houts]

theorem work_clusterPhase (hs : List Happening) (st : Nat) (x : State × List Report) :
    Work (fun τ => ∃ cl ∈ runClusters s0, cluTouch cl τ) (frameNow s0) x (clusterPhase s0 hs st x) :=
  .foldl _ (fun y cl hcl => (work_clusterApply hs st y).mono fun _ hτ => ⟨cl, hcl, hτ⟩) x

theorem stepOuts_fst {hs : List Happening} {st : Nat} {cl : Nat} (h : cl ∈ (stepOuts s0 hs st).map (·.1)) : cl ∈ runClusters s0 := by
  obtain ⟨co, hco, rfl⟩ := List.mem_map.1 h
  obtain ⟨d, hd, hco⟩ := List.mem_flatMap.1 hco
  obtain ⟨o, -, rfl⟩ := List.mem_map.1 hco
  exact hd

theorem work_fabricStep (hs : List Happening) (st : Nat) (s : State) : Work (fabTouch (runClusters s0)) (frameNow s0) (s, []) (fabricStep s0 hs st s) := by
  rw [fabricStep_eq]
  refine (((work_clusterPhase hs st (s, [])).mono fun _ h => .inl h).trans ((work_sluicePort st _ _).mono fun _ h => .inr (.inl ?_))).trans
    (((work_gaugePort _ _).mono fun _ h => .inr (.inr (.inl h))).trans ((work_tracePort _ _).mono fun _ h => .inr (.inr (.inr h))))
  obtain ⟨cl, hcl, hτ⟩ := h
  exact ⟨cl, stepOuts_fst hcl, hτ⟩

end

/-! ## The reach network's writes -/

/-- What a cluster of the reach network writes. -/
def reachTouch (cl : Nat) : Touch → Prop
  | .clu d R => d = cl ∧ R = landed
  | .bas b => b = cl / 64
  | .flag off => off = oBasReachSts (cl / 64) ∨ off = cStat cl
  | .count off hi lo => (off = oBasContHard (cl / 64) ∨ off = oBasContBen (cl / 64)) ∧ hi = 31 ∧ lo = 0 ∨
      off = oBasImpOvf (cl / 64) ∧ hi = 15 ∧ lo = 0 ∨ off = oBasRwEcc (cl / 64)
  | .first off => off = oBasContRec (cl / 64)
  | .reg off => off = oBasContRecF (cl / 64)
  | _ => False

/-- What the links write: themselves, and books. -/
def linkTouch : Touch → Prop
  | .lnk _ | .free | .books => True
  | _ => False

section
variable {s0 : State} {cl : Nat}

theorem work_hardContention (kind idx : Nat) (s : State) : Work (reachTouch cl) (frameNow s0) (s, []) (hardContention s0 kind cl idx s) := by
  unfold hardContention
  extract_lets b s1 s2
  have h1 : Trail (reachTouch cl) s s1 := (trail_rcount _ _ _ _ s (.inl ⟨.inl rfl, rfl, rfl⟩)).trans (trail_rflag (A := reachTouch cl) _ _ _ (.inl rfl))
  have h2 : Trail (reachTouch cl) s s2 := by
    unfold s2
    split_ifs with hrec
    · exact h1
    · exact (h1.trans (.one (.first _) rfl ⟨_, rfl, by simpa using hrec⟩)).trans (trail_rset (A := reachTouch cl) _ _ _ rfl)
  exact .one h2 (by simp)

theorem work_recordContention (kind idx : Nat) (k : Option Bool) (s : State) :
    Work (reachTouch cl) (frameNow s0) (s, []) (recordContention s0 kind cl idx k s) := by
  unfold recordContention
  split
  · exact .refl _
  · refine .one (trail_rcount _ _ _ _ s (.inl ⟨.inr rfl, rfl, rfl⟩)) fun r hr => ?_
    split_ifs at hr
    · rw [List.mem_singleton.1 hr]
      simp
    · cases hr
  · exact work_hardContention ..

/-- The overflow of a processor's import entries, flagged, counted and reported. -/
def overflowed (s0 : State) (cl p : Nat) (y : State × List Report) : State × List Report :=
  (rflag (cStat cl) 4 (rflag (oBasReachSts (cl / 64)) 1 (rcount (oBasImpOvf (cl / 64)) 15 0 1 y.1)),
    y.2 ++ [{ code := 0x2002, lk := 2, locv := locClu s0.seq.pos p cl, frame := frameNow s0 }])

theorem work_overflowed (p : Nat) (y : State × List Report) : Work (reachTouch cl) (frameNow s0) y (overflowed s0 cl p y) :=
  ⟨((trail_rcount _ _ _ _ _ (.inr (.inl ⟨rfl, rfl, rfl⟩))).trans (trail_rflag (A := reachTouch cl) _ _ _ (.inl rfl))).trans
    (trail_rflag (A := reachTouch cl) _ _ _ (.inr rfl)), _, rfl, by simp⟩

theorem work_landAt (phys pos : Nat) {port : Nat} (hp : port < 2) (v : V4) (y : State × List Report) :
    Work (reachTouch cl) (frameNow s0) y (setCl cl (landAt phys port pos v (getCl y.1 cl)) y.1, y.2) :=
  .state (trail_setCl _ _ (landed_landAt phys pos hp v _) ⟨rfl, rfl⟩)

theorem work_landProc (w : BitVec 256) (p : Nat) (x : State × List Report) : Work (reachTouch cl) (frameNow s0) x (landProc s0 cl w p x) := by
  unfold landProc
  extract_lets c0 phys slots loc n kept x0 x1
  have h0 : Work (reachTouch cl) (frameNow s0) x x0 := .ite (.refl x) (work_overflowed p x)
  have h1 : Work (reachTouch cl) (frameNow s0) x x1 := h0.trans (.ite (work_landAt _ _ (by decide) _ _) (.refl _))
  clear_value kept
  split
  · exact h1
  · exact h1.trans (work_landAt _ _ (by decide) _ _)
  · exact (h1.trans (work_landAt _ _ (by decide) _ _)).trans (.andThen (work_recordContention ..))

/-- A cluster's corrected routing word counted; its lanes and egress lanes driven, before the landings; X driven and landed under an uncorrectable
routing word. -/
def reachRep (s0 : State) (cl code : Nat) : Report := { code := code, lk := 2, locv := locClu s0.seq.pos 0 cl, frame := frameNow s0 }
def putDriven (s0 : State) (b : Nat) (lanes egr : List (Nat × V4)) (s : State) : State :=
  setBas b { getBas s b with lanes := drive (frameStart s0) s0.seq.spos (getBas s b).lanes lanes,
                             egress := drive (frameStart s0) s0.seq.spos (getBas s b).egress egr } s
def reachCounted (s0 : State) (cl : Nat) (x : State × List Report) : State × List Report :=
  if routeSingles (getCl s0 cl) (routeWordNo s0) = 0 then x
  else (rcount (oBasRwEcc (cl / 64)) 15 0 (routeSingles (getCl s0 cl) (routeWordNo s0)) x.1, x.2 ++ [reachRep s0 cl 0x0002])
def reachDriven (s0 : State) (cl : Nat) (x : State × List Report) : State × List Report :=
  let w := mget 0#256 (getCl s0 cl).rw (routeWordNo s0)
  let x1 := reachCounted s0 cl x
  let x2 := if routeIllegal s0 cl w then (rflag (oBasReachSts (cl / 64)) 2 x1.1, x1.2 ++ [reachRep s0 cl 0x2004]) else x1
  let drv (p : Nat) : V4 := if rOutp w p then expoVal (getCl s0 cl) p else .z
  let lanes := (List.range 32).map fun i => (i, resolve2 (drv (2 * i)) (drv (2 * i + 1)))
  let x3 := lanes.foldl (fun x l => andThen (recordContention s0 0 cl l.1 l.2.2) x) x2
  let egr := (List.range 8).filterMap fun j => (egrVal s0 cl w j).map fun v =>
    let (d, m) := egrLane (cl % 64) j; (128 * d + m, v)
  (putDriven s0 (cl / 64) ((lanes.map fun l => (32 * (cl % 64) + l.1, l.2.1)).filter (·.2 ≠ .z)) (egr.filter (·.2 ≠ .z)) x3.1, x3.2)
def landXs (s0 : State) (cl : Nat) (c : Cluster) : Cluster := (List.range 64).foldl (fun k p =>
  landAt (physOf s0 cl p) 1 s0.seq.pos .x (landAt (physOf s0 cl p) 0 s0.seq.pos .x k)) c
def reachX (s0 : State) (cl : Nat) (x : State × List Report) : State × List Report :=
  (rflag (oBasReachSts (cl / 64)) 3 (rcount (oBasRwEcc (cl / 64)) 31 16 1 (putDriven s0 (cl / 64)
    ((List.range 32).map fun i => (32 * (cl % 64) + i, V4.x)) ((List.range 8).map fun j => let (d, m) := egrLane (cl % 64) j; (128 * d + m, V4.x))
    (setCl cl (landXs s0 cl (getCl x.1 cl)) x.1))), x.2 ++ [reachRep s0 cl 0x2003])

theorem reachCluster_eq (x : State × List Report) : reachCluster s0 cl x =
    if routeBad (getCl s0 cl) (routeWordNo s0) then reachX s0 cl (reachCounted s0 cl x)
    else (List.range 64).foldl (fun x p => landProc s0 cl (mget 0#256 (getCl s0 cl).rw (routeWordNo s0)) p x) (reachDriven s0 cl x) := rfl

theorem trail_putDriven (l e : List (Nat × V4)) (u : State) : Trail (reachTouch cl) u (putDriven s0 (cl / 64) l e u) :=
  .one (.bas (cl / 64)) rfl ⟨_, rfl⟩

theorem work_reachRep {y : State × List Report} {t : State} {code : Nat} (hc : code ≠ 0x9001) (h : Trail (reachTouch cl) y.1 t) :
    Work (reachTouch cl) (frameNow s0) y (t, y.2 ++ [reachRep s0 cl code]) :=
  ⟨h, _, rfl, by simpa [reachRep] using hc⟩

theorem work_reachCounted (x : State × List Report) : Work (reachTouch cl) (frameNow s0) x (reachCounted s0 cl x) :=
  .ite (.refl x) (work_reachRep (by decide) (trail_rcount _ _ _ _ _ (.inr (.inr rfl))))

theorem work_reachDriven (x : State × List Report) : Work (reachTouch cl) (frameNow s0) x (reachDriven s0 cl x) := by
  unfold reachDriven
  extract_lets w x1 x2 drv lanes x3 egr
  have h2 : Work (reachTouch cl) (frameNow s0) x x2 :=
    (work_reachCounted x).trans (.ite (work_reachRep (by decide) (trail_rflag _ _ _ (.inl rfl))) (.refl _))
  have h3 : Work (reachTouch cl) (frameNow s0) x x3 :=
    h2.trans (.foldl _ (fun y l _ => .andThen (work_recordContention (s0 := s0) (cl := cl) 0 l.1 l.2.2 _)) _)
  exact h3.trans (.state (trail_putDriven _ _ _))

theorem landed_landXs (c : Cluster) : landed c (landXs s0 cl c) := by
  have both (l : List Nat) (k : Cluster) : landed k (l.foldl (fun k p =>
      landAt (physOf s0 cl p) 1 s0.seq.pos .x (landAt (physOf s0 cl p) 0 s0.seq.pos .x k)) k) := by
    induction l generalizing k with
    | nil => exact .refl k
    | cons p t ih => exact ((landed_landAt _ _ (by decide) _ k).trans (landed_landAt _ _ (by decide) _ _)).trans (ih _)
  exact both _ c

theorem work_reachX (x : State × List Report) : Work (reachTouch cl) (frameNow s0) x (reachX s0 cl x) :=
  work_reachRep (by decide) ((((trail_setCl (A := reachTouch cl) (cl := cl) _ _ (landed_landXs _) ⟨rfl, rfl⟩).trans (trail_putDriven _ _ _)).trans
    (trail_rcount (A := reachTouch cl) _ _ _ _ _ (.inr (.inr rfl)))).trans (trail_rflag (A := reachTouch cl) _ _ _ (.inl rfl)))

/-- One cluster of the reach network (R99-R111, R117-R120). -/
theorem work_reachCluster (x : State × List Report) : Work (reachTouch cl) (frameNow s0) x (reachCluster s0 cl x) := by
  rw [reachCluster_eq]
  exact .ite ((work_reachCounted x).trans (work_reachX _)) ((work_reachDriven x).trans (.foldl _ (fun y p _ => work_landProc ..) _))

theorem noise_lockRec (kind link f : Nat) (s : State) : Noise s (lockRec kind link f s) := by
  have kept : Noise s (if rbit s oLkgLockrec 31 then s else
      rset oLkgLockrec (BitVec.ofNat 32 (2 ^ 31 + kind * 2 ^ 28 + link * 2 ^ 24 + f % 2 ^ 24)) s) :=
    .ite (.refl s) (noise_rset (by decide) (by decide) _ s)
  exact kept.trans (noise_rflag (by decide) 3 _)

theorem work_linkPresent {n : Nat} (hn : n < 12) (x : State × List Report) : Work linkTouch (frameNow s0) x (linkPresent s0 n x) := by
  have hoff : bookReg (oLnkSts n) := by unfold bookReg oLnkSts oSafCtl; omega
  unfold linkPresent
  split
  · rename_i v ue _
    dsimp only
    refine .quiet (Trail.trans (.one (.lnk n) trivial ⟨_, rfl⟩) (.ite ?_ (.refl _)))
    split
    · exact trail_noise (noise_taintFrame ..) trivial
    · exact .refl _
  · exact ⟨trail_noise ((noise_lockRec ..).trans (noise_rflag hoff 9 _)) trivial, _, rfl, by simp⟩
  · exact .refl _
  · exact .refl _

theorem trail_linkSend (b n : Nat) (s : State) : Trail linkTouch s (linkSend s0 b n s) := by
  unfold linkSend
  extract_lets now slots l
  refine .ite (.one (.lnk n) trivial ⟨_, rfl⟩) ?_
  exact Trail.trans (.one .free trivial ⟨s.freeCtr + 1, rfl⟩) (.one (.lnk n) trivial ⟨_, rfl⟩)

/-- What the reach network writes in one schedule position (R71, R114). -/
theorem work_reachStep (s : State) : Work (fun τ => (∃ cl ∈ runClusters s0, reachTouch cl τ) ∨ linkTouch τ) (frameNow s0) (s, []) (reachStep s0 s) := by
  unfold reachStep
  extract_lets x links x1
  have hx : Work (fun τ => (∃ cl ∈ runClusters s0, reachTouch cl τ) ∨ linkTouch τ) (frameNow s0) (s, []) x :=
    .foldl _ (fun y cl hcl => (work_reachCluster y).mono fun τ hτ => .inl ⟨cl, hcl, hτ⟩) _
  have h1 : Work (fun τ => (∃ cl ∈ runClusters s0, reachTouch cl τ) ∨ linkTouch τ) (frameNow s0) (s, []) x1 :=
    hx.trans (.foldl _ (fun y n hn => (work_linkPresent (List.mem_range.1 (List.mem_filter.1 hn).1) y).mono fun _ hτ => .inr hτ) _)
  exact h1.trans (.quiet (.foldl _ (fun u n _ => .ite ((trail_linkSend ..).mono fun _ hτ => .inr hτ) (.refl u)) _))

end

/-! ## The memory ports' writes -/

/-- What the memory ports write: the clusters' ports, design memory, its error registers. -/
def memTouch (cls : List Nat) : Touch → Prop
  | .clu d R => d ∈ cls ∧ R = memMoved
  | .dmc => True
  | .reg off => off = oDmcUeRec
  | .flag off => off = oDmcSts
  | .count off _ _ => off = oDmcEccCnt
  | _ => False

section
variable {s0 : State} {cls : List Nat}

/-- Arriving read data changes MRD and the operations under way. -/
theorem memMoved_mrdArrive (fs spos d : Nat) (c : Cluster) : memMoved c (mrdArrive fs spos d c) := by
  have folded (l : List MemOp) (g : Cluster → MemOp → BitVec 1024) (k : Cluster) (hk : memMoved c k) :
      memMoved c (l.foldl (fun c m => { c with mrd := g c m }) k) := by
    induction l generalizing k with
    | nil => exact hk
    | cons m t ih =>
      refine ih _ ?_
      obtain ⟨ops, mrd, rfl⟩ := hk
      exact ⟨ops, _, rfl⟩
  unfold mrdArrive
  obtain ⟨ops, mrd, h⟩ := folded _ _ c ⟨c.memOps, c.mrd, rfl⟩
  dsimp only
  rw [h]
  exact ⟨_, _, rfl⟩

theorem trail_writeLands {cl : Nat} (hcl : cl ∈ cls) (m : MemOp) (s : State) : Trail (memTouch cls) s (writeLands s0 cl m s) :=
  (Trail.foldl _ (fun _ _ _ => .one .dmc trivial ⟨_, rfl⟩) s).trans (trail_setCl (A := memTouch cls) (cl := cl) _ _ ⟨_, _, rfl⟩ ⟨hcl, rfl⟩)

theorem work_dmCheck (src k w : Nat) (s : State) : Work (memTouch cls) (frameNow s) (s, []) (dmCheck src k w s) := by
  have back (u : State) (d : DmcState) : Trail (memTouch cls) u { u with dmc := d } := .one .dmc trivial ⟨d, rfl⟩
  unfold dmCheck
  split
  · exact .refl _
  · exact .refl _
  · exact .one (((trail_rcount (A := memTouch cls) _ _ _ _ s rfl).trans (trail_rflag _ _ _ rfl)).trans (back _ _)) (by simp)
  · exact .one (((trail_rcount (A := memTouch cls) _ _ _ _ s rfl).trans (.ite (.refl _) (trail_rset _ _ _ rfl))).trans
      (trail_rflag _ _ _ rfl)) (by simp)

theorem work_bankCycle {cl : Nat} (hcl : cl ∈ cls) (m : MemOp) (x : State × List Report) :
    Work (memTouch cls) (frameNow x.1) x (bankCycle s0 cl m x) := by
  have checked (l : List Nat) (y : State × List Report) (hy : frameNow y.1 = frameNow x.1) :
      Work (memTouch cls) (frameNow x.1) y (l.foldl (fun x j => andThen (dmCheck 0 (m.bank + j) m.addr) x) y) := by
    induction l generalizing y with
    | nil => exact .refl y
    | cons j t ih =>
      have h1 : Work (memTouch cls) (frameNow x.1) y (andThen (dmCheck 0 (m.bank + j) m.addr) y) := hy ▸ .andThen (work_dmCheck ..)
      exact h1.trans (ih _ ((frameNow_of_core h1.trail.core).trans hy))
  unfold bankCycle
  dsimp only
  split
  · exact .refl x
  · exact (checked _ x rfl).trans (.state (trail_setCl _ _ ⟨_, _, rfl⟩ ⟨hcl, rfl⟩))
  · exact (checked _ x rfl).trans (.state (trail_setCl _ _ ⟨_, _, rfl⟩ ⟨hcl, rfl⟩))
  · exact .quiet (trail_writeLands hcl m x.1)
  · exact .quiet (trail_writeLands hcl m x.1)

/-- What the memory ports write in one schedule position (R71, R129). -/
theorem work_memPorts (s : State) : Work (memTouch (runClusters s0)) (frameNow s) (s, []) (memPorts s0 s) := by
  have cycles (l : List (Nat × MemOp)) (hl : ∀ cm ∈ l, cm.1 ∈ runClusters s0) (y : State × List Report) (hy : frameNow y.1 = frameNow s) :
      Work (memTouch (runClusters s0)) (frameNow s) y (l.foldl (fun x cm => bankCycle s0 cm.1 cm.2 x) y) := by
    induction l generalizing y with
    | nil => exact .refl y
    | cons cm t ih =>
      have h1 : Work (memTouch (runClusters s0)) (frameNow s) y (bankCycle s0 cm.1 cm.2 y) := hy ▸ work_bankCycle (hl cm (by simp)) cm.2 y
      exact h1.trans (ih (fun c hc => hl c (by simp [hc])) _ ((frameNow_of_core h1.trail.core).trans hy))
  unfold memPorts
  extract_lets cls ops x d s2
  have hx : Work (memTouch (runClusters s0)) (frameNow s) (s, []) x := by
    refine cycles ops (fun cm hcm => ?_) _ rfl
    obtain ⟨cl, hcl, hcm⟩ := List.mem_flatMap.1 hcm
    obtain ⟨m, -, rfl⟩ := List.mem_map.1 hcm
    exact hcl
  exact hx.trans (.state (.foldl _ (fun u cl hcl => trail_setCl _ _ (memMoved_mrdArrive _ _ _ _) ⟨hcl, rfl⟩) _))

end

end Sys2Proof.Machine

namespace Sys2Proof.Machine

/-! ## Fields and counters of a register word -/

theorem bit_setFld (w : Word) {hi lo : Nat} (h : hi < 32) (v i : Nat) :
    bit (setFld w hi lo v) i = if lo ≤ i ∧ i ≤ hi then v.testBit (i - lo) else bit w i := by
  by_cases hi32 : i < 32
  · have hmask : (2 ^ (hi + 1 - lo) - 1).testBit (i - lo) = decide (i - lo < hi + 1 - lo) := Nat.testBit_two_pow_sub_one _ _
    simp only [setFld, bit_or, bit_and, bit_not _ hi32, bit_ofNat hi32, nbit_eq_testBit, Nat.testBit_shiftLeft, hmask]
    by_cases hlo : lo ≤ i
    · by_cases hhi : i ≤ hi
      · have : i - lo < hi + 1 - lo := by omega
        simp [hlo, hhi, this]
      · have : ¬ i - lo < hi + 1 - lo := by omega
        simp [hhi, this]
    · simp [hlo]
  · have hge (x : Word) : bit x i = false := BitVec.getLsbD_of_ge x i (by omega)
    rw [if_neg (by omega), hge, hge]

/-- A field apart from the one written holds what it held. -/
theorem fld_setFld_apart (w : Word) {hi lo a b : Nat} (h : hi < 32) (hab : a < lo ∨ hi < b) (v : Nat) : fld (setFld w hi lo v) a b = fld w a b := by
  refine Nat.eq_of_testBit_eq fun i => ?_
  rw [testBit_fld, testBit_fld, bit_setFld w h]
  by_cases hi1 : i < a + 1 - b
  · rw [if_neg (by omega)]
  · simp [hi1]

theorem fld_lt (w : Word) (hi lo : Nat) : fld w hi lo < 2 ^ (hi + 1 - lo) := Nat.mod_lt _ (Nat.two_pow_pos _)

/-- A counter raised holds its sum, saturated. -/
theorem fld_satFld (w : Word) {hi lo : Nat} (h : hi < 32) (k : Nat) :
    fld (satFld w hi lo k) hi lo = min (fld w hi lo + k) (2 ^ (hi + 1 - lo) - 1) := by
  rw [satFld, fld_setFld w h, satAdd]
  refine Nat.mod_eq_of_lt ?_
  have := Nat.two_pow_pos (hi + 1 - lo)
  omega

theorem fld_all (w : Word) : fld w 31 0 = w.toNat := by
  have := w.isLt
  unfold fld nfld
  simp only [Nat.shiftRight_zero]
  omega

/-- A counter never falls. -/
theorem fld_satFld_mono (w : Word) {hi lo : Nat} (h : hi < 32) (k : Nat) : fld w hi lo ≤ fld (satFld w hi lo k) hi lo := by
  rw [fld_satFld w h]
  have := fld_lt w hi lo
  omega

theorem rfld_rcount_same (off k : Nat) {hi lo : Nat} (h : hi < 32) (s : State) :
    rfld (rcount off hi lo k s) off hi lo = min (rfld s off hi lo + k) (2 ^ (hi + 1 - lo) - 1) := by
  simp only [rfld, rcount, rmod, rget_rset_same, fld_satFld _ h]

/-! ## The pre-checks, the comparators and the advance of GSC are books -/

theorem noise_addEvent (e : GEvent) (s : State) : Noise s (addEvent e s) := .ite (.refl s) (noise_seq s)

/-- The mode of a pre-check is noted at its sluice. -/
theorem noise_modeAt (q : Nat) (m : List (Nat × Option Bool)) (s : State) : Noise s (setSlu q { getSlu s q with modeAt := m } s) := by
  refine ⟨?_, fun _ h => h⟩
  have hslu : (fun x => { getSlu (setSlu q { getSlu s q with modeAt := m } s) x with modeAt := [] }) =
      fun x => { getSlu s x with modeAt := [] } := by
    funext x
    unfold getSlu setSlu
    dsimp only
    rw [mget_mset]
    split_ifs with hx
    · subst hx; rfl
    · rfl
  unfold quiet
  rw [hslu]
  rfl

/-- A late reply counts in HLD_SLU_CNT[15:0]; REFUSED stands. -/
theorem noise_lateCount {q : Nat} (hq : q < 128) (k : Nat) (s : State) : Noise s (rcount (oHldSluCnt q) 15 0 k s) := by
  have hoff : 0xE1200 ≤ oHldSluCnt q ∧ oHldSluCnt q < 0xE1400 := by unfold oHldSluCnt; omega
  have hregs : quietReg (rcount (oHldSluCnt q) 15 0 k s) = quietReg s := by
    funext off
    by_cases h : off = oHldSluCnt q
    · subst h
      unfold quietReg
      have hlow : ¬ bookReg (oHldSluCnt q) := fun h => absurd h.1 (by omega)
      rw [if_neg hlow, if_neg hlow, if_pos hoff, if_pos hoff, rcount, rmod, rget_rset_same, satFld,
        fld_setFld_apart _ (by decide) (.inr (by decide))]
    · unfold quietReg rcount rmod
      rw [rget_rset_other _ _ _ _ h]
  refine ⟨?_, fun i hi => (rbit_rset_other (by unfold oHldSluCnt oSafSts; omega) _ s i).trans hi⟩
  unfold quiet
  rw [hregs]
  rfl

theorem nBasins_le (s : State) : nBasins s ≤ 32 := by
  unfold nBasins memBasins
  split <;> decide

/-- The sluices of the basins that run are sluices of the member. -/
theorem sluice_of_run {s : State} {q : Nat} (h : q ∈ (runBasins s).flatMap fun b => (List.range 4).map (4 * b + ·)) : q < 128 := by
  obtain ⟨b, hb, hq⟩ := List.mem_flatMap.1 h
  obtain ⟨i, hi, rfl⟩ := List.mem_map.1 hq
  have h1 := List.mem_range.1 (List.mem_filter.1 hb).1
  have h2 := List.mem_range.1 hi
  have := nBasins_le s
  omega

theorem Noise.foldl_mem {β : Type} {f : State → β → State} (l : List β) (hf : ∀ s, ∀ x ∈ l, Noise s (f s x)) (s : State) : Noise s (l.foldl f s) := by
  induction l generalizing s with
  | nil => exact .refl s
  | cons a t ih => exact (hf s a (by simp)).trans (ih (fun s x hx => hf s x (by simp [hx])) _)

theorem noise_sluicePrecheck (f p : Nat) (s : State) : Noise s (sluicePrecheck f p s) := by
  refine .foldl_mem _ (fun u q hq => .foldl (fun v t => ?_) _ _) s
  have noted := noise_modeAt q (mset none (getSlu v q).modeAt (waitKey f p t) (some v.seq.mode)) v
  have counted := noted.trans (noise_lateCount (sluice_of_run hq) 1 _)
  exact .ite (.refl v) (.ite noted (.ite counted ((counted.trans (noise_addEvent _ _)).trans (noise_sendExpress ..))))

theorem noise_preRet (s : State) (l : List (Nat × Nat × Bool)) : Noise s { s with seq := { s.seq with preRet := l } } := noise_seq s

theorem noise_returnPrecheck (n g : Nat) (s : State) : Noise s (returnPrecheck n g s) :=
  .ite (.refl s) (.ite (((noise_preRet s _).trans (noise_addEvent _ _)).trans (noise_sendExpress ..)) (noise_preRet s _))

theorem noise_lateReturn (s0 s : State) : Noise s (lateReturn s0 s) := by
  unfold lateReturn
  split
  · exact .ite (noise_returnPrecheck ..) (.refl s)
  · exact .refl s

theorem noise_prechecks (s0 s : State) : Noise s (prechecks s0 s) := by
  have late (c : Prop) [Decidable c] : Noise s (if c then lateReturn s0 s else s) := .ite (noise_lateReturn s0 s) (.refl s)
  unfold prechecks
  dsimp only
  split
  · exact .ite ((late _).trans (noise_sluicePrecheck ..)) (late _)
  · exact .ite ((late _).trans (noise_returnPrecheck ..)) (late _)

theorem noise_dacScan (s0 s : State) : Noise s (dacScan s0 s) := noise_trc s

theorem noise_ringSend (dst : Nat) (m : RingMsg) (s : State) : Noise s (ringSend dst m s) := .ite (.refl s) (noise_grp s _)
theorem noise_ringSendAll (m : RingMsg) (s : State) : Noise s (ringSendAll m s) := .foldl (fun s d => noise_ringSend d m s) _ s

theorem noise_setBound (s : State) : Noise s (setBound s) :=
  .ite ((noise_rput (by decide) (by decide) ..).trans (noise_ringSendAll ..)) (.refl s)

theorem noise_restoreStep (s : State) : Noise s (restoreStep s) := by
  have raised : Noise s { s with seq := { s.seq with restore := decide (s.seq.ratio + 1 < 16), ratio := min 16 (s.seq.ratio + 1) } } := noise_seq s
  have full (u : State) : Noise u (rput oCkgStep 9 9 0 { u with seq := { u.seq with emerg := false } }) :=
    (noise_seq u).trans (noise_rput (by decide) (by decide) ..)
  unfold restoreStep
  exact (Noise.ite (c := ({ s with seq := { s.seq with restore := decide (s.seq.ratio + 1 < 16), ratio := min 16 (s.seq.ratio + 1) } } : State).seq.restore = true)
    raised (raised.trans (full _))).trans (noise_setBound _)

/-- GSC one step further. -/
def bumped (q : SeqState) : SeqState := { q with gsc := q.gsc + 1 }

/-- GSC advances, and beside it only the books change. -/
theorem noise_bumpGsc (s : State) : Noise { s with seq := bumped s.seq } (bumpGsc s) := by
  have cycled : Noise { s with seq := bumped s.seq } { s with seq := bumped s.seq, dmc := { s.dmc with cycle := s.dmc.cycle + 1 } } :=
    noise_cycle { s with seq := bumped s.seq } _
  exact .ite (cycled.trans (noise_restoreStep _)) cycled

theorem noise_carryTaint (s : State) : Noise s (carryTaint s) := .ite (noise_taintFrame _ s) (.refl s)

end Sys2Proof.Machine

namespace Sys2Proof.Machine

/-! ## The end of a schedule position (R71, R266) -/

/-- Books and a change of the sequencer that does not look at them. -/
theorem Noise.seqMap {s t : State} (h : Noise s t) (f : SeqState → SeqState) (hf : ∀ q, seqKept (f q) = seqKept (f (seqKept q))) :
    Noise { s with seq := f s.seq } { t with seq := f t.seq } := by
  have hq (u : State) : quiet { u with seq := f u.seq } =
      { quiet u with rest := { (quiet u).rest with seq := seqKept (f (quiet u).rest.seq) } } := by
    unfold quiet
    dsimp only
    rw [← hf]
    rfl
  exact ⟨by rw [hq, hq, h.view], h.safSts⟩

theorem Still.seqMap {s t : State} (h : Still s t) (f : SeqState → SeqState)
    (hf : ∀ q, seqStill (seqKept (f q)) = seqStill (seqKept (f (seqStill (seqKept q))))) :
    Still { s with seq := f s.seq } { t with seq := f t.seq } := by
  have hq (u : State) : still { u with seq := f u.seq } =
      { still u with rest := { (still u).rest with seq := seqStill (seqKept (f (still u).rest.seq)) } } := by
    unfold still quiet stillOf
    dsimp only
    rw [← hf]
    rfl
  exact ⟨by rw [hq, hq, h.view], h.safSts, h.fab⟩

section
variable {s t : State}

theorem quiet_regs (s : State) (off : Nat) : (quiet s).regs off = quietReg s off := by unfold quiet; rfl

theorem quiet_core (h : quiet t = quiet s) : core t = core s := by unfold core; rw [h]

theorem Noise.core (h : Noise s t) : core t = core s := quiet_core h.view
theorem Noise.st (h : Noise s t) : t.seq.st = s.seq.st := st_of_core h.core
theorem Noise.F (h : Noise s t) : t.seq.F = s.seq.F := F_of_core h.core

theorem still_rest_seq (s : State) : (Machine.still s).rest.seq = seqStill (seqKept s.seq) := by unfold Machine.still quiet stillOf; rfl
theorem still_rest_hold (s : State) : (Machine.still s).rest.hold = s.hold := by unfold Machine.still quiet stillOf; rfl
theorem still_rest_mem (s : State) : (Machine.still s).rest.host.mem = s.host.mem := by unfold Machine.still quiet stillOf; rfl
theorem still_rest_lanes (s : State) : (Machine.still s).rest.gau.lanes = s.gau.lanes := by unfold Machine.still quiet stillOf; rfl
theorem still_regs (s : State) (off : Nat) : (Machine.still s).regs off = if off < 0xE0000 then 0 else quietReg s off := by
  unfold Machine.still quiet stillOf; rfl

theorem Still.hold (h : Still s t) : t.hold = s.hold := by rw [← still_rest_hold, h.view, still_rest_hold]
theorem Still.mem (h : Still s t) : t.host.mem = s.host.mem := by rw [← still_rest_mem, h.view, still_rest_mem]
theorem Still.lanes (h : Still s t) : t.gau.lanes = s.gau.lanes := by rw [← still_rest_lanes, h.view, still_rest_lanes]
theorem Still.seq (h : Still s t) : seqStill (seqKept t.seq) = seqStill (seqKept s.seq) := by
  rw [← still_rest_seq, h.view, still_rest_seq]
theorem Still.F (h : Still s t) : t.seq.F = s.seq.F := by simpa [seqKept, seqStill] using congrArg SeqState.F h.seq
theorem Still.pos (h : Still s t) : t.seq.pos = s.seq.pos := by simpa [seqKept, seqStill] using congrArg SeqState.pos h.seq
theorem Still.gsc (h : Still s t) : t.seq.gsc = s.seq.gsc := by simpa [seqKept, seqStill] using congrArg SeqState.gsc h.seq
theorem Still.fltPos (h : Still s t) : t.seq.fltPos = s.seq.fltPos := by simpa [seqKept, seqStill] using congrArg SeqState.fltPos h.seq
theorem Still.lockPos (h : Still s t) : t.seq.lockPos = s.seq.lockPos := by simpa [seqKept, seqStill] using congrArg SeqState.lockPos h.seq

/-- A register from hold memory's block on, but a sluice's counts, holds what it held. -/
theorem Still.reg (h : Still s t) {off : Nat} (ho : 0xE0000 ≤ off) (hs : off < 0xE1200 ∨ 0xE1400 ≤ off) : rget t off = rget s off := by
  have e := congrFun (congrArg Quiet.regs h.view) off
  rw [still_regs, still_regs, if_neg (by omega), if_neg (by omega)] at e
  have hb : ¬ bookReg off := fun hb => absurd hb.1 (by omega)
  unfold quietReg at e
  rw [if_neg hb, if_neg hb, if_neg (by omega), if_neg (by omega)] at e
  exact BitVec.eq_of_toNat_eq e

/-- Of a sluice's counts REFUSED holds what it held. -/
theorem Still.refused (h : Still s t) {q : Nat} (hq : q < 128) : rfld t (oHldSluCnt q) 31 16 = rfld s (oHldSluCnt q) 31 16 := by
  have hoff : 0xE1200 ≤ oHldSluCnt q ∧ oHldSluCnt q < 0xE1400 := by unfold oHldSluCnt; omega
  have e := congrFun (congrArg Quiet.regs h.view) (oHldSluCnt q)
  rw [still_regs, still_regs, if_neg (by omega), if_neg (by omega)] at e
  have hb : ¬ bookReg (oHldSluCnt q) := fun hb => absurd hb.1 (by omega)
  unfold quietReg at e
  rwa [if_neg hb, if_neg hb, if_pos hoff, if_pos hoff] at e

/-- What SAF_CTL says stands. -/
theorem Noise.safCtl (h : Noise s t) : rget t oSafCtl = rget s oSafCtl := by
  have hregs (u : State) : (quiet u).regs oSafCtl = (rget u oSafCtl).toNat := by
    rw [quiet_regs, quietReg, if_neg (by decide), if_neg (by decide)]
  refine BitVec.eq_of_toNat_eq ?_
  rw [← hregs, h.view, hregs]

end

/-! ### Every fault of a step is in SAF_STS -/

theorem mem_insertBy {α : Type} {f : α → Nat} {x a : α} {l : List α} : a ∈ insertBy f x l ↔ a = x ∨ a ∈ l := by
  induction l with
  | nil => simp [insertBy]
  | cons b t ih =>
    unfold insertBy
    split_ifs
    · simp
    · rw [List.mem_cons, ih, List.mem_cons]
      tauto

/-- A list in order has the members it had. -/
theorem mem_sortBy {α : Type} {f : α → Nat} {a : α} {l : List α} : a ∈ sortBy f l ↔ a ∈ l := by
  have h (acc : List α) : a ∈ l.foldl (fun acc x => insertBy f x acc) acc ↔ a ∈ acc ∨ a ∈ l := by
    induction l generalizing acc with
    | nil => simp
    | cons b t ih =>
      rw [List.foldl_cons, ih, mem_insertBy, List.mem_cons]
      tauto
  simpa [sortBy] using h []

theorem rbit_rflag_same (off : Nat) {i : Nat} (hi : i < 32) (s : State) : rbit (rflag off i s) off i = true := by
  unfold rbit rflag rmod
  rw [rget_rset_same, bit_setBit _ hi]
  simp

theorem logFault_flag {r : Report} (hr : r.code / 4096 < 32) (s : State) : rbit (logFault r s) oSafSts (r.code / 4096) = true :=
  (noise_afterFlag _ r s).safSts _ (rbit_rflag_same _ hr _)

theorem logAll_flag {acts : List (Report × Nat)} {a : Report × Nat} (ha : a ∈ acts) (hr : a.1.code / 4096 < 32) (s : State) :
    rbit (logAll acts s) oSafSts (a.1.code / 4096) = true := by
  induction acts generalizing s with
  | nil => cases ha
  | cons b t ih =>
    rcases List.mem_cons.1 ha with rfl | ha
    · exact (noise_logAll t _).safSts _ (logFault_flag hr s)
    · exact ih ha _

/-- The class of each fault is flagged. -/
theorem raiseFirst_flags {acts : List (Report × Nat)} (h : noClockLoss acts) {a : Report × Nat} (ha : a ∈ acts) (hr : a.1.code / 4096 < 32) (s : State) :
    rbit (raiseFirst acts s) oSafSts (a.1.code / 4096) = true :=
  (noise_afterLog h s).safSts _ (logAll_flag ha hr s)

/-- The code a fault is logged under: hard contention by HC_DESIGN in the design class (R264). -/
def namedCode (s : State) (r : Report) : Nat := if r.inj then r.code else designCode s r.code

theorem reportActs_named {s : State} {rs : List Report} {r : Report} (hr : r ∈ rs) : ∃ a ∈ reportActs s rs, a.1.code = namedCode s r := by
  refine ⟨_, List.mem_map.2 ⟨if r.inj then r else { r with code := designCode s r.code }, ?_, rfl⟩, ?_⟩
  · exact mem_sortBy.2 (List.mem_map.2 ⟨r, hr, rfl⟩)
  · unfold namedCode
    split_ifs <;> rfl

theorem reportActs_of {s : State} {rs : List Report} {a : Report × Nat} (ha : a ∈ reportActs s rs) :
    ∃ r ∈ rs, a.1 = if r.inj then r else { r with code := designCode s r.code } := by
  obtain ⟨x, hx, rfl⟩ := List.mem_map.1 ha
  obtain ⟨r, hr, rfl⟩ := List.mem_map.1 (mem_sortBy.1 hx)
  exact ⟨r, hr, rfl⟩

theorem noClockLoss_reports {s : State} {rs : List Report} (h : ∀ r ∈ rs, r.code ≠ 0x9001) : noClockLoss (reportActs s rs) := by
  intro a ha
  obtain ⟨r, hr, e⟩ := reportActs_of ha
  rw [e]
  split_ifs
  · exact h r hr
  · simp only [designCode]
    split_ifs
    · decide
    · exact h r hr

/-- The next schedule position. -/
def moved (pos spos : Nat) (q : SeqState) : SeqState := { q with pos := pos, spos := spos, voided := false }

/-- The sequencer's coordinates one schedule position further. -/
def stepped (q : SeqState) : SeqState := bumped (moved (q.pos + 1) (q.spos + 1) q)

theorem advancePos_eq (rs : List Report) (s : State) : advancePos rs s = bumpGsc (raiseLast (reportActs s rs)
    { raiseFirst (reportActs s rs) s with seq := moved (s.seq.pos + 1) (s.seq.spos + 1) (raiseFirst (reportActs s rs) s).seq }) := rfl

/-- What the end of a schedule position does (R71, R266): the coordinates advance by one, and beside it only books change, or the device enters
safe state; each fault's class is flagged. -/
structure PosOver (rs : List Report) (y u : State) : Prop where
  still : Still { y with seq := stepped y.seq } u
  cases : u.seq.st = .safe ∨ Noise { y with seq := stepped y.seq } u
  flags : ∀ r ∈ rs, namedCode y r / 4096 < 32 → rbit u oSafSts (namedCode y r / 4096) = true

theorem namedCode_noise {y z : State} (h : Noise y z) (r : Report) : namedCode z r = namedCode y r := by
  have hb : rbit z oSafCtl 0 = rbit y oSafCtl 0 := by unfold rbit; rw [h.safCtl]
  unfold namedCode designCode
  rw [hb]

theorem advancePos_spec {rs : List Report} (hrs : ∀ r ∈ rs, r.code ≠ 0x9001) {y z : State} (hyz : Noise y z) : PosOver rs y (advancePos rs z) := by
  have hloss := noClockLoss_reports (s := z) hrs
  rw [advancePos_eq]
  generalize hacts : reportActs z rs = acts at hloss ⊢
  have h1 : Noise y (raiseFirst acts z) := hyz.trans (noise_raiseFirst hloss z)
  have hflags (r : Report) (hr : r ∈ rs) (hlt : namedCode y r / 4096 < 32) : rbit (raiseFirst acts z) oSafSts (namedCode y r / 4096) = true := by
    obtain ⟨a, ha, ea⟩ := reportActs_named (s := z) hr
    rw [namedCode_noise hyz] at ea
    rw [← ea] at hlt ⊢
    exact raiseFirst_flags hloss (hacts ▸ ha) hlt z
  rw [pos_of_core hyz.core, spos_of_core hyz.core]
  generalize raiseFirst acts z = t1 at h1 hflags ⊢
  have h2 := h1.seqMap (moved (y.seq.pos + 1) (y.seq.spos + 1)) fun _ => rfl
  have hreg (o i : Nat) : rbit { t1 with seq := moved (y.seq.pos + 1) (y.seq.spos + 1) t1.seq } o i = rbit t1 o i := rfl
  generalize ({ t1 with seq := moved (y.seq.pos + 1) (y.seq.spos + 1) t1.seq } : State) = t2 at h2 hreg ⊢
  have h3 := still_raiseLast acts t2
  have hc := raiseLast_cases acts t2
  generalize raiseLast acts t2 = t3 at h3 hc ⊢
  have hb := noise_bumpGsc t3
  refine ⟨((h2.still.trans h3).seqMap bumped fun _ => rfl).trans hb.still, ?_, fun r hr hlt => ?_⟩
  · rcases hc with hc | hc
    · exact .inl (hb.st.trans hc)
    · exact .inr (((h2.trans hc).seqMap bumped fun _ => rfl).trans hb)
  · refine hb.safSts _ (h3.safSts _ ?_)
    rw [hreg]
    exact hflags r hr hlt

end Sys2Proof.Machine

namespace Sys2Proof.Machine

/-! ## The steps of the sequencer, where no group-wide event is due -/

section
variable {s : State}

theorem applyEvents_none (h : noneDue s) : applyEvents s = s := by
  unfold applyEvents
  dsimp only
  rw [if_pos h]

theorem seqStep_ready {ready : State → Bool} (body : State → State) (hr : ready s = true) (h : noneDue s) : seqStep ready body s = body s := by
  unfold seqStep
  simp [hr, applyEvents_none h]

theorem seqStep_stands {ready : State → Bool} (body : State → State) (hr : ready s = false) : seqStep ready body s = s := by
  unfold seqStep
  simp [hr]

variable (hclk : stepClock s = true) (hnone : noneDue s)
include hclk hnone

theorem leadsTo_evaluation (hst : s.seq.st = .flight) (hpos : s.seq.pos < rfld s oSeqCfg 10 0) (hs : List Happening) :
    leadsTo (.evaluationStep hs) s (evalBody hs s) := by
  refine leadsTo_settled (congrArg settled (seqStep_ready (evalBody hs) ?_ hnone) :)
  simp [evalReady, hclk, hst, frameL, hpos]

theorem leadsTo_firstTick (hst : s.seq.st = .flight) (hpos : s.seq.pos = rfld s oSeqCfg 10 0) (hs : List Happening) :
    leadsTo (.firstTickStep hs) s (firstBody hs s) := by
  refine leadsTo_settled (congrArg settled (seqStep_ready (firstBody hs) ?_ hnone) :)
  simp [firstReady, hclk, hst, frameL, hpos]

theorem leadsTo_secondTick (hst : s.seq.st = .flight) (hpos : s.seq.pos = rfld s oSeqCfg 10 0 + 1) (hs : List Happening) :
    leadsTo (.secondTickStep hs) s (secondBody hs s) := by
  refine leadsTo_settled (congrArg settled (seqStep_ready (secondBody hs) ?_ hnone) :)
  simp [secondReady, hclk, hst, frameL, hpos]

theorem leadsTo_lockPhase (hst : s.seq.st = .lock) (hs : List Happening) : leadsTo (.lockPhaseStep hs) s (lockBody hs s) := by
  refine leadsTo_settled (congrArg settled (seqStep_ready (lockBody hs) ?_ hnone) :)
  simp [lockReady, hclk, hst]

end

/-- While the step clock does not run nothing happens. -/
theorem leadsTo_clockless {s : State} (h : stepClock s = false) (hs : List Happening) :
    leadsTo (.evaluationStep hs) s s ∧ leadsTo (.firstTickStep hs) s s ∧ leadsTo (.secondTickStep hs) s s ∧ leadsTo (.lockPhaseStep hs) s s :=
  ⟨leadsTo_settled (congrArg settled (seqStep_stands (s := s) (ready := evalReady) (evalBody hs) (by simp [evalReady, h])) :),
    leadsTo_settled (congrArg settled (seqStep_stands (s := s) (ready := firstReady) (firstBody hs) (by simp [firstReady, h])) :),
    leadsTo_settled (congrArg settled (seqStep_stands (s := s) (ready := secondReady) (secondBody hs) (by simp [secondReady, h])) :),
    leadsTo_settled (congrArg settled (seqStep_stands (s := s) (ready := lockReady) (lockBody hs) (by simp [lockReady, h])) :)⟩

/-! ## The evaluation step -/

/-- What an evaluation step has done before its faults are taken: stores and ports, then the reach network, then the memory ports. -/
def evalWork (hs : List Happening) (s0 : State) : State × List Report :=
  andThen (memPorts s0) (andThen (reachStep s0) (fabricStep s0 hs s0.seq.pos s0))

/-- What the reach network and the memory ports write. -/
def transitTouch (cls : List Nat) : Touch → Prop := fun τ => ((∃ cl ∈ cls, reachTouch cl τ) ∨ linkTouch τ) ∨ memTouch cls τ

section
variable (hs : List Happening) (s0 : State)

/-- From the fabric's step to the faults of an evaluation step. -/
theorem work_transit : Work (transitTouch (runClusters s0)) (frameNow s0) (fabricStep s0 hs s0.seq.pos s0) (evalWork hs s0) := by
  have h1 : Work (transitTouch (runClusters s0)) (frameNow s0) (fabricStep s0 hs s0.seq.pos s0)
      (andThen (reachStep s0) (fabricStep s0 hs s0.seq.pos s0)) := .andThen ((work_reachStep _).mono fun _ h => .inl h)
  have hf : frameNow (andThen (reachStep s0) (fabricStep s0 hs s0.seq.pos s0)).1 = frameNow s0 :=
    frameNow_of_core (h1.trail.core.trans (work_fabricStep hs s0.seq.pos s0).trail.core)
  refine h1.trans ?_
  rw [← hf]
  exact .andThen ((work_memPorts _).mono fun _ h => .inr h)

theorem work_eval : Work (fun τ => fabTouch (runClusters s0) τ ∨ transitTouch (runClusters s0) τ) (frameNow s0) (s0, []) (evalWork hs s0) :=
  ((work_fabricStep hs s0.seq.pos s0).mono fun _ h => .inl h).trans ((work_transit hs s0).mono fun _ h => .inr h)

/-- The reports of an operation that began with none. -/
theorem Work.codes {A : Touch → Prop} {f : Option Nat} {s : State} {y : State × List Report} (h : Work A f (s, []) y) :
    ∀ r ∈ y.2, r.code ≠ 0x9001 ∧ r.frame = f := by
  obtain ⟨rs, e, hrs⟩ := h.reps
  rw [e, List.nil_append]
  exact hrs

theorem evalBody_eq (s : State) : evalBody hs s = advancePos (evalWork hs (strikes hs s)).2
    (dacScan (strikes hs s) (prechecks (strikes hs s) (evalWork hs (strikes hs s)).1)) := rfl

/-- The end of an evaluation step. -/
theorem evalBody_over (s : State) : PosOver (evalWork hs (strikes hs s)).2 (evalWork hs (strikes hs s)).1 (evalBody hs s) := by
  rw [evalBody_eq]
  exact advancePos_spec (fun r hr => ((work_eval hs _).codes r hr).1) ((noise_prechecks _ _).trans (noise_dacScan _ _))

end

section
variable {rs : List Report} {s y u : State}

/-- A schedule position over advances the coordinates, and leaves hold memory and the host's memory. -/
theorem PosOver.coords (h : PosOver rs y u) (hc : core y = core s) : u.seq.pos = s.seq.pos + 1 ∧ u.seq.gsc = s.seq.gsc + 1 ∧ u.seq.F = s.seq.F ∧
    u.hold.cells = s.hold.cells ∧ u.host.mem = s.host.mem := by
  refine ⟨?_, ?_, ?_, ?_, ?_⟩
  · rw [h.still.pos, ← pos_of_core hc]; rfl
  · rw [h.still.gsc, ← gsc_of_core hc]; rfl
  · rw [h.still.F, ← F_of_core hc]; rfl
  · rw [h.still.hold, ← hold_of_core hc]
  · rw [h.still.mem, ← mem_of_core hc]

end

end Sys2Proof.Machine

namespace Sys2Proof.Machine

/-! ## The tick steps' work on the fabric and the trace -/

/-- What trace, slip check and scrub write in a tick step: no lane, no basin lane, no link, no sluice. -/
def tickTouch : Touch → Prop
  | .clu _ R => R = scrubbed
  | .trc | .exports | .reg _ | .flag _ | .count .. | .books => True
  | _ => False

/-- What a scrub writes: the error state of a cluster's words, and its basin's registers. -/
def scrubTouch : Touch → Prop
  | .clu _ R => R = scrubbed
  | .flag off | .count off .. => 0x100000 ≤ off
  | _ => False

section
variable {s0 : State}

theorem trail_applyUnseal (s : State) : Trail tickTouch s (applyUnseal s) := by
  refine Trail.trans (.foldl _ (fun u k _ => ?_) s) (.one .trc trivial ⟨_, rfl⟩)
  split
  · exact .foldl _ (fun v cl _ => trail_rset _ _ v trivial) u
  · exact .refl u

theorem trail_setTrcSt (n : Nat) (s : State) : Trail tickTouch s (setTrcSt n s) := trail_rset _ _ s trivial
theorem trail_capture (s : State) : Trail tickTouch s (capture s) := .one .trc trivial ⟨_, rfl⟩

theorem trail_trcPost (s : State) (n : Nat) : Trail tickTouch s { s with trc := { s.trc with post := n } } := .one .trc trivial ⟨_, rfl⟩
theorem trail_trcFlushed (s : State) : Trail tickTouch s { s with trc := { s.trc with flushed := true } } := .one .trc trivial ⟨_, rfl⟩

theorem trail_onStep (s : State) : Trail tickTouch s (onStep s) :=
  (trail_setTrcSt 2 s).trans (.ite (((trail_setTrcSt 3 _).trans (trail_trcPost _ _)).trans (trail_capture _)) (trail_capture _))

theorem trail_postStep (s : State) : Trail tickTouch s (postStep s) :=
  .ite (((trail_noise (noise_stageMarker ..) trivial).trans (trail_setTrcSt 4 _)).trans (trail_trcFlushed _))
    ((trail_trcPost s _).trans (trail_capture _))

theorem trail_traceFirstTick (s : State) : Trail tickTouch s (traceFirstTick s) := by
  have armed (u : State) : Trail tickTouch u (match trcSt u with
      | 1 => if rget u oTrcStart = 0#32 || trcFires u oTrcStart then onStep u else u
      | 2 => onStep u
      | 3 => postStep u
      | _ => u) := by
    split
    · exact .ite (trail_onStep u) (.refl u)
    · exact trail_onStep u
    · exact trail_postStep u
    · exact .refl u
  exact .ite (.refl s) (((trail_applyUnseal s).trans (.ite (trail_rflag _ _ _ trivial) (.refl _))).trans (armed _))

theorem work_scrubOne (h : Happening) (s : State) : Work scrubTouch (frameNow s) (s, []) (scrubOne h s) := by
  have words (cl : Nat) (i r : List (Nat × Ecc)) : Trail scrubTouch s (setCl cl { getCl s cl with iEcc := i, rwEcc := r } s) :=
    trail_setCl (R := scrubbed) _ _ ⟨i, r, rfl⟩ rfl
  have cstat (cl i : Nat) (u : State) : Trail scrubTouch u (rflag (cStat cl) i u) := trail_rflag _ _ _ (by unfold scrubTouch cStat oCluStat; omega)
  have cecc (cl hi lo k : Nat) (u : State) : Trail scrubTouch u (rcount (cEcc cl) hi lo k u) :=
    trail_rcount _ _ _ _ _ (by unfold scrubTouch cEcc oCluEcc; omega)
  have sts (b i : Nat) (u : State) : Trail scrubTouch u (rflag (oBasReachSts b) i u) := trail_rflag _ _ _ (by unfold scrubTouch oBasReachSts; omega)
  have ecc (b hi lo k : Nat) (u : State) : Trail scrubTouch u (rcount (oBasRwEcc b) hi lo k u) :=
    trail_rcount _ _ _ _ _ (by unfold scrubTouch oBasRwEcc; omega)
  cases h with
  | scrubInstr cl ph w =>
    simp only [scrubOne]
    refine .ite (.refl _) ?_
    split
    · exact .one (((words cl _ _).trans (cecc _ _ _ _ _)).trans (cstat _ _ _)) (by simp)
    · exact .one (cstat _ _ _) (by simp)
    · exact .one (cstat _ _ _) (by simp)
    · exact .refl _
  | scrubRoute cl w =>
    simp only [scrubOne]
    have fixed : Trail scrubTouch s (rcount (oBasRwEcc (cl / 64)) 15 0 (routeSingles (getCl s cl) w)
        (setCl cl { getCl s cl with rwEcc := fixQuarters w (getCl s cl).rwEcc } s)) := (words cl _ _).trans (ecc _ _ _ _ _)
    refine .ite (.refl _) (.ite (.one ((fixed.trans (ecc _ _ _ _ _)).trans (sts _ _ _)) fun r hr => ?_) (.one fixed fun r hr => ?_))
    · rcases List.mem_append.1 hr with hr | hr
      · split_ifs at hr <;> simp_all
      · simp_all
    · split_ifs at hr <;> simp_all
  | _ => exact .refl _

/-- Work under the frame of the state it starts in, event by event. -/
theorem Work.foldl_frame {A : Touch → Prop} {β : Type} {g : State × List Report → β → State × List Report} (l : List β)
    (hg : ∀ x, ∀ b ∈ l, Work A (frameNow x.1) x (g x b)) (x : State × List Report) : Work A (frameNow x.1) x (l.foldl g x) := by
  induction l generalizing x with
  | nil => exact .refl x
  | cons a t ih =>
    have h1 := hg x a (by simp)
    have h2 := ih (fun x b hb => hg x b (by simp [hb])) (g x a)
    rw [frameNow_of_core h1.trail.core] at h2
    exact h1.trans h2

theorem scrubs_work (hs : List Happening) (x : State × List Report) : Work scrubTouch (frameNow x.1) x (scrubs hs x) :=
  .foldl_frame hs (fun y h _ => .andThen (work_scrubOne h y.1)) x

theorem work_scrubs (hs : List Happening) (x : State × List Report) : Work tickTouch (frameNow x.1) x (scrubs hs x) :=
  (scrubs_work hs x).mono fun τ hτ => by
    cases τ with
    | clu cl R => exact hτ
    | flag | count => trivial
    | _ => exact absurd hτ id

theorem work_slipCheck (hs : List Happening) (s : State) : Work tickTouch (frameNow s0) (s, []) (slipCheck s0 hs s) := by
  refine .one (.ite (.refl s) (trail_rflag _ _ _ trivial)) fun r hr => ?_
  obtain ⟨b, -, rfl⟩ := List.mem_map.1 hr
  simp

/-! ### The commit, and the gauge lanes -/

theorem trail_commitAll (s : State) : Trail (fun τ => ∃ cl ∈ runClusters s0, cluTouch cl τ) s (commitAll s0 s) :=
  .foldl _ (fun _ cl hcl => trail_setCl (R := anyhow) _ _ trivial ⟨cl, hcl, rfl⟩) s

/-- What sampling and committing write: lanes and free values. -/
def sampleTouch : Touch → Prop
  | .lane _ | .free => True
  | _ => False

theorem trail_takeFreeBit (s : State) : Trail sampleTouch s (takeFreeBit s).2 := .one .free trivial ⟨s.freeCtr + 1, rfl⟩

theorem trail_zdSample (p : PinIn) (s : State) : Trail sampleTouch s (zdSample p s).2 := by
  cases p with
  | high | low => exact .refl s
  | none | changing => exact trail_takeFreeBit s

/-- The high-Z-detect input of a lane sampled, where the lane has one. -/
def zdOf (hs : List Happening) (zd : Option Nat) (s : State) : Bool × State :=
  match zd with
  | some z => zdSample (zdAt hs z) s
  | none => (false, s)

theorem trail_zdOf (hs : List Happening) (zd : Option Nat) (s : State) : Trail sampleTouch s (zdOf hs zd s).2 := by
  cases zd with
  | none => exact .refl s
  | some z => exact trail_zdSample _ s

theorem trail_laneFirstTick (hs : List Happening) (n : Nat) (s : State) : Trail sampleTouch s (laneFirstTick hs s0 n s) := by
  have lane (x : Lane) (u : State) : Trail sampleTouch u (setLane n x u) := .one (.lane n) trivial ⟨x, rfl⟩
  unfold laneFirstTick
  extract_lets l mode last l1 s1 level
  refine .ite (lane _ s) ?_
  clear_value level last l1
  split
  next z s2 hz =>
  have paired := trail_zdOf hs (laneZd s0 n) s
  rw [show zdOf hs (laneZd s0 n) s = (z, s2) from hz] at paired
  split
  · exact paired.trans (lane _ _)
  · exact (paired.trans (trail_takeFreeBit _)).trans (lane _ _)

/-- The lanes of a first tick step, one after another. -/
def sampleLanes (hs : List Happening) (s0 : State) (s : State) : State := (tickLanes hs s0).foldl (fun s n => laneFirstTick hs s0 n s) s

theorem trail_sampleLanes (hs : List Happening) (s : State) : Trail sampleTouch s (sampleLanes hs s0 s) :=
  .foldl _ (fun u n _ => trail_laneFirstTick hs n u) s

def gaugeTouch : Touch → Prop
  | .lane _ | .free | .gau => True
  | _ => False

theorem trail_gaugeFirstTick (hs : List Happening) (s : State) : Trail gaugeTouch s (gaugeFirstTick hs s0 s) :=
  .ite (.refl s) (((trail_sampleLanes hs s).mono fun τ hτ => by cases τ <;> trivial).trans (.one .gau trivial ⟨_, rfl⟩))

end

end Sys2Proof.Machine

namespace Sys2Proof.Machine

/-! ## The first tick step -/

section
variable (hs : List Happening) (s0 : State)

/-- The first tick step up to the gauge unit's sampling. -/
def firstCommit : State × List Report := andThen (memPorts s0) (andThen (reachStep s0) (commitAll s0 s0, []))

/-- The state in which the last exports have gone. -/
def firstSampled : State := gaugeFirstTick hs s0 (firstCommit s0).1
def firstCleared : State := clearExports (traceFirstTick (dacScan s0 (firstSampled hs s0)))

/-- A first tick step before its faults are taken. -/
def firstWork : State × List Report := scrubs hs (andThen (slipCheck s0 hs) (firstCleared hs s0, (firstCommit s0).2))

def commitTouch (cls : List Nat) : Touch → Prop := fun τ => (∃ cl ∈ cls, cluTouch cl τ) ∨ transitTouch cls τ

/-- The reach network, then the memory ports, on what came before. -/
theorem work_reachMem {x : State × List Report} (hx : frameNow x.1 = frameNow s0) :
    Work (transitTouch (runClusters s0)) (frameNow s0) x (andThen (memPorts s0) (andThen (reachStep s0) x)) := by
  have h1 : Work (transitTouch (runClusters s0)) (frameNow s0) x (andThen (reachStep s0) x) := .andThen ((work_reachStep _).mono fun _ h => .inl h)
  have hf : frameNow (andThen (reachStep s0) x).1 = frameNow s0 := (frameNow_of_core h1.trail.core).trans hx
  refine h1.trans ?_
  rw [← hf]
  exact .andThen ((work_memPorts _).mono fun _ h => .inr h)

theorem work_firstReach : Work (transitTouch (runClusters s0)) (frameNow s0) (commitAll s0 s0, []) (firstCommit s0) :=
  work_reachMem s0 (frameNow_of_core (trail_commitAll s0).core)

theorem work_firstCommit : Work (commitTouch (runClusters s0)) (frameNow s0) (s0, []) (firstCommit s0) :=
  (Work.quiet ((trail_commitAll s0).mono fun _ h => .inl h)).trans ((work_firstReach s0).mono fun _ h => .inr h)

/-- From the sampling to the end of the exports. -/
theorem trail_firstCleared : Trail tickTouch (firstSampled hs s0) (firstCleared hs s0) :=
  ((trail_noise (noise_dacScan ..) trivial).trans (trail_traceFirstTick _)).trans (.one .exports trivial rfl)

theorem firstCleared_core : core (firstCleared hs s0) = core s0 :=
  (trail_firstCleared hs s0).core.trans ((trail_gaugeFirstTick hs _).core.trans (work_firstCommit s0).trail.core)

/-- From the end of the exports to the faults. -/
theorem work_firstTail : Work tickTouch (frameNow s0) (firstCleared hs s0, (firstCommit s0).2) (firstWork hs s0) := by
  have h1 : Work tickTouch (frameNow s0) (firstCleared hs s0, (firstCommit s0).2)
      (andThen (slipCheck s0 hs) (firstCleared hs s0, (firstCommit s0).2)) := .andThen (work_slipCheck hs _)
  have h2 := work_scrubs hs (andThen (slipCheck s0 hs) (firstCleared hs s0, (firstCommit s0).2))
  rw [frameNow_of_core (h1.trail.core.trans (firstCleared_core hs s0))] at h2
  exact h1.trans h2

theorem firstWork_core : core (firstWork hs s0).1 = core s0 := (work_firstTail hs s0).trail.core.trans (firstCleared_core hs s0)

theorem firstWork_codes : ∀ r ∈ (firstWork hs s0).2, r.code ≠ 0x9001 := by
  intro r hr
  obtain ⟨rs, e, hrs⟩ := (work_firstTail hs s0).reps
  rw [e] at hr
  rcases List.mem_append.1 hr with hr | hr
  · exact ((work_firstCommit s0).codes r hr).1
  · exact (hrs r hr).1

/-- The end of a first tick step. -/
theorem firstBody_over (s : State) : PosOver (firstWork hs (strikes hs s)).2 (firstWork hs (strikes hs s)).1 (firstBody hs s) :=
  advancePos_spec (firstWork_codes hs _) (noise_prechecks _ _)

end

/-! ## What the coordinates and the memories show -/

/-- The coordinates that count steps and frames, hold memory and the host's memory. -/
structure Face where
  gsc : BitVec 64
  F : BitVec 48
  hold : List (Nat × Byte)
  mem : List (Nat × Byte)

def face (s : State) : Face := ⟨s.seq.gsc, s.seq.F, s.hold.cells, s.host.mem⟩

section
variable {s t : State}

theorem face_of_core (h : core t = core s) : face t = face s := by
  unfold face
  rw [gsc_of_core h, F_of_core h, hold_of_core h, mem_of_core h]

theorem Noise.face (h : Noise s t) : face t = face s := face_of_core h.core

theorem Still.face (h : Still s t) : face t = face s := by
  unfold Machine.face
  rw [h.gsc, h.F, h.hold, h.mem]

theorem lockPos_of_core (h : core t = core s) : t.seq.lockPos = s.seq.lockPos := by
  simpa [seqKept] using congrArg SeqState.lockPos (seqKept_of_core h)

end

/-! ## The second tick step -/

/-- What the gauge unit's verdicts write: its own registers, its records, books. -/
def verdictTouch : Touch → Prop
  | .gau | .books => True
  | .reg off | .flag off | .count off .. => 0xD0000 ≤ off
  | _ => False

/-- What the trace unit's second tick writes. -/
def recordTouch : Touch → Prop
  | .trc | .books => True
  | _ => False

section
variable {s0 : State}

theorem trail_laneDrive (n : Nat) (s : State) : Trail sampleTouch s (laneDrive s0 n s) := by
  have lane (x : Lane) : Trail sampleTouch s (setLane n x s) := .one (.lane n) trivial ⟨x, rfl⟩
  unfold laneDrive
  dsimp only
  split
  · exact lane _
  · exact lane _
  · exact lane _
  · exact .refl s

theorem trail_gauInt (n : Nat) (s : State) : Trail verdictTouch s (gauInt n s) := by
  have h : Trail verdictTouch s (rset oGauInt (setBit (rget s oGauInt) (16 + n)) s) := trail_rset _ _ s (by decide : 0xD0000 ≤ _)
  exact .ite (h.trans (trail_noise (noise_signal ..) trivial)) h

theorem trail_gau (s : State) (g : GauState) : Trail verdictTouch s { s with gau := g } := .one .gau trivial ⟨g, rfl⟩

theorem trail_storeLoss (s : State) : Trail verdictTouch s (storeLoss s) := by
  unfold storeLoss
  split
  · exact .ite (trail_gau s _) (.refl s)
  · exact .refl s

theorem trail_pushFail (r : FailRec) (s : State) : Trail verdictTouch s (pushFail r s) :=
  .ite (.ite ((trail_gau s _).trans (trail_gauInt 1 _)) (trail_gau s _))
    (((trail_rcount (A := verdictTouch) _ _ _ _ s (by decide : 0xD0000 ≤ _)).trans (trail_rflag _ _ _ (by decide : 0xD0000 ≤ _))).trans (trail_gau _ _))

theorem trail_gaugeCompare (f : Nat) (s : State) : Trail verdictTouch s (gaugeCompare s0 f s) :=
  (trail_gau s _).trans (.foldl _ (fun u _ _ => .ite ((trail_storeLoss u).trans (trail_pushFail _ _)) (.refl u)) _)

theorem trail_releaseVerdict (v : Verdict) (s : State) : Trail verdictTouch s (releaseVerdict v s) := by
  have reg (off : Nat) (h : 0xD0000 ≤ off) (w : Word) (u : State) : Trail verdictTouch u (rset off w u) := trail_rset _ _ u h
  have told (n i : Nat) (u : State) : Trail verdictTouch u (gauInt n (rflag oGauSts i u)) :=
    (trail_rflag (A := verdictTouch) _ _ u (by decide : 0xD0000 ≤ _)).trans (trail_gauInt n _)
  unfold releaseVerdict
  extract_lets c s1 a b s2 mark
  have h1 : Trail verdictTouch s s1 :=
    (trail_rcount (A := verdictTouch) _ _ _ _ s (by unfold verdictTouch oGauCnt; omega)).trans (reg _ (by decide) _ _)
  have ha : Trail verdictTouch s1 a := .foldl _ (fun u n _ => trail_rcount (A := verdictTouch) _ _ _ _ u (by unfold verdictTouch oGauFcnt; omega)) _
  have hb : Trail verdictTouch s1 b :=
    .ite ha ((((ha.trans (reg _ (by decide) _ _)).trans (reg _ (by decide) _ _)).trans (reg _ (by decide) _ _)).trans (reg _ (by decide) _ _))
  have h2 : Trail verdictTouch s1 s2 := .ite (hb.trans (told 0 0 b)) (.ite (told 3 1 s1) (.ite (told 3 2 s1) (.refl s1)))
  exact (h1.trans h2).trans (trail_gau s2 _)

theorem trail_releaseDue (f : Nat) (s : State) : Trail verdictTouch s (releaseDue f s) :=
  (trail_gau s _).trans (.foldl _ (fun u v _ => trail_releaseVerdict v u) _)

/-- The lanes' drives of a second tick step. -/
def driveLanes (s0 s : State) : State := (gauLanes s0).foldl (fun s n => laneDrive s0 n s) s

theorem trail_driveLanes (s : State) : Trail sampleTouch s (driveLanes s0 s) := .foldl _ (fun u n _ => trail_laneDrive n u) s

/-- The gauge unit's second tick once its lanes are driven. -/
theorem gaugeSecondTick_on (h : gauOn s0 = true) (f : Nat) (s : State) : gaugeSecondTick s0 f s =
    releaseDue f (gaugeCompare s0 f { driveLanes s0 s with gau := { (driveLanes s0 s).gau with live := true } }) := by
  unfold gaugeSecondTick driveLanes
  simp [h]

theorem core_gaugeSecondTick (f : Nat) (s : State) : core (gaugeSecondTick s0 f s) = core s := by
  by_cases h : gauOn s0 = true
  · rw [gaugeSecondTick_on h]
    exact (((trail_driveLanes s).core.symm.trans
      (((trail_gau _ _).trans (trail_gaugeCompare f _)).trans (trail_releaseDue f _)).core.symm).symm)
  · unfold gaugeSecondTick
    simp [h]

/-! ### The trace unit and the links -/

theorem noise_horizonStall (kind : Nat) (s : State) : Noise s (horizonStall kind s) :=
  .ite (.refl s) ((noise_addEvent _ s).trans (noise_sendExpress ..))

theorem trail_trc (s : State) (x : TrcState) : Trail recordTouch s { s with trc := x } := .one .trc trivial ⟨x, rfl⟩

theorem trail_traceVote (s : State) : Trail recordTouch s (traceVote s) :=
  .ite (trail_trc s _) (.ite (trail_noise (((noise_horizonStall 4 s).trans (noise_rflag (by decide) ..)).trans (noise_trcInt ..)) trivial) (.refl s))

theorem trail_stageFrame (f : Nat) (c : TrcCap) (s : State) : Trail recordTouch s (stageFrame f c s) := by
  have lost : Noise s (trcInt 1 (rflag oTrcSts 2 (rcount oTrcLost 31 0 1 s))) :=
    ((noise_rcount (by decide) (by decide) ..).trans (noise_rflag (by decide) ..)).trans (noise_trcInt ..)
  exact .ite (.refl s) (.ite ((trail_noise lost trivial).trans (trail_trc _ _))
    ((trail_noise ((noise_stageLoss s).trans (noise_stagePut ..)) trivial).trans (trail_trc _ _)))

theorem trail_traceSecondTick (f : Nat) (s : State) : Trail recordTouch s (traceSecondTick f s) := by
  unfold traceSecondTick
  refine Trail.trans ?_ (trail_trc _ _)
  split
  · exact .ite ((trail_stageFrame f _ s).trans (trail_traceVote _)) (.refl s)
  · exact .refl s

def linksTouch : Touch → Prop
  | .lnk _ => True
  | _ => False

theorem trail_sendMarkers (f : Nat) (last : Bool) (s : State) : Trail linksTouch s (sendMarkers f last s) := by
  refine .foldl _ (fun u n _ => ?_) s
  unfold sendMarker
  exact .ite (.one (.lnk n) trivial ⟨_, rfl⟩) (.one (.lnk n) trivial ⟨_, rfl⟩)

theorem verdictCode_lt (s : State) (v : Verdict) : verdictCode s v < 4 := by
  unfold verdictCode
  split_ifs <;> omega

end

end Sys2Proof.Machine

namespace Sys2Proof.Machine

section
variable (hs : List Happening) (s0 : State)

theorem work_overrunCheck {A : Touch → Prop} (hA : A .books) (s : State) : Work A (frameNow s) (s, []) (overrunCheck s) := by
  have kept : Noise s (rput oSeqOvrMax 23 0 (min (max (frameL s + 2 + s.seq.frameStall) (rfld s oSeqOvrMax 23 0)) 0xFFFFFF) s) :=
    noise_rput (by decide) (by decide) ..
  exact .ite (.one (trail_noise ((kept.trans (noise_rflag (by decide) ..)).trans (noise_seqInt ..)) hA) (by simp))
    (.one (trail_noise kept hA) (by simp))

/-- A second tick step up to its faults. -/
def secondReach : State × List Report := andThen (memPorts s0) (reachStep s0 s0)
def secondWork : State × List Report := andThen overrunCheck (scrubs hs (secondReach s0))

/-- Its faults, and the state in which they are told. -/
def secondActs : List (Report × Nat) := reportActs (secondWork hs s0).1 (secondWork hs s0).2
def secondTold : State := raiseFirst (secondActs hs s0) (prechecks s0 (dacScan s0 (secondWork hs s0).1))

theorem secondBody_eq (s : State) : secondBody hs s = afterFrame (flightEnds (strikes hs s)) (secondActs hs (strikes hs s))
    (secondActions (strikes hs s) (secondTold hs (strikes hs s))) := rfl

theorem work_secondReach : Work (transitTouch (runClusters s0)) (frameNow s0) (s0, []) (secondReach s0) := by
  have h := work_reachMem s0 (x := (s0, [])) rfl
  have e : andThen (reachStep s0) (s0, []) = reachStep s0 s0 := by
    unfold andThen
    simp
  rwa [e] at h

theorem work_secondWork : Work tickTouch (frameNow s0) (secondReach s0) (secondWork hs s0) := by
  have hf := frameNow_of_core (work_secondReach s0).trail.core
  have h1 := work_scrubs hs (secondReach s0)
  rw [hf] at h1
  refine h1.trans ?_
  rw [← hf, ← frameNow_of_core h1.trail.core]
  exact .andThen (work_overrunCheck trivial _)

theorem secondWork_core : core (secondWork hs s0).1 = core s0 := (work_secondWork hs s0).trail.core.trans (work_secondReach s0).trail.core

theorem secondWork_codes : ∀ r ∈ (secondWork hs s0).2, r.code ≠ 0x9001 ∧ r.frame = frameNow s0 := by
  intro r hr
  obtain ⟨rs, e, hrs⟩ := (work_secondWork hs s0).reps
  rw [e] at hr
  rcases List.mem_append.1 hr with hr | hr
  · exact (work_secondReach s0).codes r hr
  · exact hrs r hr

theorem noise_secondTold : Noise (secondWork hs s0).1 (secondTold hs s0) :=
  ((noise_dacScan _ _).trans (noise_prechecks _ _)).trans (noise_raiseFirst (noClockLoss_reports fun r hr => (secondWork_codes hs s0 r hr).1) _)

theorem secondTold_core : core (secondTold hs s0) = core s0 := (noise_secondTold hs s0).core.trans (secondWork_core hs s0)

end

/-! ### The frame's close, and what follows it -/

section
variable {s0 s : State}

/-- The second tick step's own actions up to the frame's close. -/
def unclosed (s0 s : State) : State :=
  sendMarkers s0.seq.F.toNat (flightEnds s0) (traceSecondTick s0.seq.F.toNat (gaugeSecondTick s0 s0.seq.F.toNat s))

theorem secondActions_eq : secondActions s0 s = closeFrame s0.seq.F.toNat (unclosed s0 s) := rfl

theorem core_unclosed : core (unclosed s0 s) = core s :=
  (trail_sendMarkers _ _ _).core.trans ((trail_traceSecondTick _ _).core.trans (core_gaugeSecondTick _ s))

theorem face_closeFrame (f : Nat) (s : State) : face (closeFrame f s) = { face s with F := s.seq.F + 1 } := rfl
theorem fltPos_closeFrame (f : Nat) (s : State) : (closeFrame f s).seq.fltPos = s.seq.fltPos + 1 := rfl
theorem st_closeFrame (f : Nat) (s : State) : (closeFrame f s).seq.st = s.seq.st := rfl

/-- The sequencer before step 0 of a frame; at the beginning of a lock phase. -/
def framed (spos : Nat) (q : SeqState) : SeqState := { q with pos := 0, spos := spos, frameStall := 0 }
def locked (g : Nat) (thr : List ThrChange) (evs : List GEvent) (q : SeqState) : SeqState :=
  { q with st := .lock, lockPos := 0, lockGsc := g, thrPend := thr, lam := q.len + q.eff, events := evs }

/-- A lock phase begins: books, and the sequencer's own state. -/
theorem noise_beginLock (g : Nat) (s : State) : ∃ thr evs, Noise { s with seq := locked g thr evs s.seq } (beginLock g s) := by
  have told (c : Prop) [Decidable c] : Noise s (if c then lastEvt 7 s.seq.haltSrc g s else s) := .ite (noise_lastEvt ..) (.refl s)
  exact ⟨_, _, (told _).seqMap (locked g _ _) fun _ => rfl⟩

/-- After a second tick step (R73, R266): the step counts, and beside it only books change, or the device enters safe state; the next step is
step 0 of a frame, or of a lock phase where the flight ends. -/
structure FrameOver (ends : Bool) (y u : State) (q : SeqState) : Prop where
  pos : q.pos = 0
  gsc : q.gsc = y.seq.gsc + 1
  same : q.F = y.seq.F ∧ q.fltPos = y.seq.fltPos
  still : Still { y with seq := q } u
  cases : u.seq.st = .safe ∨ Noise { y with seq := q } u ∧ (ends = true → q.st = .lock ∧ q.lockPos = 0) ∧ (ends = false → q.st = y.seq.st)

theorem afterFrame_spec (ends : Bool) (acts : List (Report × Nat)) (y : State) (hst : y.seq.st = .flight) :
    ∃ q, FrameOver ends y (afterFrame ends acts y) q := by
  unfold afterFrame
  generalize hz : ({ y with seq := { y.seq with pos := 0, spos := y.seq.spos + 1, frameStall := 0 } } : State) = z
  have hzq : Noise { y with seq := framed (y.seq.spos + 1) y.seq } z := hz ▸ .refl _
  have h3 := still_raiseLast acts z
  have hc := raiseLast_cases acts z
  dsimp only
  generalize raiseLast acts z = t at h3 hc ⊢
  have hb := noise_bumpGsc t
  generalize bumpGsc t = v at hb ⊢
  have hstill : Still { y with seq := bumped (framed (y.seq.spos + 1) y.seq) } v :=
    ((hzq.still.trans h3).seqMap bumped fun _ => rfl).trans hb.still
  rcases hc with hc | hc
  · have hv : v.seq.st = .safe := hb.st.trans hc
    rw [if_pos (by rw [hv]; decide)]
    exact ⟨bumped (framed (y.seq.spos + 1) y.seq), rfl, rfl, ⟨rfl, rfl⟩, hstill, .inl hv⟩
  · have hn : Noise { y with seq := bumped (framed (y.seq.spos + 1) y.seq) } v := ((hzq.trans hc).seqMap bumped fun _ => rfl).trans hb
    rw [if_neg (by rw [hn.st]; simp [bumped, framed, hst])]
    cases ends with
    | false =>
      have h := hn.trans (noise_carryTaint v)
      rw [if_neg Bool.false_ne_true]
      exact ⟨bumped (framed (y.seq.spos + 1) y.seq), rfl, rfl, ⟨rfl, rfl⟩, h.still, .inr ⟨h, by simp, fun _ => rfl⟩⟩
    | true =>
      obtain ⟨thr, evs, hl⟩ := noise_beginLock v.seq.gsc.toNat v
      have h := (hn.seqMap (locked v.seq.gsc.toNat thr evs) fun _ => rfl).trans hl
      rw [if_pos rfl]
      exact ⟨locked v.seq.gsc.toNat thr evs (bumped (framed (y.seq.spos + 1) y.seq)), rfl, rfl, ⟨rfl, rfl⟩, h.still, .inr ⟨h, fun _ => ⟨rfl, rfl⟩, by simp⟩⟩

end

section
variable (hs : List Happening) {s : State}

/-- A second tick step and what follows it. -/
theorem secondBody_over (hst : s.seq.st = .flight) :
    ∃ q, FrameOver (flightEnds s) (closeFrame s.seq.F.toNat (unclosed (strikes hs s) (secondTold hs (strikes hs s)))) (secondBody hs s) q := by
  have hends : flightEnds (strikes hs s) = flightEnds s := by unfold flightEnds; rw [strikes_seq]
  have hcore := core_unclosed (s0 := strikes hs s) (s := secondTold hs (strikes hs s))
  have hF : (strikes hs s).seq.F = s.seq.F := by rw [strikes_seq]
  rw [secondBody_eq, secondActions_eq, hF, hends]
  refine afterFrame_spec _ _ _ ?_
  rw [st_closeFrame, st_of_core hcore, st_of_core (secondTold_core ..), strikes_seq, hst]

theorem flightEnds_true (h : flightEnds s = true) : s.seq.frames ≤ s.seq.fltPos + 1 ∨ (s.seq.stepf = true ∧ s.seq.left = 1) ∨
    ∃ e, s.seq.halt = some e ∧ e ≤ s.seq.gsc.toNat + 1 := by
  unfold flightEnds at h
  cases hh : s.seq.halt with
  | none => simpa [hh] using h
  | some e => simpa [hh, or_assoc] using h

theorem flightEnds_false (h : flightEnds s = false) : s.seq.fltPos + 1 < s.seq.frames ∧ ¬(s.seq.stepf = true ∧ s.seq.left = 1) ∧
    ∀ e, s.seq.halt = some e → s.seq.gsc.toNat + 1 < e := by
  unfold flightEnds at h
  cases hh : s.seq.halt with
  | none => simpa [hh] using h
  | some e => simpa [hh, and_assoc] using h

theorem secondBody_spec (hst : s.seq.st = .flight) : (secondBody hs s).seq.pos = 0 ∧ (secondBody hs s).seq.fltPos = s.seq.fltPos + 1 ∧
    face (secondBody hs s) = ⟨s.seq.gsc + 1, s.seq.F + 1, (strikes hs s).hold.cells, s.host.mem⟩ ∧
    ((secondBody hs s).seq.st = .safe ∨ (flightEnds s = true ∧ (secondBody hs s).seq.st = .lock ∧ (secondBody hs s).seq.lockPos = 0) ∨
      (flightEnds s = false ∧ (secondBody hs s).seq.st = .flight)) := by
  obtain ⟨q, hq⟩ := secondBody_over hs hst
  have hcore := (core_unclosed (s0 := strikes hs s)).trans (secondTold_core hs (strikes hs s))
  have hface := face_of_core hcore
  generalize unclosed (strikes hs s) (secondTold hs (strikes hs s)) = z at hq hcore hface
  have hfc := face_closeFrame s.seq.F.toNat z
  have hsc := st_closeFrame s.seq.F.toNat z
  have hpc := fltPos_closeFrame s.seq.F.toNat z
  generalize closeFrame s.seq.F.toNat z = y at hq hfc hsc hpc
  have hzst : z.seq.st = .flight := (st_of_core hcore).trans (by rw [strikes_seq, hst])
  refine ⟨hq.still.pos.trans hq.pos, ?_, ?_, ?_⟩
  · rw [hq.still.fltPos]
    show q.fltPos = _
    rw [hq.same.2, hpc, fltPos_of_core hcore, strikes_seq]
  · rw [hq.still.face]
    have hzF : z.seq.F = s.seq.F := (F_of_core hcore).trans (by rw [strikes_seq])
    have hF : y.seq.F = z.seq.F + 1 := congrArg Face.F hfc
    have hg : y.seq.gsc = s.seq.gsc := (congrArg Face.gsc hfc).trans ((congrArg Face.gsc hface).trans (by simp [face]))
    have hh : y.hold.cells = (strikes hs s).hold.cells := (congrArg Face.hold hfc).trans (congrArg Face.hold hface)
    have hm : y.host.mem = s.host.mem := (congrArg Face.mem hfc).trans ((congrArg Face.mem hface).trans (by simp [face]))
    show (⟨q.gsc, q.F, y.hold.cells, y.host.mem⟩ : Face) = _
    rw [hq.gsc, hq.same.1, hF, hzF, hg, hh, hm]
  · rcases hq.cases with hc | ⟨hn, hlock, hflight⟩
    · exact .inl hc
    · cases he : flightEnds s with
      | true =>
        obtain ⟨h1, h2⟩ := hlock he
        exact .inr (.inl ⟨rfl, hn.st.trans h1, (lockPos_of_core hn.core).trans h2⟩)
      | false => exact .inr (.inr ⟨rfl, hn.st.trans ((hflight he).trans (hsc.trans hzst))⟩)

end

end Sys2Proof.Machine

namespace Sys2Proof.Machine

/-! ## The lock-phase step -/

/-- The coordinates and memories, the sequencer's state, and the step of the lock phase. -/
def lockView (s : State) : Face × SeqSt × Nat := (face s, s.seq.st, s.seq.lockPos)

section
variable {s t : State}

theorem lockView_of_core (h : core t = core s) : lockView t = lockView s := by
  unfold lockView
  rw [face_of_core h, st_of_core h, lockPos_of_core h]

theorem Noise.lockView (h : Noise s t) : lockView t = lockView s := lockView_of_core h.core

theorem face_of_lockView (h : Machine.lockView t = Machine.lockView s) : face t = face s := congrArg Prod.fst h
theorem st_of_lockView (h : Machine.lockView t = Machine.lockView s) : t.seq.st = s.seq.st := congrArg (·.2.1) h

end

section
variable (s : State)

theorem lockView_applyThrottle : lockView (applyThrottle s) = lockView s := by
  unfold applyThrottle
  dsimp only
  split
  · split_ifs
    · rfl
    · exact (noise_lastEvt ..).lockView
  · rfl

theorem lockView_closeRecord : lockView (closeRecord s) = lockView s := rfl

theorem lockView_applyConfig : lockView (applyConfig s) = lockView s := by
  unfold applyConfig
  split <;> rfl

theorem lockView_leaveReturn (e : XEntry) : lockView (leaveReturn e s) = lockView s := rfl

theorem lockView_returnDeadline : lockView (returnDeadline s).1 = lockView s := by
  unfold returnDeadline
  split
  · rfl
  · extract_lets due x late reps s1 last s2 wr imp dm w s3
    have h1 : lockView s1 = lockView s := foldl_fix lockView (fun u e => by dsimp only; split_ifs <;> rfl) _ _
    have h2 : lockView s2 = lockView s1 := foldl_fix lockView (fun _ _ => lockView_leaveReturn _ _) _ _
    show lockView (List.foldl _ s3 dm) = _
    refine (foldl_fix lockView ?_ dm s3).trans (h2.trans h1)
    exact fun _ _ => rfl

theorem lockView_returnWindow (k : Nat) : lockView (returnWindow k s) = lockView s := by
  refine foldl_fix lockView (fun u r => ?_) _ s
  dsimp only
  split
  · split_ifs <;> rfl
  · rfl

theorem lockView_dacReturn (g e : Nat) (v : V4) : lockView (dacReturn g e v s) = lockView s := rfl

theorem lockView_returnWindowStep (k : Nat) : lockView (returnWindowStep k s) = lockView s :=
  (foldl_fix lockView (fun _ _ => foldl_fix lockView (fun _ _ => lockView_dacReturn ..) _ _) _ _).trans (lockView_returnWindow s k)

theorem lockView_returnOverrun : lockView (returnOverrun s).1 = lockView s := ite_fix (fun x => lockView (Prod.fst x)) rfl rfl

theorem noise_applyHalving (src : Nat) : Noise s (applyHalving src s) := by
  have told := noise_lastEvt 6 src s.seq.gsc.toNat s
  unfold applyHalving
  dsimp only
  generalize lastEvt 6 src s.seq.gsc.toNat s = t at told ⊢
  exact .ite (.ite told (told.trans (noise_restoreStep t))) ((told.trans (noise_seq t)).trans (noise_setBound _))

theorem face_settlePause : face (settlePause s) = face s ∧ (settlePause s).seq.st = s.seq.st := by
  unfold settlePause
  split_ifs
  · exact ⟨(noise_seqInt 1 _).face, (noise_seqInt 1 _).st⟩
  · exact ⟨rfl, rfl⟩

/-- The group enters PAUSED. -/
theorem face_enterPaused : face (enterPaused s) = face s ∧ (enterPaused s).seq.st = .paused := by
  unfold enterPaused
  extract_lets g atHalt s0 gone halve s1 q s2
  have h0 : Noise s s0 := noise_carry s none
  have h1 : Noise s s1 := .ite (h0.trans (noise_lastEvt ..)) h0
  have h2 : face s2 = face s1 := rfl
  have hp : s2.seq.st = .paused := rfl
  clear_value s2 halve
  have h3 := Noise.foldl (f := fun s (e : GEvent) => applyHalving e.src s) (fun u e => noise_applyHalving u e.src) halve s2
  obtain ⟨hf, hst⟩ := face_settlePause (halve.foldl (fun s e => applyHalving e.src s) s2)
  exact ⟨hf.trans (h3.face.trans (h2.trans h1.face)), hst.trans (h3.st.trans hp)⟩

/-- The last step of a lock phase (R84): the coordinates stand, and the group pauses or flies on. -/
theorem face_barrierDecision : face (barrierDecision s) = face s ∧
    ((barrierDecision s).seq.st = .paused ∨ (barrierDecision s).seq.st = .flight) := by
  unfold barrierDecision
  extract_lets q s1 haltNow
  have h1 : face s1 = face s := (noise_seqInt 0 _).face
  split_ifs
  · obtain ⟨hf, hst⟩ := face_enterPaused s1
    exact ⟨hf.trans h1, .inl hst⟩
  · have h2 := noise_carryTaint
      { s1 with seq := { s1.seq with st := .flight, pos := 0, fltPos := 0, frameStall := 0, mode := rbit s1 oLkgMode 0 } }
    exact ⟨h2.face.trans h1, .inr h2.st⟩

end

section
variable (hs : List Happening) {s : State}

/-- A lock-phase step up to its faults. -/
def deadlineWork (s0 : State) : State × List Report := if s0.seq.lockPos = 0 then returnDeadline (applyThrottle s0) else (s0, [])
def windowWork (s0 : State) : State :=
  if s0.seq.lockPos < 16 then returnWindowStep s0.seq.lockPos (deadlineWork s0).1 else (deadlineWork s0).1
def recordWork (s0 : State) : State × List Report :=
  if s0.seq.lockPos + 16 = (windowWork s0).seq.lam then andThen returnOverrun (closeRecord (windowWork s0), (deadlineWork s0).2)
  else (windowWork s0, (deadlineWork s0).2)
def configWork (s0 : State) : State :=
  if s0.seq.lockPos + 12 = (windowWork s0).seq.lam then applyConfig (recordWork s0).1 else (recordWork s0).1
def lockWork (s0 : State) : State × List Report :=
  if inStretch (windowWork s0) s0.seq.lockPos then (configWork s0, (recordWork s0).2) else scrubs hs (configWork s0, (recordWork s0).2)

/-- Its faults, and the state in which they are told. -/
def lockActs (s0 : State) : List (Report × Nat) := reportActs (lockWork hs s0).1 (lockWork hs s0).2
def lockTold (s0 : State) : State := raiseFirst (lockActs hs s0) (prechecks (windowWork s0) (lockWork hs s0).1)

/-- The lock phase one step further, or over. -/
def lockMoved (k : Nat) (s : State) : State :=
  if k + 1 = s.seq.lam then barrierDecision { s with seq := { s.seq with lockPos := k + 1 } } else { s with seq := { s.seq with lockPos := k + 1 } }

theorem lockBody_eq (s : State) : lockBody hs s = bumpGsc (raiseLast (lockActs hs (strikes hs s))
    (lockMoved (strikes hs s).seq.lockPos (lockTold hs (strikes hs s)))) := by
  unfold lockTold lockActs lockWork configWork recordWork windowWork deadlineWork
  rfl

variable (s0 : State)

theorem lockView_deadlineWork : lockView (deadlineWork s0).1 = lockView s0 :=
  ite_fix (fun x => lockView (Prod.fst x)) ((lockView_returnDeadline _).trans (lockView_applyThrottle _)) rfl

theorem lockView_windowWork : lockView (windowWork s0) = lockView s0 :=
  ite_fix lockView ((lockView_returnWindowStep _ _).trans (lockView_deadlineWork s0)) (lockView_deadlineWork s0)

theorem lockView_recordWork : lockView (recordWork s0).1 = lockView s0 :=
  ite_fix (fun x => lockView (Prod.fst x)) ((lockView_returnOverrun _).trans ((lockView_closeRecord _).trans (lockView_windowWork s0)))
    (lockView_windowWork s0)

theorem lockView_configWork : lockView (configWork s0) = lockView s0 :=
  ite_fix lockView ((lockView_applyConfig _).trans (lockView_recordWork s0)) (lockView_recordWork s0)

theorem lockView_lockWork : lockView (lockWork hs s0).1 = lockView s0 :=
  ite_fix (fun x => lockView (Prod.fst x)) (lockView_configWork s0)
    ((lockView_of_core (work_scrubs hs _).trail.core).trans (lockView_configWork s0))

theorem codes_returnDeadline (s : State) : ∀ r ∈ (returnDeadline s).2, r.code ≠ 0x9001 := by
  intro r hr
  unfold returnDeadline at hr
  split at hr
  · cases hr
  · obtain ⟨e, -, rfl⟩ := List.mem_map.1 hr
    simp

theorem codes_returnOverrun (s : State) : ∀ r ∈ (returnOverrun s).2, r.code ≠ 0x9001 := by
  intro r hr
  unfold returnOverrun at hr
  split_ifs at hr
  · cases hr
  · rw [List.mem_singleton.1 hr]
    simp

theorem codes_lockWork : ∀ r ∈ (lockWork hs s0).2, r.code ≠ 0x9001 := by
  have hd : ∀ r ∈ (deadlineWork s0).2, r.code ≠ 0x9001 := by
    unfold deadlineWork
    split_ifs
    · exact codes_returnDeadline _
    · exact fun r hr => absurd hr (List.not_mem_nil)
  have hrec : ∀ r ∈ (recordWork s0).2, r.code ≠ 0x9001 := by
    unfold recordWork
    split_ifs
    · intro r hr
      rcases List.mem_append.1 hr with hr | hr
      · exact hd r hr
      · exact codes_returnOverrun _ r hr
    · exact hd
  unfold lockWork
  split_ifs
  · exact hrec
  · intro r hr
    obtain ⟨rs, e, hrs⟩ := (work_scrubs hs (configWork s0, (recordWork s0).2)).reps
    rw [e] at hr
    rcases List.mem_append.1 hr with hr | hr
    · exact hrec r hr
    · exact (hrs r hr).1

theorem lockView_lockTold : lockView (lockTold hs s0) = lockView s0 :=
  (((noise_prechecks _ _).trans (noise_raiseFirst (noClockLoss_reports (codes_lockWork hs s0)) _)).lockView).trans (lockView_lockWork hs s0)

/-- What a lock-phase step does with the coordinates (R84). -/
theorem lockBody_spec (hst : s.seq.st = .lock) :
    face (lockBody hs s) = ⟨s.seq.gsc + 1, s.seq.F, (strikes hs s).hold.cells, s.host.mem⟩ ∧
      ((lockBody hs s).seq.st = .lock → (lockBody hs s).seq.lockPos = s.seq.lockPos + 1) ∧
      ((lockBody hs s).seq.st = .lock ∨ (lockBody hs s).seq.st = .flight ∨ (lockBody hs s).seq.st = .paused ∨ (lockBody hs s).seq.st = .safe) := by
  have htold := lockView_lockTold hs (strikes hs s)
  rw [lockBody_eq, strikes_seq]
  generalize lockTold hs (strikes hs s) = t at htold ⊢
  have hface : face t = ⟨s.seq.gsc, s.seq.F, (strikes hs s).hold.cells, s.host.mem⟩ := (face_of_lockView htold).trans (by simp [face])
  have htst : t.seq.st = .lock := (st_of_lockView htold).trans (by rw [strikes_seq, hst])
  have hmoved : face (lockMoved s.seq.lockPos t) = face t ∧ ((lockMoved s.seq.lockPos t).seq.st = .paused ∨
      (lockMoved s.seq.lockPos t).seq.st = .flight ∨
      (lockMoved s.seq.lockPos t).seq.st = .lock ∧ (lockMoved s.seq.lockPos t).seq.lockPos = s.seq.lockPos + 1) := by
    unfold lockMoved
    split_ifs
    · obtain ⟨hf, hs⟩ := face_barrierDecision { t with seq := { t.seq with lockPos := s.seq.lockPos + 1 } }
      exact ⟨hf, hs.imp id .inl⟩
    · exact ⟨rfl, .inr (.inr ⟨htst, rfl⟩)⟩
  generalize lockMoved s.seq.lockPos t = m at hmoved ⊢
  obtain ⟨hmf, hms⟩ := hmoved
  generalize lockActs hs (strikes hs s) = acts
  have hl := still_raiseLast acts m
  have hc := raiseLast_cases acts m
  generalize raiseLast acts m = v at hl hc ⊢
  have hb := noise_bumpGsc v
  have hvf : face v = ⟨s.seq.gsc, s.seq.F, (strikes hs s).hold.cells, s.host.mem⟩ := hl.face.trans (hmf.trans hface)
  have hbs : (bumpGsc v).seq.st = v.seq.st := hb.st
  have hbp : (bumpGsc v).seq.lockPos = v.seq.lockPos := (lockPos_of_core hb.core).trans rfl
  refine ⟨?_, ?_, ?_⟩
  · rw [hb.face]
    show (⟨v.seq.gsc + 1, v.seq.F, v.hold.cells, v.host.mem⟩ : Face) = _
    rw [show v.seq.gsc = s.seq.gsc from congrArg Face.gsc hvf, show v.seq.F = s.seq.F from congrArg Face.F hvf,
      show v.hold.cells = _ from congrArg Face.hold hvf, show v.host.mem = _ from congrArg Face.mem hvf]
  · intro h
    rw [hbs] at h
    rw [hbp]
    rcases hc with hc | hc
    · rw [hc] at h
      cases h
    · rw [hc.st] at h
      rcases hms with hm | hm | ⟨-, hm⟩
      · rw [hm] at h; cases h
      · rw [hm] at h; cases h
      · exact (lockPos_of_core hc.core).trans hm
  · rw [hbs]
    rcases hc with hc | hc
    · exact .inr (.inr (.inr hc))
    · rw [hc.st]
      rcases hms with hm | hm | ⟨hm, -⟩
      · exact .inr (.inr (.inl hm))
      · exact .inr (.inl hm)
      · exact .inl hm

end

end Sys2Proof.Machine

namespace Sys2Proof.Machine

/-! ## Clusters along a row of writes -/

/-- A cluster that exports nothing. -/
def muted (c : Cluster) : Cluster := { c with expo := [] }

theorem clearExports_fab (s : State) : (clearExports s).fab = mmapv Cluster.fresh muted s.fab := rfl

theorem canon_writes {τ : Touch} {s t : State} (h : writes τ s t) (hw : mwf Cluster.fresh s.fab = true) : mwf Cluster.fresh t.fab = true := by
  cases τ with
  | clu cl R => obtain ⟨c, -, rfl⟩ := h; exact mwf_mset hw cl c
  | exports => rw [h, clearExports_fab]; exact mwf_mmapv hw _
  | books => rw [Noise.fab h]; exact hw
  | req q => obtain ⟨_, rfl, -⟩ := h; exact hw
  | first off => obtain ⟨_, rfl, -⟩ := h; exact hw
  | frags cl => obtain ⟨_, rfl, -⟩ := h; exact hw
  | probes => obtain ⟨_, _, _, rfl⟩ := h; exact hw
  | reg | flag | count | slu | lane | gau | trc | bas | lnk | free | dmc => obtain ⟨_, rfl⟩ := h; exact hw

/-- A write of another kind, or of another cluster, leaves a cluster. -/
theorem cluster_writes {τ : Touch} {s t : State} (h : writes τ s t) (hw : mwf Cluster.fresh s.fab = true) (cl : Nat) :
    getCl t cl = getCl s cl ∨ (∃ R, τ = .clu cl R ∧ R (getCl s cl) (getCl t cl)) ∨
      (τ = .exports ∧ getCl t cl = muted (getCl s cl)) := by
  cases τ with
  | clu d R =>
    obtain ⟨c, hR, rfl⟩ := h
    by_cases e : cl = d
    · subst e
      exact .inr (.inl ⟨R, rfl, by simpa [getCl, setCl] using hR⟩)
    · exact .inl (mget_mset_other _ _ _ _ _ e)
  | exports =>
    rw [h]
    exact .inr (.inr ⟨rfl, mget_mmapv (f := muted) rfl hw cl⟩)
  | books => exact .inl (by unfold getCl; rw [Noise.fab h])
  | req q => obtain ⟨_, rfl, -⟩ := h; exact .inl rfl
  | first off => obtain ⟨_, rfl, -⟩ := h; exact .inl rfl
  | frags cl => obtain ⟨_, rfl, -⟩ := h; exact .inl rfl
  | probes => obtain ⟨_, _, _, rfl⟩ := h; exact .inl rfl
  | reg | flag | count | slu | lane | gau | trc | bas | lnk | free | dmc => obtain ⟨_, rfl⟩ := h; exact .inl rfl

section
variable {A : Touch → Prop} {s t : State}

theorem Trail.canonical (h : Trail A s t) (hw : mwf Cluster.fresh s.fab = true) : mwf Cluster.fresh t.fab = true :=
  h.keep (P := fun u => mwf Cluster.fresh u.fab = true) (fun _ _ _ _ hwr hu => canon_writes hwr hu) hw

/-- A relation that every write of a row keeps of a cluster, the row keeps. -/
theorem Trail.cluster {Q : Cluster → Cluster → Prop} (hrefl : ∀ c, Q c c) (htrans : ∀ {a b c}, Q a b → Q b c → Q a c) (h : Trail A s t)
    (hw : mwf Cluster.fresh s.fab = true) (cl : Nat) (hclu : ∀ R, A (.clu cl R) → ∀ {c c'}, R c c' → Q c c')
    (hexp : A .exports → ∀ c, Q c (muted c)) : Q (getCl s cl) (getCl t cl) := by
  refine (h.keep (P := fun u => mwf Cluster.fresh u.fab = true ∧ Q (getCl s cl) (getCl u cl)) (fun τ hA u v hwr hu => ?_) ⟨hw, hrefl _⟩).2
  refine ⟨canon_writes hwr hu.1, ?_⟩
  rcases cluster_writes hwr hu.1 cl with e | ⟨R, rfl, hR⟩ | ⟨rfl, e⟩
  · rw [e]; exact hu.2
  · exact htrans hu.2 (hclu R hA hR)
  · rw [e]; exact htrans hu.2 (hexp hA _)

/-- A row that writes no cluster. -/
theorem Trail.fab (h : Trail A s t) (hclu : ∀ cl R, ¬ A (.clu cl R)) (hexp : ¬ A .exports) : t.fab = s.fab := by
  refine h.fix (·.fab) fun τ hA u v hwr => ?_
  cases τ with
  | clu cl R => exact absurd hA (hclu cl R)
  | exports => exact absurd hA hexp
  | books => exact Noise.fab hwr
  | req q => obtain ⟨_, rfl, -⟩ := hwr; rfl
  | first off => obtain ⟨_, rfl, -⟩ := hwr; rfl
  | frags cl => obtain ⟨_, rfl, -⟩ := hwr; rfl
  | probes => obtain ⟨_, _, _, rfl⟩ := hwr; rfl
  | reg | flag | count | slu | lane | gau | trc | bas | lnk | free | dmc => obtain ⟨_, rfl⟩ := hwr; rfl

/-- A row that writes nothing of a cluster but landings, its port's operations and the error state of its words. -/
def outsideKept (c c' : Cluster) : Prop :=
  (∀ p e, e < 2048 → e < 1024 ∨ 1792 ≤ e → mget .x c'.ds (2048 * p + e) = mget .x c.ds (2048 * p + e) ∧
    mget false c'.badPar (2048 * p + e) = mget false c.badPar (2048 * p + e)) ∧ c'.staged = c.staged

theorem outsideKept.refl (c : Cluster) : outsideKept c c := ⟨fun _ _ _ _ => ⟨rfl, rfl⟩, rfl⟩

theorem outsideKept.trans {a b c : Cluster} (h1 : outsideKept a b) (h2 : outsideKept b c) : outsideKept a c := by
  refine ⟨fun p e he ho => ?_, h2.2.trans h1.2⟩
  obtain ⟨d1, p1⟩ := h1.1 p e he ho
  obtain ⟨d2, p2⟩ := h2.1 p e he ho
  exact ⟨d2.trans d1, p2.trans p1⟩

theorem landed.outside {c c' : Cluster} (h : landed c c') : outsideKept c c' := by
  obtain ⟨ds, bp, rfl, k⟩ := h
  exact ⟨k, rfl⟩

theorem memMoved.outside {c c' : Cluster} (h : memMoved c c') : outsideKept c c' := by
  obtain ⟨ops, mrd, rfl⟩ := h
  exact .refl c

theorem scrubbed.outside {c c' : Cluster} (h : scrubbed c c') : outsideKept c c' := by
  obtain ⟨i, r, rfl⟩ := h
  exact .refl c

/-- The reach network and the memory ports leave every entry but the import entries. -/
theorem Trail.transit_outside {cls : List Nat} (h : Trail (transitTouch cls) s t) (hw : mwf Cluster.fresh s.fab = true) (cl : Nat) :
    outsideKept (getCl s cl) (getCl t cl) := by
  refine h.cluster .refl .trans hw cl (fun R hA c c' hR => ?_) fun hA => ?_
  · rcases hA with (⟨d, -, -, rfl⟩ | hA) | ⟨-, rfl⟩
    · exact landed.outside hR
    · exact absurd hA id
    · exact memMoved.outside hR
  · rcases hA with (⟨d, -, hA⟩ | hA) | hA <;> exact absurd hA id

theorem Trail.tick_outside (h : Trail tickTouch s t) (hw : mwf Cluster.fresh s.fab = true) (cl : Nat) :
    outsideKept (getCl s cl) (getCl t cl) := by
  refine h.cluster .refl .trans hw cl (fun R hA c c' hR => ?_) fun _ c => .refl c
  obtain rfl : R = scrubbed := hA
  exact scrubbed.outside hR

end

/-! ### The running clusters -/

theorem mem_runClusters {s : State} {cl : Nat} : cl ∈ runClusters s ↔ basinRuns s (cl / 64) = true := by
  unfold runClusters runBasins
  constructor
  · intro h
    obtain ⟨b, hb, h⟩ := List.mem_flatMap.1 h
    obtain ⟨c, hc, rfl⟩ := List.mem_map.1 h
    have := List.mem_range.1 hc
    rw [show (64 * b + c) / 64 = b by omega]
    exact (List.mem_filter.1 hb).2
  · intro h
    have hb : cl / 64 < nBasins s := by
      unfold basinRuns at h
      simp only [Bool.and_eq_true, decide_eq_true_eq] at h
      exact h.1.1.1
    refine List.mem_flatMap.2 ⟨cl / 64, List.mem_filter.2 ⟨List.mem_range.2 hb, h⟩, List.mem_map.2 ⟨cl % 64, ?_, by omega⟩⟩
    exact List.mem_range.2 (Nat.mod_lt _ (by decide))

theorem nodup_runClusters (s : State) : (runClusters s).Nodup := by
  refine List.nodup_flatMap.2 ⟨fun b _ => ?_, ?_⟩
  · exact List.nodup_range.map fun a c h => by omega
  · refine List.Pairwise.imp_of_mem (fun {a b} _ _ hab => ?_) (List.nodup_range.filter _)
    intro x hx hy
    obtain ⟨i, hi, rfl⟩ := List.mem_map.1 hx
    obtain ⟨j, hj, e⟩ := List.mem_map.1 hy
    have := List.mem_range.1 hi
    have := List.mem_range.1 hj
    exact hab (by omega)

/-- Of operations one per cluster, only a cluster's own changes it. -/
theorem getCl_foldl (g : Nat → Cluster → Cluster) {l : List Nat} (hl : l.Nodup) (s : State) (cl : Nat) :
    getCl (l.foldl (fun s d => setCl d (g d (getCl s d)) s) s) cl = if cl ∈ l then g cl (getCl s cl) else getCl s cl := by
  induction l generalizing s with
  | nil => simp
  | cons a t ih =>
    obtain ⟨ha, ht⟩ := List.nodup_cons.1 hl
    rw [List.foldl_cons, ih ht]
    have same : getCl (setCl a (g a (getCl s a)) s) a = g a (getCl s a) := mget_mset_same ..
    by_cases e : cl = a
    · subst e
      rw [if_neg ha, if_pos (by simp), same]
    · have other : getCl (setCl a (g a (getCl s a)) s) cl = getCl s cl := mget_mset_other _ _ _ _ _ e
      rw [other]
      simp [e]

section
variable (hs : List Happening) (s : State)

@[simp] theorem strikes_physOf (cl p : Nat) : physOf (strikes hs s) cl p = physOf s cl p := by
  unfold physOf rbit rfld rget
  rw [strikes_regs]

@[simp] theorem strikes_basinRuns (b : Nat) : basinRuns (strikes hs s) b = basinRuns s b := by
  unfold basinRuns nBasins rbit rget
  rw [strikes_regs, strikes_dev]

theorem strike_canonical (h : Happening) (hw : mwf Cluster.fresh s.fab = true) : mwf Cluster.fresh (strike h s).fab = true := by
  cases h with
  | instrUpset | routeUpset | parityUpset => exact mwf_mset hw _ _
  | _ => exact hw

theorem strikes_canonical (hw : mwf Cluster.fresh s.fab = true) : mwf Cluster.fresh (strikes hs s).fab = true := by
  unfold strikes
  induction hs generalizing s with
  | nil => exact hw
  | cons h t ih => exact ih _ (strike_canonical s h hw)

theorem canonical_fab {s : State} (h : Canonical s = true) : mwf Cluster.fresh s.fab = true := by
  unfold Canonical at h
  simp only [Bool.and_eq_true] at h
  exact h.1.1.1.2

end

/-! ### A data-store write -/

section
variable (v : V4) (c : Cluster)

@[simp] theorem dsGet_dsPut_same (p e : Nat) : dsGet (dsPut p e v c) p e = v := mget_mset_same ..
@[simp] theorem badPar_dsPut_same (p e : Nat) : mget false (dsPut p e v c).badPar (2048 * p + e) = false :=
  mget_mset_same false c.badPar _ false

variable {p e q f : Nat} (h : 2048 * p + e ≠ 2048 * q + f)
include h

theorem dsGet_dsPut_other : dsGet (dsPut q f v c) p e = dsGet c p e := mget_mset_other _ _ _ _ _ h
theorem badPar_dsPut_other : mget false (dsPut q f v c).badPar (2048 * p + e) = mget false c.badPar (2048 * p + e) :=
  mget_mset_other false c.badPar _ _ false h

end

/-! ### The commit of staged values (R17, R39) -/

/-- One staged value enters its entry. -/
def commitEntry (s0 : State) (cl : Nat) (c : Cluster) (e : Nat × Option V4) : Cluster :=
  match e.2 with
  | some v => dsPut (physOf s0 cl (e.1 / 2048)) (e.1 % 2048) v c
  | none => c

def committed (s0 : State) (cl : Nat) (c : Cluster) : Cluster := { c.staged.foldl (commitEntry s0 cl) c with staged := [] }

theorem commitAll_eq (s0 s : State) : commitAll s0 s = (runClusters s0).foldl (fun s d => setCl d (committed s0 d (getCl s d)) s) s := rfl

section
variable {s0 : State} {cl : Nat}

theorem physOf_inj {p q : Nat} (hp : p < 64) (hq : q < 64) (h : physOf s0 cl p = physOf s0 cl q) : p = q := by
  unfold physOf at h
  split_ifs at h with h1 h2 h3
  · simp only [Bool.and_eq_true, decide_eq_true_eq] at h1 h2
    exact h1.2.symm.trans h2.2
  · omega
  · omega
  · exact h

/-- A key that no entry names holds the unlisted value. -/
theorem mget_absent {α : Type} {d : α} {m : List (Nat × α)} {k : Nat} (h : ∀ x ∈ m, x.1 ≠ k) : mget d m k = d := by
  induction m with
  | nil => rfl
  | cons a t ih =>
    simp only [mget]
    rw [if_neg (h a (by simp))]
    exact ih fun x hx => h x (by simp [hx])

/-- What an entry holds once the staged values are committed: the one staged for it, with good parity, else what it held. -/
theorem commit_entry {p e : Nat} (hp : p < 64) (he : e < 2048) (st : List (Nat × Option V4)) (hst : (st.map (·.1)).Nodup)
    (hlt : ∀ x ∈ st, x.1 / 2048 < 64) (c : Cluster) :
    (∀ v, mget none st (2048 * p + e) = some v → dsGet (st.foldl (commitEntry s0 cl) c) (physOf s0 cl p) e = v ∧
      mget false (st.foldl (commitEntry s0 cl) c).badPar (2048 * physOf s0 cl p + e) = false) ∧
    (mget none st (2048 * p + e) = none → dsGet (st.foldl (commitEntry s0 cl) c) (physOf s0 cl p) e = dsGet c (physOf s0 cl p) e ∧
      mget false (st.foldl (commitEntry s0 cl) c).badPar (2048 * physOf s0 cl p + e) = mget false c.badPar (2048 * physOf s0 cl p + e)) := by
  induction st generalizing c with
  | nil => simp
  | cons a t ih =>
    obtain ⟨ha, ht⟩ := List.nodup_cons.1 hst
    have ih := ih ht (fun x hx => hlt x (by simp [hx])) (commitEntry s0 cl c a)
    have hpa := hlt a (by simp)
    simp only [List.foldl_cons, mget]
    by_cases h : a.1 = 2048 * p + e
    · have hnone : mget none t (2048 * p + e) = none := by
        refine mget_absent fun x hx hxe => ha ?_
        exact List.mem_map.2 ⟨x, hx, hxe.trans h.symm⟩
      obtain ⟨hd, hb⟩ := ih.2 hnone
      rw [if_pos h, hd, hb]
      have h1 : a.1 / 2048 = p := by omega
      have h2 : a.1 % 2048 = e := by omega
      unfold commitEntry
      rw [h1, h2]
      split
      · rename_i v hv
        rw [hv]
        simp
      · rename_i hv
        rw [hv]
        simp
    · rw [if_neg h]
      have hne : 2048 * physOf s0 cl p + e ≠ 2048 * physOf s0 cl (a.1 / 2048) + a.1 % 2048 := by
        intro hk
        have h1 : physOf s0 cl p = physOf s0 cl (a.1 / 2048) := by omega
        have h2 := physOf_inj hp hpa h1
        omega
      have hkeep : dsGet (commitEntry s0 cl c a) (physOf s0 cl p) e = dsGet c (physOf s0 cl p) e ∧
          mget false (commitEntry s0 cl c a).badPar (2048 * physOf s0 cl p + e) = mget false c.badPar (2048 * physOf s0 cl p + e) := by
        unfold commitEntry
        split
        · rename_i v _
          exact ⟨dsGet_dsPut_other v c hne, badPar_dsPut_other v c hne⟩
        · exact ⟨rfl, rfl⟩
      rwa [hkeep.1, hkeep.2] at ih

end

end Sys2Proof.Machine

namespace Sys2Proof.Machine

/-! ## The first tick step and the data stores -/

section
variable {hs : List Happening} {s : State}

theorem getCl_clearExports (hw : mwf Cluster.fresh s.fab = true) (cl : Nat) : getCl (clearExports s) cl = muted (getCl s cl) :=
  mget_mmapv (f := muted) rfl hw cl

/-- Safe state and books leave the entries, their parity and the exports; staged values at most go. -/
theorem FabKept.entries {m m' : List (Nat × Cluster)} (h : FabKept m m') (hw : mwf Cluster.fresh m = true) (cl : Nat) :
    (mget Cluster.fresh m' cl).ds = (mget Cluster.fresh m cl).ds ∧ (mget Cluster.fresh m' cl).badPar = (mget Cluster.fresh m cl).badPar ∧
      (mget Cluster.fresh m' cl).expo = (mget Cluster.fresh m cl).expo ∧
      ∀ x ∈ (mget Cluster.fresh m' cl).staged, x ∈ (mget Cluster.fresh m cl).staged := by
  obtain ⟨e, -, hst⟩ := (h hw).2 cl
  exact ⟨(congrArg Cluster.ds e :), (congrArg Cluster.badPar e :), (congrArg Cluster.expo e :), hst⟩

/-- After the commit a first tick step leaves every entry but the import entries; it leaves nothing exported. -/
theorem firstBody_after (hw : mwf Cluster.fresh s.fab = true) (cl : Nat) :
    let c1 := getCl (commitAll (strikes hs s) (strikes hs s)) cl
    let c := getCl (firstBody hs s) cl
    (∀ p e, e < 2048 → e < 1024 ∨ 1792 ≤ e → mget .x c.ds (2048 * p + e) = mget .x c1.ds (2048 * p + e) ∧
      mget false c.badPar (2048 * p + e) = mget false c1.badPar (2048 * p + e)) ∧
    (∀ x ∈ c.staged, x ∈ c1.staged) ∧ c.expo = [] := by
  generalize hs0 : strikes hs s = s0
  have hw0 : mwf Cluster.fresh s0.fab = true := hs0 ▸ strikes_canonical hs s hw
  have hw1 := (trail_commitAll (s0 := s0) s0).canonical hw0
  have reach := (work_firstReach s0).trail
  have hw2 := reach.canonical hw1
  have gau := trail_gaugeFirstTick (s0 := s0) hs (firstCommit s0).1
  have hgau : (firstSampled hs s0).fab = (firstCommit s0).1.fab := gau.fab (fun _ _ h => h) id
  have hw3 : mwf Cluster.fresh (firstSampled hs s0).fab = true := hgau ▸ hw2
  have tail := (trail_firstCleared hs s0).trans (work_firstTail hs s0).trail
  have hw4 := (trail_firstCleared hs s0).canonical hw3
  have hw5 := tail.canonical hw3
  have ended : PosOver (firstWork hs s0).2 (firstWork hs s0).1 (firstBody hs s) := hs0 ▸ firstBody_over hs s
  obtain ⟨hds, hbp, hex, hst⟩ := ended.still.fab.entries hw5 cl
  have out := (reach.transit_outside hw1 cl).trans
    (show outsideKept (getCl (firstCommit s0).1 cl) (getCl (firstWork hs s0).1 cl) by
      have h := tail.tick_outside hw3 cl
      rwa [show getCl (firstSampled hs s0) cl = getCl (firstCommit s0).1 cl by unfold getCl; rw [hgau]] at h)
  refine ⟨fun p e he ho => ?_, fun x hx => ?_, ?_⟩
  · obtain ⟨h1, h2⟩ := out.1 p e he ho
    exact ⟨(congrArg (mget _ · _) hds).trans h1, (congrArg (mget _ · _) hbp).trans h2⟩
  · have h1 : x ∈ (getCl (firstWork hs s0).1 cl).staged := hst x hx
    rwa [out.2] at h1
  · have cleared : (getCl (firstCleared hs s0) cl).expo = [] := by
      have hw' : mwf Cluster.fresh (traceFirstTick (dacScan s0 (firstSampled hs s0))).fab = true :=
        ((trail_noise (A := tickTouch) (noise_dacScan ..) trivial).trans (trail_traceFirstTick _)).canonical hw3
      exact congrArg Cluster.expo (getCl_clearExports hw' cl)
    have kept := (work_firstTail hs s0).trail.cluster (Q := fun c c' => c.expo = [] → c'.expo = []) (fun _ h => h) (fun h1 h2 h => h2 (h1 h))
      hw4 cl (fun R hA c c' hR h => by
        obtain rfl : R = scrubbed := hA
        obtain ⟨i, r, rfl⟩ := hR
        exact h) (fun _ c _ => rfl)
    exact hex.trans (kept cleared)

/-- The first tick step's commit (R17, R39). -/
theorem firstBody_commit (hw : mwf Cluster.fresh s.fab = true) (cl : Nat) :
    let st := (getCl s cl).staged
    (st.map (·.1)).Nodup → (∀ x ∈ st, x.1 / 2048 < 64) →
      (∀ p e v, basinRuns s (cl / 64) = true → p < 64 → 1792 ≤ e → e < 2048 → mget none st (2048 * p + e) = some v →
        dsGet (getCl (firstBody hs s) cl) (physOf s cl p) e = v ∧
          mget false (getCl (firstBody hs s) cl).badPar (2048 * physOf s cl p + e) = false) ∧
      (∀ p e, p < 64 → e < 2048 → e < 1024 ∨ 1792 ≤ e → basinRuns s (cl / 64) = false ∨ mget none st (2048 * p + e) = none →
        dsGet (getCl (firstBody hs s) cl) (physOf s cl p) e = dsGet (getCl s cl) (physOf s cl p) e) ∧
      (basinRuns s (cl / 64) = true → (getCl (firstBody hs s) cl).staged = [] ∧ (getCl (firstBody hs s) cl).expo = []) := by
  intro st hnd hlt
  obtain ⟨hout, hstaged, hexpo⟩ := firstBody_after (hs := hs) hw cl
  have struck := strikes_cluster hs s cl
  have hst : (getCl (strikes hs s) cl).staged = st := (congrArg Cluster.staged struck :)
  have hds (p e : Nat) : dsGet (getCl (strikes hs s) cl) p e = dsGet (getCl s cl) p e := by
    unfold dsGet
    rw [show (getCl (strikes hs s) cl).ds = (getCl s cl).ds from (congrArg Cluster.ds struck :)]
  have hcl : getCl (commitAll (strikes hs s) (strikes hs s)) cl = if basinRuns s (cl / 64) = true then
      committed (strikes hs s) cl (getCl (strikes hs s) cl) else getCl (strikes hs s) cl := by
    rw [commitAll_eq, getCl_foldl _ (nodup_runClusters _)]
    simp only [mem_runClusters, strikes_basinRuns]
  rw [hcl] at hout hstaged
  have entry (p e : Nat) (hp : p < 64) (he : e < 2048) := commit_entry (s0 := strikes hs s) (cl := cl) hp he st hnd hlt (getCl (strikes hs s) cl)
  simp only [strikes_physOf] at entry
  refine ⟨fun p e v hrun hp h1 h2 hv => ?_, fun p e hp he ho hno => ?_, fun hrun => ⟨?_, hexpo⟩⟩
  · obtain ⟨hd, hb⟩ := (entry p e hp h2).1 v hv
    obtain ⟨k1, k2⟩ := hout (physOf s cl p) e h2 (.inr h1)
    rw [if_pos hrun] at k1 k2
    refine ⟨Eq.trans k1 (Eq.trans ?_ hd), k2.trans (Eq.trans ?_ hb)⟩
    · rw [← hst]; rfl
    · rw [← hst]; rfl
  · obtain ⟨k1, -⟩ := hout (physOf s cl p) e he ho
    refine Eq.trans k1 ?_
    rw [← hds]
    split_ifs with hrun
    · have hnone := hno.resolve_left (by simp [hrun])
      rw [← ((entry p e hp he).2 hnone).1, ← hst]
      rfl
    · rfl
  · rw [if_pos hrun] at hstaged
    exact List.eq_nil_iff_forall_not_mem.2 fun x hx => List.not_mem_nil (hstaged x hx)

end

end Sys2Proof.Machine

namespace Sys2Proof.Machine

/-! ## Folds in which one element acts on what is observed -/

/-- Of the operations of a fold only that of `a` changes what `π` reads: the fold does to it what that operation does. -/
theorem foldl_rel {σ β γ : Type} (π : σ → γ) (I : σ → Prop) {P : γ → γ → Prop} {f : σ → β → σ} {a : β} {l : List β} (hl : l.Nodup) (ha : a ∈ l)
    (hI : ∀ s, I s → ∀ b ∈ l, I (f s b)) (hother : ∀ s, I s → ∀ b ∈ l, b ≠ a → π (f s b) = π s) (hit : ∀ s, I s → P (π s) (π (f s a)))
    (s : σ) (hs : I s) : P (π s) (π (l.foldl f s)) := by
  have rest (l : List β) (hI : ∀ s, I s → ∀ b ∈ l, I (f s b)) (hother : ∀ s, I s → ∀ b ∈ l, b ≠ a → π (f s b) = π s) (ha : a ∉ l) (s : σ)
      (hs : I s) : π (l.foldl f s) = π s := by
    induction l generalizing s with
    | nil => rfl
    | cons b t ih =>
      have hb : b ≠ a := fun h => ha (h ▸ by simp)
      exact (ih (fun s h c hc => hI s h c (by simp [hc])) (fun s h c hc => hother s h c (by simp [hc])) (fun h => ha (by simp [h])) _
        (hI s hs b (by simp))).trans (hother s hs b (by simp) hb)
  induction l generalizing s with
  | nil => cases ha
  | cons b t ih =>
    obtain ⟨hb, ht⟩ := List.nodup_cons.1 hl
    have hI' : ∀ s, I s → ∀ c ∈ t, I (f s c) := fun s h c hc => hI s h c (by simp [hc])
    have ho' : ∀ s, I s → ∀ c ∈ t, c ≠ a → π (f s c) = π s := fun s h c hc => hother s h c (by simp [hc])
    rw [List.foldl_cons]
    by_cases e : b = a
    · subst e
      rw [rest t hI' ho' hb _ (hI s hs b (by simp))]
      exact hit s hs
    · have ha' : a ∈ t := (List.mem_cons.1 ha).resolve_left (Ne.symm e)
      rw [← hother s hs b (by simp) e]
      exact ih ht ha' hI' ho' _ (hI s hs b (by simp))

/-- Where the acting element is not in the list nothing changes. -/
theorem foldl_miss {σ β γ : Type} (π : σ → γ) {f : σ → β → σ} {l : List β} (h : ∀ s, ∀ b ∈ l, π (f s b) = π s) (s : σ) :
    π (l.foldl f s) = π s := by
  induction l generalizing s with
  | nil => rfl
  | cons b t ih => exact (ih (fun s c hc => h s c (by simp [hc])) _).trans (h s b (by simp))

/-- The function a hit computes. -/
theorem foldl_hit {σ β γ : Type} (π : σ → γ) {f : σ → β → σ} {a : β} {l : List β} (hl : l.Nodup) (ha : a ∈ l)
    (hother : ∀ s, ∀ b ∈ l, b ≠ a → π (f s b) = π s) {op : γ → γ} (hit : ∀ s, π (f s a) = op (π s)) (s : σ) :
    π (l.foldl f s) = op (π s) :=
  foldl_rel π (fun _ => True) (P := fun x y => y = op x) hl ha (fun _ _ _ _ => trivial) (fun s _ => hother s) (fun s _ => hit s) s trivial

/-- A fold of work reaches each of its elements. -/
theorem Work.foldl_at {A : Touch → Prop} {f : Option Nat} {β : Type} {g : State × List Report → β → State × List Report} {l : List β}
    (hg : ∀ x, ∀ b ∈ l, Work A f x (g x b)) {a : β} (ha : a ∈ l) (x : State × List Report) :
    ∃ y, Work A f x y ∧ Work A f (g y a) (l.foldl g x) := by
  induction l generalizing x with
  | nil => cases ha
  | cons b t ih =>
    rw [List.foldl_cons]
    have hg' : ∀ x, ∀ c ∈ t, Work A f x (g x c) := fun x c hc => hg x c (by simp [hc])
    rcases List.mem_cons.1 ha with rfl | ha
    · exact ⟨x, .refl x, .foldl t hg' _⟩
    · obtain ⟨y, h1, h2⟩ := ih hg' ha (g x b)
      exact ⟨y, (hg x b (by simp)).trans h1, h2⟩

/-! ## A cluster through an evaluation step -/

/-- The port registers of a cluster written, and no more. -/
def portsOnly (c c' : Cluster) : Prop := ∃ ma mwd ho hwd xfd xs, c' = { c with ma := ma, mwd := mwd, ho := ho, hwd := hwd, xfd := xfd, xsent := xs }

theorem portsOnly.refl (c : Cluster) : portsOnly c c := ⟨_, _, _, _, _, _, rfl⟩

theorem portsOnly.trans {a b c : Cluster} (h1 : portsOnly a b) (h2 : portsOnly b c) : portsOnly a c := by
  obtain ⟨_, _, _, _, _, _, rfl⟩ := h1
  obtain ⟨_, _, _, _, _, _, rfl⟩ := h2
  exact ⟨_, _, _, _, _, _, rfl⟩

section
variable {s0 : State} {cl st p : Nat} {f : ProcFault}

theorem portReg_portsOnly (c0 : Cluster) (a : PortAcc) (o : ProcOut) : portsOnly a.c (portReg c0 a o).c := by
  unfold portReg
  dsimp only
  split
  · split_ifs
    · exact .refl _
    · exact ⟨_, _, _, _, _, _, rfl⟩
  · split_ifs
    · exact .refl _
    · exact ⟨_, _, _, _, _, _, rfl⟩
  · exact ⟨_, _, _, _, _, _, rfl⟩
  · exact ⟨_, _, _, _, _, _, rfl⟩
  · exact ⟨_, _, _, _, _, _, rfl⟩
  · split_ifs <;> exact .refl _
  · split_ifs <;> exact .refl _
  · split_ifs
    · exact .refl _
    · exact ⟨_, _, _, _, _, _, rfl⟩
    · exact ⟨_, _, _, _, _, _, rfl⟩
  · exact .refl _

theorem portAcc_portsOnly (outs : List ProcOut) (c : Cluster) : portsOnly (written st outs c) (portAcc s0 cl st outs c).c := by
  have h (outs : List ProcOut) (a : PortAcc) : portsOnly a.c (outs.foldl (portReg (getCl s0 cl)) a).c := by
    induction outs generalizing a with
    | nil => exact .refl _
    | cons o t ih => exact (portReg_portsOnly _ a o).trans (ih _)
  exact h outs { c := written st outs c }

theorem procStep_place : (procStep s0 cl st p f).lp = p ∧ (procStep s0 cl st p f).phys = physOf s0 cl p := by
  by_cases h : wordBad s0 cl st p
  · rw [procStep_bad h]
    exact ⟨rfl, rfl⟩
  · have hb : ¬ ((mget .clean (getCl s0 cl).iEcc (1024 * physOf s0 cl p + st) = Ecc.double) ||
        (mget .clean (getCl s0 cl).iEcc (1024 * physOf s0 cl p + st) = Ecc.poison) : Bool) = true := by
      simpa [wordBad, wordEcc] using h
    unfold procStep
    dsimp only
    rw [if_neg hb]
    split <;> exact ⟨rfl, rfl⟩

theorem procWrite_ds (o : ProcOut) (c : Cluster) : (procWrite st o c).ds = mset .x c.ds (2048 * o.phys + st) o.res := by
  unfold procWrite
  dsimp only
  split <;> rfl

/-- What the results of a step leave in an entry: those of its own number hold them, any other what it held. -/
theorem written_entry (hs : List Happening) (hst : st < 2048) (c : Cluster) :
    (p < 64 → dsGet (written st (clusterOuts s0 hs cl st) c) (physOf s0 cl p) st = (procStep s0 cl st p (procFaultOf hs cl p)).res) ∧
    ∀ ph e, e < 2048 → e ≠ st → dsGet (written st (clusterOuts s0 hs cl st) c) ph e = dsGet c ph e := by
  have hfold : written st (clusterOuts s0 hs cl st) c =
      (List.range 64).foldl (fun c p => procWrite st (procStep s0 cl st p (procFaultOf hs cl p)) c) c := by
    unfold written clusterOuts
    rw [List.foldl_map]
  rw [hfold]
  constructor
  · intro hp
    refine foldl_hit (fun c => dsGet c (physOf s0 cl p) st) (op := fun _ => (procStep s0 cl st p (procFaultOf hs cl p)).res) List.nodup_range
      (List.mem_range.2 hp) (fun c b hb hne => ?_) (fun c => ?_) c
    · unfold dsGet
      rw [procWrite_ds, procStep_place.2]
      have : physOf s0 cl b ≠ physOf s0 cl p := fun h => hne (physOf_inj (List.mem_range.1 hb) hp h)
      exact mget_mset_other _ _ _ _ _ (by omega)
    · unfold dsGet
      rw [procWrite_ds, procStep_place.2]
      exact mget_mset_same ..
  · intro ph e he hne
    refine foldl_fix (fun c => dsGet c ph e) (fun c b => ?_) _ c
    unfold dsGet
    rw [procWrite_ds]
    exact mget_mset_other _ _ _ _ _ (by omega)

end

section
variable {hs : List Happening} {s0 : State} {cl st : Nat}

/-- Another cluster's part of a step leaves a cluster. -/
theorem Trail.clu_apart {A : Touch → Prop} {s t : State} (h : Trail A s t) (hw : mwf Cluster.fresh s.fab = true) (hclu : ∀ R, ¬ A (.clu cl R))
    (hexp : ¬ A .exports) : getCl t cl = getCl s cl :=
  h.cluster (Q := fun c c' => c' = c) (fun _ => rfl) (fun h1 h2 => h2.trans h1) hw cl (fun R hA => absurd hA (hclu R)) fun hA => absurd hA hexp

/-- What a cluster's own part of a step leaves of it: its stores and port registers written, operations and mismatches added. -/
theorem clusterApply_cluster (x : State × List Report) (hw : mwf Cluster.fresh x.1.fab = true) (outs : List ProcOut) :
    extended (portAcc s0 cl st outs (getCl x.1 cl)).c (getCl (clusterApply s0 hs cl st outs x).1 cl) := by
  have hw1 : mwf Cluster.fresh (setCl cl (portAcc s0 cl st outs (getCl x.1 cl)).c x.1).fab = true := mwf_mset hw _ _
  have flags := trail_storesFlags (s0 := s0) (cl := cl) st outs x (A := fun τ => τ = .flag (cStat cl) ∨ τ = .count (cEcc cl) 15 0) (.inl rfl) (.inr rfl)
  have e : getCl (storesAct s0 cl st outs x).1 cl = (portAcc s0 cl st outs (getCl x.1 cl)).c :=
    (flags.clu_apart hw1 (fun R h => by rcases h with h | h <;> cases h) (fun h => by rcases h with h | h <;> cases h)).trans
      (mget_mset_same ..)
  rw [← e]
  refine (work_clusterTail hs st outs x).trail.cluster .refl .trans (flags.canonical hw1) cl (fun R hA c c' hR => ?_) fun hA => (hA.elim id id).elim
  rcases hA with ⟨-, rfl⟩ | ⟨-, rfl⟩
  · exact hR
  · exact hR.extended

/-- A cluster after the fabric's part of a step. -/
theorem fabricStep_cluster (hw : mwf Cluster.fresh s0.fab = true) :
    (basinRuns s0 (cl / 64) = true →
      extended (portAcc s0 cl st (clusterOuts s0 hs cl st) (getCl s0 cl)).c (getCl (fabricStep s0 hs st s0).1 cl)) ∧
    (basinRuns s0 (cl / 64) = false → getCl (fabricStep s0 hs st s0).1 cl = getCl s0 cl) := by
  have canon := (work_clusterPhase (s0 := s0) hs st (s0, [])).trail.canonical hw
  have ports : getCl (fabricStep s0 hs st s0).1 cl = getCl (clusterPhase s0 hs st (s0, [])).1 cl := by
    rw [fabricStep_eq]
    refine Trail.clu_apart (A := fun τ => (∃ cls, sharedTouch cls τ) ∨ gauTouch τ ∨ trcTouch τ)
      (((work_sluicePort st _ _).trail.mono fun τ h => .inl ⟨_, h⟩).trans (((work_gaugePort _ _).trail.mono fun τ h => .inr (.inl h)).trans
        ((work_tracePort _ _).trail.mono fun τ h => .inr (.inr h)))) canon (fun R h => ?_) fun h => ?_
    · rcases h with ⟨_, _, _, h⟩ | h | h <;> exact h
    · rcases h with ⟨_, _, _, h⟩ | h | h <;> exact h
  rw [ports]
  have step (x : State × List Report) (d : Nat) : Trail (cluTouch d) x.1 (clusterApply s0 hs d st (clusterOuts s0 hs d st) x).1 :=
    (work_clusterApply hs st x).trail
  constructor
  · intro hrun
    exact foldl_rel (fun x : State × List Report => getCl x.1 cl) (fun x => mwf Cluster.fresh x.1.fab = true)
      (P := fun c c' => extended (portAcc s0 cl st (clusterOuts s0 hs cl st) c).c c') (nodup_runClusters s0) (mem_runClusters.2 hrun)
      (fun x hx d _ => (step x d).canonical hx) (fun x hx d _ hne => (step x d).clu_apart hx (fun R h => hne (Eq.symm h)) id)
      (fun x hx => clusterApply_cluster x hx _) (s0, []) hw
  · intro hrun
    refine (work_clusterPhase (s0 := s0) hs st (s0, [])).trail.clu_apart hw (fun R h => ?_) fun ⟨d, _, h⟩ => h
    obtain ⟨d, hd, h⟩ := h
    obtain rfl : cl = d := h
    rw [mem_runClusters, hrun] at hd
    cases hd

end

/-! ### Through the reach network and the memory ports -/

/-- Landings and the memory port's operations: entries outside the import entries stand, and all but MRD of the registers. -/
def carried (c c' : Cluster) : Prop := outsideKept c c' ∧ ∃ ds bp ops mrd, c' = { c with ds := ds, badPar := bp, memOps := ops, mrd := mrd }

theorem carried.refl (c : Cluster) : carried c c := ⟨.refl c, _, _, _, _, rfl⟩

theorem carried.trans {a b c : Cluster} (h1 : carried a b) (h2 : carried b c) : carried a c := by
  obtain ⟨k1, _, _, _, _, rfl⟩ := h1
  obtain ⟨k2, _, _, _, _, rfl⟩ := h2
  exact ⟨k1.trans k2, _, _, _, _, rfl⟩

theorem Trail.transit_carried {cls : List Nat} {s t : State} (h : Trail (transitTouch cls) s t) (hw : mwf Cluster.fresh s.fab = true) (cl : Nat) :
    carried (getCl s cl) (getCl t cl) := by
  refine h.cluster .refl .trans hw cl (fun R hA c c' hR => ?_) fun hA => ?_
  · rcases hA with (⟨d, -, -, rfl⟩ | hA) | ⟨-, rfl⟩
    · have hout := landed.outside hR
      obtain ⟨ds, bp, rfl, -⟩ := hR
      exact ⟨hout, _, _, _, _, rfl⟩
    · exact absurd hA id
    · have hout := memMoved.outside hR
      obtain ⟨ops, mrd, rfl⟩ := hR
      exact ⟨hout, _, _, _, _, rfl⟩
  · rcases hA with (⟨d, -, hA⟩ | hA) | hA <;> exact absurd hA id

end Sys2Proof.Machine

namespace Sys2Proof.Machine

/-! ## Registers along a row of writes -/

/-- How a write of each kind changes a register. -/
theorem reg_writes {τ : Touch} {s t : State} (h : writes τ s t) (off : Nat) :
    rget t off = rget s off ∨ τ = .reg off ∨ (τ = .first off ∧ rbit s off 31 = false) ∨ (∃ i, τ = .flag off ∧ t = rflag off i s) ∨
      (∃ hi lo k, τ = .count off hi lo ∧ t = rcount off hi lo k s) ∨ (τ = .books ∧ Noise s t) := by
  have at_ (o : Nat) (w : Word) : rget (rset o w s) off = rget s off ∨ o = off := by
    by_cases e : off = o
    · exact .inr e.symm
    · exact .inl (rget_rset_other _ _ _ _ e)
  cases τ with
  | reg o => obtain ⟨w, rfl⟩ := h; exact (at_ o w).imp id fun e => .inl (congrArg _ e)
  | first o =>
    obtain ⟨w, rfl, hb⟩ := h
    refine (at_ o w).imp id fun e => .inr (.inl ?_)
    subst e
    exact ⟨rfl, hb⟩
  | flag o =>
    obtain ⟨i, rfl⟩ := h
    refine (at_ o _).imp id fun e => .inr (.inr (.inl ?_))
    subst e
    exact ⟨i, rfl, rfl⟩
  | count o hi lo =>
    obtain ⟨k, rfl⟩ := h
    refine (at_ o _).imp id fun e => .inr (.inr (.inr (.inl ?_)))
    subst e
    exact ⟨hi, lo, k, rfl, rfl⟩
  | books => exact .inr (.inr (.inr (.inr (.inr ⟨rfl, h⟩))))
  | clu cl R => obtain ⟨_, -, rfl⟩ := h; exact .inl rfl
  | exports => rw [h]; exact .inl rfl
  | req q => obtain ⟨_, rfl, -⟩ := h; exact .inl rfl
  | frags cl => obtain ⟨_, rfl, -⟩ := h; exact .inl rfl
  | probes => obtain ⟨_, _, _, rfl⟩ := h; exact .inl rfl
  | slu | lane | gau | trc | bas | lnk | free | dmc => obtain ⟨_, rfl⟩ := h; exact .inl rfl

/-- Registers from the gauge unit's block on, but a sluice's counts, are not the books'. -/
abbrev apart (off : Nat) : Prop := 0xD0000 ≤ off ∧ (off < 0xE1200 ∨ 0xE1400 ≤ off)

theorem Noise.reg {s t : State} (h : Noise s t) {off : Nat} (ho : apart off) : rget t off = rget s off := by
  have e := congrFun (congrArg Quiet.regs h.view) off
  rw [quiet_regs, quiet_regs, quietReg, quietReg, if_neg (fun hb => absurd hb.1 (by omega)), if_neg (fun hb => absurd hb.1 (by omega)),
    if_neg (by omega), if_neg (by omega)] at e
  exact BitVec.eq_of_toNat_eq e

section
variable {A : Touch → Prop} {s t : State} {off : Nat}

/-- A flag stays set where flags alone are written. -/
theorem Trail.flag_stays (h : Trail A s t) (ho : apart off) (hr : ¬ A (.reg off)) (hf : ¬ A (.first off)) (hc : ∀ hi lo, ¬ A (.count off hi lo))
    {i : Nat} (hs : rbit s off i = true) : rbit t off i = true := by
  refine h.keep (P := fun u => rbit u off i = true) (fun τ hA u v hw hu => ?_) hs
  rcases reg_writes hw off with e | rfl | ⟨rfl, -⟩ | ⟨k, -, rfl⟩ | ⟨hi, lo, k, rfl, -⟩ | ⟨-, hn⟩
  · unfold rbit at hu ⊢; rwa [e]
  · exact absurd hA hr
  · exact absurd hA hf
  · exact rbit_rflag_mono off k hu
  · exact absurd hA (hc hi lo)
  · unfold rbit at hu ⊢; rwa [hn.reg ho]

/-- A record stays. -/
theorem Trail.record_stays (h : Trail A s t) (ho : apart off) (hr : ¬ A (.reg off)) (hc : ∀ hi lo, ¬ A (.count off hi lo))
    (hs : rbit s off 31 = true) : rbit t off 31 = true := by
  refine h.keep (P := fun u => rbit u off 31 = true) (fun τ hA u v hw hu => ?_) hs
  rcases reg_writes hw off with e | rfl | ⟨rfl, hb⟩ | ⟨k, -, rfl⟩ | ⟨hi, lo, k, rfl, -⟩ | ⟨-, hn⟩
  · unfold rbit at hu ⊢; rwa [e]
  · exact absurd hA hr
  · rw [hu] at hb; cases hb
  · exact rbit_rflag_mono off k hu
  · exact absurd hA (hc hi lo)
  · unfold rbit at hu ⊢; rwa [hn.reg ho]

/-- A counter alone in its register never falls. -/
theorem Trail.counter_rises (h : Trail A s t) (ho : apart off) (hr : ¬ A (.reg off)) (hf : ¬ A (.first off)) (hg : ¬ A (.flag off)) {hi lo : Nat}
    (hhi : hi < 32) (hc : ∀ a b, A (.count off a b) → a = hi ∧ b = lo) : rfld s off hi lo ≤ rfld t off hi lo := by
  refine h.keep (P := fun u => rfld s off hi lo ≤ rfld u off hi lo) (fun τ hA u v hw hu => ?_) le_rfl
  rcases reg_writes hw off with e | rfl | ⟨rfl, -⟩ | ⟨k, rfl, -⟩ | ⟨a, b, k, rfl, rfl⟩ | ⟨-, hn⟩
  · unfold rfld at hu ⊢; rwa [e]
  · exact absurd hA hr
  · exact absurd hA hf
  · exact absurd hA hg
  · obtain ⟨rfl, rfl⟩ := hc a b hA
    refine hu.trans ?_
    simp only [rfld, rcount, rmod, rget_rset_same]
    exact fld_satFld_mono _ hhi k
  · unfold rfld at hu ⊢; rwa [hn.reg ho]

/-- A register that the row does not write. -/
theorem Trail.reg_stands (h : Trail A s t) (ho : apart off ∨ ¬ A .books) (hr : ¬ A (.reg off)) (hf : ¬ A (.first off)) (hg : ¬ A (.flag off))
    (hc : ∀ a b, ¬ A (.count off a b)) : rget t off = rget s off := by
  refine h.fix (rget · off) fun τ hA u v hw => ?_
  rcases reg_writes hw off with e | rfl | ⟨rfl, -⟩ | ⟨k, rfl, -⟩ | ⟨a, b, k, rfl, -⟩ | ⟨rfl, hn⟩
  · exact e
  · exact absurd hA hr
  · exact absurd hA hf
  · exact absurd hA hg
  · exact absurd hA (hc a b)
  · exact hn.reg (ho.resolve_right (not_not_intro hA))

end

/-! ### What an evaluation step writes -/

/-- What an evaluation step writes before its faults are taken. -/
def evalTouch (cls : List Nat) : Touch → Prop := fun τ => fabTouch cls τ ∨ transitTouch cls τ

section
variable {cls : List Nat} {off hi lo : Nat}

theorem evalTouch_reg (h : evalTouch cls (.reg off)) : (∃ d, off = cShd d ∨ off = cRepair d) ∨ (∃ d ∈ cls, off = oBasContRecF (d / 64)) ∨ off = oDmcUeRec := by
  rcases h with (⟨d, -, h⟩ | ⟨d, -, h⟩ | h | h) | (⟨d, hd, h⟩ | h) | h
  · exact .inl ⟨d, h⟩
  · exact absurd h id
  · exact absurd h id
  · exact absurd h id
  · exact .inr (.inl ⟨d, hd, h⟩)
  · exact absurd h id
  · exact .inr (.inr h)

theorem evalTouch_first (h : evalTouch cls (.first off)) : ∃ d ∈ cls, off = oBasContRec (d / 64) := by
  rcases h with (⟨d, -, h⟩ | ⟨d, -, h⟩ | h | h) | (⟨d, hd, h⟩ | h) | h
  · exact absurd h id
  · exact absurd h id
  · exact absurd h id
  · exact absurd h id
  · exact ⟨d, hd, h⟩
  · exact absurd h id
  · exact absurd h id

theorem evalTouch_flag (h : evalTouch cls (.flag off)) :
    (∃ d, off = cStat d) ∨ off = oHldSts ∨ (∃ d ∈ cls, off = oBasReachSts (d / 64)) ∨ off = oDmcSts := by
  rcases h with (⟨d, -, h⟩ | ⟨d, -, h⟩ | ⟨d, h⟩ | ⟨d, h⟩) | (⟨d, hd, h⟩ | h) | h
  · exact .inl ⟨d, h⟩
  · exact h.elim (fun h => .inr (.inl h)) fun h => .inl ⟨d, h⟩
  · exact .inl ⟨d, h⟩
  · exact .inl ⟨d, h⟩
  · exact h.elim (fun h => .inr (.inr (.inl ⟨d, hd, h⟩))) fun h => .inl ⟨d, h⟩
  · exact absurd h id
  · exact .inr (.inr (.inr h))

theorem evalTouch_count (h : evalTouch cls (.count off hi lo)) : (∃ d, off = cEcc d ∨ off = cXev d) ∨
    (∃ d ∈ cls, off = oHldSluCnt (sluiceOf d) ∧ hi = 31 ∧ lo = 16) ∨ (∃ d ∈ cls, (off = oBasContHard (d / 64) ∨ off = oBasContBen (d / 64)) ∧ hi = 31 ∧ lo = 0) ∨
    (∃ d ∈ cls, off = oBasImpOvf (d / 64) ∧ hi = 15 ∧ lo = 0) ∨ (∃ d ∈ cls, off = oBasRwEcc (d / 64)) ∨ off = oDmcEccCnt := by
  rcases h with (⟨d, -, h⟩ | ⟨d, hd, h⟩ | h | h) | (⟨d, hd, h⟩ | h) | h
  · exact .inl ⟨d, h⟩
  · exact .inr (.inl ⟨d, hd, h⟩)
  · exact absurd h id
  · exact absurd h id
  · rcases h with h | h | h
    · exact .inr (.inr (.inl ⟨d, hd, h⟩))
    · exact .inr (.inr (.inr (.inl ⟨d, hd, h⟩)))
    · exact .inr (.inr (.inr (.inr (.inl ⟨d, hd, h⟩))))
  · exact absurd h id
  · exact .inr (.inr (.inr (.inr (.inr h))))

end

/-! ### Basin registers in an evaluation step -/

section
variable {s0 : State} {b : Nat} {s t : State}

/-- The basin of a running cluster. -/
theorem basin_lt {d : Nat} (h : d ∈ runClusters s0) : d / 64 < 32 := by
  have hrun := mem_runClusters.1 h
  unfold basinRuns at hrun
  simp only [Bool.and_eq_true, decide_eq_true_eq] at hrun
  exact lt_of_lt_of_le hrun.1.1.1 (nBasins_le s0)

theorem sluiceOf_lt {d : Nat} (h : d / 64 < 32) : sluiceOf d < 128 := by
  have := Nat.mod_lt d (by decide : 64 > 0)
  unfold sluiceOf
  omega

/-- Register `k` of basin `b`'s reach network. -/
def basReg (b k : Nat) : Nat := 0x100100 + 65536 * b + k

theorem cluReg_apart {off : Nat} : (∃ d, off = cShd d ∨ off = cRepair d) ∨ (∃ d, off = cStat d) ∨ (∃ d, off = cEcc d ∨ off = cXev d) →
    1024 ≤ off % 65536 := by
  rintro (⟨d, h | h⟩ | ⟨d, h⟩ | ⟨d, h | h⟩) <;>
  · have := Nat.mod_lt d (by decide : 64 > 0)
    simp only [cShd, cRepair, cStat, cEcc, cXev, oCluShd, oCluRepair, oCluStat, oCluEcc, oCluXev] at h
    omega

section
variable {k hi lo : Nat} (hk : k < 0x24)
include hk

theorem basReg_apart : apart (basReg b k) := by unfold apart basReg; omega

theorem not_cluReg : ¬((∃ d, basReg b k = cShd d ∨ basReg b k = cRepair d) ∨ (∃ d, basReg b k = cStat d) ∨
    (∃ d, basReg b k = cEcc d ∨ basReg b k = cXev d)) := by
  intro h
  have := cluReg_apart h
  unfold basReg at this
  omega

/-- Which of them an evaluation step overwrites, records in, flags, counts in. -/
theorem basReg_reg (h : evalTouch (runClusters s0) (.reg (basReg b k))) : k = 0x18 := by
  rcases evalTouch_reg h with e | ⟨d, -, e⟩ | e
  · exact absurd (.inl e) (not_cluReg hk)
  · unfold basReg oBasContRecF at e; omega
  · unfold basReg oDmcUeRec at e; omega

theorem basReg_first (h : evalTouch (runClusters s0) (.first (basReg b k))) : k = 0x14 := by
  obtain ⟨d, -, e⟩ := evalTouch_first h
  unfold basReg oBasContRec at e
  omega

theorem basReg_flag (h : evalTouch (runClusters s0) (.flag (basReg b k))) : k = 4 := by
  rcases evalTouch_flag h with e | e | ⟨d, -, e⟩ | e
  · exact absurd (.inr (.inl e)) (not_cluReg hk)
  · unfold basReg oHldSts at e; omega
  · unfold basReg oBasReachSts at e; omega
  · unfold basReg oDmcSts at e; omega

theorem basReg_count (h : evalTouch (runClusters s0) (.count (basReg b k) hi lo)) :
    (k = 0xC ∨ k = 0x10) ∧ hi = 31 ∧ lo = 0 ∨ k = 0x1C ∧ hi = 15 ∧ lo = 0 ∨ k = 0x20 := by
  rcases evalTouch_count h with e | ⟨d, hd, e, -⟩ | ⟨d, -, e, h⟩ | ⟨d, -, e, h⟩ | ⟨d, -, e⟩ | e
  · exact absurd (.inr (.inr e)) (not_cluReg hk)
  · have := sluiceOf_lt (basin_lt hd)
    unfold basReg oHldSluCnt at e
    omega
  · unfold basReg oBasContHard oBasContBen at e
    exact .inl ⟨by omega, h⟩
  · unfold basReg oBasImpOvf at e
    exact .inr (.inl ⟨by omega, h⟩)
  · unfold basReg oBasRwEcc at e
    exact .inr (.inr (by omega))
  · unfold basReg oDmcEccCnt at e
    omega

end

variable (h : Trail (evalTouch (runClusters s0)) s t)
include h

theorem reachSts_stays {i : Nat} (hs : rbit s (oBasReachSts b) i = true) : rbit t (oBasReachSts b) i = true := by
  rw [show oBasReachSts b = basReg b 4 by unfold oBasReachSts basReg; omega] at hs ⊢
  refine h.flag_stays (basReg_apart (by decide)) (fun hA => ?_) (fun hA => ?_) (fun hi lo hA => ?_) hs
  · exact absurd (basReg_reg (by decide) hA) (by decide)
  · exact absurd (basReg_first (by decide) hA) (by decide)
  · have := basReg_count (by decide) hA; omega

theorem contRec_stays (hs : rbit s (oBasContRec b) 31 = true) : rbit t (oBasContRec b) 31 = true := by
  rw [show oBasContRec b = basReg b 0x14 by unfold oBasContRec basReg; omega] at hs ⊢
  refine h.record_stays (basReg_apart (by decide)) (fun hA => ?_) (fun hi lo hA => ?_) hs
  · exact absurd (basReg_reg (by decide) hA) (by decide)
  · have := basReg_count (by decide) hA; omega

/-- The counters of contentions and of overflows never fall. -/
theorem basCount_rises {k hi : Nat} (hk : (k = 0xC ∨ k = 0x10) ∧ hi = 31 ∨ k = 0x1C ∧ hi = 15) :
    rfld s (basReg b k) hi 0 ≤ rfld t (basReg b k) hi 0 := by
  have hk24 : k < 0x24 := by omega
  refine h.counter_rises (basReg_apart hk24) (fun hA => ?_) (fun hA => ?_) (fun hA => ?_) (by omega) (fun a c hA => ?_)
  · have := basReg_reg hk24 hA; omega
  · have := basReg_first hk24 hA; omega
  · have := basReg_flag hk24 hA; omega
  · have := basReg_count hk24 hA; omega

/-- A cluster's flags stay. -/
theorem cStat_stays {cl i : Nat} (hs : rbit s (cStat cl) i = true) : rbit t (cStat cl) i = true := by
  have hoff : 0x100400 ≤ cStat cl ∧ cStat cl % 256 = 0 ∧ 1024 ≤ cStat cl % 65536 := by
    have := Nat.mod_lt cl (by decide : 64 > 0)
    unfold cStat oCluStat; omega
  refine h.flag_stays (by omega) (fun hA => ?_) (fun hA => ?_) (fun hi lo hA => ?_) hs
  · rcases evalTouch_reg hA with ⟨d, e | e⟩ | ⟨d, -, e⟩ | e
    · rw [e] at hoff; unfold cShd oCluShd at hoff; omega
    · rw [e] at hoff; unfold cRepair oCluRepair at hoff; omega
    · rw [e] at hoff; unfold oBasContRecF at hoff; omega
    · rw [e] at hoff; unfold oDmcUeRec at hoff; omega
  · obtain ⟨d, -, e⟩ := evalTouch_first hA
    rw [e] at hoff; unfold oBasContRec at hoff; omega
  · rcases evalTouch_count hA with ⟨d, e | e⟩ | ⟨d, hd, e, -⟩ | ⟨d, -, e | e, -⟩ | ⟨d, -, e, -⟩ | ⟨d, -, e⟩ | e
    · rw [e] at hoff; unfold cEcc oCluEcc at hoff; omega
    · rw [e] at hoff; unfold cXev oCluXev at hoff; omega
    · have := sluiceOf_lt (basin_lt hd)
      rw [e] at hoff; unfold oHldSluCnt at hoff; omega
    · rw [e] at hoff; unfold oBasContHard at hoff; omega
    · rw [e] at hoff; unfold oBasContBen at hoff; omega
    · rw [e] at hoff; unfold oBasImpOvf at hoff; omega
    · rw [e] at hoff; unfold oBasRwEcc at hoff; omega
    · rw [e] at hoff; unfold oDmcEccCnt at hoff; omega

end

/-! ### Reports -/

/-- A fault of this code is among the reports. -/
def reported (code : Nat) (x : State × List Report) : Prop := ∃ r ∈ x.2, r.code = code ∧ r.inj = false

theorem Work.reported {A : Touch → Prop} {f : Option Nat} {x y : State × List Report} (h : Work A f x y) {code : Nat} (hx : reported code x) :
    reported code y := by
  obtain ⟨rs, e, -⟩ := h.reps
  obtain ⟨r, hr, hc⟩ := hx
  exact ⟨r, by rw [e]; exact List.mem_append_left _ hr, hc⟩

/-- The class of a fault reported in a step is flagged in SAF_STS, hard contention's as HC_DESIGN names it. -/
theorem PosOver.classFlag {y : State × List Report} {u : State} (h : PosOver y.2 y.1 u) {code : Nat} (hr : reported code y) (hc : code ≠ 0x2001)
    (hlt : code / 4096 < 32) : rbit u oSafSts (code / 4096) = true := by
  obtain ⟨r, hr, rfl, hi⟩ := hr
  have hname : namedCode y.1 r = r.code := by
    unfold namedCode designCode
    simp [hi, hc]
  have := h.flags r hr
  rw [hname] at this
  exact this hlt

theorem PosOver.contentionFlag {y : State × List Report} {u : State} (h : PosOver y.2 y.1 u) (hr : reported 0x2001 y) :
    rbit u oSafSts (if rbit y.1 oSafCtl 0 then 13 else 2) = true := by
  obtain ⟨r, hr, hc, hi⟩ := hr
  have := h.flags r hr
  unfold namedCode designCode at this
  rw [hi, hc] at this
  cases hb : rbit y.1 oSafCtl 0 <;> simp [hb] at this ⊢ <;> exact this

/-- An evaluation step does not write SAF_CTL. -/
theorem eval_safCtl {s0 s t : State} (h : Trail (evalTouch (runClusters s0)) s t) : rget t oSafCtl = rget s oSafCtl := by
  refine h.fix (rget · oSafCtl) fun τ hA u v hw => ?_
  rcases reg_writes hw oSafCtl with e | rfl | ⟨rfl, -⟩ | ⟨k, rfl, -⟩ | ⟨a, c, k, rfl, -⟩ | ⟨-, hn⟩
  · exact e
  · rcases evalTouch_reg hA with e | ⟨d, -, e⟩ | e
    · have := cluReg_apart (.inl e); exact absurd this (by decide)
    · unfold oSafCtl oBasContRecF at e; omega
    · exact absurd e (by decide)
  · obtain ⟨d, -, e⟩ := evalTouch_first hA
    unfold oSafCtl oBasContRec at e; omega
  · rcases evalTouch_flag hA with e | e | ⟨d, -, e⟩ | e
    · have := cluReg_apart (.inr (.inl e)); exact absurd this (by decide)
    · exact absurd e (by decide)
    · unfold oSafCtl oBasReachSts at e; omega
    · exact absurd e (by decide)
  · rcases evalTouch_count hA with e | ⟨d, hd, e, -⟩ | ⟨d, -, e | e, -⟩ | ⟨d, -, e, -⟩ | ⟨d, -, e⟩ | e
    · have := cluReg_apart (.inr (.inr e)); exact absurd this (by decide)
    · unfold oSafCtl oHldSluCnt at e; omega
    · unfold oSafCtl oBasContHard at e; omega
    · unfold oSafCtl oBasContBen at e; omega
    · unfold oSafCtl oBasImpOvf at e; omega
    · unfold oSafCtl oBasRwEcc at e; omega
    · exact absurd e (by decide)
  · exact hn.safCtl

end Sys2Proof.Machine

namespace Sys2Proof.Machine

/-! ## The landings of an evaluation step (R105-R108) -/

/-- What two slots of a routing word bring an import entry of port 1. -/
def slotsVal (s0 : State) (b : Nat) (w : BitVec 256) (kept : List Nat) (old : V4) : V4 :=
  match kept with
  | [] => old
  | [k] => srcVal s0 b (rSrc w k)
  | k :: l :: _ => (resolve2 (srcVal s0 b (rSrc w k)) (srcVal s0 b (rSrc w l))).1

/-- The slots of a processor that land, after the local value. -/
def keptSlots (w : BitVec 256) (p : Nat) : List Nat := (landSlots w p).take (2 - b2n (rLocen w p))

/-- A cluster after the landings of one processor. -/
def landLocal (s0 : State) (cl : Nat) (w : BitVec 256) (p : Nat) (c : Cluster) : Cluster :=
  if rLocen w p then landAt (physOf s0 cl p) 0 s0.seq.pos (expoVal (getCl s0 cl) ((p + 64 - rRot w) % 64)) c else c
def landCl (s0 : State) (cl : Nat) (w : BitVec 256) (p : Nat) (c : Cluster) : Cluster :=
  match keptSlots w p with
  | [] => landLocal s0 cl w p c
  | [k] => landAt (physOf s0 cl p) 1 s0.seq.pos (srcVal s0 (cl / 64) (rSrc w k)) (landLocal s0 cl w p c)
  | k :: l :: _ => landAt (physOf s0 cl p) 1 s0.seq.pos (resolve2 (srcVal s0 (cl / 64) (rSrc w k)) (srcVal s0 (cl / 64) (rSrc w l))).1
      (landLocal s0 cl w p c)

section
variable {s0 : State} {cl : Nat}

theorem recordOnce_fab (c : Prop) [Decidable c] (o o' : Nat) (w w' : Word) (s : State) :
    (if c then s else rset o' w' (rset o w s)).fab = s.fab := ite_fix State.fab rfl rfl

theorem recordContention_fab (kind idx : Nat) (k : Option Bool) (s : State) : (recordContention s0 kind cl idx k s).1.fab = s.fab := by
  unfold recordContention
  split
  · rfl
  · rfl
  · exact (recordOnce_fab ..).trans ((rflag_fab ..).trans (rcount_fab ..))

theorem landProc_cluster (w : BitVec 256) (p : Nat) (x : State × List Report) :
    getCl (landProc s0 cl w p x).1 cl = landCl s0 cl w p (getCl x.1 cl) := by
  unfold landProc
  extract_lets c0 phys slots loc n kept x0 x1
  have h0 : getCl x0.1 cl = getCl x.1 cl := by
    unfold x0
    split_ifs <;> rfl
  have h1 : getCl x1.1 cl = landLocal s0 cl w p (getCl x.1 cl) := by
    unfold x1 landLocal
    rw [← h0]
    split_ifs
    · exact mget_mset_same ..
    · rfl
  have hkept : keptSlots w p = kept := rfl
  unfold landCl
  rw [hkept, ← h1]
  clear_value kept x1
  split
  · rfl
  · exact mget_mset_same ..
  · refine Eq.trans (congrArg (mget _ · cl) (recordContention_fab ..)) ?_
    exact mget_mset_same ..

/-- The entries of a cluster that the landings of one processor write: its two import entries of the step. -/
theorem landCl_entry (w : BitVec 256) {p : Nat} (c : Cluster) :
    dsGet (landCl s0 cl w p c) (physOf s0 cl p) (1024 + s0.seq.pos % 384) =
      (if rLocen w p then expoVal (getCl s0 cl) ((p + 64 - rRot w) % 64) else dsGet c (physOf s0 cl p) (1024 + s0.seq.pos % 384)) ∧
    dsGet (landCl s0 cl w p c) (physOf s0 cl p) (1408 + s0.seq.pos % 384) =
      slotsVal s0 (cl / 64) w (keptSlots w p) (dsGet c (physOf s0 cl p) (1408 + s0.seq.pos % 384)) ∧
    ∀ ph e, 1024 ≤ e → e < 1792 → ph ≠ physOf s0 cl p ∨ (e ≠ 1024 + s0.seq.pos % 384 ∧ e ≠ 1408 + s0.seq.pos % 384) →
      dsGet (landCl s0 cl w p c) ph e = dsGet c ph e := by
  have hmod := Nat.mod_lt s0.seq.pos (by decide : 384 > 0)
  generalize hr : s0.seq.pos % 384 = r at hmod
  have e0 : 1024 + 384 * 0 + s0.seq.pos % 384 = 1024 + r := by omega
  have e1 : 1024 + 384 * 1 + s0.seq.pos % 384 = 1408 + r := by omega
  have localAt : dsGet (landLocal s0 cl w p c) (physOf s0 cl p) (1024 + r) =
      (if rLocen w p then expoVal (getCl s0 cl) ((p + 64 - rRot w) % 64) else dsGet c (physOf s0 cl p) (1024 + r)) := by
    unfold landLocal landAt
    rw [e0]
    split_ifs <;> simp
  have localOff (ph e : Nat) (h : 2048 * ph + e ≠ 2048 * physOf s0 cl p + (1024 + r)) :
      dsGet (landLocal s0 cl w p c) ph e = dsGet c ph e := by
    unfold landLocal landAt
    rw [e0]
    split_ifs
    · exact dsGet_dsPut_other _ _ h
    · rfl
  have portOff (v : V4) (c : Cluster) (ph e : Nat) (h : 2048 * ph + e ≠ 2048 * physOf s0 cl p + (1408 + r)) :
      dsGet (landAt (physOf s0 cl p) 1 s0.seq.pos v c) ph e = dsGet c ph e := by
    unfold landAt
    rw [e1]
    exact dsGet_dsPut_other _ _ h
  have portAt (v : V4) (c : Cluster) : dsGet (landAt (physOf s0 cl p) 1 s0.seq.pos v c) (physOf s0 cl p) (1408 + r) = v := by
    unfold landAt
    rw [e1]
    simp
  refine ⟨?_, ?_, fun ph e h1 h2 hne => ?_⟩
  · rw [← localAt]
    unfold landCl
    split
    · rfl
    · exact portOff _ _ _ _ (by omega)
    · exact portOff _ _ _ _ (by omega)
  · unfold landCl slotsVal
    split
    · exact localOff _ _ (by omega)
    · exact portAt _ _
    · exact portAt _ _
  · have ha : 2048 * ph + e ≠ 2048 * physOf s0 cl p + (1024 + r) := by omega
    have hb : 2048 * ph + e ≠ 2048 * physOf s0 cl p + (1408 + r) := by omega
    rw [← localOff ph e ha]
    unfold landCl
    split
    · rfl
    · exact portOff _ _ _ _ hb
    · exact portOff _ _ _ _ hb

/-- A cluster after X has landed on all its processors. -/
def landX (s0 : State) (cl : Nat) (p : Nat) (c : Cluster) : Cluster :=
  landAt (physOf s0 cl p) 1 s0.seq.pos .x (landAt (physOf s0 cl p) 0 s0.seq.pos .x c)

theorem landX_entry (p : Nat) (c : Cluster) :
    dsGet (landX s0 cl p c) (physOf s0 cl p) (1024 + s0.seq.pos % 384) = .x ∧ dsGet (landX s0 cl p c) (physOf s0 cl p) (1408 + s0.seq.pos % 384) = .x ∧
    ∀ ph e, 1024 ≤ e → e < 1792 → ph ≠ physOf s0 cl p ∨ (e ≠ 1024 + s0.seq.pos % 384 ∧ e ≠ 1408 + s0.seq.pos % 384) →
      dsGet (landX s0 cl p c) ph e = dsGet c ph e := by
  have hmod := Nat.mod_lt s0.seq.pos (by decide : 384 > 0)
  generalize hr : s0.seq.pos % 384 = r at hmod
  have e0 : 1024 + 384 * 0 + s0.seq.pos % 384 = 1024 + r := by omega
  have e1 : 1024 + 384 * 1 + s0.seq.pos % 384 = 1408 + r := by omega
  unfold landX landAt
  rw [e0, e1]
  refine ⟨?_, by simp, fun ph e h1 h2 hne => ?_⟩
  · rw [dsGet_dsPut_other _ _ (by omega)]
    simp
  · rw [dsGet_dsPut_other _ _ (by omega), dsGet_dsPut_other _ _ (by omega)]

/-! ### One cluster of the reach network -/

/-- A cluster after its reach network's step. -/
def reachCl (s0 : State) (cl : Nat) (c : Cluster) : Cluster :=
  if routeBad (getCl s0 cl) (routeWordNo s0) then (List.range 64).foldl (fun k p => landX s0 cl p k) c
  else (List.range 64).foldl (fun k p => landCl s0 cl (mget 0#256 (getCl s0 cl).rw (routeWordNo s0)) p k) c

theorem foldl_landProc_cluster (w : BitVec 256) (l : List Nat) (x : State × List Report) :
    getCl (l.foldl (fun x p => landProc s0 cl w p x) x).1 cl = l.foldl (fun k p => landCl s0 cl w p k) (getCl x.1 cl) := by
  induction l generalizing x with
  | nil => rfl
  | cons p t ih => rw [List.foldl_cons, List.foldl_cons, ih, landProc_cluster]

theorem putDriven_fab (b : Nat) (l e : List (Nat × V4)) (s : State) : (putDriven s0 b l e s).fab = s.fab := rfl

theorem reachCounted_fab (x : State × List Report) : (reachCounted s0 cl x).1.fab = x.1.fab := by
  unfold reachCounted
  split_ifs <;> rfl

theorem reachDriven_fab (x : State × List Report) : (reachDriven s0 cl x).1.fab = x.1.fab := by
  unfold reachDriven
  extract_lets w x1 x2 drv lanes x3 egr
  have h2 : x2.1.fab = x1.1.fab := by
    unfold x2
    split_ifs <;> rfl
  have h3 : x3.1.fab = x2.1.fab := by
    refine foldl_miss (fun x : State × List Report => x.1.fab) (fun y l _ => ?_) x2
    exact recordContention_fab (s0 := s0) (cl := cl) 0 l.1 l.2.2 y.1
  clear_value x3
  exact (putDriven_fab ..).trans (h3.trans (h2.trans (reachCounted_fab x)))

theorem reachX_cluster (x : State × List Report) : getCl (reachX s0 cl x).1 cl = landXs s0 cl (getCl x.1 cl) := by
  unfold reachX
  generalize landXs s0 cl (getCl x.1 cl) = c
  unfold getCl
  dsimp only
  rw [rflag_fab, rcount_fab, putDriven_fab]
  exact mget_mset_same ..

theorem reachCluster_cluster (x : State × List Report) : getCl (reachCluster s0 cl x).1 cl = reachCl s0 cl (getCl x.1 cl) := by
  rw [reachCluster_eq]
  unfold reachCl
  split_ifs
  · rw [reachX_cluster]
    unfold getCl
    rw [reachCounted_fab]
    rfl
  · rw [foldl_landProc_cluster]
    unfold getCl
    rw [reachDriven_fab]

/-- What the reach network leaves in the import entries of a running cluster. -/
theorem reachCl_entry {p : Nat} (hp : p < 64) (c : Cluster) :
    (routeBad (getCl s0 cl) (routeWordNo s0) = true → dsGet (reachCl s0 cl c) (physOf s0 cl p) (1024 + s0.seq.pos % 384) = .x ∧
      dsGet (reachCl s0 cl c) (physOf s0 cl p) (1408 + s0.seq.pos % 384) = .x) ∧
    (routeBad (getCl s0 cl) (routeWordNo s0) = false → let w := mget 0#256 (getCl s0 cl).rw (routeWordNo s0)
      dsGet (reachCl s0 cl c) (physOf s0 cl p) (1024 + s0.seq.pos % 384) =
        (if rLocen w p then expoVal (getCl s0 cl) ((p + 64 - rRot w) % 64) else dsGet c (physOf s0 cl p) (1024 + s0.seq.pos % 384)) ∧
      dsGet (reachCl s0 cl c) (physOf s0 cl p) (1408 + s0.seq.pos % 384) =
        slotsVal s0 (cl / 64) w (keptSlots w p) (dsGet c (physOf s0 cl p) (1408 + s0.seq.pos % 384))) ∧
    ∀ ph e, 1024 ≤ e → e < 1792 → e ≠ 1024 + s0.seq.pos % 384 → e ≠ 1408 + s0.seq.pos % 384 → dsGet (reachCl s0 cl c) ph e = dsGet c ph e := by
  have hmod := Nat.mod_lt s0.seq.pos (by decide : 384 > 0)
  have hmem := List.mem_range.2 hp
  have hne {q : Nat} (hq : q ∈ List.range 64) (h : q ≠ p) : physOf s0 cl p ≠ physOf s0 cl q := fun e => h (physOf_inj (List.mem_range.1 hq) hp e.symm)
  refine ⟨fun hbad => ?_, fun hgood => ?_, fun ph e h1 h2 h3 h4 => ?_⟩
  · unfold reachCl
    rw [if_pos hbad]
    constructor
    · exact foldl_hit (fun k => dsGet k (physOf s0 cl p) (1024 + s0.seq.pos % 384)) (op := fun _ => .x) List.nodup_range hmem
        (fun k q hq h => (landX_entry q k).2.2 _ _ (by omega) (by omega) (.inl (hne hq h))) (fun k => (landX_entry p k).1) c
    · exact foldl_hit (fun k => dsGet k (physOf s0 cl p) (1408 + s0.seq.pos % 384)) (op := fun _ => .x) List.nodup_range hmem
        (fun k q hq h => (landX_entry q k).2.2 _ _ (by omega) (by omega) (.inl (hne hq h))) (fun k => (landX_entry p k).2.1) c
  · unfold reachCl
    rw [if_neg (by rw [hgood]; decide)]
    generalize mget 0#256 (getCl s0 cl).rw (routeWordNo s0) = w
    constructor
    · exact foldl_hit (fun k => dsGet k (physOf s0 cl p) (1024 + s0.seq.pos % 384))
        (op := fun v => if rLocen w p then expoVal (getCl s0 cl) ((p + 64 - rRot w) % 64) else v) List.nodup_range hmem
        (fun k q hq h => (landCl_entry w k).2.2 _ _ (by omega) (by omega) (.inl (hne hq h))) (fun k => (landCl_entry w k).1) c
    · exact foldl_hit (fun k => dsGet k (physOf s0 cl p) (1408 + s0.seq.pos % 384)) (op := slotsVal s0 (cl / 64) w (keptSlots w p)) List.nodup_range hmem
        (fun k q hq h => (landCl_entry w k).2.2 _ _ (by omega) (by omega) (.inl (hne hq h))) (fun k => (landCl_entry w k).2.1) c
  · unfold reachCl
    split_ifs
    · exact foldl_miss (fun k => dsGet k ph e) (fun k q _ => (landX_entry q k).2.2 ph e h1 h2 (.inr ⟨h3, h4⟩)) c
    · exact foldl_miss (fun k => dsGet k ph e) (fun k q _ => (landCl_entry _ k).2.2 ph e h1 h2 (.inr ⟨h3, h4⟩)) c

end

end Sys2Proof.Machine

namespace Sys2Proof.Machine

/-! ## The reach network in an evaluation step -/

section
variable {s0 s : State} {cl : Nat}

/-- The links of the reach network, after its clusters. -/
def reachClusters (s0 s : State) : State × List Report := (runClusters s0).foldl (fun x cl => reachCluster s0 cl x) (s, [])

theorem work_reachLinks : Work linkTouch (frameNow s0) (reachClusters s0 s) (reachStep s0 s) := by
  unfold reachStep reachClusters
  extract_lets x links x1
  have h1 : Work linkTouch (frameNow s0) x x1 :=
    .foldl _ (fun y n hn => work_linkPresent (List.mem_range.1 (List.mem_filter.1 hn).1) y) _
  exact h1.trans (.quiet (.foldl _ (fun u n _ => .ite (trail_linkSend ..) (.refl u)) _))

/-- A cluster after the reach network's step. -/
theorem reachStep_cluster (hw : mwf Cluster.fresh s.fab = true) :
    (basinRuns s0 (cl / 64) = true → getCl (reachStep s0 s).1 cl = reachCl s0 cl (getCl s cl)) ∧
    (basinRuns s0 (cl / 64) = false → getCl (reachStep s0 s).1 cl = getCl s cl) := by
  have step (x : State × List Report) (d : Nat) : Trail (reachTouch d) x.1 (reachCluster s0 d x).1 := (work_reachCluster x).trail
  have clusters : Trail (fun τ => ∃ d ∈ runClusters s0, reachTouch d τ) s (reachClusters s0 s).1 :=
    (Work.foldl _ (fun x d hd => (work_reachCluster x).mono fun τ hτ => ⟨d, hd, hτ⟩) (s, [])).trail
  have links : getCl (reachStep s0 s).1 cl = getCl (reachClusters s0 s).1 cl :=
    work_reachLinks.trail.clu_apart (clusters.canonical hw) (fun R h => h) id
  rw [links]
  constructor
  · intro hrun
    exact foldl_rel (fun x : State × List Report => getCl x.1 cl) (fun x => mwf Cluster.fresh x.1.fab = true)
      (P := fun c c' => c' = reachCl s0 cl c) (nodup_runClusters s0) (mem_runClusters.2 hrun) (fun x hx d _ => (step x d).canonical hx)
      (fun x hx d _ hne => (step x d).clu_apart hx (fun R h => hne h.1.symm) id) (fun x _ => reachCluster_cluster x) (s, []) hw
  · intro hrun
    refine clusters.clu_apart hw (fun R h => ?_) fun ⟨d, _, h⟩ => h
    obtain ⟨d, hd, rfl, -⟩ := h
    rw [mem_runClusters, hrun] at hd
    cases hd

end

section
variable {hs : List Happening} {s0 : State} {cl : Nat}

theorem reported_andThen {g : State → State × List Report} {x : State × List Report} {code : Nat} (h : reported code (g x.1)) :
    reported code (andThen g x) := by
  obtain ⟨r, hr, hc⟩ := h
  exact ⟨r, List.mem_append_right _ hr, hc⟩

/-- An evaluation step reaches the reach network of each running cluster. -/
theorem eval_reach_at (hrun : basinRuns s0 (cl / 64) = true) : ∃ y, Trail (evalTouch (runClusters s0)) s0 y.1 ∧
    Trail (evalTouch (runClusters s0)) (reachCluster s0 cl y).1 (evalWork hs s0).1 ∧
    ∀ code, reported code (reachCluster s0 cl y) → reported code (evalWork hs s0) := by
  have fab := (work_fabricStep hs s0.seq.pos s0).mono (B := evalTouch (runClusters s0)) fun _ h => .inl h
  obtain ⟨y, h1, h2⟩ := Work.foldl_at (f := frameNow s0) (A := evalTouch (runClusters s0)) (g := fun x cl => reachCluster s0 cl x)
    (fun x d hd => (work_reachCluster x).mono fun τ hτ => .inr (.inl (.inl ⟨d, hd, hτ⟩))) (mem_runClusters.2 hrun)
    ((fabricStep s0 hs s0.seq.pos s0).1, [])
  have h3 : Work (evalTouch (runClusters s0)) (frameNow s0) (reachCluster s0 cl y) (reachStep s0 (fabricStep s0 hs s0.seq.pos s0).1) :=
    h2.trans (work_reachLinks.mono fun τ hτ => .inr (.inl (.inr hτ)))
  have hmem := (work_memPorts (s0 := s0) (andThen (reachStep s0) (fabricStep s0 hs s0.seq.pos s0)).1).mono
    (B := evalTouch (runClusters s0)) fun τ hτ => .inr (.inr hτ)
  have h4 := Work.andThen (g := memPorts s0) (x := andThen (reachStep s0) (fabricStep s0 hs s0.seq.pos s0)) hmem
  exact ⟨y, fab.trail.trans h1.trail, h3.trail.trans h4.trail, fun code hc => h4.reported (reported_andThen (h3.reported hc))⟩

/-- The reach network of a cluster whose routing word is sound reaches the landings of each processor. -/
theorem reach_landing_at (hgood : routeBad (getCl s0 cl) (routeWordNo s0) = false) {p : Nat} (hp : p < 64) (x : State × List Report) :
    ∃ y, Trail (reachTouch cl) x.1 y.1 ∧
      Work (reachTouch cl) (frameNow s0) (landProc s0 cl (mget 0#256 (getCl s0 cl).rw (routeWordNo s0)) p y) (reachCluster s0 cl x) := by
  rw [reachCluster_eq, hgood]
  obtain ⟨y, k1, k2⟩ := Work.foldl_at (f := frameNow s0) (A := reachTouch cl)
    (g := fun x p => landProc s0 cl (mget 0#256 (getCl s0 cl).rw (routeWordNo s0)) p x)
    (fun x p _ => work_landProc _ p x) (List.mem_range.2 hp) (reachDriven s0 cl x)
  exact ⟨y, (work_reachDriven x).trail.trans k1.trail, k2⟩

end

end Sys2Proof.Machine

namespace Sys2Proof.Machine

/-! ## What contention and overflow leave behind -/

section
variable {s0 s : State} {cl : Nat}

theorem rget_strikes (hs : List Happening) (s : State) (off : Nat) : rget (strikes hs s) off = rget s off := by
  unfold rget
  rw [strikes_regs]

/-- The record of a contention is marked as one. -/
theorem contRecord_marked {kind c idx pos : Nat} (hk : kind ≤ 1) (hc : c < 64) (hi : idx < 64) (hp : pos < 2 ^ 18) :
    bit (BitVec.ofNat 32 (2 ^ 31 + kind * 2 ^ 30 + c * 2 ^ 24 + idx * 2 ^ 18 + pos)) 31 = true := by
  rw [bit_ofNat (by decide), nbit_eq_testBit, Nat.testBit_eq_decide_div_mod_eq, decide_eq_true_eq]
  omega

theorem hardContention_marks {kind idx : Nat} (hk : kind ≤ 1) (hi : idx < 64) (hp : s0.seq.pos < 2 ^ 18) (s : State) :
    rbit (hardContention s0 kind cl idx s).1 (oBasReachSts (cl / 64)) 0 = true ∧ rbit (hardContention s0 kind cl idx s).1 (oBasContRec (cl / 64)) 31 = true ∧
      rfld (hardContention s0 kind cl idx s).1 (oBasContHard (cl / 64)) 31 0 = min (rfld s (oBasContHard (cl / 64)) 31 0 + 1) (2 ^ 32 - 1) := by
  have hsts : oBasReachSts (cl / 64) ≠ oBasContRecF (cl / 64) ∧ oBasReachSts (cl / 64) ≠ oBasContRec (cl / 64) := by
    unfold oBasReachSts oBasContRecF oBasContRec; omega
  have hrec : oBasContRec (cl / 64) ≠ oBasContRecF (cl / 64) := by unfold oBasContRec oBasContRecF; omega
  have hcnt : oBasContHard (cl / 64) ≠ oBasContRecF (cl / 64) ∧ oBasContHard (cl / 64) ≠ oBasContRec (cl / 64) ∧
      oBasContHard (cl / 64) ≠ oBasReachSts (cl / 64) := by
    unfold oBasContHard oBasReachSts oBasContRecF oBasContRec; omega
  unfold hardContention
  extract_lets b s1 s2
  have h1 : rbit s1 (oBasReachSts b) 0 = true := rbit_rflag_same _ (by decide) _
  have h2 : rfld s1 (oBasContHard b) 31 0 = min (rfld s (oBasContHard b) 31 0 + 1) (2 ^ 32 - 1) :=
    (rfld_rset_other hcnt.2.2 _ _ 31 0).trans (rfld_rcount_same _ _ (by decide) s)
  clear_value s1
  unfold s2
  split_ifs with h
  · exact ⟨h1, h, h2⟩
  · refine ⟨?_, ?_, ?_⟩
    · exact (rbit_rset_other hsts.1 _ _ _).trans ((rbit_rset_other hsts.2 _ _ _).trans h1)
    · refine (rbit_rset_other hrec _ _ _).trans ?_
      unfold rbit
      rw [rget_rset_same]
      exact contRecord_marked hk (Nat.mod_lt _ (by decide)) hi hp
    · exact (rfld_rset_other hcnt.1 _ _ _ _).trans ((rfld_rset_other hcnt.2.1 _ _ _ _).trans h2)

/-- The landings of a processor end with what its two slots record. -/
theorem landProc_two (w : BitVec 256) {p k l : Nat} {t : List Nat} (hkept : keptSlots w p = k :: l :: t) (x : State × List Report) :
    ∃ y, Work (reachTouch cl) (frameNow s0) x y ∧ landProc s0 cl w p x =
      andThen (recordContention s0 1 cl p (resolve2 (srcVal s0 (cl / 64) (rSrc w k)) (srcVal s0 (cl / 64) (rSrc w l))).2) y := by
  unfold landProc
  extract_lets c0 phys slots loc n kept x0 x1
  have h0 : Work (reachTouch cl) (frameNow s0) x x0 := .ite (.refl x) (work_overflowed p x)
  have h1 : Work (reachTouch cl) (frameNow s0) x x1 := h0.trans (.ite (work_landAt _ _ (by decide) _ _) (.refl _))
  have hk : kept = k :: l :: t := hkept
  rw [hk]
  exact ⟨_, h1.trans (work_landAt _ _ (by decide) _ _), rfl⟩

end

end Sys2Proof.Machine

namespace Sys2Proof.Machine

/-! ## The landings of an evaluation step, entry by entry and register by register -/

section
variable {rs : List Report} {y u : State}

/-- The end of a schedule position leaves the registers from hold memory's block on. -/
theorem PosOver.reg (h : PosOver rs y u) {off : Nat} (ho : 0xE0000 ≤ off) (hs : off < 0xE1200 ∨ 0xE1400 ≤ off) : rget u off = rget y off :=
  h.still.reg ho hs

end

section
variable {hs : List Happening} {s : State}

/-- The data stores at the end of an evaluation step are those after its work. -/
theorem evalBody_ds (hw : mwf Cluster.fresh s.fab = true) (cl : Nat) :
    (getCl (evalBody hs s) cl).ds = (getCl (evalWork hs (strikes hs s)).1 cl).ds :=
  ((evalBody_over hs s).still.fab.entries ((work_eval hs _).trail.canonical (strikes_canonical hs s hw)) cl).1

variable {s0 : State} {cl : Nat}

theorem dsGet_of_ds {c c' : Cluster} (h : c'.ds = c.ds) (ph e : Nat) : dsGet c' ph e = dsGet c ph e := by
  unfold dsGet
  rw [h]

/-- The fabric's own results leave every entry but those of the step's number. -/
theorem fabricStep_entry (hw : mwf Cluster.fresh s0.fab = true) {st : Nat} (hst : st < 2048) {ph e : Nat} (he : e < 2048) (hne : e ≠ st) :
    dsGet (getCl (fabricStep s0 hs st s0).1 cl) ph e = dsGet (getCl s0 cl) ph e := by
  obtain ⟨hrun, hnot⟩ := fabricStep_cluster (hs := hs) (cl := cl) (st := st) hw
  cases h : basinRuns s0 (cl / 64) with
  | true =>
    obtain ⟨ops, shd, e1⟩ := hrun h
    obtain ⟨_, _, _, _, _, _, e2⟩ := portAcc_portsOnly (s0 := s0) (cl := cl) (st := st) (clusterOuts s0 hs cl st) (getCl s0 cl)
    rw [e1, e2]
    exact (written_entry (p := 0) hs hst _).2 ph e he hne
  | false => rw [hnot h]

theorem memPorts_ds (s : State) (hw : mwf Cluster.fresh s.fab = true) (cl : Nat) : (getCl (memPorts s0 s).1 cl).ds = (getCl s cl).ds := by
  refine (work_memPorts (s0 := s0) s).trail.cluster (Q := fun c c' => c'.ds = c.ds) (fun _ => rfl) (fun h1 h2 => h2.trans h1) hw cl
    (fun R hA c c' hR => ?_) fun hA => absurd hA id
  obtain ⟨-, rfl⟩ := hA
  obtain ⟨_, _, rfl⟩ := hR
  rfl

/-- An import entry after an evaluation step: as the reach network left it. -/
theorem evalWork_import (hw : mwf Cluster.fresh s0.fab = true) {ph e : Nat} :
    (basinRuns s0 (cl / 64) = true → dsGet (getCl (evalWork hs s0).1 cl) ph e =
      dsGet (reachCl s0 cl (getCl (fabricStep s0 hs s0.seq.pos s0).1 cl)) ph e) ∧
    (basinRuns s0 (cl / 64) = false → dsGet (getCl (evalWork hs s0).1 cl) ph e = dsGet (getCl (fabricStep s0 hs s0.seq.pos s0).1 cl) ph e) := by
  have hw1 := (work_fabricStep (s0 := s0) hs s0.seq.pos s0).trail.canonical hw
  have hw2 := (work_reachStep (s0 := s0) (fabricStep s0 hs s0.seq.pos s0).1).trail.canonical hw1
  obtain ⟨hrun, hnot⟩ := reachStep_cluster (s0 := s0) (cl := cl) hw1
  have hmem : dsGet (getCl (evalWork hs s0).1 cl) ph e = dsGet (getCl (reachStep s0 (fabricStep s0 hs s0.seq.pos s0).1).1 cl) ph e :=
    dsGet_of_ds (memPorts_ds _ hw2 cl) ph e
  exact ⟨fun h => by rw [hmem, hrun h], fun h => by rw [hmem, hnot h]⟩

/-! ### The marks of a landing -/

/-- An evaluation step that has reached a landing goes on to its end. -/
theorem eval_landing_at (hrun : basinRuns s0 (cl / 64) = true) (hgood : routeBad (getCl s0 cl) (routeWordNo s0) = false) {p : Nat} (hp : p < 64) :
    ∃ y, Trail (evalTouch (runClusters s0)) s0 y.1 ∧ ∀ z, Work (reachTouch cl) (frameNow s0) z
        (landProc s0 cl (mget 0#256 (getCl s0 cl).rw (routeWordNo s0)) p y) →
      Trail (evalTouch (runClusters s0)) z.1 (evalWork hs s0).1 ∧ ∀ code, reported code z → reported code (evalWork hs s0) := by
  have up (τ : Touch) (h : reachTouch cl τ) : evalTouch (runClusters s0) τ := .inr (.inl (.inl ⟨cl, mem_runClusters.2 hrun, h⟩))
  obtain ⟨x, h1, h2, h3⟩ := eval_reach_at (hs := hs) hrun
  obtain ⟨y, k1, k2⟩ := reach_landing_at hgood hp x
  refine ⟨y, h1.trans (k1.mono up), fun z hz => ⟨((hz.trans k2).trail.mono up).trans h2, fun code hc => h3 code ((hz.trans k2).reported hc)⟩⟩


/-- What two slots of a processor bring is recorded once, on the way to the step's end. -/
theorem eval_two_at (hrun : basinRuns s0 (cl / 64) = true) (hgood : routeBad (getCl s0 cl) (routeWordNo s0) = false) {p k l : Nat} (hp : p < 64)
    (hkept : keptSlots (mget 0#256 (getCl s0 cl).rw (routeWordNo s0)) p = [k, l]) {kind : Option Bool}
    (hkind : (resolve2 (srcVal s0 (cl / 64) (rSrc (mget 0#256 (getCl s0 cl).rw (routeWordNo s0)) k))
      (srcVal s0 (cl / 64) (rSrc (mget 0#256 (getCl s0 cl).rw (routeWordNo s0)) l))).2 = kind) :
    ∃ y : State × List Report, Trail (evalTouch (runClusters s0)) s0 y.1 ∧
      Trail (evalTouch (runClusters s0)) (recordContention s0 1 cl p kind y.1).1 (evalWork hs s0).1 ∧
      ∀ code, reported code (recordContention s0 1 cl p kind y.1) → reported code (evalWork hs s0) := by
  obtain ⟨x, h1, h2⟩ := eval_landing_at (hs := hs) hrun hgood hp
  obtain ⟨y, k1, k2⟩ := landProc_two (s0 := s0) (cl := cl) _ hkept x
  rw [hkind] at k2
  obtain ⟨h3, h4⟩ := h2 _ (.refl _)
  rw [k2] at h3 h4
  exact ⟨y, h1.trans (k1.trail.mono fun τ h => .inr (.inl (.inl ⟨cl, mem_runClusters.2 hrun, h⟩))), h3, fun code hc => h4 code (reported_andThen hc)⟩

/-- More import writes than two: the overflow is marked first. -/
theorem landProc_overflowed {w : BitVec 256} {p : Nat} (hn : 2 < b2n (rLocen w p) + (landSlots w p).length) (x : State × List Report) :
    Work (reachTouch cl) (frameNow s0) (overflowed s0 cl p x) (landProc s0 cl w p x) := by
  unfold landProc
  extract_lets c0 phys slots loc n kept x0 x1
  have h0 : x0 = overflowed s0 cl p x := if_neg (Nat.not_le.2 hn)
  have h1 : Work (reachTouch cl) (frameNow s0) x0 x1 := .ite (work_landAt _ _ (by decide) _ _) (.refl _)
  rw [← h0]
  clear_value kept x0 x1
  split
  · exact h1
  · exact h1.trans (work_landAt _ _ (by decide) _ _)
  · exact (h1.trans (work_landAt _ _ (by decide) _ _)).trans (.andThen (work_recordContention ..))

theorem overflowed_marks (p : Nat) (y : State × List Report) :
    rbit (overflowed s0 cl p y).1 (oBasReachSts (cl / 64)) 1 = true ∧ rbit (overflowed s0 cl p y).1 (cStat cl) 4 = true ∧
      rfld (overflowed s0 cl p y).1 (oBasImpOvf (cl / 64)) 15 0 = min (rfld y.1 (oBasImpOvf (cl / 64)) 15 0 + 1) 0xFFFF := by
  have hmod := Nat.mod_lt cl (by decide : 64 > 0)
  have hcs : oBasReachSts (cl / 64) ≠ cStat cl ∧ oBasImpOvf (cl / 64) ≠ cStat cl := by
    unfold oBasReachSts oBasImpOvf cStat oCluStat; omega
  have hcnt : oBasImpOvf (cl / 64) ≠ oBasReachSts (cl / 64) := by unfold oBasReachSts oBasImpOvf; omega
  refine ⟨?_, rbit_rflag_same _ (by decide) _, ?_⟩
  · exact (rbit_rset_other hcs.1 _ _ _).trans (rbit_rflag_same _ (by decide) _)
  · exact (rfld_rset_other hcs.2 _ _ _ _).trans ((rfld_rset_other hcnt _ _ _ _).trans (rfld_rcount_same _ _ (by decide) _))

/-! ### The landings as the evaluation step leaves them -/

theorem oBasContHard_eq (b : Nat) : oBasContHard b = basReg b 0x10 := by unfold oBasContHard basReg; omega
theorem oBasContBen_eq (b : Nat) : oBasContBen b = basReg b 0xC := by unfold oBasContBen basReg; omega
theorem oBasImpOvf_eq (b : Nat) : oBasImpOvf b = basReg b 0x1C := by unfold oBasImpOvf basReg; omega

theorem rfld_all (s : State) (off : Nat) : rfld s off 31 0 = (rget s off).toNat := fld_all _

section
variable {u : State} (ended : PosOver (evalWork hs s0).2 (evalWork hs s0).1 u)
include ended

theorem evalEnd_reg {off : Nat} (ho : 0x100000 ≤ off) : rget u off = rget (evalWork hs s0).1 off := by
  rw [ended.reg (by omega) (by omega)]

theorem evalEnd_rbit {off : Nat} (ho : 0x100000 ≤ off) (i : Nat) : rbit u off i = rbit (evalWork hs s0).1 off i := by
  unfold rbit; rw [evalEnd_reg ended ho]

theorem evalEnd_rfld {off : Nat} (ho : 0x100000 ≤ off) (hi lo : Nat) : rfld u off hi lo = rfld (evalWork hs s0).1 off hi lo := by
  unfold rfld; rw [evalEnd_reg ended ho]

variable (hrun : basinRuns s0 (cl / 64) = true)
include hrun

/-- Under an uncorrectable routing word the fault is flagged. -/
theorem eval_routeBad (hbad : routeBad (getCl s0 cl) (routeWordNo s0) = true) :
    rbit u (oBasReachSts (cl / 64)) 3 = true ∧ rbit u oSafSts 2 = true := by
  obtain ⟨y, -, h2, h3⟩ := eval_reach_at (hs := hs) hrun
  rw [reachCluster_eq, if_pos hbad] at h2 h3
  have hrep : reported 0x2003 (evalWork hs s0) := h3 _ ⟨_, List.mem_append_right _ (List.mem_singleton_self _), rfl, rfl⟩
  refine ⟨?_, ended.classFlag hrep (by decide) (by decide)⟩
  rw [evalEnd_rbit ended (by unfold oBasReachSts; omega)]
  exact reachSts_stays h2 (rbit_rflag_same _ (by decide) _)

variable (hgood : routeBad (getCl s0 cl) (routeWordNo s0) = false) {p : Nat} (hp : p < 64)
include hgood hp

/-- More import writes than two of a processor leave their marks. -/
theorem eval_overflow (hn : 2 < b2n (rLocen (mget 0#256 (getCl s0 cl).rw (routeWordNo s0)) p) +
      (landSlots (mget 0#256 (getCl s0 cl).rw (routeWordNo s0)) p).length) :
    rbit u (oBasReachSts (cl / 64)) 1 = true ∧ rbit u (cStat cl) 4 = true ∧ rbit u oSafSts 2 = true ∧
      min (rfld s0 (oBasImpOvf (cl / 64)) 15 0 + 1) 0xFFFF ≤ rfld u (oBasImpOvf (cl / 64)) 15 0 := by
  obtain ⟨y, h1, h2⟩ := eval_landing_at (hs := hs) hrun hgood hp
  obtain ⟨h3, h4⟩ := h2 _ (landProc_overflowed hn y)
  obtain ⟨m1, m2, m3⟩ := overflowed_marks (s0 := s0) (cl := cl) p y
  have hrep : reported 0x2002 (evalWork hs s0) := h4 _ ⟨_, List.mem_append_right _ (List.mem_singleton_self _), rfl, rfl⟩
  refine ⟨?_, ?_, ended.classFlag hrep (by decide) (by decide), ?_⟩
  · rw [evalEnd_rbit ended (by unfold oBasReachSts; omega)]
    exact reachSts_stays h3 m1
  · rw [evalEnd_rbit ended (by unfold cStat oCluStat; omega)]
    exact cStat_stays h3 m2
  · rw [evalEnd_rfld ended (by unfold oBasImpOvf; omega)]
    rw [oBasImpOvf_eq] at m3 ⊢
    have r1 := basCount_rises (b := cl / 64) h1 (k := 0x1C) (hi := 15) (by omega)
    have r2 := basCount_rises (b := cl / 64) h3 (k := 0x1C) (hi := 15) (by omega)
    omega

variable {k l : Nat} (hkept : keptSlots (mget 0#256 (getCl s0 cl).rw (routeWordNo s0)) p = [k, l])
include hkept

/-- Two slots that differ are recorded as a hard contention. -/
theorem eval_contention (hpos : s0.seq.pos < 2 ^ 18)
    (hkind : (resolve2 (srcVal s0 (cl / 64) (rSrc (mget 0#256 (getCl s0 cl).rw (routeWordNo s0)) k))
      (srcVal s0 (cl / 64) (rSrc (mget 0#256 (getCl s0 cl).rw (routeWordNo s0)) l))).2 = some true) :
    rbit u (oBasReachSts (cl / 64)) 0 = true ∧ rbit u (oBasContRec (cl / 64)) 31 = true ∧
      rbit u oSafSts (if rbit s0 oSafCtl 0 then 13 else 2) = true ∧
      min ((rget s0 (oBasContHard (cl / 64))).toNat + 1) (2 ^ 32 - 1) ≤ (rget u (oBasContHard (cl / 64))).toNat := by
  obtain ⟨y, h1, h2, h3⟩ := eval_two_at (hs := hs) hrun hgood hp hkept hkind
  obtain ⟨m1, m2, m3⟩ := hardContention_marks (s0 := s0) (cl := cl) (kind := 1) (idx := p) (by decide) hp hpos y.1
  have hrep : reported 0x2001 (evalWork hs s0) := h3 _ ⟨_, List.mem_singleton_self _, rfl, rfl⟩
  have hflag := ended.contentionFlag hrep
  unfold rbit at hflag
  rw [eval_safCtl (work_eval hs s0).trail] at hflag
  refine ⟨?_, ?_, hflag, ?_⟩
  · rw [evalEnd_rbit ended (by unfold oBasReachSts; omega)]
    exact reachSts_stays h2 m1
  · rw [evalEnd_rbit ended (by unfold oBasContRec; omega)]
    exact contRec_stays h2 m2
  · rw [evalEnd_reg ended (by unfold oBasContHard; omega), ← rfld_all, ← rfld_all]
    rw [oBasContHard_eq] at m3 ⊢
    have r1 := basCount_rises (b := cl / 64) h1 (k := 0x10) (hi := 31) (by omega)
    have r2 := basCount_rises (b := cl / 64) h2 (k := 0x10) (hi := 31) (by omega)
    exact le_trans (by omega) (m3.symm.le.trans r2)

/-- Two slots that agree are counted. -/
theorem eval_benign (hkind : (resolve2 (srcVal s0 (cl / 64) (rSrc (mget 0#256 (getCl s0 cl).rw (routeWordNo s0)) k))
      (srcVal s0 (cl / 64) (rSrc (mget 0#256 (getCl s0 cl).rw (routeWordNo s0)) l))).2 = some false) :
    min ((rget s0 (oBasContBen (cl / 64))).toNat + 1) (2 ^ 32 - 1) ≤ (rget u (oBasContBen (cl / 64))).toNat := by
  obtain ⟨y, h1, h2, -⟩ := eval_two_at (hs := hs) hrun hgood hp hkept hkind
  have m3 : rfld (recordContention s0 1 cl p (some false) y.1).1 (oBasContBen (cl / 64)) 31 0 =
      min (rfld y.1 (oBasContBen (cl / 64)) 31 0 + 1) (2 ^ 32 - 1) := rfld_rcount_same _ _ (by decide) _
  rw [evalEnd_reg ended (by unfold oBasContBen; omega), ← rfld_all, ← rfld_all]
  rw [oBasContBen_eq] at m3 ⊢
  have r1 := basCount_rises (b := cl / 64) h1 (k := 0xC) (hi := 31) (by omega)
  have r2 := basCount_rises (b := cl / 64) h2 (k := 0xC) (hi := 31) (by omega)
  exact le_trans (by omega) (m3.symm.le.trans r2)

end

end

end Sys2Proof.Machine

namespace Sys2Proof.Machine

/-! ## SequencerSteps -/

section
variable {hs : List Happening} {s : State}

theorem srcVal_resolved (a b : V4) : (resolve2 a b).1 = (if a = .z then b else if b = .z ∨ a = b then a else .x) ∧
    (a ≠ .z → b ≠ .z → a ≠ b → (resolve2 a b).2 = some true) ∧ (a ≠ .z → a = b → (resolve2 a b).2 = some false) := by
  cases a <;> cases b <;> decide

theorem strikes_entry (cl ph e : Nat) : dsGet (getCl (strikes hs s) cl) ph e = dsGet (getCl s cl) ph e :=
  dsGet_of_ds (congrArg Cluster.ds (strikes_cluster hs s cl) :) ph e

/-- The slots that the statement names are those that land. -/
theorem take_keptSlots (w : BitVec 256) (p : Nat) : (landSlots w p).take (2 - (rLocen w p).toNat) = keptSlots w p := by
  unfold keptSlots
  cases rLocen w p <;> rfl

theorem toNat_b2n (b : Bool) : b.toNat = b2n b := by cases b <;> rfl

/-- An import entry after an evaluation step, from the state after the upsets. -/
theorem evalBody_import (hw : mwf Cluster.fresh s.fab = true) (hpos : s.seq.pos < 1024) (cl : Nat) {ph e : Nat} (h1 : 1024 ≤ e) (h2 : e < 1792) :
    (basinRuns s (cl / 64) = false → dsGet (getCl (evalBody hs s) cl) ph e = dsGet (getCl s cl) ph e) ∧
    (basinRuns s (cl / 64) = true → ∃ c, dsGet c ph (1024 + s.seq.pos % 384) = dsGet (getCl s cl) ph (1024 + s.seq.pos % 384) ∧
      dsGet c ph (1408 + s.seq.pos % 384) = dsGet (getCl s cl) ph (1408 + s.seq.pos % 384) ∧ dsGet c ph e = dsGet (getCl s cl) ph e ∧
      ∀ e', dsGet (getCl (evalBody hs s) cl) ph e' = dsGet (reachCl (strikes hs s) cl c) ph e') := by
  have hmod := Nat.mod_lt s.seq.pos (by decide : 384 > 0)
  have hw' := strikes_canonical hs s hw
  have kept {e' : Nat} (k1 : 1024 ≤ e') (k2 : e' < 1792) :
      dsGet (getCl (fabricStep (strikes hs s) hs (strikes hs s).seq.pos (strikes hs s)).1 cl) ph e' = dsGet (getCl s cl) ph e' := by
    rw [fabricStep_entry hw' (by rw [strikes_seq]; omega) (by omega) (by rw [strikes_seq]; omega), strikes_entry]
  refine ⟨fun hrun => ?_, fun hrun => ⟨_, kept (by omega) (by omega), kept (by omega) (by omega), kept h1 h2, fun e' => ?_⟩⟩
  · rw [dsGet_of_ds (evalBody_ds hw cl), (evalWork_import hw').2 (by rwa [strikes_basinRuns]), kept h1 h2]
  · rw [dsGet_of_ds (evalBody_ds hw cl), (evalWork_import hw').1 (by rwa [strikes_basinRuns])]

section
variable (hw : mwf Cluster.fresh s.fab = true) (hpos : s.seq.pos < rfld s oSeqCfg 10 0) (hL : rfld s oSeqCfg 10 0 ≤ 1024) (cl : Nat) {p : Nat} (hp : p < 64)

include hpos in
theorem routeWordNo_strikes : routeWordNo (strikes hs s) = s.seq.pos := by
  have hl : rfld (strikes hs s) oSeqCfg 10 0 = rfld s oSeqCfg 10 0 := by unfold rfld; rw [rget_strikes]
  unfold routeWordNo
  simp [hl, hpos]

include hw hpos hL

/-- Only the import entries of the step's number change. -/
theorem evalBody_import_kept {ph e : Nat} (h1 : 1024 ≤ e) (h2 : e < 1792)
    (h : basinRuns s (cl / 64) = false ∨ (e ≠ 1024 + s.seq.pos % 384 ∧ e ≠ 1408 + s.seq.pos % 384)) :
    dsGet (getCl (evalBody hs s) cl) ph e = dsGet (getCl s cl) ph e := by
  obtain ⟨hnot, hruns⟩ := evalBody_import (hs := hs) hw (by omega : s.seq.pos < 1024) cl (ph := ph) h1 h2
  cases hrun : basinRuns s (cl / 64) with
  | false => exact hnot hrun
  | true =>
    obtain ⟨c, -, -, hc, hev⟩ := hruns hrun
    obtain ⟨ne0, ne1⟩ := h.resolve_left (by simp [hrun])
    have off := (reachCl_entry (s0 := strikes hs s) (cl := cl) (by decide : 0 < 64) c).2.2 ph e h1 h2
    rw [strikes_seq] at off
    rw [hev, off ne0 ne1, hc]

variable (hrun : basinRuns s (cl / 64) = true)
include hp hrun

/-- The two import entries of the step's number, of a running cluster. -/
theorem evalBody_landed : ∃ c, dsGet c (physOf s cl p) (1024 + s.seq.pos % 384) = dsGet (getCl s cl) (physOf s cl p) (1024 + s.seq.pos % 384) ∧
    dsGet c (physOf s cl p) (1408 + s.seq.pos % 384) = dsGet (getCl s cl) (physOf s cl p) (1408 + s.seq.pos % 384) ∧
    (routeBad (getCl (strikes hs s) cl) s.seq.pos = true →
      dsGet (getCl (evalBody hs s) cl) (physOf s cl p) (1024 + s.seq.pos % 384) = .x ∧
      dsGet (getCl (evalBody hs s) cl) (physOf s cl p) (1408 + s.seq.pos % 384) = .x) ∧
    (routeBad (getCl (strikes hs s) cl) s.seq.pos = false → let w := mget 0#256 (getCl (strikes hs s) cl).rw s.seq.pos
      dsGet (getCl (evalBody hs s) cl) (physOf s cl p) (1024 + s.seq.pos % 384) =
        (if rLocen w p then expoVal (getCl (strikes hs s) cl) ((p + 64 - rRot w) % 64)
          else dsGet c (physOf s cl p) (1024 + s.seq.pos % 384)) ∧
      dsGet (getCl (evalBody hs s) cl) (physOf s cl p) (1408 + s.seq.pos % 384) =
        slotsVal (strikes hs s) (cl / 64) w (keptSlots w p) (dsGet c (physOf s cl p) (1408 + s.seq.pos % 384))) := by
  have hmod := Nat.mod_lt s.seq.pos (by decide : 384 > 0)
  obtain ⟨c, c0, c1, -, hev⟩ := (evalBody_import (hs := hs) hw (by omega : s.seq.pos < 1024) cl (ph := physOf s cl p) le_rfl (by decide)).2 hrun
  obtain ⟨hbad, hgood, -⟩ := reachCl_entry (s0 := strikes hs s) (cl := cl) hp c
  rw [routeWordNo_strikes hpos, strikes_physOf, strikes_seq] at hbad hgood
  refine ⟨c, c0, c1, ?_⟩
  rw [hev, hev]
  exact ⟨hbad, hgood⟩

/-- Entry by entry, as the slots that land say. -/
theorem evalBody_slots (hgood : routeBad (getCl (strikes hs s) cl) s.seq.pos = false) : let w := mget 0#256 (getCl (strikes hs s) cl).rw s.seq.pos
    let new (e : Nat) : V4 := dsGet (getCl (evalBody hs s) cl) (physOf s cl p) e
    let old (e : Nat) : V4 := dsGet (getCl s cl) (physOf s cl p) e
    let src (k : Nat) : V4 := srcVal (strikes hs s) (cl / 64) (rSrc w k)
    (rLocen w p = true → new (1024 + s.seq.pos % 384) = expoVal (getCl (strikes hs s) cl) ((p + 64 - rRot w) % 64)) ∧
    (rLocen w p = false → new (1024 + s.seq.pos % 384) = old (1024 + s.seq.pos % 384)) ∧
    (keptSlots w p = [] → new (1408 + s.seq.pos % 384) = old (1408 + s.seq.pos % 384)) ∧
    (∀ k, keptSlots w p = [k] → new (1408 + s.seq.pos % 384) = src k) ∧
    (∀ k l, keptSlots w p = [k, l] → new (1408 + s.seq.pos % 384) =
      (if src k = .z then src l else if src l = .z ∨ src k = src l then src k else .x)) := by
  intro w new old src
  obtain ⟨c, c0, c1, -, h⟩ := evalBody_landed (hs := hs) hw hpos hL cl hp hrun
  obtain ⟨h0, h1⟩ := h hgood
  refine ⟨fun hloc => ?_, fun hloc => ?_, fun hk => ?_, fun k hk => ?_, fun k l hk => ?_⟩
  · exact h0.trans (if_pos hloc)
  · exact (h0.trans (if_neg (by simp [w, hloc]))).trans c0
  · exact (h1.trans (congrArg (slotsVal _ _ _ · _) hk)).trans c1
  · exact h1.trans (congrArg (slotsVal _ _ _ · _) hk)
  · exact (h1.trans (congrArg (slotsVal _ _ _ · _) hk)).trans (srcVal_resolved _ _).1

end

/-! ### The marks that the landings leave, from the state before the step -/

section
variable (hpos : s.seq.pos < rfld s oSeqCfg 10 0) (hL : rfld s oSeqCfg 10 0 ≤ 1024) (cl : Nat) {p : Nat} (hp : p < 64)
  (hrun : basinRuns s (cl / 64) = true)
include hpos hrun

theorem evalBody_routeBad (hbad : routeBad (getCl (strikes hs s) cl) s.seq.pos = true) :
    rbit (evalBody hs s) (oBasReachSts (cl / 64)) 3 = true ∧ rbit (evalBody hs s) oSafSts 2 = true := by
  rw [← routeWordNo_strikes (hs := hs) hpos] at hbad
  exact eval_routeBad (evalBody_over hs s) (by rwa [strikes_basinRuns]) hbad

variable (hgood : routeBad (getCl (strikes hs s) cl) s.seq.pos = false)
include hp hgood

theorem evalBody_overflow (hn : 2 < (rLocen (mget 0#256 (getCl (strikes hs s) cl).rw s.seq.pos) p).toNat +
      (landSlots (mget 0#256 (getCl (strikes hs s) cl).rw s.seq.pos) p).length) :
    rbit (evalBody hs s) (oBasReachSts (cl / 64)) 1 = true ∧ rbit (evalBody hs s) (cStat cl) 4 = true ∧ rbit (evalBody hs s) oSafSts 2 = true ∧
      min (rfld s (oBasImpOvf (cl / 64)) 15 0 + 1) 0xFFFF ≤ rfld (evalBody hs s) (oBasImpOvf (cl / 64)) 15 0 := by
  rw [toNat_b2n] at hn
  rw [← routeWordNo_strikes (hs := hs) hpos] at hgood hn
  have m := eval_overflow (evalBody_over hs s) (by rwa [strikes_basinRuns]) hgood hp hn
  unfold rfld at m ⊢
  rwa [rget_strikes] at m

variable {k l : Nat} (hkept : keptSlots (mget 0#256 (getCl (strikes hs s) cl).rw s.seq.pos) p = [k, l])
include hkept

theorem evalBody_benign (hz : srcVal (strikes hs s) (cl / 64) (rSrc (mget 0#256 (getCl (strikes hs s) cl).rw s.seq.pos) k) ≠ .z)
    (heq : srcVal (strikes hs s) (cl / 64) (rSrc (mget 0#256 (getCl (strikes hs s) cl).rw s.seq.pos) k) =
      srcVal (strikes hs s) (cl / 64) (rSrc (mget 0#256 (getCl (strikes hs s) cl).rw s.seq.pos) l)) :
    min ((rget s (oBasContBen (cl / 64))).toNat + 1) (2 ^ 32 - 1) ≤ (rget (evalBody hs s) (oBasContBen (cl / 64))).toNat := by
  have hkind := (srcVal_resolved _ _).2.2 hz heq
  rw [← routeWordNo_strikes (hs := hs) hpos] at hgood hkept hkind
  have m := eval_benign (evalBody_over hs s) (by rwa [strikes_basinRuns]) hgood hp hkept hkind
  rwa [rget_strikes] at m

include hL in
theorem evalBody_contention (hz1 : srcVal (strikes hs s) (cl / 64) (rSrc (mget 0#256 (getCl (strikes hs s) cl).rw s.seq.pos) k) ≠ .z)
    (hz2 : srcVal (strikes hs s) (cl / 64) (rSrc (mget 0#256 (getCl (strikes hs s) cl).rw s.seq.pos) l) ≠ .z)
    (hne : srcVal (strikes hs s) (cl / 64) (rSrc (mget 0#256 (getCl (strikes hs s) cl).rw s.seq.pos) k) ≠
      srcVal (strikes hs s) (cl / 64) (rSrc (mget 0#256 (getCl (strikes hs s) cl).rw s.seq.pos) l)) :
    rbit (evalBody hs s) (oBasReachSts (cl / 64)) 0 = true ∧ rbit (evalBody hs s) (oBasContRec (cl / 64)) 31 = true ∧
      rbit (evalBody hs s) oSafSts (if rbit s oSafCtl 0 then 13 else 2) = true ∧
      min ((rget s (oBasContHard (cl / 64))).toNat + 1) (2 ^ 32 - 1) ≤ (rget (evalBody hs s) (oBasContHard (cl / 64))).toNat := by
  have hkind := (srcVal_resolved _ _).2.1 hz1 hz2 hne
  rw [← routeWordNo_strikes (hs := hs) hpos] at hgood hkept hkind
  obtain ⟨m1, m2, m3, m4⟩ := eval_contention (evalBody_over hs s) (by rwa [strikes_basinRuns]) hgood hp hkept (by rw [strikes_seq]; omega) hkind
  rw [rget_strikes] at m4
  unfold rbit at m3
  rw [rget_strikes] at m3
  exact ⟨m1, m2, m3, m4⟩

end

end

/-- Settles O33: the coordinates and the memories by what each step's end does, the commit and the landings by following them through the step. -/
theorem sequencerSteps : Obligations.SequencerSteps := by
  unfold Obligations.SequencerSteps
  refine ⟨⟨fun hs s hclk hst hpos hnone => ?_, fun hs s hclk hst hpos hnone => ?_, fun hs s hclk hst hpos hnone => ?_, fun hs s hclk hst hnone => ?_,
    fun hs s hclk => leadsTo_clockless hclk hs⟩, fun hs s hcan hclk hst hpos hnone => ?_, fun hs s hcan hclk hst hpos hL hnone => ?_⟩
  · obtain ⟨h1, h2, h3, h4, h5⟩ := (evalBody_over hs s).coords (work_eval hs _).trail.core
    rw [strikes_seq] at h1 h2 h3
    rw [strikes_host] at h5
    exact ⟨_, leadsTo_evaluation hclk hnone hst hpos hs, h1, h2, h3, h4, h5⟩
  · obtain ⟨h1, h2, h3, h4, h5⟩ := (firstBody_over hs s).coords (firstWork_core hs _)
    rw [strikes_seq] at h1 h2 h3
    rw [strikes_host] at h5
    exact ⟨_, leadsTo_firstTick hclk hnone hst hpos hs, h1, h2, h3, h4, h5⟩
  · obtain ⟨h1, h2, hface, hend⟩ := secondBody_spec (hs := hs) hst
    refine ⟨_, leadsTo_secondTick hclk hnone hst hpos hs, h1, congrArg Face.gsc hface, congrArg Face.F hface, h2, congrArg Face.hold hface,
      congrArg Face.mem hface, ?_⟩
    rcases hend with hsafe | ⟨he, hlock, hlp⟩ | ⟨he, hfl⟩
    · exact .inl hsafe
    · exact .inr (.inl ⟨hlock, hlp, flightEnds_true he⟩)
    · exact .inr (.inr ⟨hfl, flightEnds_false he⟩)
  · obtain ⟨hface, hlp, hend⟩ := lockBody_spec (hs := hs) hst
    exact ⟨_, leadsTo_lockPhase hclk hnone hst hs, congrArg Face.gsc hface, congrArg Face.F hface, congrArg Face.hold hface, congrArg Face.mem hface,
      hlp, hend⟩
  · exact ⟨_, leadsTo_firstTick hclk hnone hst hpos hs, firstBody_commit (canonical_fab hcan)⟩
  · have hw := canonical_fab hcan
    refine ⟨_, leadsTo_evaluation hclk hnone hst hpos hs, fun cl p hcl hp => ?_⟩
    intro s0 b c w new old e0 e1 slots src
    have hslots : slots = keptSlots w p := take_keptSlots w p
    rw [hslots]
    refine ⟨fun e h1 h2 h => evalBody_import_kept hw hpos hL cl h1 h2 h, fun hrun hbad => ?_, fun hrun hgood => ?_⟩
    · obtain ⟨-, -, -, h, -⟩ := evalBody_landed (hs := hs) hw hpos hL cl hp hrun
      obtain ⟨x0, x1⟩ := h hbad
      obtain ⟨h3, h4⟩ := evalBody_routeBad (hs := hs) hpos cl hrun hbad
      exact ⟨x0, x1, h3, h4⟩
    · obtain ⟨v1, v2, v3, v4, v5⟩ := evalBody_slots (hs := hs) hw hpos hL cl hp hrun hgood
      refine ⟨v1, v2, v3, v4, v5, fun k l hk hz1 hz2 hne => ?_, fun k l hk hz heq => ?_, fun hn => ?_⟩
      · exact evalBody_contention hpos hL cl hp hrun hgood hk hz1 hz2 hne
      · exact evalBody_benign hpos cl hp hrun hgood hk hz heq
      · exact evalBody_overflow hpos cl hp hrun hgood hn

end Sys2Proof.Machine

namespace Sys2Proof.Machine

/-! ## Writes of the gauge unit's lanes and pairings (R217, R222) -/

section
variable {s : State} {n z : Nat} {v : Word}

theorem seqRests_iff : seqRests s = true ↔ rests s := by
  unfold seqRests
  simp [or_assoc]

theorem exec_gauLaneWrite (hn : n < 512) (h : hostReaches s (oGauLane n) = true) : exec (.gauLaneWrite n v) s = .next (wGauLane n v s) := by
  have hb : blockOf (oGauLane n) = 0xD := by unfold blockOf oGauLane; omega
  have hi : (oGauLane n - 0xD1000) / 4 = n := by unfold oGauLane; omega
  have e1 : oGauLane n ≠ oGauSts := by unfold oGauLane oGauSts; omega
  have e2 : ¬(oGauLane n < 0xD00A0) ∧ ¬(oGauLane n < 0xD0300) ∧ 0xD1000 ≤ oGauLane n ∧ oGauLane n < 0xD1800 := by unfold oGauLane; omega
  refine congrArg (fun t => (.next t : Res)) ((hostWrite_reaches v .clean h).trans ?_)
  unfold regWrite
  simp only [hb]
  unfold gauWrite
  simp [e1, e2, hi]

theorem exec_gauZdmapWrite (hz : z < 64) (h : hostReaches s (oGauZdmap z) = true) : exec (.gauZdmapWrite z v) s = .next (wGauZdmap z v s) := by
  have hb : blockOf (oGauZdmap z) = 0xD := by unfold blockOf oGauZdmap; omega
  have hi : (oGauZdmap z - 0xD0200) / 4 = z := by unfold oGauZdmap; omega
  have e1 : oGauZdmap z ≠ oGauSts := by unfold oGauZdmap oGauSts; omega
  have e2 : ¬(oGauZdmap z < 0xD00A0) ∧ 0xD0200 ≤ oGauZdmap z ∧ oGauZdmap z < 0xD0300 := by unfold oGauZdmap; omega
  refine congrArg (fun t => (.next t : Res)) ((hostWrite_reaches v .clean h).trans ?_)
  unfold regWrite
  simp only [hb]
  unfold gauWrite
  simp [e1, e2, hi]

theorem wGauLane_rests (h : rests s) : wGauLane n v s = rset (oGauLane n) (v &&& 0x1F#32) s := if_pos (seqRests_iff.2 h)

/-- REC alone made another. -/
theorem bit_putBit (w : Word) {i : Nat} (hi : i < 32) (b : Bool) (k : Nat) : bit (putBit w i b) k = if k = i then b else bit w k := by
  unfold putBit
  cases b with
  | true =>
    rw [if_pos rfl, bit_setBit w hi]
    split_ifs with e <;> simp [e]
  | false =>
    rw [if_neg Bool.false_ne_true, clrBit, bit_and]
    by_cases hk : k < 32
    · rw [bit_not _ hk, bit_ofNat hk, nbit_eq_testBit, Nat.one_shiftLeft, Nat.testBit_two_pow]
      by_cases e : k = i
      · simp [e]
      · simp [e, Ne.symm e]
    · have hge : bit w k = false := BitVec.getLsbD_of_ge w k (by omega)
      rw [hge, if_neg (by omega), Bool.false_and]

theorem fld_putBit_above (w : Word) {i : Nat} (hi : i < 32) (b : Bool) {hi' lo : Nat} (h : hi' < i) : fld (putBit w i b) hi' lo = fld w hi' lo := by
  refine Nat.eq_of_testBit_eq fun k => ?_
  rw [testBit_fld, testBit_fld, bit_putBit w hi]
  by_cases hk : k < hi' + 1 - lo
  · rw [if_neg (by omega)]
  · simp [hk]

/-- A write of a lane's register while the sequencer is under way. -/
theorem wGauLane_moving (hn : n < 512) (h : ¬ rests s) : laneRec (wGauLane n v s) n = bit v 4 ∧ laneMode (wGauLane n v s) n = laneMode s n ∧
    laneXpol (wGauLane n v s) n = laneXpol s n ∧
    rbit (wGauLane n v s) oGauSts 5 = (rbit s oGauSts 5 || decide (fld v 3 0 ≠ rfld s (oGauLane n) 3 0)) ∧
    regsBut [oGauLane n, oGauSts] s (wGauLane n v s) ∧ restSame s (wGauLane n v s) := by
  have hne : oGauSts ≠ oGauLane n := by unfold oGauLane oGauSts; omega
  have hw : wGauLane n v s = if fld v 3 0 ≠ rfld s (oGauLane n) 3 0 then
      rflag oGauSts 5 (rset (oGauLane n) (putBit (rget s (oGauLane n)) 4 (bit v 4)) s)
      else rset (oGauLane n) (putBit (rget s (oGauLane n)) 4 (bit v 4)) s :=
    if_neg (by rwa [seqRests_iff])
  have hlane : rget (wGauLane n v s) (oGauLane n) = putBit (rget s (oGauLane n)) 4 (bit v 4) := by
    rw [hw]
    split_ifs
    · exact (rget_rset_other _ _ _ _ hne.symm).trans (rget_rset_same ..)
    · exact rget_rset_same ..
  have hother (off : Nat) (h1 : off ≠ oGauLane n) (h2 : off ≠ oGauSts) : rget (wGauLane n v s) off = rget s off := by
    rw [hw]
    split_ifs
    · exact (rget_rset_other _ _ _ _ h2).trans (rget_rset_other _ _ _ _ h1)
    · exact rget_rset_other _ _ _ _ h1
  refine ⟨?_, ?_, ?_, ?_, fun off ho => hother off (by aesop) (by aesop), ?_⟩
  · unfold laneRec rbit
    rw [hlane, bit_putBit _ (by decide), if_pos rfl]
  · unfold laneMode rfld
    rw [hlane, fld_putBit_above _ (by decide) _ (by decide)]
  · unfold laneXpol rfld
    rw [hlane, fld_putBit_above _ (by decide) _ (by decide)]
  · rw [hw]
    split_ifs with he
    · simp [rbit_rflag_same, he]
    · simp [rbit_rset_other hne, he]
  · rw [hw]
    split_ifs <;> rfl

/-- What a pairing needs: the sequencer at rest, a lane of the input's bank, which no other input serves. -/
theorem wGauZdmap_cases : wGauZdmap z v s = if rests s ∧ fld v 8 0 / 32 = z / 4 ∧
      (∀ y < 64, y ≠ z → rbit s (oGauZdmap y) 9 = true → rfld s (oGauZdmap y) 8 0 ≠ fld v 8 0) then rset (oGauZdmap z) (v &&& 0x3FF#32) s
    else rflag oGauSts 5 s := by
  unfold wGauZdmap
  simp only [← seqRests_iff]
  rw [← ite_not]
  refine if_congr ?_ rfl rfl
  simp only [Bool.or_eq_true, Bool.not_eq_true', decide_eq_true_eq, List.any_eq_true, List.mem_range, Bool.and_eq_true]
  cases seqRests s <;> simp

end

end Sys2Proof.Machine

namespace Sys2Proof.Machine

/-! ## What happens to older frames in a step

The books do not settle which frames are tainted and which verdicts are confirmed; of the frames before the one in progress they leave both, and the
registers below the fault block. -/

/-- The registers below the fault block, the verdicts at least 64 frames old, the taint marks of the frames other than `F`. -/
structure Older where
  low : Nat → Word
  due : List Verdict
  taint : Nat → Bool

def older (F : Nat) (s : State) : Older :=
  ⟨fun off => if off < 0x50000 then rget s off else 0, s.gau.held.filter fun v => decide (64 ≤ frDist v.frame F),
    fun f => if f = F then false else isTainted s f⟩

section
variable {F : Nat} {s t : State}

theorem older_of (hreg : t.regs = s.regs) (hheld : t.gau.held = s.gau.held) (htaint : t.seq.taint = s.seq.taint) : older F t = older F s := by
  unfold older isTainted rget
  rw [hreg, hheld, htaint]

theorem older_rset {off : Nat} (h : 0x50000 ≤ off) (w : Word) (s : State) : older F (rset off w s) = older F s := by
  have hlow : (fun o => if o < 0x50000 then rget (rset off w s) o else 0) = fun o => if o < 0x50000 then rget s o else 0 := by
    funext o
    split_ifs with ho
    · exact rget_rset_other _ _ _ _ (by omega)
    · rfl
  unfold older
  rw [hlow]
  rfl

theorem older_rflag {off : Nat} (h : 0x50000 ≤ off) (i : Nat) (s : State) : older F (rflag off i s) = older F s := older_rset h _ s
theorem older_rcount {off : Nat} (h : 0x50000 ≤ off) (hi lo k : Nat) (s : State) : older F (rcount off hi lo k s) = older F s := older_rset h _ s
theorem older_rput {off : Nat} (h : 0x50000 ≤ off) (hi lo v : Nat) (s : State) : older F (rput off hi lo v s) = older F s := older_rset h _ s

theorem older_signal (v : Nat) (s : State) : older F (signal v s) = older F s := by
  obtain ⟨m, p, h⟩ := signal_cases v s
  rw [h]
  rfl

theorem older_setInt {off : Nat} (h : 0x50000 ≤ off) (n v : Nat) (s : State) : older F (setInt off n v s) = older F s :=
  ite_fix (older F) ((older_signal v _).trans (older_rset h _ s)) (older_rset h _ s)

/-- A row of writes that touches neither books nor verdicts leaves older frames. -/
theorem Trail.older {A : Touch → Prop} (h : Trail A s t) (hb : ¬ A .books) (hg : ¬ A .gau)
    (hr : ∀ off, A (.reg off) ∨ A (.flag off) ∨ A (.first off) ∨ (∃ hi lo, A (.count off hi lo)) → 0x50000 ≤ off) : older F t = older F s := by
  refine h.fix (Machine.older F) fun τ hA u v hw => ?_
  cases τ with
  | books => exact absurd hA hb
  | gau => exact absurd hA hg
  | reg off => obtain ⟨w, rfl⟩ := hw; exact older_rset (hr off (.inl hA)) _ u
  | flag off => obtain ⟨w, rfl⟩ := hw; exact older_rflag (hr off (.inr (.inl hA))) _ u
  | first off => obtain ⟨w, rfl, -⟩ := hw; exact older_rset (hr off (.inr (.inr (.inl hA)))) _ u
  | count off hi lo => obtain ⟨w, rfl⟩ := hw; exact older_rcount (hr off (.inr (.inr (.inr ⟨hi, lo, hA⟩)))) _ _ _ u
  | clu cl R => obtain ⟨_, -, rfl⟩ := hw; exact older_of rfl rfl rfl
  | exports => rw [hw]; exact older_of rfl rfl rfl
  | req q => obtain ⟨_, rfl, -⟩ := hw; exact older_of rfl rfl rfl
  | frags cl => obtain ⟨_, rfl, -⟩ := hw; exact older_of rfl rfl rfl
  | probes => obtain ⟨_, _, _, rfl⟩ := hw; exact older_of rfl rfl rfl
  | slu | lane | trc | bas | lnk | free | dmc => obtain ⟨_, rfl⟩ := hw; exact older_of rfl rfl rfl

/-! ### Taints of the frame in progress -/

theorem sendExpress_older (kind arg : Nat) (s : State) : older F (sendExpress kind arg s) = older F s :=
  ite_fix (older F) rfl (older_of rfl rfl rfl)

theorem stagePut_older (bytes : List Byte) (f : Nat) (s : State) : older F (stagePut bytes f s) = older F s := older_of rfl rfl rfl

theorem stageLoss_older (s : State) : older F (stageLoss s) = older F s := by
  unfold stageLoss
  split
  · exact older_of rfl rfl rfl
  · rfl

theorem stageMarker_older (rtype f arg count : Nat) (s : State) : older F (stageMarker rtype f arg count s) = older F s :=
  (stagePut_older ..).trans (stageLoss_older s)

theorem taintOne_older (s : State) : older F (taintOne F s) = older F s := by
  have mark : older F { s with seq := { s.seq with taint := mset false s.seq.taint F true } } = older F s := by
    have hm (f : Nat) (h : f ≠ F) : mget false (mset false s.seq.taint F true) f = mget false s.seq.taint f := mget_mset_other _ _ _ _ _ h
    unfold older isTainted
    simp only [Older.mk.injEq, true_and]
    refine ⟨rfl, funext fun f => ?_⟩
    split_ifs with h
    · rfl
    · exact hm f h
  have marker (u : State) : older F (if u.trc.given.contains F then
      stageMarker 4 F 0 0 { u with trc := { u.trc with given := u.trc.given.erase F } } else u) = older F u :=
    ite_fix (older F) ((stageMarker_older ..).trans (older_of rfl rfl rfl)) rfl
  have notice (u : State) : older F (if u.xch.written.contains F then
      { u with xch := { u.xch with notices := u.xch.notices ++ [F], written := u.xch.written.erase F } } else u) = older F u :=
    ite_fix (older F) (older_of rfl rfl rfl) rfl
  have told (u : State) : older F { sendExpress 10 F u with grp := { (sendExpress 10 F u).grp with taints := F :: u.grp.taints } } = older F u :=
    (older_of rfl rfl rfl).trans (sendExpress_older 10 F u)
  have both := (notice _).trans ((marker _).trans mark)
  exact ite_fix (older F) rfl (ite_fix (older F) both ((told _).trans both))

variable (hst : frameNow s = some F)
include hst

theorem taintFrame_older : older F (taintFrame F s) = older F s := by
  unfold taintFrame
  rw [hst]
  exact ite_fix (older F) rfl (ite_fix (older F) (taintOne_older s) (taintOne_older s))

end

/-! ### The reach network, the memory ports and the upsets -/

section
variable {F : Nat} {s0 s : State}

theorem frameNow_kept {t : State} (h : Noise s t) : frameNow t = frameNow s := frameNow_of_core h.core

theorem lockRec_older (kind link f : Nat) (s : State) : older F (lockRec kind link f s) = older F s := by
  unfold lockRec
  exact (older_rflag (by decide) _ _).trans (ite_fix (older F) rfl (older_rset (by decide) _ s))

theorem linkPresent_older (hF : frameNow s0 = some F) (n : Nat) {x : State × List Report} (hx : frameNow x.1 = some F) :
    older F (linkPresent s0 n x).1 = older F x.1 := by
  unfold linkPresent
  split
  · simp only [hF]
    have h1 (l : Link) : older F (setLnk n l x.1) = older F x.1 := older_of rfl rfl rfl
    have hf (l : Link) : frameNow (setLnk n l x.1) = some F := hx
    exact ite_fix (older F) ((taintFrame_older (hf _)).trans (h1 _)) (h1 _)
  · exact (older_rflag (by unfold oLnkSts; omega) _ _).trans (lockRec_older ..)
  · rfl
  · rfl

theorem reachTouch_older {cls : List Nat} {t : State} (h : Trail (fun τ => ∃ cl ∈ cls, reachTouch cl τ) s t) : older F t = older F s := by
  refine h.older (fun ⟨_, _, h⟩ => h) (fun ⟨_, _, h⟩ => h) fun off h => ?_
  rcases h with ⟨d, -, h⟩ | ⟨d, -, h⟩ | ⟨d, -, h⟩ | ⟨_, _, d, -, h⟩
  · rw [show off = _ from h]; unfold oBasContRecF; omega
  · rcases h with rfl | rfl
    · unfold oBasReachSts; omega
    · unfold cStat oCluStat; omega
  · rw [show off = _ from h]; unfold oBasContRec; omega
  · rcases h with ⟨rfl | rfl, -⟩ | ⟨rfl, -⟩ | rfl
    · unfold oBasContHard; omega
    · unfold oBasContBen; omega
    · unfold oBasImpOvf; omega
    · unfold oBasRwEcc; omega

theorem memTouch_older {cls : List Nat} {t : State} (h : Trail (memTouch cls) s t) : older F t = older F s := by
  refine h.older id id fun off h => ?_
  rcases h with rfl | rfl | h | ⟨_, _, rfl⟩
  · decide
  · decide
  · exact absurd h id
  · decide

theorem linkSend_older (b n : Nat) (s : State) : older F (linkSend s0 b n s) = older F s := by
  unfold linkSend
  extract_lets now slots l
  exact ite_fix (older F) (older_of rfl rfl rfl) (older_of rfl rfl rfl)

/-- Two readings that a fold keeps together. -/
theorem reachStep_older (hF : frameNow s0 = some F) (hs : frameNow s = some F) : older F (reachStep s0 s).1 = older F s := by
  have hclu := (Work.foldl (A := fun τ => ∃ cl ∈ runClusters s0, reachTouch cl τ) (f := frameNow s0) (g := fun x cl => reachCluster s0 cl x)
    (runClusters s0) (fun x d hd => (work_reachCluster x).mono fun τ hτ => ⟨d, hd, hτ⟩) (s, [])).trail
  have links (l : List Nat) (hl : ∀ n ∈ l, n < 12) (x : State × List Report) (hx : frameNow x.1 = some F) :
      older F (l.foldl (fun x n => linkPresent s0 n x) x).1 = older F x.1 := by
    induction l generalizing x with
    | nil => rfl
    | cons n t ih =>
      have hn := (frameNow_of_core (work_linkPresent (s0 := s0) (hl n (by simp)) x).trail.core).trans hx
      exact (ih (fun m hm => hl m (by simp [hm])) _ hn).trans (linkPresent_older hF n hx)
  unfold reachStep
  extract_lets x lnks x1
  have h1 : older F x1.1 = older F s :=
    (links lnks (fun n hn => List.mem_range.1 (List.mem_filter.1 hn).1) x ((frameNow_of_core hclu.core).trans hs)).trans (reachTouch_older hclu)
  exact (foldl_fix (older F) (fun u n => ite_fix (older F) (linkSend_older ..) rfl) _ _).trans h1

theorem memPorts_older (s : State) : older F (memPorts s0 s).1 = older F s := memTouch_older (work_memPorts s).trail

/-- The reach network, then the memory ports. -/
theorem reachMem_older (hF : frameNow s0 = some F) {x : State × List Report} (hx : frameNow x.1 = some F) :
    older F (andThen (memPorts s0) (andThen (reachStep s0) x)).1 = older F x.1 :=
  (memPorts_older _).trans (reachStep_older hF hx)

end

end Sys2Proof.Machine

namespace Sys2Proof.Machine

/-! ## Older frames in a second tick step -/

section
variable {F : Nat} {s : State}

theorem scrubs_older (hs : List Happening) (x : State × List Report) : older F (scrubs hs x).1 = older F x.1 := by
  refine (scrubs_work hs x).trail.older id id fun off h => ?_
  rcases h with h | h | h | ⟨_, _, h⟩
  · exact absurd h id
  · exact le_trans (by decide) h
  · exact absurd h id
  · exact le_trans (by decide) h

theorem overrunCheck_older (s : State) : older F (overrunCheck s).1 = older F s := by
  unfold overrunCheck
  extract_lets d limit s1
  have h1 : older F s1 = older F s := older_rput (by decide) ..
  split_ifs
  · exact (older_setInt (by decide) _ _ _).trans ((older_rflag (by decide) _ _).trans h1)
  · exact h1

theorem addEvent_older (e : GEvent) (s : State) : older F (addEvent e s) = older F s := ite_fix (older F) rfl (older_of rfl rfl rfl)

theorem returnPrecheck_older (n g : Nat) (s : State) : older F (returnPrecheck n g s) = older F s := by
  have noted : older F { s with seq := { s.seq with preRet := s.seq.preRet ++ [(n, g, s.seq.mode)] } } = older F s := older_of rfl rfl rfl
  exact ite_fix (older F) rfl (ite_fix (older F) ((sendExpress_older ..).trans ((addEvent_older ..).trans noted)) noted)

theorem lateReturn_older (s0 s : State) : older F (lateReturn s0 s) = older F s := by
  unfold lateReturn
  split
  · exact ite_fix (older F) (returnPrecheck_older ..) rfl
  · rfl

theorem sluicePrecheck_older (f p : Nat) (s : State) : older F (sluicePrecheck f p s) = older F s := by
  unfold sluicePrecheck
  refine foldl_fix (older F) (fun s q => foldl_fix (older F) (fun s t => ?_) _ s) _ s
  have moded (x : Sluice) : older F (setSlu q x s) = older F s := older_of rfl rfl rfl
  have counted (x : Sluice) : older F (rcount (oHldSluCnt q) 15 0 1 (setSlu q x s)) = older F s :=
    (older_rcount (by unfold oHldSluCnt; omega) ..).trans (moded x)
  exact ite_fix (older F) rfl (ite_fix (older F) (moded _) (ite_fix (older F) (counted _)
    ((sendExpress_older ..).trans ((addEvent_older ..).trans (counted _)))))

theorem prechecks_older (s0 s : State) : older F (prechecks s0 s) = older F s := by
  unfold prechecks
  extract_lets a s1
  have h1 : older F s1 = older F s := ite_fix (older F) (lateReturn_older ..) rfl
  split
  · exact ite_fix (older F) ((sluicePrecheck_older ..).trans h1) h1
  · exact ite_fix (older F) ((returnPrecheck_older ..).trans h1) h1

theorem dacScan_older (s0 s : State) : older F (dacScan s0 s) = older F s := older_of rfl rfl rfl

/-! ### The faults of a step in which all are of the frame in progress -/

theorem safInt_older (n : Nat) (s : State) : older F (safInt n s) = older F s := older_setInt (by decide) ..

theorem logFault_older (r : Report) (s : State) : older F (logFault r s) = older F s := by
  have booked (x : SafState) (u : State) : older F { u with saf := x } = older F u := older_of rfl rfl rfl
  unfold logFault logFaultAs
  dsimp only
  generalize hs1 : rflag oSafSts (r.code / 4096) { s with saf := { s.saf with arm := s.saf.arm || decide (rfld s oSafSts 15 1 = 0) } } = s1
  have h1 : older F s1 = older F s := hs1 ▸ (older_rflag (by decide) ..).trans (booked _ _)
  generalize hs2 : (if r.code / 4096 = 0 then s1 else safInt 0 s1) = told
  have h2 : older F told = older F s := hs2 ▸ ite_fix (older F) h1 ((safInt_older 0 _).trans h1)
  split
  · exact (booked _ _).trans h2
  · exact ite_fix (older F) ((older_rcount (by decide) ..).trans h1)
      (ite_fix (older F) ((safInt_older 3 _).trans ((booked _ _).trans h2)) ((booked _ _).trans h2))

theorem logAll_older (acts : List (Report × Nat)) (s : State) : older F (logAll acts s) = older F s :=
  foldl_fix (older F) (fun _ _ => logFault_older ..) _ _

/-- What is not chosen for a downgrade stays as it is. -/
theorem filter_unconfirmed {p : Nat → Bool} {q : Verdict → Bool} (h : ∀ v, p v.frame = true → q v = false) (l : List Verdict) :
    (l.map fun v => if q v then { v with unconf := true } else v).filter (fun v => p v.frame) = l.filter fun v => p v.frame := by
  induction l with
  | nil => rfl
  | cons v t ih =>
    rw [List.map_cons, List.filter_cons, List.filter_cons, ih]
    cases hq : q v with
    | false => simp
    | true =>
      have hp : p v.frame = false := by
        cases hp : p v.frame with
        | false => rfl
        | true => rw [h v hp] at hq; cases hq
      simp [hp]

theorem older_held {l : List Verdict} {s : State}
    (h : l.filter (fun v => decide (64 ≤ frDist v.frame F)) = s.gau.held.filter fun v => decide (64 ≤ frDist v.frame F)) :
    older F { s with gau := { s.gau with held := l } } = older F s := by
  unfold older
  rw [← h]
  rfl

/-- A frame 64 before is none of the last 64. -/
theorem not_recent {f F : Nat} (hF : F < 2 ^ 48) (h : 64 ≤ frDist f F) : ¬ frDist (frBack F 63) f ≤ frDist (frBack F 63) F := by
  unfold frDist frBack at *
  omega

/-- A verdict downgraded is of one of the last 64 frames. -/
theorem downgrade_older (hF : F < 2 ^ 48) (s : State) : older F (downgrade (frBack F 63) F s) = older F s := by
  refine older_held (filter_unconfirmed (p := fun f => decide (64 ≤ frDist f F)) (q := fun v => decide (frDist (frBack F 63) v.frame ≤ frDist (frBack F 63) F))
    (fun v hv => ?_) s.gau.held)
  exact decide_eq_false (not_recent hF (of_decide_eq_true hv))

section
variable (hnow : frameNow s = some F)
include hnow

theorem taintReport_older {r : Report} (hr : r.frame = some F) : older F (taintReport r s) = older F s := by
  unfold taintReport
  rw [hr]
  exact taintFrame_older hnow

theorem frameNow_F : s.seq.F.toNat = F := by
  unfold frameNow at hnow
  split_ifs at hnow
  exact Option.some.inj hnow

theorem taintReports_older {acts : List (Report × Nat)} (hacts : ∀ a ∈ acts, a.1.frame = some F) :
    older F (acts.foldl (fun s a => if 1 ≤ a.2 then taintReport a.1 s else s) s) = older F s := by
  induction acts generalizing s with
  | nil => rfl
  | cons a t ih =>
    have h1 : Noise s (if 1 ≤ a.2 then taintReport a.1 s else s) := .ite (noise_taintReport ..) (.refl _)
    refine (ih ((frameNow_kept h1).trans hnow) fun b hb => hacts b (by simp [hb])).trans ?_
    exact ite_fix (older F) (taintReport_older hnow (hacts a (by simp))) rfl

omit hnow in
theorem foldl_earliest {l : List (Report × Nat)} (hl : ∀ a ∈ l, a.1.frame = some F) (d : Nat) (o : Option Nat) (ho : ∀ g, o = some g → g = F) :
    ∀ g, l.foldl (fun o a => some (match o with
      | some g => if frLt (a.1.frame.getD d) g then a.1.frame.getD d else g
      | none => a.1.frame.getD d)) o = some g → g = F := by
  induction l generalizing o with
  | nil => exact ho
  | cons a t ih =>
    refine ih (fun b hb => hl b (by simp [hb])) _ fun g hg => ?_
    have ha : a.1.frame.getD d = F := by rw [hl a (by simp), Option.getD_some]
    beta_reduce at hg
    rw [ha] at hg
    cases o with
    | none => exact (Option.some.inj hg).symm
    | some g0 =>
      rw [ho g0 rfl] at hg
      exact (Option.some.inj hg).symm.trans (ite_self F)

omit hnow in
/-- Where every fault is of the frame in progress, a halt reaction is of it. -/
theorem haltFrame_eq {acts : List (Report × Nat)} (hacts : ∀ a ∈ acts, a.1.frame = some F) {f : Nat} (h : haltFrame s acts = some f) : f = F :=
  foldl_earliest (fun a ha => hacts a (List.mem_filter.1 ha).1) _ none (by simp) f h

theorem haltReaction_older (hst : s.seq.st = .flight) : older F (haltReaction F s) = older F s := by
  have hF := frameNow_F hnow
  have hlt : F < 2 ^ 48 := hF ▸ s.seq.F.isLt
  have h1 := noise_safInt 1 s
  have hnew : newestFrame (safInt 1 s) = F := by
    unfold newestFrame
    rw [h1.st, hst, h1.F, hF]
    rfl
  have spanned (u : State) (hu : frameNow u = some F) : older F (taintSpan F F u) = older F u := by
    have hd : frDist F F = 0 := by unfold frDist; omega
    have hb : frBack F 0 = F := by unfold frBack; omega
    unfold taintSpan
    rw [hd]
    refine ite_fix (older F) rfl ?_
    show older F ((List.range 1).foldl (fun s i => taintFrame (frBack F (0 - i)) s) (taintFrame F u)) = _
    simp only [List.range_one, List.foldl_cons, List.foldl_nil, Nat.sub_zero, hb]
    exact (taintFrame_older ((frameNow_kept (noise_taintFrame F u)).trans hu)).trans (taintFrame_older hu)
  have requested (u : State) : older F (requestHalt u) = older F u :=
    ite_fix (older F) ((sendExpress_older ..).trans (ite_fix (older F) (older_of rfl rfl rfl) rfl)) rfl
  have carried (u : State) (c : Option Nat) : older F { u with seq := { u.seq with carry := c } } = older F u := older_of rfl rfl rfl
  unfold haltReaction
  dsimp only
  rw [hnew]
  exact ite_fix (older F) ((requested _).trans ((carried _ _).trans ((spanned _ ((frameNow_kept h1).trans hnow)).trans (safInt_older 1 s)))) (safInt_older 1 s)

/-- The faults of a tick step leave older frames. -/
theorem raiseFirst_older (hst : s.seq.st = .flight) {acts : List (Report × Nat)} (hacts : ∀ a ∈ acts, a.1.frame = some F) (hloss : noClockLoss acts) :
    older F (raiseFirst acts s) = older F s := by
  have hlost : (acts.any fun a => a.2 = 2 && a.1.code = 0x9001) = false := by
    rw [List.any_eq_false]
    intro a ha
    simp [hloss a ha]
  have hF := frameNow_F hnow
  have hlt : F < 2 ^ 48 := hF ▸ s.seq.F.isLt
  have n1 := noise_logAll acts s
  have o1 := logAll_older (F := F) acts s
  obtain ⟨s2, hs2⟩ : ∃ s2, (if acts.any fun a => a.1.code = 0x1001 then
    downgrade (frBack (logAll acts s).seq.F.toNat 63) (logAll acts s).seq.F.toNat (logAll acts s) else logAll acts s) = s2 := ⟨_, rfl⟩
  have n2 : Noise s s2 := hs2 ▸ n1.trans (.ite (noise_downgrade ..) (.refl _))
  have o2 : older F s2 = older F s := by
    rw [← hs2, n1.F, hF]
    exact ite_fix (older F) ((downgrade_older hlt _).trans o1) o1
  have n3 : Noise s (acts.foldl (fun s a => if 1 ≤ a.2 then taintReport a.1 s else s) s2) :=
    n2.trans (.foldl (fun _ _ => .ite (noise_taintReport ..) (.refl _)) _ _)
  have o3 := (taintReports_older ((frameNow_kept n2).trans hnow) hacts).trans o2
  unfold raiseFirst
  simp only [hlost, Bool.false_and, Bool.false_eq_true, if_false]
  subst hs2
  split
  · rename_i f hf
    rw [haltFrame_eq hacts hf]
    exact ite_fix (older F) o3 ((haltReaction_older ((frameNow_kept n3).trans hnow) (n3.st.trans hst)).trans o3)
  · exact o3

end

end

end Sys2Proof.Machine

namespace Sys2Proof.Machine

/-! ## The gauge lanes in the tick steps (R216-R224) -/

section
variable {A : Touch → Prop} {s t : State}

/-- A row of writes that touches no lane leaves all lanes. -/
theorem Trail.lanes (h : Trail A s t) (hl : ∀ n, ¬ A (.lane n)) (hg : ¬ A .gau) : t.gau.lanes = s.gau.lanes ∧ t.gau.live = s.gau.live := by
  have fixed : (t.gau.lanes, t.gau.live) = (s.gau.lanes, s.gau.live) := by
    refine h.fix (fun u => (u.gau.lanes, u.gau.live)) fun τ hA u v hw => ?_
    cases τ with
    | lane n => exact absurd hA (hl n)
    | gau => exact absurd hA hg
    | books =>
      have hq (w : State) : (quiet w).rest.gau = gauKept w.gau := by unfold quiet; rfl
      have e : gauKept v.gau = gauKept u.gau := by rw [← hq, hw.view, hq]
      exact (congrArg (fun g : GauState => (g.lanes, g.live)) e :)
    | req q => obtain ⟨_, rfl, -⟩ := hw; rfl
    | frags cl => obtain ⟨_, rfl, -⟩ := hw; rfl
    | probes => obtain ⟨_, _, _, rfl⟩ := hw; rfl
    | first off => obtain ⟨_, rfl, -⟩ := hw; rfl
    | exports => rw [hw]; rfl
    | clu cl R => obtain ⟨_, -, rfl⟩ := hw; rfl
    | reg | flag | count | slu | trc | bas | lnk | free | dmc => obtain ⟨_, rfl⟩ := hw; rfl
  exact Prod.mk.inj fixed

theorem Noise.lanes (h : Noise s t) : t.gau.lanes = s.gau.lanes := h.still.lanes

end

/-! ### The first tick step -/

section
variable {hs : List Happening} {s0 s : State} {n : Nat}

/-- The lanes drive their pins as the design says (R217-R219). -/
structure Driving (s : State) : Prop where
  safe : s.saf.safe = false
  live : s.gau.live = true
  power : rfld s oPwrSts 2 0 < 3
  boot : rfld s oCfgBoot 3 0 ≠ 0
  present : unitPresent s 12 = true
  clocked : rbit s oCkgEn0 12 = true
  run : s.seq.st = .flight

theorem Driving.pin (h : Driving s) (hoff : (getLane s n).off = false) : lanePin s n = (getLane s n).pin := by
  unfold lanePin
  simp [h.safe, h.live, Nat.not_le.2 h.power, h.boot, h.present, h.clocked, h.run, hoff]

theorem Driving.sample {t : State} (h : Driving s) (hst : Trail sampleTouch s t) : Driving t := by
  refine hst.keep (P := Driving) (fun τ hA u v hw hu => ?_) h
  cases τ with
  | lane | free =>
    obtain ⟨_, rfl⟩ := hw
    exact ⟨hu.safe, hu.live, hu.power, hu.boot, hu.present, hu.clocked, hu.run⟩
  | _ => exact absurd hA id

theorem getLane_setLane_same (n : Nat) (x : Lane) (s : State) : getLane (setLane n x s) n = x := mget_mset_same ..
theorem getLane_setLane_other {m : Nat} (h : n ≠ m) (x : Lane) (s : State) : getLane (setLane m x s) n = getLane s n := mget_mset_other _ _ _ _ _ h

theorem getLane_zdOf (zd : Option Nat) (s : State) : (zdOf hs zd s).2.gau.lanes = s.gau.lanes := by
  cases zd with
  | none => rfl
  | some z =>
    show (zdSample (zdAt hs z) s).2.gau.lanes = _
    unfold zdSample
    split <;> rfl

/-- A lane as the first tick commits it. -/
def tickLane (s0 : State) (n : Nat) (l : Lane) : Lane :=
  { l with drv := l.sdrv.getD l.drv, exp := l.sexp.getD l.exp, sdrv := none, sexp := none, off := laneMode s0 n = 0, pin := tickPin s0 n }

/-- A lane with its sample. -/
def sampled (l : Lane) (smp : V4) (lvl : Option Bool) : Lane := { l with smp := smp, level := lvl }

/-- The level of a lane's pin in a first tick step. -/
def tickLevel (hs : List Happening) (s0 : State) (n : Nat) (s : State) : Option Bool :=
  pinLevel (lanePin (setLane n (tickLane s0 n (getLane s n)) s) n) (pinAt hs n)
    (match leftAt hs n with | some b => some b | none => (getLane s n).level)

/-- One lane's first tick: committed, and of a lane that is not OFF a sample: Z where its input reads 1, else its level where one is known. -/
theorem laneFirstTick_lane (hmode : laneMode s0 n ≠ 0) (s : State) : ∃ smp lvl,
    getLane (laneFirstTick hs s0 n s) n = sampled (tickLane s0 n (getLane s n)) smp lvl ∧
      ((zdOf hs (laneZd s0 n) s).1 = true → smp = .z) ∧
      ∀ b, (zdOf hs (laneZd s0 n) s).1 = false → tickLevel hs s0 n s = some b → smp = v4bool b := by
  unfold laneFirstTick
  extract_lets l mode last l1 s1 level
  rw [if_neg hmode]
  have hl1 : l1 = tickLane s0 n (getLane s n) := rfl
  have hlevel : tickLevel hs s0 n s = level := rfl
  rw [hlevel, ← hl1]
  clear_value level l1
  split
  next z s2 hz =>
  rw [show zdOf hs (laneZd s0 n) s = (z, s2) from hz]
  cases level with
  | some b => exact ⟨_, _, getLane_setLane_same .., fun h => if_pos h, fun b' h e => (if_neg (by simpa using h)).trans (congrArg v4bool (Option.some.inj e))⟩
  | none => exact ⟨_, _, getLane_setLane_same .., fun h => if_pos h, fun b' _ e => by cases e⟩

theorem laneFirstTick_other {m : Nat} (h : n ≠ m) (s : State) : getLane (laneFirstTick hs s0 m s) n = getLane s n := by
  have trail := trail_laneFirstTick (s0 := s0) hs m s
  unfold laneFirstTick
  extract_lets l mode last l1 s1 level
  clear_value level l1
  have hzl : getLane (zdOf hs (laneZd s0 m) s).2 n = getLane s n := congrArg (mget _ · n) (getLane_zdOf ..)
  refine ite_fix (getLane · n) (getLane_setLane_other h ..) ?_
  split
  next z s2 hz =>
  rw [show zdOf hs (laneZd s0 m) s = (z, s2) from hz] at hzl
  cases level with
  | some b => exact (getLane_setLane_other h ..).trans hzl
  | none => exact (getLane_setLane_other h ..).trans hzl

end

section
variable {F : Nat} {s t : State}

theorem rget_of_older (h : older F t = older F s) {off : Nat} (ho : off < 0x50000) : rget t off = rget s off := by
  have e := congrFun (congrArg Older.low h) off
  unfold older at e
  simpa [ho] using e

end

section
variable {hs : List Happening} {s0 s : State} {n : Nat}

/-- What comes before the samples touches no lane. -/
theorem commitTouch_lane {cls : List Nat} (n : Nat) : ¬ commitTouch cls (.lane n) := by
  rintro (⟨_, _, h⟩ | (⟨_, _, h⟩ | h) | h) <;> exact h

theorem commitTouch_gau {cls : List Nat} : ¬ commitTouch cls .gau := by
  rintro (⟨_, _, h⟩ | (⟨_, _, h⟩ | h) | h) <;> exact h

theorem firstCommit_lanes : (firstCommit s0).1.gau.lanes = s0.gau.lanes ∧ (firstCommit s0).1.gau.live = s0.gau.live :=
  (work_firstCommit s0).trail.lanes commitTouch_lane commitTouch_gau

theorem firstCommit_older {F : Nat} (hF : frameNow s0 = some F) : older F (firstCommit s0).1 = older F s0 := by
  have hc := trail_commitAll (s0 := s0) s0
  have h1 : older F (commitAll s0 s0) = older F s0 := by
    unfold commitAll
    exact foldl_fix (older F) (fun u cl => older_of (t := commitCluster s0 cl u) (s := u) rfl rfl rfl) _ _
  exact (reachMem_older hF ((frameNow_of_core hc.core).trans hF)).trans h1

theorem firstCommit_driving (hst : s0.seq.st = .flight) (hsafe : s0.saf.safe = false) (hlive : s0.gau.live = true) (hpow : rfld s0 oPwrSts 2 0 < 3)
    (hboot : rfld s0 oCfgBoot 3 0 ≠ 0) (hon : unitOn s0 12 = true) : Driving (firstCommit s0).1 := by
  have hF : frameNow s0 = some s0.seq.F.toNat := by unfold frameNow; simp [hst]
  have low := fun {off : Nat} (ho : off < 0x50000) => rget_of_older (firstCommit_older hF) ho
  have hcore := (work_firstCommit s0).trail.core
  unfold unitOn at hon
  simp only [Bool.and_eq_true] at hon
  obtain ⟨⟨hpres, hclk⟩, -⟩ := hon
  refine ⟨?_, firstCommit_lanes.2.trans hlive, ?_, ?_, ?_, ?_, (st_of_core hcore).trans hst⟩
  · rw [← core_safe, hcore, core_safe, hsafe]
  · unfold rfld at hpow ⊢; rwa [low (by decide)]
  · unfold rfld at hboot ⊢; rwa [low (by decide)]
  · unfold unitPresent at hpres ⊢; rwa [dev_of_core hcore]
  · unfold rbit at hclk ⊢; rwa [low (by decide)]

theorem mem_gauLanes (hn : n < nLanes s0) (hmode : laneMode s0 n ≠ 0) : n ∈ gauLanes s0 := by
  unfold gauLanes
  simp [hn, hmode]

theorem mem_tickLanes (hn : n < nLanes s0) (hmode : laneMode s0 n ≠ 0) : n ∈ tickLanes hs s0 := by
  unfold tickLanes
  simp [hn, mem_gauLanes hn hmode]

/-- A lane after the samples, with the state in which it was sampled. -/
theorem sampleLanes_lane (hn : n < nLanes s0) (hmode : laneMode s0 n ≠ 0) (s : State) : ∃ u smp lvl, Trail sampleTouch s u ∧
    getLane u n = getLane s n ∧ getLane (sampleLanes hs s0 s) n = sampled (tickLane s0 n (getLane s n)) smp lvl ∧
    ((zdOf hs (laneZd s0 n) u).1 = true → smp = .z) ∧
    ∀ b, (zdOf hs (laneZd s0 n) u).1 = false → tickLevel hs s0 n u = some b → smp = v4bool b := by
  refine foldl_rel (getLane · n) (fun u => Trail sampleTouch s u)
    (P := fun l l' => ∃ u smp lvl, Trail sampleTouch s u ∧ getLane u n = l ∧ l' = sampled (tickLane s0 n l) smp lvl ∧
      ((zdOf hs (laneZd s0 n) u).1 = true → smp = .z) ∧ ∀ b, (zdOf hs (laneZd s0 n) u).1 = false → tickLevel hs s0 n u = some b → smp = v4bool b)
    (List.nodup_range.filter _) (mem_tickLanes hn hmode) (fun u hu m _ => hu.trans (trail_laneFirstTick hs m u))
    (fun u _ m _ hm => laneFirstTick_other hm.symm u) (fun u hu => ?_) s (.refl s)
  obtain ⟨smp, lvl, h1, h2, h3⟩ := laneFirstTick_lane (hs := hs) hmode u
  exact ⟨u, smp, lvl, hu, rfl, h1, h2, h3⟩

theorem PosOver.lanes {rs : List Report} {y u : State} (h : PosOver rs y u) : u.gau.lanes = y.gau.lanes := h.still.lanes

theorem stamped_lanes (u : State) (n : Nat) : ({ u with gau := { u.gau with tickTsn := n } } : State).gau.lanes = u.gau.lanes := rfl

theorem gaugeFirstTick_lanes (hon : gauOn s0 = true) (s : State) : (gaugeFirstTick hs s0 s).gau.lanes = (sampleLanes hs s0 s).gau.lanes := by
  have hoff : ¬ (!gauOn s0) = true := by simp [hon]
  exact (congrArg (fun u : State => u.gau.lanes) (if_neg hoff)).trans (stamped_lanes ..)

/-- A first tick step leaves the lanes as the samples leave them. -/
theorem firstBody_lane (hon : gauOn (strikes hs s) = true) (n : Nat) :
    getLane (firstBody hs s) n = getLane (sampleLanes hs (strikes hs s) (firstCommit (strikes hs s)).1) n := by
  have h1 : (firstBody hs s).gau.lanes = (firstWork hs (strikes hs s)).1.gau.lanes := (firstBody_over hs s).lanes
  have h2 := ((work_firstTail hs (strikes hs s)).trail.lanes (fun _ => id) id).1
  have h3 := ((trail_firstCleared hs (strikes hs s)).lanes (fun _ => id) id).1
  have h4 : (firstSampled hs (strikes hs s)).gau.lanes = (sampleLanes hs (strikes hs s) (firstCommit (strikes hs s)).1).gau.lanes :=
    gaugeFirstTick_lanes hon _
  exact congrArg (mget _ · n) (h1.trans (h2.trans (h3.trans h4)))

end

end Sys2Proof.Machine

namespace Sys2Proof.Machine

section
variable {hs : List Happening} {s : State} {n : Nat}

@[simp] theorem strikes_unitOn (u : Nat) : unitOn (strikes hs s) u = unitOn s u := by
  unfold unitOn unitPresent unitClocked entryDeeper rbit rfld rget
  simp

@[simp] theorem strikes_laneMode (n : Nat) : laneMode (strikes hs s) n = laneMode s n := by unfold laneMode rfld; rw [rget_strikes]
@[simp] theorem strikes_laneXpol (n : Nat) : laneXpol (strikes hs s) n = laneXpol s n := by unfold laneXpol rfld; rw [rget_strikes]
@[simp] theorem strikes_laneZd (n : Nat) : laneZd (strikes hs s) n = laneZd s n := by unfold laneZd rfld rbit; simp only [rget_strikes]
@[simp] theorem strikes_nLanes : nLanes (strikes hs s) = nLanes s := by unfold nLanes; rw [strikes_dev]
@[simp] theorem strikes_getLane (n : Nat) : getLane (strikes hs s) n = getLane s n := by unfold getLane; rw [strikes_gau]
@[simp] theorem strikes_gauOn : gauOn (strikes hs s) = unitOn s 12 := strikes_unitOn 12
@[simp] theorem strikes_frameNow : frameNow (strikes hs s) = frameNow s := by unfold frameNow; rw [strikes_seq]
@[simp] theorem strikes_lanePin (n : Nat) : lanePin (strikes hs s) n = lanePin s n := by
  have hstd : (strikes hs s).std.park = s.std.park ∧ (strikes hs s).std.safe = s.std.safe := by
    have h := foldl_fix (fun u : State => (u.std.park, u.std.safe)) (f := fun s h => strike h s) (fun s h => by cases h <;> rfl) hs s
    exact Prod.mk.inj h
  unfold lanePin unitPresent rbit rfld
  simp only [rget_strikes, strikes_getLane, strikes_saf, strikes_seq, strikes_gau, strikes_dev, hstd.1, hstd.2]

theorem frameNow_flight (hst : s.seq.st = .flight) : frameNow s = some s.seq.F.toNat := by unfold frameNow; simp [hst]

variable (hon : unitOn s 12 = true) (hn : n < nLanes s) (hmode : laneMode s n ≠ 0)
include hon hn hmode

/-- A lane after a first tick step, with the state in which it was sampled. -/
theorem firstBody_sampled : ∃ u smp lvl, Trail sampleTouch (firstCommit (strikes hs s)).1 u ∧ getLane u n = getLane s n ∧
    getLane (firstBody hs s) n = sampled (tickLane (strikes hs s) n (getLane s n)) smp lvl ∧
    ((zdOf hs (laneZd s n) u).1 = true → smp = .z) ∧
    ∀ b, (zdOf hs (laneZd s n) u).1 = false → tickLevel hs (strikes hs s) n u = some b → smp = v4bool b := by
  obtain ⟨u, smp, lvl, h1, h2, h3, h4, h5⟩ := sampleLanes_lane (hs := hs) (s0 := strikes hs s) (n := n) (by rwa [strikes_nLanes])
    (by rwa [strikes_laneMode]) (firstCommit (strikes hs s)).1
  have hbase : getLane (firstCommit (strikes hs s)).1 n = getLane s n :=
    (congrArg (mget _ · n) firstCommit_lanes.1).trans (strikes_getLane n)
  rw [hbase] at h2 h3
  rw [strikes_laneZd] at h4 h5
  exact ⟨u, smp, lvl, h1, h2, (firstBody_lane (by rwa [strikes_gauOn]) n).trans h3, h4, h5⟩

/-- The staged values of a lane are committed. -/
theorem firstBody_committed : (getLane (firstBody hs s) n).drv = (getLane s n).sdrv.getD (getLane s n).drv ∧
    (getLane (firstBody hs s) n).exp = (getLane s n).sexp.getD (getLane s n).exp ∧ (getLane (firstBody hs s) n).sdrv = none ∧
    (getLane (firstBody hs s) n).sexp = none := by
  obtain ⟨u, smp, lvl, -, -, h, -⟩ := firstBody_sampled (hs := hs) hon hn hmode
  rw [h]
  exact ⟨rfl, rfl, rfl, rfl⟩

/-- A paired lane samples Z where its high-Z-detect input reads 1. -/
theorem firstBody_smp_z {z : Nat} (hz : laneZd s n = some z) (hhigh : zdAt hs z = .high) : (getLane (firstBody hs s) n).smp = .z := by
  obtain ⟨u, smp, lvl, -, -, h, h4, -⟩ := firstBody_sampled (hs := hs) hon hn hmode
  rw [h]
  refine h4 ?_
  unfold zdOf zdSample
  simp [hz, hhigh]

variable (hin : laneMode s n = 2) (hst : s.seq.st = .flight) (hsafe : s.saf.safe = false) (hlive : s.gau.live = true) (hpow : rfld s oPwrSts 2 0 < 3)
  (hboot : rfld s oCfgBoot 3 0 ≠ 0)
include hin hst hsafe hlive hpow hboot

/-- An IN lane samples the level it reads, unless its high-Z-detect input says otherwise. -/
theorem firstBody_smp_level (hz : laneZd s n = none ∨ ∃ z, laneZd s n = some z ∧ zdAt hs z = .low) {b : Bool}
    (hpin : pinAt hs n = if b then .high else .low) : (getLane (firstBody hs s) n).smp = v4bool b := by
  obtain ⟨u, smp, lvl, h1, h2, h, -, h5⟩ := firstBody_sampled (hs := hs) hon hn hmode
  have hdrv : Driving (firstCommit (strikes hs s)).1 := by
    refine firstCommit_driving ?_ ?_ ?_ ?_ ?_ ?_
    · rwa [strikes_seq]
    · rwa [strikes_saf]
    · rwa [strikes_gau]
    · unfold rfld at hpow ⊢; rwa [rget_strikes]
    · unfold rfld at hboot ⊢; rwa [rget_strikes]
    · rwa [strikes_unitOn]
  have hlane : Driving (setLane n (tickLane (strikes hs s) n (getLane u n)) u) := by
    obtain ⟨d1, d2, d3, d4, d5, d6, d7⟩ := hdrv.sample h1
    exact ⟨d1, d2, d3, d4, d5, d6, d7⟩
  have hout : lanePin (setLane n (tickLane (strikes hs s) n (getLane u n)) u) n = .released := by
    have hsame := getLane_setLane_same n (tickLane (strikes hs s) n (getLane u n)) u
    have hoff : (tickLane (strikes hs s) n (getLane u n)).off = false := by
      unfold tickLane
      simp [hin]
    rw [hlane.pin (by rw [hsame, hoff]), hsame]
    unfold tickLane tickPin
    simp [hin]
  rw [h]
  refine h5 b ?_ ?_
  · rcases hz with hz | ⟨z, hz, hlow⟩
    · rw [hz]; rfl
    · rw [hz]; unfold zdOf zdSample; simp [hlow]
  · unfold tickLevel
    rw [hout, hpin]
    cases b <;> rfl

end

end Sys2Proof.Machine

namespace Sys2Proof.Machine

/-! ### The second tick step -/

/-- The gauge unit's registers. -/
abbrev gaugeReg (off : Nat) : Prop := 0xD0000 ≤ off ∧ off < 0xE0000

section
variable {A : Touch → Prop} {s t : State}

theorem Noise.held (h : Noise s t) : heldKept t.gau = heldKept s.gau := by
  have hq (u : State) : (quiet u).held = heldKept u.gau := by unfold quiet; rfl
  rw [← hq, h.view, hq]

/-- A row of writes that leaves the gauge unit alone keeps the frames and lanes of its verdicts. -/
theorem Trail.held (h : Trail A s t) (hg : ¬ A .gau) : heldKept t.gau = heldKept s.gau := by
  refine h.fix (fun u => heldKept u.gau) fun τ hA u v hw => ?_
  cases τ with
  | gau => exact absurd hA hg
  | books => exact Noise.held hw
  | req q => obtain ⟨_, rfl, -⟩ := hw; rfl
  | frags cl => obtain ⟨_, rfl, -⟩ := hw; rfl
  | probes => obtain ⟨_, _, _, rfl⟩ := hw; rfl
  | first off => obtain ⟨_, rfl, -⟩ := hw; rfl
  | exports => rw [hw]; rfl
  | clu cl R => obtain ⟨_, -, rfl⟩ := hw; rfl
  | lane n => obtain ⟨_, rfl⟩ := hw; rfl
  | reg | flag | count | slu | trc | bas | lnk | free | dmc => obtain ⟨_, rfl⟩ := hw; rfl

/-- A row of writes to other registers keeps the gauge unit's. -/
theorem Trail.gaugeRegs (h : Trail A s t) (hr : ∀ off, A (.reg off) ∨ A (.flag off) ∨ A (.first off) ∨ (∃ hi lo, A (.count off hi lo)) → ¬ gaugeReg off)
    {off : Nat} (ho : gaugeReg off) : rget t off = rget s off :=
  h.reg_stands (.inl (by omega)) (fun hA => hr off (.inl hA) ho) (fun hA => hr off (.inr (.inr (.inl hA))) ho) (fun hA => hr off (.inr (.inl hA)) ho)
    fun hi lo hA => hr off (.inr (.inr (.inr ⟨hi, lo, hA⟩))) ho

end

section
variable {hs : List Happening} {s0 s : State}

theorem transit_gaugeRegs {t : State} (h : Trail (transitTouch (runClusters s0)) s t) {off : Nat} (ho : gaugeReg off) : rget t off = rget s off := by
  refine h.gaugeRegs (fun off h hoff => ?_) ho
  rcases h with ((⟨d, -, h⟩ | h) | h) | ((⟨d, -, h⟩ | h) | h) | ((⟨d, -, h⟩ | h) | h) | ⟨_, _, (⟨d, -, h⟩ | h) | h⟩
  · rw [show off = _ from h] at hoff; unfold oBasContRecF at hoff; omega
  · exact h
  · rw [show off = _ from h] at hoff; exact absurd hoff (by decide)
  · rcases h with rfl | rfl
    · unfold oBasReachSts at hoff; omega
    · unfold cStat oCluStat at hoff; omega
  · exact h
  · rw [show off = _ from h] at hoff; exact absurd hoff (by decide)
  · rw [show off = _ from h] at hoff; unfold oBasContRec at hoff; omega
  · exact h
  · exact h
  · rcases h with ⟨rfl | rfl, -⟩ | ⟨rfl, -⟩ | rfl
    · unfold oBasContHard at hoff; omega
    · unfold oBasContBen at hoff; omega
    · unfold oBasImpOvf at hoff; omega
    · unfold oBasRwEcc at hoff; omega
  · exact h
  · rw [show off = _ from h] at hoff; exact absurd hoff (by decide)

theorem scrubs_gaugeRegs (x : State × List Report) {off : Nat} (ho : gaugeReg off) : rget (scrubs hs x).1 off = rget x.1 off := by
  refine (scrubs_work hs x).trail.gaugeRegs (fun off h hoff => ?_) ho
  rcases h with h | h | h | ⟨_, _, h⟩
  · exact h
  · exact absurd (lt_of_le_of_lt h hoff.2) (by decide)
  · exact h
  · exact absurd (lt_of_le_of_lt h hoff.2) (by decide)

theorem noise_overrunCheck (s : State) : Noise s (overrunCheck s).1 := by
  unfold overrunCheck
  extract_lets d limit s1
  have h1 : Noise s s1 := noise_rput (by decide) (by decide) ..
  split_ifs
  · exact (h1.trans (noise_rflag (by decide) ..)).trans (noise_seqInt ..)
  · exact h1

/-- From the upsets to the second tick's own actions: the lanes, the gauge unit's registers and the older frames stand. -/
theorem secondTold_lanes : (secondTold hs s0).gau.lanes = s0.gau.lanes :=
  (noise_secondTold hs s0).lanes.trans ((((work_secondWork hs s0).trail.lanes (fun _ => id) id).1).trans
    ((work_secondReach s0).trail.lanes (fun n h => by rcases h with (⟨_, _, h⟩ | h) | h <;> exact h)
      fun h => by rcases h with (⟨_, _, h⟩ | h) | h <;> exact h).1)

theorem secondTold_gaugeRegs {off : Nat} (ho : gaugeReg off) : rget (secondTold hs s0) off = rget s0 off := by
  have h1 : rget (secondTold hs s0) off = rget (secondWork hs s0).1 off := (noise_secondTold hs s0).reg (by omega)
  have h2 : rget (secondWork hs s0).1 off = rget (scrubs hs (secondReach s0)).1 off := (noise_overrunCheck _).reg (by omega)
  exact h1.trans (h2.trans ((scrubs_gaugeRegs _ ho).trans (transit_gaugeRegs (work_secondReach s0).trail ho)))

theorem secondTold_older (hst : s0.seq.st = .flight) : older s0.seq.F.toNat (secondTold hs s0) = older s0.seq.F.toNat s0 := by
  have hF := frameNow_flight hst
  have h1 : older s0.seq.F.toNat (secondReach s0).1 = older s0.seq.F.toNat s0 := (memPorts_older _).trans (reachStep_older hF hF)
  have h2 : older s0.seq.F.toNat (secondWork hs s0).1 = older s0.seq.F.toNat s0 :=
    (overrunCheck_older _).trans ((scrubs_older hs _).trans h1)
  have h3 := (prechecks_older (F := s0.seq.F.toNat) s0 (dacScan s0 (secondWork hs s0).1)).trans ((dacScan_older s0 _).trans h2)
  have hcore : core (prechecks s0 (dacScan s0 (secondWork hs s0).1)) = core s0 :=
    ((noise_dacScan _ _).trans (noise_prechecks _ _)).core.trans (secondWork_core hs s0)
  refine (raiseFirst_older ((frameNow_of_core hcore).trans hF) ((st_of_core hcore).trans hst) (fun a ha => ?_)
    (noClockLoss_reports fun r hr => (secondWork_codes hs s0 r hr).1)).trans h3
  obtain ⟨r, hr, e⟩ := reportActs_of ha
  have hf := ((secondWork_codes hs s0 r hr).2).trans hF
  rw [e]
  split_ifs
  · exact hf
  · exact hf

/-- The second tick of the gauge unit, where a second tick step has it. -/
def gaugeTicked (hs : List Happening) (s : State) : State := gaugeSecondTick (strikes hs s) s.seq.F.toNat (secondTold hs (strikes hs s))

/-- What comes after the gauge unit in a second tick step. -/
def afterGauge (s0 : State) (s : State) : State :=
  closeFrame s0.seq.F.toNat (sendMarkers s0.seq.F.toNat (flightEnds s0) (traceSecondTick s0.seq.F.toNat s))

theorem closeFrame_gau (f : Nat) (s : State) : (closeFrame f s).gau = s.gau := rfl
theorem closeFrame_regs (f : Nat) (s : State) : (closeFrame f s).regs = s.regs := rfl

theorem afterGauge_lanes (s : State) : (afterGauge s0 s).gau.lanes = s.gau.lanes := by
  unfold afterGauge
  rw [closeFrame_gau]
  exact ((trail_sendMarkers ..).lanes (fun _ => id) id).1.trans ((trail_traceSecondTick ..).lanes (fun _ => id) id).1

theorem afterGauge_held (s : State) : heldKept (afterGauge s0 s).gau = heldKept s.gau := by
  unfold afterGauge
  rw [closeFrame_gau]
  exact ((trail_sendMarkers ..).held id).trans ((trail_traceSecondTick ..).held id)

theorem afterGauge_regs (s : State) {off : Nat} (ho : gaugeReg off) : rget (afterGauge s0 s) off = rget s off := by
  have h0 : rget (afterGauge s0 s) off = rget (sendMarkers s0.seq.F.toNat (flightEnds s0) (traceSecondTick s0.seq.F.toNat s)) off := by
    unfold afterGauge rget
    rw [closeFrame_regs]
  have none_ {B : Touch → Prop} (h : ∀ off, ¬ B (.reg off) ∧ ¬ B (.flag off) ∧ ¬ B (.first off) ∧ ∀ hi lo, ¬ B (.count off hi lo)) (o : Nat) :
      B (.reg o) ∨ B (.flag o) ∨ B (.first o) ∨ (∃ hi lo, B (.count o hi lo)) → ¬ gaugeReg o := by
    obtain ⟨h1, h2, h3, h4⟩ := h o
    rintro (h | h | h | ⟨hi, lo, h⟩)
    · exact absurd h h1
    · exact absurd h h2
    · exact absurd h h3
    · exact absurd h (h4 hi lo)
  exact h0.trans (((trail_sendMarkers ..).gaugeRegs (none_ fun _ => ⟨id, id, id, fun _ _ => id⟩) ho).trans
    ((trail_traceSecondTick ..).gaugeRegs (none_ fun _ => ⟨id, id, id, fun _ _ => id⟩) ho))

theorem FrameOver.lanes {ends : Bool} {y u : State} {q : SeqState} (h : FrameOver ends y u q) : u.gau.lanes = y.gau.lanes := h.still.lanes

theorem FrameOver.gauge {ends : Bool} {y u : State} {q : SeqState} (h : FrameOver ends y u q) : u.seq.st = .safe ∨
    heldKept u.gau = heldKept y.gau ∧ ∀ off, gaugeReg off → rget u off = rget y off :=
  h.cases.imp id fun hc => ⟨hc.1.held, fun _ ho => hc.1.reg (by omega)⟩

theorem secondBody_gauge (hst : s.seq.st = .flight) : (secondBody hs s).gau.lanes = (gaugeTicked hs s).gau.lanes ∧
    ((secondBody hs s).seq.st = .safe ∨ heldKept (secondBody hs s).gau = heldKept (gaugeTicked hs s).gau ∧
      ∀ off, gaugeReg off → rget (secondBody hs s) off = rget (gaugeTicked hs s) off) := by
  obtain ⟨q, hq⟩ := secondBody_over hs hst
  have hy : closeFrame s.seq.F.toNat (unclosed (strikes hs s) (secondTold hs (strikes hs s))) = afterGauge (strikes hs s) (gaugeTicked hs s) := by
    unfold afterGauge unclosed gaugeTicked
    rw [strikes_seq]
  rw [hy] at hq
  refine ⟨hq.lanes.trans (afterGauge_lanes _), hq.gauge.imp id fun h => ?_⟩
  obtain ⟨hheld, hregs⟩ := h
  exact ⟨hheld.trans (afterGauge_held _), fun off ho => (hregs off ho).trans (afterGauge_regs _ ho)⟩

end

end Sys2Proof.Machine

namespace Sys2Proof.Machine

/-! ### Pins, verdicts and their release -/

/-- What records and releases leave: the lanes, the held verdicts, the taint marks. -/
def standing (s : State) : List (Nat × Lane) × List Verdict × List (Nat × Bool) := (s.gau.lanes, s.gau.held, s.seq.taint)

section
variable {s0 s : State} {n : Nat}

theorem gauInt_standing (i : Nat) (s : State) : standing (gauInt i s) = standing s := by simp [standing, gauInt]

theorem rset_standing (off : Nat) (w : Word) (s : State) : standing (rset off w s) = standing s := rfl
theorem rflag_standing (off i : Nat) (s : State) : standing (rflag off i s) = standing s := rfl
theorem rcount_standing (off hi lo k : Nat) (s : State) : standing (rcount off hi lo k s) = standing s := rfl

theorem fifo_standing (s : State) (l : List FailRec) (x : Option (Nat × Nat × Option Nat × Nat)) :
    standing { s with gau := { s.gau with fifo := l, lost := x } } = standing s := rfl

theorem storeLoss_standing (s : State) : standing (storeLoss s) = standing s := by
  unfold storeLoss
  split
  · exact ite_fix standing (fifo_standing s _ none) rfl
  · rfl

theorem pushFail_standing (r : FailRec) (s : State) : standing (pushFail r s) = standing s := by
  have kept : standing { s with gau := { s.gau with fifo := s.gau.fifo ++ [r] } } = standing s := fifo_standing s _ s.gau.lost
  have lost (u : State) (x : Option (Nat × Nat × Option Nat × Nat)) : standing { u with gau := { u.gau with lost := x } } = standing u := rfl
  exact ite_fix standing (ite_fix standing ((gauInt_standing 1 _).trans kept) kept)
    ((lost _ _).trans ((rflag_standing ..).trans (rcount_standing ..)))

theorem releaseVerdict_standing (v : Verdict) (s : State) : standing (releaseVerdict v s) = standing s := by
  unfold releaseVerdict
  extract_lets c s1 a b s2 mark
  have h1 : standing s1 = standing s := (rset_standing ..).trans (rcount_standing ..)
  have ha : standing a = standing s := (foldl_fix standing (fun u n => rcount_standing ..) _ _).trans h1
  have hb : standing b = standing s :=
    ite_fix standing ha ((rset_standing ..).trans ((rset_standing ..).trans ((rset_standing ..).trans ((rset_standing ..).trans ha))))
  have told (k i : Nat) (u : State) : standing (gauInt k (rflag oGauSts i u)) = standing u := (gauInt_standing ..).trans (rflag_standing ..)
  have h2 : standing s2 = standing s := ite_fix standing ((told 0 0 b).trans hb)
    (ite_fix standing ((told 3 1 s1).trans h1) (ite_fix standing ((told 3 2 s1).trans h1) h1))
  exact (fifo_standing s2 _ _).trans h2

/-- The verdict of frame `f`. -/
def verdictOf (s0 : State) (f : Nat) : Verdict := ⟨f, false, (laneFails s0).map (·.1), s0.gau.tickTsn⟩

/-- The fail records of a compare. -/
def failRecords (s0 : State) (f : Nat) (s : State) : State := (laneFails s0).foldl (fun s nk =>
  if laneRec s0 nk.1 then
    pushFail { loss := false, frame := f, lane := nk.1, exp := (getLane s0 nk.1).exp, smp := (getLane s0 nk.1).smp, drv := (getLane s0 nk.1).drv,
               kind := nk.2, tsn := s0.gau.tickTsn, count := 0, code := none } (storeLoss s)
  else s) s

theorem gaugeCompare_eq (f : Nat) (s : State) :
    gaugeCompare s0 f s = failRecords s0 f { s with gau := { s.gau with held := s.gau.held ++ [verdictOf s0 f] } } := rfl

theorem failRecords_standing (f : Nat) (s : State) : standing (failRecords s0 f s) = standing s :=
  foldl_fix standing (fun u _ => ite_fix standing ((pushFail_standing ..).trans (storeLoss_standing u)) rfl) _ _

theorem gaugeCompare_standing (f : Nat) (s : State) :
    standing (gaugeCompare s0 f s) = (s.gau.lanes, s.gau.held ++ [verdictOf s0 f], s.seq.taint) := by
  rw [gaugeCompare_eq, failRecords_standing]
  rfl

theorem releaseDue_standing (f : Nat) (s : State) : standing (releaseDue f s) =
    (s.gau.lanes, s.gau.held.filter fun v => decide (frDist v.frame f < 64), s.seq.taint) :=
  (foldl_fix standing (fun u v => releaseVerdict_standing v u) _ _).trans rfl

/-! ### The pins -/

theorem laneDrive_other {m : Nat} (h : n ≠ m) (s : State) : getLane (laneDrive s0 m s) n = getLane s n := by
  have other (x : Lane) : getLane (setLane m x s) n = getLane s n := getLane_setLane_other h x s
  unfold laneDrive
  dsimp only
  split
  · exact other _
  · exact other _
  · exact other _
  · rfl

/-- The pin of an OUT or IO lane takes the committed drive. -/
theorem laneDrive_pin (hmode : laneMode s0 n = 1 ∨ laneMode s0 n = 3) (s : State) :
    (getLane (laneDrive s0 n s) n).pin = drivePin (getLane s n).drv (laneXpol s0 n) (lanePin s0 n) := by
  unfold laneDrive
  rcases hmode with h | h <;>
  · rw [h]
    exact congrArg Lane.pin (getLane_setLane_same ..)

theorem driveLanes_pin (hn : n < nLanes s0) (hmode : laneMode s0 n = 1 ∨ laneMode s0 n = 3) (s : State) :
    (getLane (driveLanes s0 s) n).pin = drivePin (getLane s n).drv (laneXpol s0 n) (lanePin s0 n) :=
  foldl_rel (getLane · n) (fun _ => True) (P := fun l l' => l'.pin = drivePin l.drv (laneXpol s0 n) (lanePin s0 n)) (List.nodup_range.filter _)
    (mem_gauLanes hn (by omega)) (fun _ _ _ _ => trivial) (fun u _ m _ hm => laneDrive_other hm.symm u) (fun u _ => laneDrive_pin hmode u) s trivial

/-- The gauge unit's second tick: its lanes driven, its verdict held, verdicts 64 frames old released. -/
theorem gaugeSecondTick_standing (hon : gauOn s0 = true) (f : Nat) (s : State) : standing (gaugeSecondTick s0 f s) =
    ((driveLanes s0 s).gau.lanes, ((driveLanes s0 s).gau.held ++ [verdictOf s0 f]).filter (fun v => decide (frDist v.frame f < 64)), (driveLanes s0 s).seq.taint) := by
  rw [gaugeSecondTick_on hon]
  generalize driveLanes s0 s = u
  have hc := gaugeCompare_standing (s0 := s0) f { u with gau := { u.gau with live := true } }
  rw [releaseDue_standing]
  generalize gaugeCompare s0 f { u with gau := { u.gau with live := true } } = k at hc
  obtain ⟨h1, h2⟩ := Prod.mk.inj hc
  obtain ⟨h2, h3⟩ := Prod.mk.inj h2
  rw [h1, h2, h3]

theorem driveLanes_held (s : State) : (driveLanes s0 s).gau.held = s.gau.held :=
  (trail_driveLanes s).fix (fun u => u.gau.held) fun τ hA u v hw => by
    cases τ with
    | lane | free => obtain ⟨_, rfl⟩ := hw; rfl
    | _ => exact absurd hA id

theorem driveLanes_taint (s : State) : (driveLanes s0 s).seq.taint = s.seq.taint :=
  (trail_driveLanes s).fix (fun u => u.seq.taint) fun τ hA u v hw => by
    cases τ with
    | lane | free => obtain ⟨_, rfl⟩ := hw; rfl
    | _ => exact absurd hA id

theorem driveLanes_regs (s : State) : (driveLanes s0 s).regs = s.regs :=
  (trail_driveLanes s).fix (fun u => u.regs) fun τ hA u v hw => by
    cases τ with
    | lane | free => obtain ⟨_, rfl⟩ := hw; rfl
    | _ => exact absurd hA id

/-! ### The held verdict -/

theorem laneCompare_isSome (e m : V4) (paired : Bool) : (laneCompare e m paired).isSome = true ↔ ((e = .zero ∧ m = .one) ∨ (e = .one ∧ m = .zero) ∨
    (paired = true ∧ (((e = .zero ∨ e = .one) ∧ m = .z) ∨ (e = .z ∧ (m = .zero ∨ m = .one))))) := by
  cases e <;> cases m <;> cases paired <;> decide

theorem mem_laneFails (n : Nat) : n ∈ (laneFails s0).map (·.1) ↔ n < nLanes s0 ∧ (laneMode s0 n = 2 ∨ laneMode s0 n = 3) ∧
    (laneCompare (getLane s0 n).exp (getLane s0 n).smp (laneZd s0 n).isSome).isSome = true := by
  unfold laneFails
  simp only [List.mem_map, List.mem_filterMap]
  constructor
  · rintro ⟨⟨m, k⟩, ⟨m', hm', h⟩, rfl⟩
    split_ifs at h with hmode
    obtain ⟨k', hk', e⟩ := Option.map_eq_some_iff.1 h
    obtain ⟨rfl, rfl⟩ := Prod.mk.inj e
    unfold gauLanes at hm'
    rw [List.mem_filter, List.mem_range] at hm'
    exact ⟨hm'.1, by simpa using hmode, by rw [hk']; rfl⟩
  · rintro ⟨hn, hmode, hsome⟩
    obtain ⟨k, hk⟩ := Option.isSome_iff_exists.1 hsome
    refine ⟨(n, k), ⟨n, mem_gauLanes hn (by omega), ?_⟩, rfl⟩
    rw [if_pos (by simpa using hmode), hk]
    rfl

end

end Sys2Proof.Machine

namespace Sys2Proof.Machine

/-! ### The registers of a release -/

section
variable {s0 s : State} {off : Nat}

theorem rget_of_regs {s t : State} (h : t.regs = s.regs) (off : Nat) : rget t off = rget s off := by unfold rget; rw [h]

theorem rget_gauInt (h : off ≠ oGauInt) (i : Nat) (s : State) : rget (gauInt i s) off = rget s off := by
  have h1 : rget (rset oGauInt (setBit (rget s oGauInt) (16 + i)) s) off = rget s off := rget_rset_other _ _ _ _ h
  exact ite_fix (rget · off) ((rget_of_regs (signal_regs ..) off).trans h1) h1

/-- The registers that fail records and lane captures do not write. -/
abbrev countReg (off : Nat) : Prop := off ≠ oGauSts ∧ off ≠ oGauInt ∧ off ≠ oGauFfLost

theorem rget_storeLoss (s : State) : rget (storeLoss s) off = rget s off := by
  unfold storeLoss
  split
  · exact ite_fix (rget · off) rfl rfl
  · rfl

theorem rget_pushFail (h : countReg off) (r : FailRec) (s : State) : rget (pushFail r s) off = rget s off := by
  obtain ⟨h1, h2, h3⟩ := h
  refine ite_fix (rget · off) (ite_fix (rget · off) (rget_gauInt h2 1 _) rfl) ?_
  exact (rget_rset_other _ _ _ _ h1).trans (rget_rset_other _ _ _ _ h3)

theorem rget_gaugeCompare (h : countReg off) (f : Nat) (s : State) : rget (gaugeCompare s0 f s) off = rget s off := by
  rw [gaugeCompare_eq]
  exact (foldl_fix (rget · off) (fun u _ => ite_fix (rget · off) ((rget_pushFail h _ _).trans (rget_storeLoss u)) rfl) _ _).trans rfl

/-- A release's counts and frame; its first-fail capture; its flag. -/
def releaseCounted (v : Verdict) (s : State) : State :=
  rset oGauVerF (BitVec.ofNat 32 v.frame) (rcount (oGauCnt (verdictCode s v)) 31 0 1 s)
def failCounted (v : Verdict) (s : State) : State := v.fails.foldl (fun s n => rcount (oGauFcnt n) 31 0 1 s) s
def firstCaptured (v : Verdict) (s0 s : State) : State :=
  if rbit s0 oGauSts 0 then s else
    rset oGauFf1Lane (BitVec.ofNat 32 (2 ^ 31 + v.fails.headD 0))
      (rset oGauFf1FLo (BitVec.ofNat 32 v.frame)
        (rset oGauFf1FHi (BitVec.ofNat 32 (v.frame / 2 ^ 32)) (rset oGauFf1Tsn (BitVec.ofNat 32 v.tsn) s)))
def releaseTold (c : Nat) (v : Verdict) (s : State) : State :=
  if c = 1 then gauInt 0 (rflag oGauSts 0 (firstCaptured v s (failCounted v s)))
  else if c = 2 then gauInt 3 (rflag oGauSts 1 s)
  else if c = 3 then gauInt 3 (rflag oGauSts 2 s)
  else s

theorem releaseVerdict_regs (v : Verdict) (s : State) :
    (releaseVerdict v s).regs = (releaseTold (verdictCode s v) v (releaseCounted v s)).regs := rfl

theorem rget_firstCaptured (h : off < 0xD0020 ∨ 0xD0030 ≤ off) (v : Verdict) (s0 s : State) : rget (firstCaptured v s0 s) off = rget s off := by
  have h1 : off ≠ oGauFf1Lane ∧ off ≠ oGauFf1FLo ∧ off ≠ oGauFf1FHi ∧ off ≠ oGauFf1Tsn := by
    unfold oGauFf1Lane oGauFf1FLo oGauFf1FHi oGauFf1Tsn; omega
  obtain ⟨h1, h2, h3, h4⟩ := h1
  exact ite_fix (rget · off) rfl ((rget_rset_other _ _ _ _ h1).trans ((rget_rset_other _ _ _ _ h2).trans
    ((rget_rset_other _ _ _ _ h3).trans (rget_rset_other _ _ _ _ h4))))

theorem rget_failCounted (h : off < 0xD2000) (v : Verdict) (s : State) : rget (failCounted v s) off = rget s off :=
  foldl_fix (rget · off) (fun u n => rget_rset_other _ _ _ _ (by unfold oGauFcnt; omega)) _ _

/-- A flag raised, then an interrupt. -/
theorem rget_told (h : off ≠ oGauSts) (h' : off ≠ oGauInt) (i k : Nat) (s : State) : rget (gauInt i (rflag oGauSts k s)) off = rget s off :=
  (rget_gauInt h' i _).trans (rget_rset_other _ _ _ _ h)

theorem rbit_told (i : Nat) {k : Nat} (hk : k < 32) (s : State) : rbit (gauInt i (rflag oGauSts k s)) oGauSts k = true := by
  unfold rbit
  rw [rget_gauInt (by decide)]
  exact rbit_rflag_same _ hk s

/-- The counts of a release stand apart from what else it writes. -/
theorem rget_releaseTold (h : off < 0xD0020) (h' : off ≠ oGauSts) (c : Nat) (v : Verdict) (s : State) : rget (releaseTold c v s) off = rget s off := by
  have h2 : off ≠ oGauInt := by unfold oGauInt; omega
  exact ite_fix (rget · off) ((rget_told h' h2 _ _ _).trans ((rget_firstCaptured (.inl h) _ _ _).trans (rget_failCounted (by omega) _ _)))
    (ite_fix (rget · off) (rget_told h' h2 _ _ _) (ite_fix (rget · off) (rget_told h' h2 _ _ _) rfl))

theorem releaseTold_flags (v : Verdict) (s : State) : rbit (releaseTold 1 v s) oGauSts 0 = true ∧ rbit (releaseTold 2 v s) oGauSts 1 = true ∧
    rbit (releaseTold 3 v s) oGauSts 2 = true := ⟨rbit_told 0 (by decide) _, rbit_told 3 (by decide) _, rbit_told 3 (by decide) _⟩

theorem toNat_rcount (off : Nat) (s : State) : (rget (rcount off 31 0 1 s) off).toNat = min ((rget s off).toNat + 1) (2 ^ 32 - 1) := by
  rw [← rfld_all, rfld_rcount_same _ _ (by decide), rfld_all]

/-- A failing lane's count, where each lane fails once. -/
theorem releaseTold_lane {v : Verdict} (hnd : v.fails.Nodup) {n : Nat} (hn : n ∈ v.fails) (s : State) :
    (rget (releaseTold 1 v s) (oGauFcnt n)).toNat = min ((rget s (oGauFcnt n)).toNat + 1) (2 ^ 32 - 1) := by
  have hoff : 0xD2000 ≤ oGauFcnt n := by unfold oGauFcnt; omega
  have h1 : rget (releaseTold 1 v s) (oGauFcnt n) = rget (failCounted v s) (oGauFcnt n) :=
    (rget_told (by unfold oGauSts; omega) (by unfold oGauInt; omega) 0 0 _).trans (rget_firstCaptured (.inr (by omega)) _ _ _)
  rw [h1]
  refine foldl_rel (f := fun u m => rcount (oGauFcnt m) 31 0 1 u) (rget · (oGauFcnt n)) (fun _ => True) (P := fun w w' => w'.toNat = min (w.toNat + 1) (2 ^ 32 - 1)) hnd hn (fun _ _ _ _ => trivial)
    (fun u _ m _ hm => rget_rset_other _ _ _ _ (by unfold oGauFcnt; omega)) (fun u _ => toNat_rcount _ u) s trivial

/-- The counts of a release. -/
theorem releaseCounted_regs (v : Verdict) (s : State) :
    (rget (releaseCounted v s) (oGauCnt (verdictCode s v))).toNat = min ((rget s (oGauCnt (verdictCode s v))).toNat + 1) (2 ^ 32 - 1) ∧
    (∀ d < 4, d ≠ verdictCode s v → rget (releaseCounted v s) (oGauCnt d) = rget s (oGauCnt d)) ∧
    rget (releaseCounted v s) oGauVerF = BitVec.ofNat 32 v.frame ∧ ∀ n, rget (releaseCounted v s) (oGauFcnt n) = rget s (oGauFcnt n) := by
  have hlt := verdictCode_lt s v
  have hver (d : Nat) : oGauCnt d ≠ oGauVerF := by unfold oGauCnt oGauVerF; omega
  unfold releaseCounted
  generalize verdictCode s v = c at hlt
  refine ⟨?_, fun d hd hne => ?_, rget_rset_same .., fun n => ?_⟩
  · rw [rget_rset_other _ _ _ _ (hver c)]
    exact toNat_rcount _ s
  · rw [rget_rset_other _ _ _ _ (hver d)]
    exact rget_rset_other _ _ _ _ (by unfold oGauCnt; omega)
  · rw [rget_rset_other _ _ _ _ (by unfold oGauFcnt oGauVerF; omega)]
    exact rget_rset_other _ _ _ _ (by unfold oGauFcnt oGauCnt; omega)

end

end Sys2Proof.Machine

namespace Sys2Proof.Machine

/-! ### The second tick step as a whole -/

section
variable {hs : List Happening} {s : State}

/-- The pin of an OUT or IO lane after a second tick step. -/
theorem secondBody_pin (hst : s.seq.st = .flight) (hon : unitOn s 12 = true) {n : Nat} (hn : n < nLanes s) (hmode : laneMode s n = 1 ∨ laneMode s n = 3) :
    (getLane (secondBody hs s) n).pin = drivePin (getLane s n).drv (laneXpol s n) (lanePin s n) := by
  have htick : (gaugeTicked hs s).gau.lanes = (driveLanes (strikes hs s) (secondTold hs (strikes hs s))).gau.lanes :=
    (Prod.mk.inj (gaugeSecondTick_standing (s0 := strikes hs s) (by rwa [strikes_gauOn]) s.seq.F.toNat (secondTold hs (strikes hs s)))).1
  have hlane : getLane (secondTold hs (strikes hs s)) n = getLane s n := (congrArg (mget _ · n) secondTold_lanes).trans (strikes_getLane n)
  have hd := driveLanes_pin (s0 := strikes hs s) (n := n) (by rwa [strikes_nLanes]) (by rwa [strikes_laneMode]) (secondTold hs (strikes hs s))
  rw [hlane, strikes_laneXpol, strikes_lanePin] at hd
  exact (congrArg (fun l => (mget Lane.fresh l n).pin) ((secondBody_gauge hst).1.trans htick)).trans hd

/-- The verdict of the frame is held, with its failing lanes. -/
theorem secondBody_held (hst : s.seq.st = .flight) (hon : unitOn s 12 = true) : (secondBody hs s).seq.st = .safe ∨
    ∃ v ∈ (secondBody hs s).gau.held, v.frame = s.seq.F.toNat ∧ v.fails = (laneFails (strikes hs s)).map (·.1) := by
  refine (secondBody_gauge (hs := hs) hst).2.imp id fun ⟨hheld, _⟩ => ?_
  have hd : (gaugeTicked hs s).gau.held = _ := (Prod.mk.inj (Prod.mk.inj (gaugeSecondTick_standing (s0 := strikes hs s) (by rwa [strikes_gauOn])
    s.seq.F.toNat (secondTold hs (strikes hs s)))).2).1
  have hin : verdictOf (strikes hs s) s.seq.F.toNat ∈ (gaugeTicked hs s).gau.held := by
    rw [hd, List.mem_filter]
    refine ⟨List.mem_append_right _ (List.mem_singleton_self _), ?_⟩
    have hlt := s.seq.F.isLt
    unfold verdictOf frDist
    rw [decide_eq_true_eq]
    dsimp only
    omega
  have hmap : (s.seq.F.toNat, (laneFails (strikes hs s)).map (·.1)) ∈ heldKept (secondBody hs s).gau := by
    rw [hheld]
    exact List.mem_map.2 ⟨_, hin, rfl⟩
  obtain ⟨v, hv, e⟩ := List.mem_map.1 hmap
  exact ⟨v, hv, (Prod.mk.inj e).1, (Prod.mk.inj e).2⟩

/-- The state in which the verdicts 64 frames old are released. -/
def beforeRelease (hs : List Happening) (s : State) : State :=
  gaugeCompare (strikes hs s) s.seq.F.toNat { driveLanes (strikes hs s) (secondTold hs (strikes hs s)) with
    gau := { (driveLanes (strikes hs s) (secondTold hs (strikes hs s))).gau with live := true } }

theorem gaugeTicked_eq (hon : unitOn s 12 = true) : gaugeTicked hs s = releaseDue s.seq.F.toNat (beforeRelease hs s) :=
  gaugeSecondTick_on (by rwa [strikes_gauOn]) _ _

theorem rget_live (u : State) (b : Bool) (off : Nat) : rget { u with gau := { u.gau with live := b } } off = rget u off := rfl

theorem beforeRelease_reg {off : Nat} (ho : gaugeReg off) (hc : countReg off) : rget (beforeRelease hs s) off = rget s off := by
  unfold beforeRelease
  rw [rget_gaugeCompare hc, rget_live, rget_of_regs (driveLanes_regs _), secondTold_gaugeRegs ho, rget_strikes]

theorem beforeRelease_standing : standing (beforeRelease hs s) = ((driveLanes (strikes hs s) (secondTold hs (strikes hs s))).gau.lanes,
    (secondTold hs (strikes hs s)).gau.held ++ [verdictOf (strikes hs s) s.seq.F.toNat], (secondTold hs (strikes hs s)).seq.taint) := by
  unfold beforeRelease
  rw [gaugeCompare_standing]
  have h1 := driveLanes_held (s0 := strikes hs s) (secondTold hs (strikes hs s))
  have h2 := driveLanes_taint (s0 := strikes hs s) (secondTold hs (strikes hs s))
  generalize driveLanes (strikes hs s) (secondTold hs (strikes hs s)) = u at h1 h2
  rw [← h1, ← h2]

theorem secondTold_old (hst : s.seq.st = .flight) : older s.seq.F.toNat (secondTold hs (strikes hs s)) = older s.seq.F.toNat s := by
  have h := secondTold_older (hs := hs) (s0 := strikes hs s) (by rwa [strikes_seq])
  have h0 : older s.seq.F.toNat (strikes hs s) = older s.seq.F.toNat s := older_of (strikes_regs ..) (by rw [strikes_gau]) (by rw [strikes_seq])
  rw [strikes_seq] at h
  exact h.trans h0

/-- The verdicts 64 frames old at the release are those that were held at the step's beginning. -/
theorem beforeRelease_due (hst : s.seq.st = .flight) :
    (beforeRelease hs s).gau.held.filter (fun x => decide (64 ≤ frDist x.frame s.seq.F.toNat)) =
      s.gau.held.filter fun x => decide (64 ≤ frDist x.frame s.seq.F.toNat) := by
  have hheld : (beforeRelease hs s).gau.held = _ := (Prod.mk.inj (Prod.mk.inj (beforeRelease_standing (hs := hs) (s := s))).2).1
  have hdue : (secondTold hs (strikes hs s)).gau.held.filter (fun x => decide (64 ≤ frDist x.frame s.seq.F.toNat)) = _ :=
    congrArg Older.due (secondTold_old (hs := hs) hst)
  have hnew : ¬ 64 ≤ frDist (verdictOf (strikes hs s) s.seq.F.toNat).frame s.seq.F.toNat := by
    have hlt := s.seq.F.isLt
    unfold verdictOf frDist
    dsimp only
    omega
  rw [hheld, List.filter_append, hdue, List.filter_cons_of_neg (by simpa using hnew), List.filter_nil, List.append_nil]
  rfl

theorem beforeRelease_tainted (hst : s.seq.st = .flight) {f : Nat} (hf : f ≠ s.seq.F.toNat) : isTainted (beforeRelease hs s) f = isTainted s f := by
  have ht : (beforeRelease hs s).seq.taint = _ := (Prod.mk.inj (Prod.mk.inj (beforeRelease_standing (hs := hs) (s := s))).2).2
  have hold : (if f = s.seq.F.toNat then false else isTainted (secondTold hs (strikes hs s)) f) = if f = s.seq.F.toNat then false else isTainted s f :=
    congrFun (congrArg Older.taint (secondTold_old (hs := hs) hst)) f
  rw [if_neg hf, if_neg hf] at hold
  rw [← hold]
  unfold isTainted
  rw [ht]

/-- The verdicts that stay held. -/
def stillHeld (f : Nat) (s : State) : State := { s with gau := { s.gau with held := s.gau.held.filter fun v => decide (frDist v.frame f < 64) } }

theorem releaseDue_one {f : Nat} {v : Verdict} {k : State} (h : k.gau.held.filter (fun x => decide (64 ≤ frDist x.frame f)) = [v]) :
    releaseDue f k = releaseVerdict v (stillHeld f k) := by
  unfold releaseDue
  dsimp only
  rw [h]
  rfl

theorem stillHeld_regs (f : Nat) (s : State) : (stillHeld f s).regs = s.regs := rfl

theorem verdictCode_of {t u : State} {v : Verdict} (h : isTainted t v.frame = isTainted u v.frame) : verdictCode t v = verdictCode u v := by
  unfold verdictCode
  rw [h]

section
variable (hst : s.seq.st = .flight) (hon : unitOn s 12 = true) {v : Verdict}
  (hdue : s.gau.held.filter (fun x => decide (64 ≤ frDist x.frame s.seq.F.toNat)) = [v]) (hage : frDist v.frame s.seq.F.toNat = 64)
include hst hon hdue hage

theorem gaugeTicked_release : gaugeTicked hs s = releaseVerdict v (stillHeld s.seq.F.toNat (beforeRelease hs s)) ∧
    verdictCode (stillHeld s.seq.F.toNat (beforeRelease hs s)) v = verdictCode s v := by
  have hne : v.frame ≠ s.seq.F.toNat := by
    intro h
    have hlt := s.seq.F.isLt
    rw [h] at hage
    unfold frDist at hage
    omega
  refine ⟨?_, ?_⟩
  · rw [gaugeTicked_eq hon]
    exact releaseDue_one ((beforeRelease_due hst).trans hdue)
  · exact verdictCode_of (beforeRelease_tainted hst hne)

theorem rget_gaugeTicked (off : Nat) : rget (gaugeTicked hs s) off =
    rget (releaseTold (verdictCode s v) v (releaseCounted v (stillHeld s.seq.F.toNat (beforeRelease hs s)))) off := by
  obtain ⟨h1, h2⟩ := gaugeTicked_release (hs := hs) hst hon hdue hage
  rw [h1, ← h2]
  exact rget_of_regs (releaseVerdict_regs ..) off

/-- A verdict released after 64 frames: its code's count, its frame, its lanes' counts, its flag; it is held no longer. -/
theorem gaugeTicked_counts : (rget (gaugeTicked hs s) (oGauCnt (verdictCode s v))).toNat = min ((rget s (oGauCnt (verdictCode s v))).toNat + 1) (2 ^ 32 - 1) ∧
    (∀ d < 4, d ≠ verdictCode s v → rget (gaugeTicked hs s) (oGauCnt d) = rget s (oGauCnt d)) ∧
    rget (gaugeTicked hs s) oGauVerF = BitVec.ofNat 32 v.frame := by
  have hlt := verdictCode_lt s v
  have before (d : Nat) (hd : d < 4) : rget (stillHeld s.seq.F.toNat (beforeRelease hs s)) (oGauCnt d) = rget s (oGauCnt d) :=
    (rget_of_regs (stillHeld_regs ..) _).trans (beforeRelease_reg (by unfold gaugeReg oGauCnt; omega)
      (by unfold countReg oGauCnt oGauSts oGauInt oGauFfLost; omega))
  have told (d : Nat) (hd : d < 4) : rget (gaugeTicked hs s) (oGauCnt d) =
      rget (releaseCounted v (stillHeld s.seq.F.toNat (beforeRelease hs s))) (oGauCnt d) :=
    (rget_gaugeTicked hst hon hdue hage _).trans (rget_releaseTold (by unfold oGauCnt; omega) (by unfold oGauCnt oGauSts; omega) _ _ _)
  obtain ⟨h1, h2, h3, -⟩ := releaseCounted_regs v (stillHeld s.seq.F.toNat (beforeRelease hs s))
  rw [(gaugeTicked_release (hs := hs) hst hon hdue hage).2] at h1 h2
  refine ⟨?_, fun d hd hne => ?_, ?_⟩
  · rw [told _ hlt, h1, before _ hlt]
  · rw [told d hd, h2 d hd hne, before d hd]
  · rw [rget_gaugeTicked hst hon hdue hage, rget_releaseTold (by decide) (by decide), h3]

theorem gaugeTicked_flag : (verdictCode s v = 1 → rbit (gaugeTicked hs s) oGauSts 0 = true) ∧ (verdictCode s v = 2 → rbit (gaugeTicked hs s) oGauSts 1 = true) ∧
    (verdictCode s v = 3 → rbit (gaugeTicked hs s) oGauSts 2 = true) := by
  obtain ⟨f1, f2, f3⟩ := releaseTold_flags v (releaseCounted v (stillHeld s.seq.F.toNat (beforeRelease hs s)))
  unfold rbit at *
  rw [rget_gaugeTicked hst hon hdue hage]
  exact ⟨fun h => h ▸ f1, fun h => h ▸ f2, fun h => h ▸ f3⟩

theorem gaugeTicked_laneCount (hc : verdictCode s v = 1) (hnd : v.fails.Nodup) {n : Nat} (hn : n ∈ v.fails) (hlt : n < 512) :
    (rget (gaugeTicked hs s) (oGauFcnt n)).toNat = min ((rget s (oGauFcnt n)).toNat + 1) (2 ^ 32 - 1) := by
  have before : rget (stillHeld s.seq.F.toNat (beforeRelease hs s)) (oGauFcnt n) = rget s (oGauFcnt n) :=
    (rget_of_regs (stillHeld_regs ..) _).trans (beforeRelease_reg (by unfold gaugeReg oGauFcnt; omega)
      (by unfold countReg oGauFcnt oGauSts oGauInt oGauFfLost; omega))
  rw [rget_gaugeTicked hst hon hdue hage, hc, releaseTold_lane hnd hn, (releaseCounted_regs v _).2.2.2, before]

omit hst hdue in
theorem gaugeTicked_gone : (v.frame, v.fails) ∉ heldKept (gaugeTicked hs s).gau := by
  intro h
  obtain ⟨w, hw, e⟩ := List.mem_map.1 h
  have hd : (gaugeTicked hs s).gau.held = _ := (Prod.mk.inj (Prod.mk.inj (gaugeSecondTick_standing (s0 := strikes hs s) (by rwa [strikes_gauOn])
    s.seq.F.toNat (secondTold hs (strikes hs s)))).2).1
  rw [hd, List.mem_filter, decide_eq_true_eq, (Prod.mk.inj e).1, hage] at hw
  exact absurd hw.2 (by decide)

end

end

/-- Settles O17: the host's writes register by register; the ticks lane by lane, the compare and the release verdict by verdict. -/
theorem laneWrites : Obligations.LaneWrites := by
  unfold Obligations.LaneWrites
  refine ⟨⟨fun n v s hn hr hrest => ?_, fun n v s hn hr hrest => ?_, fun z v s hz hr => ?_⟩,
    fun hs n s hclk hst hpos hnone hon hn hmode => ?_, fun hs n s hclk hst hpos hnone hon hn hmode => ?_, fun hs s hclk hst hpos hnone hon => ?_,
    fun hs v s hclk hst hpos hnone hon hdue hage => ?_⟩
  · rw [exec_gauLaneWrite hn hr, wGauLane_rests hrest]
  · exact ⟨_, exec_gauLaneWrite hn hr, wGauLane_moving hn hrest⟩
  · intro ok
    rw [exec_gauZdmapWrite hz hr, wGauZdmap_cases]
    exact ⟨fun h => congrArg _ (if_pos h), fun h => congrArg _ (if_neg h)⟩
  · have lead := leadsTo_firstTick hclk hnone hst hpos hs
    refine ⟨⟨_, lead, firstBody_committed hon hn hmode⟩, fun hin hsafe hlive hpow hboot => ?_⟩
    have level (hz : laneZd s n = none ∨ ∃ z, laneZd s n = some z ∧ zdAt hs z = .low) (b : Bool) (hpin : pinAt hs n = if b then .high else .low) :=
      firstBody_smp_level (hs := hs) hon hn hmode hin hst hsafe hlive hpow hboot hz hpin
    exact ⟨fun hz hp => ⟨_, lead, level (.inl hz) false hp⟩, fun hz hp => ⟨_, lead, level (.inl hz) true hp⟩,
      fun z hz hh => ⟨_, lead, firstBody_smp_z hon hn hmode hz hh⟩, fun z hz hl hp => ⟨_, lead, level (.inr ⟨z, hz, hl⟩) true hp⟩⟩
  · refine ⟨_, leadsTo_secondTick hclk hnone hst hpos hs, (secondBody_pin hst hon hn hmode).trans ?_⟩
    have hx : laneXpol s n < 4 := fld_lt ..
    change drivePin _ (laneXpol s n) _ = match (getLane s n).drv, laneXpol s n with
      | .zero, _ | .x, 1 => .low
      | .one, _ | .x, 2 => .high
      | .z, _ | .x, 3 => .released
      | .x, _ => lanePin s n
    generalize laneXpol s n = x at hx
    generalize (getLane s n).drv = d
    cases d with
    | x => interval_cases x <;> rfl
    | zero | one | z => rfl
  · refine ⟨_, leadsTo_secondTick hclk hnone hst hpos hs, (secondBody_held hst hon).imp id fun ⟨v, hv, hf, hl⟩ => ⟨v, hv, hf, fun n => ?_⟩⟩
    rw [hl, mem_laneFails, strikes_nLanes, strikes_laneMode, strikes_getLane, strikes_laneZd, laneCompare_isSome, Option.isSome_iff_ne_none]
  · intro code
    refine ⟨_, leadsTo_secondTick hclk hnone hst hpos hs, (secondBody_gauge hst).2.imp id fun ⟨hheld, hregs⟩ => ?_⟩
    obtain ⟨h1, h2, h3⟩ := gaugeTicked_counts (hs := hs) hst hon hdue hage
    obtain ⟨f1, f2, f3⟩ := gaugeTicked_flag (hs := hs) hst hon hdue hage
    have hlt : code < 4 := verdictCode_lt s v
    have cnt (d : Nat) (hd : d < 4) := hregs (oGauCnt d) (by unfold gaugeReg oGauCnt; omega)
    have sts (i : Nat) : rbit (secondBody hs s) oGauSts i = rbit (gaugeTicked hs s) oGauSts i := by unfold rbit; rw [hregs _ (by decide)]
    refine ⟨?_, fun d hd hne => ?_, ?_, fun hv => ?_, fun hc => ⟨(sts 0).trans (f1 hc), fun hnd n hn hn5 => ?_⟩, fun hc => (sts 1).trans (f2 hc),
      fun hc => (sts 2).trans (f3 hc)⟩
    · rw [cnt code hlt]; exact h1
    · rw [cnt d hd]; exact h2 d hd hne
    · rw [hregs _ (by decide)]; exact h3
    · refine gaugeTicked_gone (hs := hs) hon hage ?_
      rw [← hheld]
      exact List.mem_map.2 ⟨v, hv, rfl⟩
    · rw [hregs _ (by unfold gaugeReg oGauFcnt; omega)]
      exact gaugeTicked_laneCount hst hon hdue hage hc hnd hn hn5

end Sys2Proof.Machine

namespace Sys2Proof.Machine

/-! ## The instructions' results (R34-R62) -/

section
variable {s : State} {cl st p : Nat}

/-- Operands that hold a wire (R62). -/
theorem wireOf_undriven {pull : Nat} {d : List V4} (h : ∀ v ∈ d, v = .z) : wireOf pull d = if pull = 0 then .z else if pull = 1 then .zero else .one := by
  have hd : d.filter (· ≠ .z) = [] := List.filter_eq_nil_iff.2 fun v hv => by simp [h v hv]
  unfold wireOf
  simp only [hd]
  rfl

theorem wireOf_agree {pull : Nat} {d : List V4} {w : V4} (hw : w = .zero ∨ w = .one) (hdrv : ∃ v ∈ d, v ≠ .z) (h : ∀ v ∈ d, v = .z ∨ v = w) :
    wireOf pull d = w := by
  have hall : ∀ v ∈ d.filter (· ≠ .z), v = w := by
    intro v hv
    obtain ⟨hv, hz⟩ := List.mem_filter.1 hv
    exact (h v hv).resolve_left (of_decide_eq_true hz)
  obtain ⟨v, hv, hz⟩ := hdrv
  have hmem : v ∈ d.filter (· ≠ .z) := List.mem_filter.2 ⟨hv, decide_eq_true hz⟩
  unfold wireOf
  dsimp only
  generalize d.filter (· ≠ .z) = e at hall hmem
  have hne : ¬ e.isEmpty = true := by
    rw [List.isEmpty_iff]
    exact List.ne_nil_of_mem hmem
  rw [if_neg hne]
  rcases hw with rfl | rfl
  · exact if_pos (List.all_eq_true.2 fun v hv => decide_eq_true (hall v hv))
  · have hz : ¬ (e.all fun v => decide (v = V4.zero)) = true := by
      rw [List.all_eq_true]
      intro h0
      have h1 := of_decide_eq_true (h0 v hmem)
      rw [hall v hmem] at h1
      cases h1
    rw [if_neg hz]
    exact if_pos (List.all_eq_true.2 fun v hv => decide_eq_true (hall v hv))

theorem wireOf_contended {pull : Nat} {d : List V4} (h1 : ∃ v ∈ d, v ≠ .z ∧ v ≠ .zero) (h2 : ∃ v ∈ d, v ≠ .z ∧ v ≠ .one) : wireOf pull d = .x := by
  obtain ⟨v, hv, hvz, hv0⟩ := h1
  obtain ⟨w, hw, hwz, hw1⟩ := h2
  have hvm : v ∈ d.filter (· ≠ .z) := List.mem_filter.2 ⟨hv, decide_eq_true hvz⟩
  have hwm : w ∈ d.filter (· ≠ .z) := List.mem_filter.2 ⟨hw, decide_eq_true hwz⟩
  unfold wireOf
  dsimp only
  generalize d.filter (· ≠ .z) = e at hvm hwm
  rw [if_neg (by rw [List.isEmpty_iff]; exact List.ne_nil_of_mem hvm),
    if_neg (by rw [List.all_eq_true]; exact fun h => hv0 (of_decide_eq_true (h v hvm))),
    if_neg (by rw [List.all_eq_true]; exact fun h => hw1 (of_decide_eq_true (h w hwm)))]

theorem resultOf_givesZ {op : POp} (h : givesZ op = true) (vs : List V4) (wv : V4) : resultOf s cl op vs wv = .z := by
  cases op with
  | ashl | wset | rd | wr | hshl | hset | hrd | hwr | xset | xsend | gdrv | nop => rfl
  | _ => cases h

/-- The value that a WAIT of tag `t` writes. -/
theorem waitAt_wait {t : Nat} (h : opAt s cl st p = .wait t) : waitAt s cl st p = waitValue s (sluiceOf cl) t := by
  unfold waitAt
  rw [h]

/-- What the instructions other than EVAL and ZBUF write and mark, of a word and operands without error. -/
theorem procStep_results (hecc : ¬ wordBad s cl st p) (hpar : (getCl s cl).badPar = []) :
    let c := getCl s cl
    let ph := physOf s cl p
    let w := wordAt s cl st p
    let op := opAt s cl st p
    let r := procStep s cl st p {}
    let lane (l : Nat) : Nat := 64 * (cl / 64) + l
    (∀ i, op = .rcol i → r.res = pget c.mrd i) ∧
    (∀ i t, op = .hcol i t → r.res = pget (getCollect s (sluiceOf cl) t) i) ∧
    (∀ l, op = .gsmp l → laneBound s cl l = true → laneMode s (lane l) ≠ 0 → r.res = (getLane s (lane l)).smp) ∧
    (∀ l, op = .gsmp l ∨ op = .gdrv l → laneBound s cl l = false → 6 ∈ r.flags ∧ (op = .gsmp l → r.res = .x)) ∧
    (∀ t d, op = .wait t → getTag s (sluiceOf cl) t ∈ [.data d, .dataX, .written, .null] → r.res = .one) ∧
    (∀ t, op = .wait t → getTag s (sluiceOf cl) t ∈ [.free, .waiting, .unknownAddr, .refused] → r.res = .x) ∧
    (∀ x, op = .probe x ∨ op = .trig x → r.res = dsGet c ph (wA w)) ∧
    (∀ n pull, op = .wire n pull → r.res = wireOf pull (([wA w, wB w, wC w, wD w].take n).map (dsGet c ph))) ∧
    (givesZ op = true → r.res = .z) ∧
    (op = .illegal → r.res = .x ∧ 5 ∈ r.flags) := by
  intro c ph w op r lane
  have hex := procStep_executed (f := {}) hecc
  have res (h : op ≠ .illegal) : r.res = resultOf s cl op (valsAt s cl st p) (waitAt s cl st p) := procStep_res hecc h
  have vals : valsAt s cl st p = (opFields w op).map (dsGet c ph) := valsAt_sound hpar
  have legal {o : POp} (h : op = o) (ho : o ≠ .illegal) : r.res = resultOf s cl o (valsAt s cl st p) (waitAt s cl st p) := by
    rw [res (h ▸ ho), h]
  refine ⟨fun i h => legal h (by simp), fun i t h => legal h (by simp), fun l h hb hm => ?_, fun l h hb => ⟨hex.unbound l h.symm hb, fun h => ?_⟩,
    fun t d h ht => ?_, fun t h ht => ?_, fun x h => ?_, fun n pull h => ?_, fun h => ?_, fun h => (hex.illegal h).2⟩
  · rw [legal h (by simp)]
    exact (if_pos hb).trans (if_neg hm)
  · rw [legal h (by simp)]
    exact if_neg (by rw [hb]; decide)
  · rw [legal h (by simp), waitAt_wait h]
    show waitValue s (sluiceOf cl) t = .one
    unfold waitValue
    simp only [List.mem_cons, List.not_mem_nil, or_false] at ht
    rcases ht with ht | ht | ht | ht <;> rw [ht]
  · rw [legal h (by simp), waitAt_wait h]
    show waitValue s (sluiceOf cl) t = .x
    unfold waitValue
    simp only [List.mem_cons, List.not_mem_nil, or_false] at ht
    rcases ht with ht | ht | ht | ht <;> rw [ht]
  · have hv : argAt (valsAt s cl st p) 0 = dsGet c ph (wA w) := by
      rw [vals]
      rcases h with h | h <;> rw [h] <;> rfl
    rw [← hv]
    rcases h with h | h
    · exact legal h (by simp)
    · exact legal h (by simp)
  · rw [legal h (by simp), vals, h]
    rfl
  · have hne : op ≠ .illegal := by
      intro e
      rw [e] at h
      cases h
    rw [res hne]
    exact resultOf_givesZ h _ _

end

end Sys2Proof.Machine

namespace Sys2Proof.Machine

/-! ## Packed four-state fields (R9) -/

/-- A value by the two bits of its code. -/
def v4pair (lo hi : Bool) : V4 := if hi then (if lo then .x else .z) else if lo then .one else .zero

theorem v4of_mod (n : Nat) : v4of (n % 4) = v4of n := by unfold v4of; rw [Nat.mod_mod]
theorem v4of_code (v : V4) : v4of (v4code v) = v := by cases v <;> rfl
theorem v4code_lt (v : V4) : v4code v < 4 := by cases v <;> decide
theorem v4pair_code (v : V4) : v4pair ((v4code v).testBit 0) ((v4code v).testBit 1) = v := by cases v <;> rfl

theorem v4of_bits (n : Nat) : v4of n = v4pair (n.testBit 0) (n.testBit 1) := by
  have h : ∀ r < 4, v4of r = v4pair (r.testBit 0) (r.testBit 1) := by decide
  rw [← v4of_mod, h _ (Nat.mod_lt _ (by decide)), show 4 = 2 ^ 2 from rfl, Nat.testBit_mod_two_pow, Nat.testBit_mod_two_pow]
  simp

section
variable {n : Nat} (p : BitVec n)

theorem pget_bits (i : Nat) : pget p i = v4pair (p.getLsbD (2 * i)) (p.getLsbD (2 * i + 1)) := by
  unfold pget
  rw [v4of_bits, Nat.testBit_shiftRight, Nat.testBit_shiftRight]
  rfl

/-- The number that values spell, digit by digit. -/
theorem spelt_digit (vs : List V4) (i : Nat) : (vs.foldr (fun v acc => v4code v + 4 * acc) 0) / 4 ^ i % 4 = v4code (vs.getD i .zero) := by
  induction vs generalizing i with
  | nil => simp [v4code]
  | cons v t ih =>
    have hv := v4code_lt v
    cases i with
    | zero =>
      simp only [List.foldr_cons, List.getD_cons_zero, pow_zero, Nat.div_one]
      omega
    | succ i =>
      simp only [List.foldr_cons, List.getD_cons_succ, pow_succ']
      rw [← ih i, ← Nat.div_div_eq_div_mul]
      congr 2
      omega

/-- A value of a packed field that was spelt. -/
theorem pget_ppack {w i : Nat} (vs : List V4) (h : 2 * i + 1 < w) : pget (ppack w vs) i = vs.getD i .zero := by
  have hd := spelt_digit vs i
  unfold ppack
  generalize vs.foldr (fun v acc => v4code v + 4 * acc) 0 = k at hd
  rw [pget_bits, BitVec.getLsbD_ofNat, BitVec.getLsbD_ofNat, decide_eq_true (by omega : 2 * i < w), decide_eq_true h, Bool.true_and, Bool.true_and,
    ← v4of_code (vs.getD i .zero), ← hd, v4of_mod, v4of_bits, show 4 ^ i = 2 ^ (2 * i) by rw [pow_mul]; norm_num, Nat.testBit_div_two_pow,
    Nat.testBit_div_two_pow, Nat.zero_add, Nat.add_comm 1]

theorem getLsbD_pset (i : Nat) (v : V4) (b : Nat) : (pset p i v).getLsbD b =
    (decide (b < n) && if b = 2 * i then (v4code v).testBit 0 else if b = 2 * i + 1 then (v4code v).testBit 1 else p.getLsbD b) := by
  have h3 (k : Nat) : Nat.testBit 3 k = (decide (k = 0) || decide (k = 1)) := by
    rcases k with _ | _ | k
    · rfl
    · rfl
    · rw [show (3 : Nat) = 2 ^ 2 - 1 from rfl, Nat.testBit_two_pow_sub_one]
      simp
  have hv (k : Nat) (hk : 2 ≤ k) : (v4code v).testBit k = false :=
    Nat.testBit_lt_two_pow (lt_of_lt_of_le (v4code_lt v) (Nat.pow_le_pow_right (n := 2) (by decide) hk))
  by_cases hb : b < n
  · unfold pset
    rw [BitVec.getLsbD_or, BitVec.getLsbD_and, BitVec.getLsbD_not, BitVec.getLsbD_ofNat, BitVec.getLsbD_ofNat]
    simp only [hb, decide_true, Bool.true_and, Nat.testBit_shiftLeft, h3]
    by_cases e0 : b = 2 * i
    · simp [e0]
    · by_cases e1 : b = 2 * i + 1
      · simp [e1]
      · rw [if_neg e0, if_neg e1]
        by_cases hge : 2 * i ≤ b
        · have := hv (b - 2 * i) (by omega)
          have h0 : b - 2 * i ≠ 0 := by omega
          have h1 : b - 2 * i ≠ 1 := by omega
          simp [this, h0, h1]
        · simp [hge]
  · rw [BitVec.getLsbD_of_ge (pset p i v) b (Nat.le_of_not_lt hb)]
    simp [hb]

theorem pget_pset_same {i : Nat} (h : 2 * i + 1 < n) (v : V4) : pget (pset p i v) i = v := by
  have h0 : 2 * i < n := by omega
  rw [pget_bits, getLsbD_pset, getLsbD_pset, if_pos rfl, if_neg (by omega), if_pos rfl, decide_eq_true h0, decide_eq_true h, Bool.true_and,
    Bool.true_and, v4pair_code]

theorem pget_pset_other {i j : Nat} (h : j ≠ i) (hj : 2 * j + 1 < n) (v : V4) : pget (pset p i v) j = pget p j := by
  have e1 : 2 * j ≠ 2 * i := by omega
  have e2 : 2 * j ≠ 2 * i + 1 := by omega
  have e3 : 2 * j + 1 ≠ 2 * i := by omega
  have e4 : 2 * j + 1 ≠ 2 * i + 1 := by omega
  have h0 : 2 * j < n := by omega
  rw [pget_bits, pget_bits, getLsbD_pset, getLsbD_pset, if_neg e1, if_neg e2, if_neg e3, if_neg e4]
  simp [hj, h0]

/-- Values set from `i` on, where none of the bits is set yet. -/
theorem rangeSet_pget (done : List Nat) (i : Nat) (vs : List V4) (hd : ∀ k ∈ done, k < i) {j : Nat} (hj : 2 * j + 1 < n) :
    pget (rangeSet p done i vs).1 j = if i ≤ j ∧ j < i + vs.length then vs.getD (j - i) .zero else pget p j := by
  induction vs generalizing p done i with
  | nil =>
    rw [if_neg (by simp)]
    rfl
  | cons v t ih =>
    have hi : ¬ (done.contains i) = true := by
      rw [List.contains_iff_mem]
      exact fun h => absurd (hd i h) (lt_irrefl i)
    have hrec := ih (pset p i v) (i :: done) (i + 1) (fun k hk => by
      rcases List.mem_cons.1 hk with rfl | hk
      · omega
      · have := hd k hk; omega)
    rw [rangeSet, if_neg hi, hrec, List.length_cons]
    by_cases e : j = i
    · subst e
      rw [if_neg (by omega), if_pos (by omega), pget_pset_same p hj, Nat.sub_self, List.getD_cons_zero]
    · rw [pget_pset_other p e hj]
      by_cases h : i + 1 ≤ j ∧ j < i + 1 + t.length
      · rw [if_pos h, if_pos (by omega), show j - i = j - (i + 1) + 1 by omega, List.getD_cons_succ]
      · rw [if_neg h, if_neg (by omega)]

/-- A register shifted left by the operands. -/
theorem shiftIn_pget {k : Nat} (hk : 2 * k ≤ n) (clr : Bool) (vs : List V4) {j : Nat} (hj : j < k) :
    pget (shiftIn k n p clr vs) j = if j < vs.length then vs.getD (vs.length - 1 - j) .zero else if clr then .zero else pget p (j - vs.length) := by
  unfold shiftIn
  rw [pget_ppack _ (by omega)]
  have hold : (if clr then List.replicate k V4.zero else plist p k).length = k := by cases clr <;> simp [plist]
  rw [List.getD_eq_getElem?_getD, List.getElem?_take_of_lt hj]
  by_cases h : j < vs.length
  · rw [if_pos h, List.getElem?_append_left (by simpa using h), List.getElem?_reverse h, List.getD_eq_getElem?_getD]
  · rw [if_neg h, List.getElem?_append_right (by simpa using h), List.length_reverse]
    cases clr with
    | true => simp [show j - vs.length < k by omega]
    | false => simp [plist, show j - vs.length < k by omega]

end

end Sys2Proof.Machine

namespace Sys2Proof.Machine

/-! ## A cluster's port registers after an evaluation step (R46, R52) -/

/-- No instruction reads more than four operands. -/
theorem opReads_le (banks : Nat) (wharf : Bool) (w : BitVec 64) : opReads (decodeWord banks wharf w) ≤ 4 := by
  have hn : nfld (wTT w) 11 10 < 4 := Nat.mod_lt _ (by decide)
  have hev (b : Bool) : (if b = true then 3 else 4) ≤ 4 := by cases b <;> decide
  unfold decodeWord decodeMem decodePort decodeCtrl
  dsimp only
  repeat' split
  all_goals simp [opReads, hn, hev]

section
variable {s : State} {cl st p : Nat} {f : ProcFault}

/-- The operands at a sound port are those the sub-operation reads. -/
theorem procStep_operands (hf : f.port = none) {op : POp} (h : (procStep s cl st p f).op = op) (hn : op ≠ .nop) :
    op = .illegal ∨ (procStep s cl st p f).vs.length = opReads op := by
  by_cases hb : wordBad s cl st p
  · rw [procStep_bad hb] at h
    exact absurd h.symm hn
  · have hex := procStep_executed (f := f) hb
    by_cases hl : opAt s cl st p = .illegal
    · exact .inl (h.symm.trans (hex.illegal hl).1)
    · obtain ⟨ho, hv⟩ := hex.port hl hf
      rw [ho] at h
      refine .inr ?_
      have := opReads_le (nBanks s) (hasWharf s) (wordAt s cl st p)
      rw [hv, ← h]
      unfold valsAt opFields
      rw [List.length_map, List.length_map, List.length_take]
      exact Nat.min_eq_left this

end

section
variable {c0 : Cluster} {a : PortAcc} {o : ProcOut}

/-- What a sub-operation leaves of the ports it does not use. -/
structure PortSpares (o : ProcOut) (a b : PortAcc) : Prop where
  ma  : (∀ n e, o.op ≠ .ashl n e) → (b.ashl, b.c.ma) = (a.ashl, a.c.ma)
  ho  : (∀ n e, o.op ≠ .hshl n e) → (b.hshl, b.c.ho) = (a.hshl, a.c.ho)
  mwd : (∀ n e, o.op ≠ .wset n e) → (b.mbits, b.c.mwd) = (a.mbits, a.c.mwd)
  hwd : (∀ n e, o.op ≠ .hset n e) → (b.hbits, b.c.hwd) = (a.hbits, a.c.hwd)
  xfd : (∀ n e, o.op ≠ .xset n e) → (b.xbits, b.c.xfd) = (a.xbits, a.c.xfd)
  mem : (∀ k, o.op ≠ .rd k ∧ o.op ≠ .wr k) → (b.rdwr, b.mem) = (a.rdwr, a.mem)
  send : (∀ n e, o.op ≠ .xsend n e) → (b.c.xsent, b.send) = (a.c.xsent, a.send)

theorem portReg_spares : PortSpares o a (portReg c0 a o) := by
  unfold portReg
  dsimp only
  split <;> constructor <;> simp_all <;> split_ifs <;> simp

theorem portReg_ashl {n : Nat} {e : Bool} (h : o.op = .ashl n e) (ha : a.ashl = false) :
    (portReg c0 a o).c.ma = shiftIn 15 30 c0.ma e (o.vs.map v4zx) := by
  unfold portReg
  simp [h, ha]

theorem portReg_hshl {n : Nat} {e : Bool} (h : o.op = .hshl n e) (ha : a.hshl = false) :
    (portReg c0 a o).c.ho = shiftIn 34 68 c0.ho e (o.vs.map v4zx) := by
  unfold portReg
  simp [h, ha]

theorem portReg_wset {n i : Nat} (h : o.op = .wset n i) : (portReg c0 a o).c.mwd = (rangeSet a.c.mwd a.mbits i (o.vs.map v4zx)).1 := by
  unfold portReg
  simp [h]

theorem portReg_hset {n i : Nat} (h : o.op = .hset n i) : (portReg c0 a o).c.hwd = (rangeSet a.c.hwd a.hbits i (o.vs.map v4zx)).1 := by
  unfold portReg
  simp [h]

theorem portReg_xset {n i : Nat} (h : o.op = .xset n i) : (portReg c0 a o).c.xfd = (rangeSet a.c.xfd a.xbits i (o.vs.map v4zx)).1 := by
  unfold portReg
  simp [h]

theorem portReg_mem {k : Nat} (h : o.op = .rd k ∨ o.op = .wr k) (ha : a.rdwr = false) : (portReg c0 a o).mem = some o := by
  unfold portReg
  rcases h with h | h <;> simp [h, ha]

theorem portReg_send {n x : Nat} (h : o.op = .xsend n x) (ha : a.c.xsent = false) (hen : argAt o.vs 0 ≠ .zero) :
    (portReg c0 a o).c.xsent = true ∧ (portReg c0 a o).send = some o := by
  unfold portReg
  simp [h, ha, hen]

end

section
variable {s0 : State} {hs : List Happening} {cl st p : Nat} {c : Cluster}

/-- The sub-operations of a cluster, processor by processor. -/
theorem portAcc_eq : portAcc s0 cl st (clusterOuts s0 hs cl st) c = (List.range 64).foldl
    (fun a i => portReg (getCl s0 cl) a (procStep s0 cl st i (procFaultOf hs cl i))) { c := written st (clusterOuts s0 hs cl st) c } := by
  unfold portAcc
  rw [show clusterOuts s0 hs cl st = (List.range 64).map fun p => procStep s0 cl st p (procFaultOf hs cl p) from rfl, List.foldl_map]

/-- Where processor `p` alone acts on what `π` reads of the ports, its sub-operation finds what stood before. -/
theorem portAcc_alone {γ : Type} (π : PortAcc → γ) {P : γ → γ → Prop} (hp : p < 64)
    (hother : ∀ a, ∀ i < 64, i ≠ p → π (portReg (getCl s0 cl) a (procStep s0 cl st i (procFaultOf hs cl i))) = π a)
    (hit : ∀ a, P (π a) (π (portReg (getCl s0 cl) a (procStep s0 cl st p (procFaultOf hs cl p))))) :
    P (π { c := written st (clusterOuts s0 hs cl st) c }) (π (portAcc s0 cl st (clusterOuts s0 hs cl st) c)) := by
  rw [portAcc_eq]
  exact foldl_rel π (fun _ => True) (f := fun a i => portReg (getCl s0 cl) a (procStep s0 cl st i (procFaultOf hs cl i))) List.nodup_range
    (List.mem_range.2 hp) (fun _ _ _ _ => trivial) (fun a _ i hi hne => hother a i (List.mem_range.1 hi) hne) (fun a _ => hit a) _ trivial

/-- Where no processor acts on what `π` reads of the ports it stands. -/
theorem portAcc_none {γ : Type} (π : PortAcc → γ)
    (hother : ∀ a, ∀ i < 64, π (portReg (getCl s0 cl) a (procStep s0 cl st i (procFaultOf hs cl i))) = π a) :
    π (portAcc s0 cl st (clusterOuts s0 hs cl st) c) = π { c := written st (clusterOuts s0 hs cl st) c } := by
  rw [portAcc_eq]
  exact foldl_miss π (fun a i hi => hother a i (List.mem_range.1 hi)) _

/-- Results, staged values and exports aside, a cluster's stores are what they were. -/
theorem written_ports (outs : List ProcOut) (c : Cluster) : ∃ ds bp sg ex, written st outs c = { c with ds := ds, badPar := bp, staged := sg, expo := ex } := by
  unfold written
  induction outs generalizing c with
  | nil => exact ⟨_, _, _, _, rfl⟩
  | cons o t ih =>
    obtain ⟨_, _, _, _, e⟩ := ih (procWrite st o c)
    obtain ⟨_, _, _, _, e'⟩ : ∃ ds bp sg ex, procWrite st o c = { c with ds := ds, badPar := bp, staged := sg, expo := ex } := by
      unfold procWrite dsPut
      dsimp only
      split <;> exact ⟨_, _, _, _, rfl⟩
    rw [List.foldl_cons, e, e']
    exact ⟨_, _, _, _, rfl⟩

end

end Sys2Proof.Machine

namespace Sys2Proof.Machine

/-! ### The port registers at the end of the step -/

/-- Two clusters hold the same in their port registers. -/
structure SamePorts (c c' : Cluster) : Prop where
  ma : c.ma = c'.ma
  mwd : c.mwd = c'.mwd
  ho : c.ho = c'.ho
  hwd : c.hwd = c'.hwd
  xfd : c.xfd = c'.xfd
  xsent : c.xsent = c'.xsent

section
variable {c c' c'' : Cluster}

theorem SamePorts.trans (h : SamePorts c c') (k : SamePorts c' c'') : SamePorts c c'' :=
  ⟨h.ma.trans k.ma, h.mwd.trans k.mwd, h.ho.trans k.ho, h.hwd.trans k.hwd, h.xfd.trans k.xfd, h.xsent.trans k.xsent⟩

theorem samePorts_unstruck (h : unstruck c = unstruck c') : SamePorts c c' :=
  ⟨congrArg (·.ma) h, congrArg (·.mwd) h, congrArg (·.ho) h, congrArg (·.hwd) h, congrArg (·.xfd) h, congrArg (·.xsent) h⟩

theorem samePorts_settled (h : settledCl c = settledCl c') : SamePorts c c' :=
  ⟨congrArg (·.ma) h, congrArg (·.mwd) h, congrArg (·.ho) h, congrArg (·.hwd) h, congrArg (·.xfd) h, congrArg (·.xsent) h⟩

theorem extended.ports (h : extended c c') : SamePorts c' c := by
  obtain ⟨_, _, rfl⟩ := h
  constructor <;> rfl

theorem carried.ports (h : carried c c') : SamePorts c' c := by
  obtain ⟨-, _, _, _, _, rfl⟩ := h
  constructor <;> rfl

end

section
variable {hs : List Happening} {s : State} {cl p : Nat}

theorem strikes_ports : SamePorts (getCl (strikes hs s) cl) (getCl s cl) := samePorts_unstruck (strikes_cluster hs s cl)

/-- The ports' sub-operations at the end of an evaluation step. -/
theorem evalBody_ports (hw : mwf Cluster.fresh s.fab = true) (hrun : basinRuns s (cl / 64) = true) : SamePorts (getCl (evalBody hs s) cl)
    (portAcc (strikes hs s) cl s.seq.pos (clusterOuts (strikes hs s) hs cl s.seq.pos) (getCl (strikes hs s) cl)).c := by
  have hw0 := strikes_canonical hs s hw
  have e1 := ((fabricStep_cluster (hs := hs) (cl := cl) (st := (strikes hs s).seq.pos) hw0).1 (by simpa using hrun)).ports
  have hw1 := (work_fabricStep (s0 := strikes hs s) hs (strikes hs s).seq.pos (strikes hs s)).trail.canonical hw0
  have e2 := ((work_transit hs (strikes hs s)).trail.transit_carried hw1 cl).ports
  have e3 := samePorts_settled (((evalBody_over hs s).still.fab ((work_eval hs _).trail.canonical hw0)).2 cl).1
  rw [strikes_seq] at e1 e2
  exact e3.trans (e2.trans e1)

end

/-- The operand a port takes: a Z as X (R9). -/
def portVal (o : ProcOut) (j : Nat) : V4 := if argAt o.vs j = .z then .x else argAt o.vs j

theorem portVals_getD (o : ProcOut) (j : Nat) : (o.vs.map v4zx).getD j .zero = portVal o j := by
  unfold portVal argAt
  rw [List.getD_eq_getElem?_getD, List.getElem?_map, List.getD_eq_getElem?_getD]
  cases o.vs[j]? with
  | none => rfl
  | some v => cases v <;> rfl

/-- What processor `i` of cluster `d` does in an evaluation step. -/
abbrev stepOut (hs : List Happening) (s : State) (d i : Nat) : ProcOut := procStep (strikes hs s) d s.seq.pos i (procFaultOf hs d i)

section
variable {hs : List Happening} {s : State} {cl p : Nat} (hw : mwf Cluster.fresh s.fab = true) (hrun : basinRuns s (cl / 64) = true) (hp : p < 64)
  (hport : (procFaultOf hs cl p).port = none)

include hport in
theorem stepOut_operands {op : POp} (h : (stepOut hs s cl p).op = op) (hn : op ≠ .nop) (hi : op ≠ .illegal) : (stepOut hs s cl p).vs.length = opReads op :=
  (procStep_operands hport h hn).resolve_left hi

include hw hrun hp hport

/-- ASHL and HSHL shift their register, where no other shifts it. -/
theorem evalBody_ashl {n : Nat} {e : Bool} (hop : (stepOut hs s cl p).op = .ashl n e) (alone : ∀ i < 64, i ≠ p → ∀ m f, (stepOut hs s cl i).op ≠ .ashl m f)
    {j : Nat} (hj : j < 15) : pget (getCl (evalBody hs s) cl).ma j =
      if j < n then portVal (stepOut hs s cl p) (n - 1 - j) else if e then .zero else pget (getCl s cl).ma (j - n) := by
  have hlen := stepOut_operands hport hop (by simp) (by simp)
  have hacc := portAcc_alone (c := getCl (strikes hs s) cl) (fun a => (a.ashl, a.c.ma))
    (P := fun x y => x.1 = false → y.2 = shiftIn 15 30 (getCl (strikes hs s) cl).ma e ((stepOut hs s cl p).vs.map v4zx)) hp
    (fun a i hi hne => portReg_spares.ma (alone i hi hne)) (fun a ha => portReg_ashl hop ha) rfl
  have hold : (getCl (strikes hs s) cl).ma = (getCl s cl).ma := strikes_ports.ma
  have hend : (getCl (evalBody hs s) cl).ma = _ := (evalBody_ports hw hrun).ma.trans hacc
  rw [hend, shiftIn_pget _ (by decide) _ _ hj, List.length_map, hlen, hold, portVals_getD]
  rfl

theorem evalBody_hshl {n : Nat} {e : Bool} (hop : (stepOut hs s cl p).op = .hshl n e) (alone : ∀ i < 64, i ≠ p → ∀ m f, (stepOut hs s cl i).op ≠ .hshl m f)
    {j : Nat} (hj : j < 34) : pget (getCl (evalBody hs s) cl).ho j =
      if j < n then portVal (stepOut hs s cl p) (n - 1 - j) else if e then .zero else pget (getCl s cl).ho (j - n) := by
  have hlen := stepOut_operands hport hop (by simp) (by simp)
  have hacc := portAcc_alone (c := getCl (strikes hs s) cl) (fun a => (a.hshl, a.c.ho))
    (P := fun x y => x.1 = false → y.2 = shiftIn 34 68 (getCl (strikes hs s) cl).ho e ((stepOut hs s cl p).vs.map v4zx)) hp
    (fun a i hi hne => portReg_spares.ho (alone i hi hne)) (fun a ha => portReg_hshl hop ha) rfl
  have hold : (getCl (strikes hs s) cl).ho = (getCl s cl).ho := strikes_ports.ho
  have hend : (getCl (evalBody hs s) cl).ho = _ := (evalBody_ports hw hrun).ho.trans hacc
  rw [hend, shiftIn_pget _ (by decide) _ _ hj, List.length_map, hlen, hold, portVals_getD]
  rfl

omit hw hrun hp in
/-- The operands set into a register that no other sets. -/
theorem setAlone_pget {k n i : Nat} {reg old : BitVec k} {op : POp} (hop : (stepOut hs s cl p).op = op) (hn : op ≠ .nop) (hi : op ≠ .illegal)
    (hr : opReads op = n) (h : reg = (rangeSet old [] i ((stepOut hs s cl p).vs.map v4zx)).1) {j : Nat} (hj : 2 * j + 1 < k) :
    pget reg j = if i ≤ j ∧ j < i + n then portVal (stepOut hs s cl p) (j - i) else pget old j := by
  have hlen := (stepOut_operands hport hop hn hi).trans hr
  rw [h, rangeSet_pget old [] i _ (by simp) hj, List.length_map, hlen, portVals_getD]

theorem evalBody_wset {n i : Nat} (hop : (stepOut hs s cl p).op = .wset n i) (alone : ∀ q < 64, q ≠ p → ∀ m f, (stepOut hs s cl q).op ≠ .wset m f)
    {j : Nat} (hj : j < 512) : pget (getCl (evalBody hs s) cl).mwd j =
      if i ≤ j ∧ j < i + n then portVal (stepOut hs s cl p) (j - i) else pget (getCl s cl).mwd j := by
  have hacc := portAcc_alone (c := getCl (strikes hs s) cl) (fun a => (a.mbits, a.c.mwd))
    (P := fun x y => y.2 = (rangeSet x.2 x.1 i ((stepOut hs s cl p).vs.map v4zx)).1) hp
    (fun a q hq hne => portReg_spares.mwd (alone q hq hne)) (fun a => portReg_wset hop)
  obtain ⟨_, _, _, _, hwr⟩ := written_ports (st := s.seq.pos) (clusterOuts (strikes hs s) hs cl s.seq.pos) (getCl (strikes hs s) cl)
  rw [hwr] at hacc
  have hold : (getCl (strikes hs s) cl).mwd = (getCl s cl).mwd := strikes_ports.mwd
  rw [← hold]
  refine setAlone_pget hport hop (by simp) (by simp) rfl ?_ (by omega)
  exact (evalBody_ports hw hrun).mwd.trans hacc

theorem evalBody_hset {n i : Nat} (hop : (stepOut hs s cl p).op = .hset n i) (alone : ∀ q < 64, q ≠ p → ∀ m f, (stepOut hs s cl q).op ≠ .hset m f)
    {j : Nat} (hj : j < 64) : pget (getCl (evalBody hs s) cl).hwd j =
      if i ≤ j ∧ j < i + n then portVal (stepOut hs s cl p) (j - i) else pget (getCl s cl).hwd j := by
  have hacc := portAcc_alone (c := getCl (strikes hs s) cl) (fun a => (a.hbits, a.c.hwd))
    (P := fun x y => y.2 = (rangeSet x.2 x.1 i ((stepOut hs s cl p).vs.map v4zx)).1) hp
    (fun a q hq hne => portReg_spares.hwd (alone q hq hne)) (fun a => portReg_hset hop)
  obtain ⟨_, _, _, _, hwr⟩ := written_ports (st := s.seq.pos) (clusterOuts (strikes hs s) hs cl s.seq.pos) (getCl (strikes hs s) cl)
  rw [hwr] at hacc
  have hold : (getCl (strikes hs s) cl).hwd = (getCl s cl).hwd := strikes_ports.hwd
  rw [← hold]
  refine setAlone_pget hport hop (by simp) (by simp) rfl ?_ (by omega)
  exact (evalBody_ports hw hrun).hwd.trans hacc

theorem evalBody_xset {n i : Nat} (hop : (stepOut hs s cl p).op = .xset n i) (alone : ∀ q < 64, q ≠ p → ∀ m f, (stepOut hs s cl q).op ≠ .xset m f)
    {j : Nat} (hj : j < 32) : pget (getCl (evalBody hs s) cl).xfd j =
      if i ≤ j ∧ j < i + n then portVal (stepOut hs s cl p) (j - i) else pget (getCl s cl).xfd j := by
  have hacc := portAcc_alone (c := getCl (strikes hs s) cl) (fun a => (a.xbits, a.c.xfd))
    (P := fun x y => y.2 = (rangeSet x.2 x.1 i ((stepOut hs s cl p).vs.map v4zx)).1) hp
    (fun a q hq hne => portReg_spares.xfd (alone q hq hne)) (fun a => portReg_xset hop)
  obtain ⟨_, _, _, _, hwr⟩ := written_ports (st := s.seq.pos) (clusterOuts (strikes hs s) hs cl s.seq.pos) (getCl (strikes hs s) cl)
  rw [hwr] at hacc
  have hold : (getCl (strikes hs s) cl).xfd = (getCl s cl).xfd := strikes_ports.xfd
  rw [← hold]
  refine setAlone_pget hport hop (by simp) (by simp) rfl ?_ (by omega)
  exact (evalBody_ports hw hrun).xfd.trans hacc

end

end Sys2Proof.Machine

namespace Sys2Proof.Machine

/-! ## A cluster's memory operations through a schedule position (R47-R49, R71) -/

/-- The operations under way that were issued at positions `q` names. -/
def issuedAt (q : Nat → Bool) (c : Cluster) : List MemOp := c.memOps.filter fun m => q m.issued

/-- Two clusters hold the same read data, and the same operations issued at positions `q` names. -/
def sameOps (q : Nat → Bool) (c c' : Cluster) : Prop := issuedAt q c' = issuedAt q c ∧ c'.mrd = c.mrd

theorem sameOps.refl (q : Nat → Bool) (c : Cluster) : sameOps q c c := ⟨rfl, rfl⟩
theorem sameOps.trans {q : Nat → Bool} {a b c : Cluster} (h : sameOps q a b) (k : sameOps q b c) : sameOps q a c :=
  ⟨k.1.trans h.1, k.2.trans h.2⟩

section
variable {q : Nat → Bool} {m : MemOp} (hq : q m.issued = false)
include hq

/-- An operation of another position that changes in place. -/
theorem sameOps_replace (c : Cluster) {m' : MemOp} (hm : m'.issued = m.issued) :
    sameOps q c { c with memOps := c.memOps.map fun y => if y = m then m' else y } := by
  refine ⟨?_, rfl⟩
  unfold issuedAt
  dsimp only
  generalize c.memOps = l
  induction l with
  | nil => rfl
  | cons y t ih =>
    rw [List.map_cons]
    by_cases e : y = m
    · subst e
      rw [if_pos rfl, List.filter_cons_of_neg (by simp [hm, hq]), List.filter_cons_of_neg (by simp [hq]), ih]
    · rw [if_neg e]
      cases hy : q y.issued
      · rw [List.filter_cons_of_neg (by simp [hy]), List.filter_cons_of_neg (by simp [hy]), ih]
      · rw [List.filter_cons_of_pos (by simp [hy]), List.filter_cons_of_pos (by simp [hy]), ih]

/-- An operation of another position that leaves. -/
theorem sameOps_drop (c : Cluster) : sameOps q c { c with memOps := c.memOps.filter (· ≠ m) } := by
  refine ⟨?_, rfl⟩
  unfold issuedAt
  dsimp only
  rw [List.filter_filter]
  refine List.filter_congr fun y _ => ?_
  by_cases e : y = m
  · subst e; simp [hq]
  · simp [e]

end

section
variable {s0 : State} {q : Nat → Bool} {m : MemOp} {cl : Nat}

theorem getCl_setCl (d cl : Nat) (c : Cluster) (s : State) : getCl (setCl cl c s) d = if d = cl then c else getCl s d := by
  split_ifs with e
  · subst e; exact mget_mset_same ..
  · exact mget_mset_other _ _ _ _ _ e

theorem sameOps_setCl (d : Nat) {c : Cluster} {s : State} (h : sameOps q (getCl s cl) c) : sameOps q (getCl s d) (getCl (setCl cl c s) d) := by
  rw [getCl_setCl]
  split_ifs with e
  · exact e ▸ h
  · exact .refl q _

theorem dmCheck_fab (src k w : Nat) (s : State) : (dmCheck src k w s).1.fab = s.fab :=
  (work_dmCheck (cls := []) src k w s).trail.fab (fun _ _ h => absurd h.1 List.not_mem_nil) id

/-- The bank cycle of an operation leaves those issued at other positions. -/
theorem bankCycle_sameOps (hq : q m.issued = false) (x : State × List Report) (d : Nat) :
    sameOps q (getCl x.1 d) (getCl (bankCycle s0 cl m x).1 d) := by
  have checked (l : List Nat) : (l.foldl (fun x j => andThen (dmCheck 0 (m.bank + j) m.addr) x) x).1.fab = x.1.fab :=
    foldl_fix (f := fun x j => andThen (dmCheck 0 (m.bank + j) m.addr) x) (fun y : State × List Report => y.1.fab)
      (fun y j => dmCheck_fab 0 (m.bank + j) m.addr y.1) l x
  have same {s t : State} (h : t.fab = s.fab) : getCl t d = getCl s d := by unfold getCl; rw [h]
  have lands : sameOps q (getCl x.1 d) (getCl (writeLands s0 cl m x.1) d) := by
    have written (s : State) (g : State → Nat → State) (hg : ∀ s j, (g s j).fab = s.fab) (l : List Nat) : (l.foldl g s).fab = s.fab :=
      foldl_fix State.fab hg l s
    unfold writeLands
    extract_lets s1
    have h1 : s1.fab = x.1.fab := by
      refine written x.1 _ (fun _ _ => ?_) _
      rfl
    clear_value s1
    rw [← same h1]
    exact sameOps_setCl d (sameOps_drop hq _)
  have replaced (vals : BitVec 1024) (l : List Nat) (y : State × List Report) (hy : y = l.foldl (fun x j => andThen (dmCheck 0 (m.bank + j) m.addr) x) x) :
      sameOps q (getCl x.1 d) (getCl (setCl cl { getCl y.1 cl with memOps := (getCl y.1 cl).memOps.map fun z =>
        if z = m then { m with done := true, data := vals } else z } y.1) d) := by
    rw [← same (hy ▸ checked l : y.1.fab = x.1.fab)]
    exact sameOps_setCl d (sameOps_replace hq _ rfl)
  unfold bankCycle
  dsimp only
  split
  · exact .refl q _
  · exact replaced _ _ _ rfl
  · exact replaced _ _ _ rfl
  · exact lands
  · exact lands

theorem dmLatency_ge (s : State) : 5 ≤ dmLatency s := by
  unfold dmLatency nativeD
  split_ifs <;> omega

/-- A running cluster after the memory ports' work: data that is due arrives, of operations that stood but for those issued a position before. -/
theorem memPorts_cluster (hrun : basinRuns s0 (cl / 64) = true) (hq : q (s0.seq.spos - 1) = false ∨ s0.seq.spos = 0) (s : State) :
    ∃ c, sameOps q (getCl s cl) c ∧ getCl (memPorts s0 s).1 cl = mrdArrive (frameStart s0) s0.seq.spos (dmLatency s0) c := by
  unfold memPorts
  extract_lets cls ops x d s2
  have hx : sameOps q (getCl s cl) (getCl x.1 cl) := by
    have go (l : List (Nat × MemOp)) (hl : ∀ cm ∈ l, q cm.2.issued = false) (y : State × List Report) :
        sameOps q (getCl y.1 cl) (getCl (l.foldl (fun x cm => bankCycle s0 cm.1 cm.2 x) y).1 cl) := by
      induction l generalizing y with
      | nil => exact .refl q _
      | cons cm t ih => exact (bankCycle_sameOps (hl cm (by simp)) y cl).trans (ih (fun c hc => hl c (by simp [hc])) _)
    refine go ops (fun cm hcm => ?_) (s, [])
    obtain ⟨e, -, hcm⟩ := List.mem_flatMap.1 hcm
    obtain ⟨m, hm, rfl⟩ := List.mem_map.1 hcm
    have hi : m.issued + 1 = s0.seq.spos := by
      have := (List.mem_filter.1 hm).2
      simp only [Bool.and_eq_true, decide_eq_true_eq] at this
      exact this.2
    rcases hq with h | h
    · rwa [← hi, Nat.add_sub_cancel] at h
    · omega
  exact ⟨_, hx, (getCl_foldl (fun _ => mrdArrive (frameStart s0) s0.seq.spos d) (nodup_runClusters s0) x.1 cl).trans
    (if_pos (mem_runClusters.2 hrun))⟩

/-- The reads that are due, and the operations that stay. -/
theorem mrdArrive_ops (fs spos d : Nat) (c : Cluster) : (mrdArrive fs spos d c).memOps =
    c.memOps.filter fun m => decide (spos + 1 < m.issued + d) || (decide (m.issued < fs) && decide (fs < m.issued + d)) := by
  unfold mrdArrive
  extract_lets due keep c1
  have h (g : Cluster → MemOp → Cluster) (hg : ∀ c m, (g c m).memOps = c.memOps) : (due.foldl g c).memOps = c.memOps := foldl_fix _ hg due c
  exact congrArg (List.filter keep) (h _ fun _ _ => rfl)

end

end Sys2Proof.Machine

namespace Sys2Proof.Machine

/-! ## Where in an evaluation step one element acts -/

/-- A fold reaches the one element that does not keep to `R`. -/
theorem foldl_around {σ β : Type} {R : σ → σ → Prop} (hrefl : ∀ x, R x x) (htrans : ∀ {x y z}, R x y → R y z → R x z) {f : σ → β → σ} {l : List β}
    (hl : l.Nodup) {a : β} (ha : a ∈ l) (hg : ∀ x, ∀ b ∈ l, b ≠ a → R x (f x b)) (x : σ) : ∃ y, R x y ∧ R (f y a) (l.foldl f x) := by
  have rest (t : List β) (ht : a ∉ t) (hg : ∀ x, ∀ b ∈ t, b ≠ a → R x (f x b)) (x : σ) : R x (t.foldl f x) := by
    induction t generalizing x with
    | nil => exact hrefl x
    | cons b t ih =>
      obtain ⟨hb, ht⟩ : b ≠ a ∧ a ∉ t := ⟨fun e => ht (e ▸ by simp), fun h => ht (by simp [h])⟩
      exact htrans (hg x b (by simp) hb) (ih ht (fun x c hc => hg x c (by simp [hc])) _)
  induction l generalizing x with
  | nil => cases ha
  | cons b t ih =>
    obtain ⟨hb, ht⟩ := List.nodup_cons.1 hl
    have hg' : ∀ x, ∀ c ∈ t, c ≠ a → R x (f x c) := fun x c hc => hg x c (by simp [hc])
    by_cases e : b = a
    · subst e
      exact ⟨x, hrefl x, rest t hb hg' _⟩
    · obtain ⟨y, h1, h2⟩ := ih ht ((List.mem_cons.1 ha).resolve_left (Ne.symm e)) hg' (f x b)
      exact ⟨y, htrans (hg x b (by simp) e) h1, h2⟩

/-- What the other clusters' own parts of a step write; what the ports write that clusters share. -/
def otherTouch (cls : List Nat) (cl : Nat) : Touch → Prop := fun τ => ∃ d ∈ cls, d ≠ cl ∧ cluTouch d τ
def portsTouch (cls : List Nat) : Touch → Prop := fun τ => sharedTouch cls τ ∨ gauTouch τ ∨ trcTouch τ

section
variable {s0 : State} {hs : List Happening} {cl st : Nat}

theorem work_ports (x : State × List Report) : Work (portsTouch (runClusters s0)) (frameNow s0) x
    (tracePort s0 (stepOuts s0 hs st) (gaugePort s0 (stepOuts s0 hs st) (sluicePort s0 st (stepOuts s0 hs st) x))) := by
  refine ((work_sluicePort st _ x).mono fun _ h => .inl ?_).trans (((work_gaugePort _ _).mono fun _ h => .inr (.inl h)).trans
    ((work_tracePort _ _).mono fun _ h => .inr (.inr h)))
  obtain ⟨d, hd, hτ⟩ := h
  exact ⟨d, stepOuts_fst hd, hτ⟩

/-- The fabric's step reaches each running cluster's own part; what the other clusters' parts leave stands until then. -/
theorem fabricStep_keeping {γ : Type} (π : State → γ) (hrun : basinRuns s0 (cl / 64) = true)
    (hπ : ∀ d ∈ runClusters s0, d ≠ cl → ∀ x, π (clusterApply s0 hs d st (clusterOuts s0 hs d st) x).1 = π x.1) :
    ∃ x : State × List Report, (Work (otherTouch (runClusters s0) cl) (frameNow s0) (s0, []) x ∧ π x.1 = π s0) ∧
      Work (fun τ => otherTouch (runClusters s0) cl τ ∨ portsTouch (runClusters s0) τ) (frameNow s0)
        (clusterApply s0 hs cl st (clusterOuts s0 hs cl st) x) (fabricStep s0 hs st s0) := by
  obtain ⟨x, h1, h2, -⟩ := foldl_around (R := fun x y => Work (otherTouch (runClusters s0) cl) (frameNow s0) x y ∧ π y.1 = π x.1)
    (fun x => ⟨.refl x, rfl⟩) (fun h k => ⟨h.1.trans k.1, k.2.trans h.2⟩)
    (f := fun x cl => clusterApply s0 hs cl st (clusterOuts s0 hs cl st) x) (nodup_runClusters s0) (mem_runClusters.2 hrun)
    (fun x d hd hne => ⟨(work_clusterApply hs st x).mono fun τ hτ => ⟨d, hd, hne, hτ⟩, hπ d hd hne x⟩) (s0, [])
  refine ⟨x, h1, ?_⟩
  rw [fabricStep_eq]
  exact (h2.mono fun _ => .inl).trans ((work_ports _).mono fun _ => .inr)

theorem fabricStep_at (hrun : basinRuns s0 (cl / 64) = true) : ∃ x : State × List Report, Work (otherTouch (runClusters s0) cl) (frameNow s0) (s0, []) x ∧
    Work (fun τ => otherTouch (runClusters s0) cl τ ∨ portsTouch (runClusters s0) τ) (frameNow s0)
      (clusterApply s0 hs cl st (clusterOuts s0 hs cl st) x) (fabricStep s0 hs st s0) := by
  obtain ⟨x, ⟨h1, -⟩, h2⟩ := fabricStep_keeping (hs := hs) (st := st) (fun _ => ()) hrun fun _ _ _ _ => rfl
  exact ⟨x, h1, h2⟩

/-- A cluster is left by the others' parts and by the ports they share. -/
theorem Trail.others {s t : State} (h : Trail (fun τ => otherTouch (runClusters s0) cl τ ∨ portsTouch (runClusters s0) τ) s t)
    (hw : mwf Cluster.fresh s.fab = true) : getCl t cl = getCl s cl := by
  refine h.clu_apart hw (fun R hA => ?_) fun hA => ?_
  · rcases hA with ⟨d, -, hne, hA⟩ | ⟨_, _, hA⟩ | hA | hA
    · exact hne (Eq.symm hA)
    all_goals exact hA
  · rcases hA with ⟨d, -, -, hA⟩ | ⟨_, _, hA⟩ | hA | hA <;> exact hA

/-! ### The memory port -/

/-- What a cluster's part of a step writes up to its memory port. -/
def storeTouch (cl : Nat) : Touch → Prop
  | .clu d _ => d = cl
  | .flag off => off = cStat cl
  | .count off _ _ => off = cEcc cl
  | _ => False

/-- What a step writes once the memory port of cluster `cl` has acted. -/
def afterTouch (cls : List Nat) (cl : Nat) : Touch → Prop := fun τ =>
  noteTouch cl τ ∨ (otherTouch cls cl τ ∨ portsTouch cls τ) ∨ transitTouch cls τ

/-- An operation issued: the state `y` in which the memory port acts, and what the step makes of it. -/
structure MemAt (s0 : State) (hs : List Happening) (cl : Nat) (o : ProcOut) (y : State × List Report) : Prop where
  before : Trail (fun τ => otherTouch (runClusters s0) cl τ ∨ storeTouch cl τ) s0 y.1
  ops : (getCl y.1 cl).memOps = (getCl s0 cl).memOps
  cluster : noted (getCl (memIssue s0 cl o y.1).1 cl) (getCl (fabricStep s0 hs s0.seq.pos s0).1 cl)
  after : Work (afterTouch (runClusters s0) cl) (frameNow s0) (andThen (memIssue s0 cl o) y) (evalWork hs s0)

theorem noted.refl (c : Cluster) : noted c c := ⟨c.shd, rfl⟩

theorem noted.trans {a b c : Cluster} (h : noted a b) (k : noted b c) : noted a c := by
  obtain ⟨_, rfl⟩ := h
  obtain ⟨_, rfl⟩ := k
  exact ⟨_, rfl⟩

/-- What the exchange port and the shadow leave of a cluster. -/
theorem Trail.noted {s t : State} (h : Trail (noteTouch cl) s t) (hw : mwf Cluster.fresh s.fab = true) : noted (getCl s cl) (getCl t cl) := by
  refine h.cluster noted.refl noted.trans hw cl (fun R hA c c' hR => ?_) fun hA => absurd hA id
  obtain ⟨-, rfl⟩ := hA
  exact hR

/-- What a cluster writes up to its memory port. -/
theorem trail_clashAct (outs : List ProcOut) (x : State × List Report) (acc : PortAcc) :
    Trail (storeTouch cl) x.1 (clashAct s0 cl acc (storesAct s0 cl st outs x)).1 :=
  ((trail_setCl (A := storeTouch cl) (R := anyhow) _ _ trivial rfl).trans (trail_storesFlags st outs x rfl rfl)).trans
    (work_clashAct (A := storeTouch cl) acc _ rfl).trail

/-- Up to its memory port a cluster has its results and port registers written. -/
theorem clashAct_cluster (outs : List ProcOut) (x : State × List Report) (hw : mwf Cluster.fresh x.1.fab = true) (acc : PortAcc) :
    getCl (clashAct s0 cl acc (storesAct s0 cl st outs x)).1 cl = (portAcc s0 cl st outs (getCl x.1 cl)).c := by
  have flags := trail_storesFlags (s0 := s0) (cl := cl) st outs x (A := fun τ => τ = .flag (cStat cl) ∨ τ = .count (cEcc cl) 15 0) (.inl rfl) (.inr rfl)
  have h : Trail (fun τ => τ = .flag (cStat cl) ∨ τ = .count (cEcc cl) 15 0) (setCl cl (portAcc s0 cl st outs (getCl x.1 cl)).c x.1)
      (clashAct s0 cl acc (storesAct s0 cl st outs x)).1 := flags.trans (work_clashAct acc _ (.inl rfl)).trail
  have hw1 : mwf Cluster.fresh (setCl cl (portAcc s0 cl st outs (getCl x.1 cl)).c x.1).fab = true := mwf_mset hw _ _
  exact (h.clu_apart hw1 (fun R h => by rcases h with h | h <;> cases h) (fun h => by rcases h with h | h <;> cases h)).trans (mget_mset_same ..)

theorem portAcc_memOps (outs : List ProcOut) (c : Cluster) : (portAcc s0 cl st outs c).c.memOps = c.memOps := by
  obtain ⟨_, _, _, _, hwr⟩ := written_ports (st := st) outs c
  obtain ⟨_, _, _, _, _, _, hports⟩ := portAcc_portsOnly (s0 := s0) (cl := cl) (st := st) outs c
  rw [hports, hwr]

variable {p : Nat}

/-- The memory operation of processor `p`, where no other of its cluster has one, reaches the memory port. -/
theorem memAt_of (hw : mwf Cluster.fresh s0.fab = true) (hrun : basinRuns s0 (cl / 64) = true) (hp : p < 64) {k : Nat}
    (hop : (procStep s0 cl s0.seq.pos p (procFaultOf hs cl p)).op = .rd k ∨ (procStep s0 cl s0.seq.pos p (procFaultOf hs cl p)).op = .wr k)
    (alone : ∀ i < 64, i ≠ p → ∀ k, (procStep s0 cl s0.seq.pos i (procFaultOf hs cl i)).op ≠ .rd k ∧ (procStep s0 cl s0.seq.pos i (procFaultOf hs cl i)).op ≠ .wr k) :
    ∃ y, MemAt s0 hs cl (procStep s0 cl s0.seq.pos p (procFaultOf hs cl p)) y := by
  obtain ⟨x, h1, h2⟩ := fabricStep_at (hs := hs) (st := s0.seq.pos) hrun
  have hw1 := h1.trail.canonical hw
  have hx : getCl x.1 cl = getCl s0 cl := (h1.trail.mono (B := fun τ => otherTouch (runClusters s0) cl τ ∨ portsTouch (runClusters s0) τ) fun _ => .inl).others hw
  have hacc : (portAcc s0 cl s0.seq.pos (clusterOuts s0 hs cl s0.seq.pos) (getCl x.1 cl)).mem = some (procStep s0 cl s0.seq.pos p (procFaultOf hs cl p)) :=
    portAcc_alone (fun a => (a.rdwr, a.mem)) (P := fun x y => x.1 = false → y.2 = some (procStep s0 cl s0.seq.pos p (procFaultOf hs cl p))) hp
      (fun a i hi hne => portReg_spares.mem (alone i hi hne)) (fun a ha => portReg_mem hop ha) rfl
  have hops := portAcc_memOps (s0 := s0) (cl := cl) (st := s0.seq.pos) (clusterOuts s0 hs cl s0.seq.pos) (getCl x.1 cl)
  have hb := trail_clashAct (s0 := s0) (cl := cl) (st := s0.seq.pos) (clusterOuts s0 hs cl s0.seq.pos) x
    (portAcc s0 cl s0.seq.pos (clusterOuts s0 hs cl s0.seq.pos) (getCl x.1 cl))
  have hc := clashAct_cluster (s0 := s0) (cl := cl) (st := s0.seq.pos) (clusterOuts s0 hs cl s0.seq.pos) x hw1
    (portAcc s0 cl s0.seq.pos (clusterOuts s0 hs cl s0.seq.pos) (getCl x.1 cl))
  rw [clusterApply_eq] at h2
  generalize portAcc s0 cl s0.seq.pos (clusterOuts s0 hs cl s0.seq.pos) (getCl x.1 cl) = acc at hacc hops hb hc h2
  generalize clashAct s0 cl acc (storesAct s0 cl s0.seq.pos (clusterOuts s0 hs cl s0.seq.pos) x) = y at hb hc h2
  have hmem : memAct s0 cl acc y = andThen (memIssue s0 cl (procStep s0 cl s0.seq.pos p (procFaultOf hs cl p))) y := by
    unfold memAct
    rw [hacc]
  rw [hmem] at h2
  have hwy := hb.canonical hw1
  have hwm := (work_memIssue (s0 := s0) (cl := cl) (procStep s0 cl s0.seq.pos p (procFaultOf hs cl p)) y.1).trail.canonical hwy
  have tail := (work_sendAct (s0 := s0) (cl := cl) acc (andThen (memIssue s0 cl (procStep s0 cl s0.seq.pos p (procFaultOf hs cl p))) y)).trans
    (work_shadowAct _ hs s0.seq.pos (clusterOuts s0 hs cl s0.seq.pos))
  have hws := tail.trail.canonical hwm
  exact ⟨y, ⟨(h1.trail.mono fun _ => .inl).trans (hb.mono fun _ => .inr), by rw [hc, hops, hx], h2.trail.others hws ▸ tail.trail.noted hwm,
    (tail.mono fun _ => .inl).trans ((h2.mono fun _ h => .inr (.inl h)).trans ((work_transit hs s0).mono fun _ h => .inr (.inr h)))⟩⟩

end

end Sys2Proof.Machine

namespace Sys2Proof.Machine

/-! ## What the memory port issues (R47-R49) -/

/-- An operation put on a cluster's memory port. -/
def pushOp (cl : Nat) (m : MemOp) (s : State) : State := setCl cl { getCl s cl with memOps := (getCl s cl).memOps ++ [m] } s

/-- The operation as it is issued. -/
def newOp (s0 : State) (cl : Nat) (kind : MemKind) (k w a : Nat) : MemOp := ⟨kind, s0.seq.spos, k, w, a, (getCl s0 cl).mwd, false⟩

def unownedRep (s0 : State) (cl : Nat) (o : ProcOut) : Report :=
  { code := 0x3002, lk := 2, locv := locClu s0.seq.pos o.lp cl, frame := frameNow s0 }

/-- A group of banks that the port owns in part is marked and reported (R48). -/
def lostLanes (s0 : State) (cl : Nat) (o : ProcOut) (k : Nat) (x : State × List Report) : State × List Report :=
  if (List.range (ownGw s0 k)).all (laneOwned s0 cl k) then x else (rflag (cStat cl) 7 x.1, x.2 ++ [unownedRep s0 cl o])

section
variable {s0 : State} {cl k w : Nat} {o : ProcOut} (s : State) (hen : argAt o.vs 0 ≠ .zero)
include hen

/-- The memory port, branch by branch. -/
theorem memIssue_unowned_rd (hop : o.op = .rd k) (hown : portOwns s0 cl k = false) : memIssue s0 cl o s =
    (pushOp cl (newOp s0 cl .readX k 8 0) (rflag (cStat cl) 7 s), [unownedRep s0 cl o]) := by
  unfold memIssue
  rw [if_neg hen]
  simp only [hop, hown, Bool.not_false, if_true]
  rfl

theorem memIssue_unowned_wr (hop : o.op = .wr k) (hown : portOwns s0 cl k = false) : memIssue s0 cl o s =
    (rflag (cStat cl) 7 s, [unownedRep s0 cl o]) := by
  unfold memIssue
  rw [if_neg hen]
  simp only [hop, hown, Bool.not_false, if_true]
  rfl

theorem memIssue_unknown_rd (hop : o.op = .rd k) (hown : portOwns s0 cl k = true) (haddr : v4nat? (plist (getCl s0 cl).ma 15) = none) :
    memIssue s0 cl o s = (pushOp cl (newOp s0 cl .readX k (ownGw s0 k) 0) (rcount (cXev cl) 31 16 1 s), []) := by
  unfold memIssue
  rw [if_neg hen]
  simp only [hop, hown, Bool.not_true, Bool.false_eq_true, if_false, haddr]
  rfl

theorem memIssue_unknown_wr (hop : o.op = .wr k) (hown : portOwns s0 cl k = true) (haddr : v4nat? (plist (getCl s0 cl).ma 15) = none) :
    (memIssue s0 cl o s).1 = rcount (cXev cl) 31 16 1 s := by
  unfold memIssue
  rw [if_neg hen]
  simp only [hop, hown, Bool.not_true, Bool.false_eq_true, if_false, haddr]

theorem memIssue_rd (hop : o.op = .rd k) (hown : portOwns s0 cl k = true) (haddr : v4nat? (plist (getCl s0 cl).ma 15) = some w) :
    memIssue s0 cl o s = lostLanes s0 cl o k (pushOp cl (newOp s0 cl (if argAt o.vs 0 = .one then .read else .readMerge) k (ownGw s0 k) w) s, []) := by
  unfold memIssue
  rw [if_neg hen]
  simp only [hop, hown, Bool.not_true, Bool.false_eq_true, if_false, haddr]
  rfl

theorem memIssue_wr (hop : o.op = .wr k) (hown : portOwns s0 cl k = true) (haddr : v4nat? (plist (getCl s0 cl).ma 15) = some w) :
    memIssue s0 cl o s = lostLanes s0 cl o k (pushOp cl (newOp s0 cl (if argAt o.vs 0 = .one then .write else .writePoison) k (ownGw s0 k) w)
      (if argAt o.vs 0 ≠ .one || (plist (getCl s0 cl).mwd (64 * ownGw s0 k)).any (!v4known ·) then rcount (cXev cl) 15 0 1 s else s), []) := by
  unfold memIssue
  rw [if_neg hen]
  simp only [hop, hown, Bool.not_true, Bool.false_eq_true, if_false, haddr]
  rfl
end

section
variable {s0 : State} {cl k w : Nat} {o : ProcOut} (s : State)

theorem memIssue_zero (h : argAt o.vs 0 = .zero) : memIssue s0 cl o s = (s, []) := if_pos h

theorem pushOp_memOps (m : MemOp) : (getCl (pushOp cl m s) cl).memOps = (getCl s cl).memOps ++ [m] := by
  unfold pushOp
  rw [getCl_setCl, if_pos rfl]

theorem lostLanes_cluster (x : State × List Report) : getCl (lostLanes s0 cl o k x).1 cl = getCl x.1 cl := by
  unfold lostLanes
  split_ifs <;> rfl

/-- An access that a bank's owner makes with enable 1 at a known address is issued. -/
theorem memIssue_issues {kind : MemKind} (hop : o.op = .rd k ∧ kind = .read ∨ o.op = .wr k ∧ kind = .write) (hen : argAt o.vs 0 = .one)
    (hown : portOwns s0 cl k = true) (haddr : v4nat? (plist (getCl s0 cl).ma 15) = some w) :
    (getCl (memIssue s0 cl o s).1 cl).memOps = (getCl s cl).memOps ++ [newOp s0 cl kind k (ownGw s0 k) w] := by
  have hne : argAt o.vs 0 ≠ .zero := by rw [hen]; decide
  have counted (c : Prop) [Decidable c] : getCl (if c then rcount (cXev cl) 15 0 1 s else s) cl = getCl s cl := by split_ifs <;> rfl
  rcases hop with ⟨hop, rfl⟩ | ⟨hop, rfl⟩
  · rw [memIssue_rd s hne hop hown haddr, lostLanes_cluster, pushOp_memOps, if_pos hen]
  · rw [memIssue_wr s hne hop hown haddr, lostLanes_cluster, pushOp_memOps, counted, if_pos hen]

/-- An access of a bank that the port does not own is marked and reported. -/
theorem memIssue_unowned (hop : o.op = .rd k ∨ o.op = .wr k) (hen : argAt o.vs 0 ≠ .zero) (hown : portOwns s0 cl k = false) :
    rbit (memIssue s0 cl o s).1 (cStat cl) 7 = true ∧ reported 0x3002 (memIssue s0 cl o s) := by
  have told : ∃ r ∈ [unownedRep s0 cl o], r.code = 0x3002 ∧ r.inj = false := ⟨_, List.mem_singleton.2 rfl, rfl, rfl⟩
  rcases hop with hop | hop
  · rw [memIssue_unowned_rd s hen hop hown]
    exact ⟨rbit_rflag_same _ (by decide) s, told⟩
  · rw [memIssue_unowned_wr s hen hop hown]
    exact ⟨rbit_rflag_same _ (by decide) s, told⟩

/-- An access of an owned bank at an unknown address is counted. -/
theorem memIssue_unknown (hop : o.op = .rd k ∨ o.op = .wr k) (hen : argAt o.vs 0 ≠ .zero) (hown : portOwns s0 cl k = true)
    (haddr : v4nat? (plist (getCl s0 cl).ma 15) = none) :
    rfld (memIssue s0 cl o s).1 (cXev cl) 31 16 = min (rfld s (cXev cl) 31 16 + 1) 0xFFFF := by
  rcases hop with hop | hop
  · rw [memIssue_unknown_rd s hen hop hown haddr]
    exact rfld_rcount_same _ _ (by decide) s
  · rw [memIssue_unknown_wr s hen hop hown haddr]
    exact rfld_rcount_same _ _ (by decide) s

end

section
variable {s0 : State} {hs : List Happening} {cl p : Nat} {q : Nat → Bool}

/-- A running cluster's operations at the end of an evaluation step's work. -/
theorem evalWork_arrive (hw : mwf Cluster.fresh s0.fab = true) (hrun : basinRuns s0 (cl / 64) = true) (hq : q (s0.seq.spos - 1) = false ∨ s0.seq.spos = 0) :
    ∃ c, sameOps q (getCl (fabricStep s0 hs s0.seq.pos s0).1 cl) c ∧
      getCl (evalWork hs s0).1 cl = mrdArrive (frameStart s0) s0.seq.spos (dmLatency s0) c := by
  have hw1 := (work_fabricStep (s0 := s0) hs s0.seq.pos s0).trail.canonical hw
  have reach : sameOps q (getCl (fabricStep s0 hs s0.seq.pos s0).1 cl) (getCl (reachStep s0 (fabricStep s0 hs s0.seq.pos s0).1).1 cl) := by
    refine (work_reachStep (s0 := s0) _).trail.cluster (.refl q) .trans hw1 cl (fun R hA c c' hR => ?_) fun hA => ?_
    · rcases hA with ⟨d, -, -, rfl⟩ | hA
      · obtain ⟨_, _, rfl, -⟩ := hR
        exact .refl q c
      · exact absurd hA id
    · rcases hA with ⟨d, -, hA⟩ | hA <;> exact absurd hA id
  obtain ⟨c, h1, h2⟩ := memPorts_cluster (q := q) hrun hq (reachStep s0 (fabricStep s0 hs s0.seq.pos s0).1).1
  exact ⟨c, reach.trans h1, h2⟩

/-- The operations issued in the step itself. -/
theorem evalWork_issued (hw : mwf Cluster.fresh s0.fab = true) (hrun : basinRuns s0 (cl / 64) = true) :
    issuedAt (· = s0.seq.spos) (getCl (evalWork hs s0).1 cl) = issuedAt (· = s0.seq.spos) (getCl (fabricStep s0 hs s0.seq.pos s0).1 cl) := by
  obtain ⟨c, ⟨h1, -⟩, h2⟩ := evalWork_arrive (q := (· = s0.seq.spos)) (hs := hs) hw hrun (by
    rcases Nat.eq_zero_or_pos s0.seq.spos with e | e
    · exact .inr e
    · exact .inl (decide_eq_false (by omega)))
  rw [← h1, h2]
  unfold issuedAt
  rw [mrdArrive_ops, List.filter_filter]
  refine List.filter_congr fun m _ => ?_
  have hd := dmLatency_ge s0
  by_cases e : m.issued = s0.seq.spos
  · rw [e, decide_eq_true (show s0.seq.spos + 1 < s0.seq.spos + dmLatency s0 by omega)]
    simp
  · simp [e]

variable {o : ProcOut} {y : State × List Report} (hm : MemAt s0 hs cl o y)
include hm

theorem MemAt.memOps : (getCl (fabricStep s0 hs s0.seq.pos s0).1 cl).memOps = (getCl (memIssue s0 cl o y.1).1 cl).memOps := by
  obtain ⟨_, h⟩ := hm.cluster
  rw [h]

end

end Sys2Proof.Machine

namespace Sys2Proof.Machine

/-! ## The memory port at the end of an evaluation step (R47-R49) -/

/-- Writes that leave the register at `off`. -/
def spares (off : Nat) : Touch → Prop
  | .reg o | .first o | .flag o | .count o _ _ => o ≠ off
  | _ => True

theorem Trail.spared {A : Touch → Prop} {s t : State} {off : Nat} (h : Trail A s t) (ho : apart off) (hA : ∀ τ, A τ → spares off τ) :
    rget t off = rget s off :=
  Trail.reg_stands (h.mono hA) (.inl ho) (fun h => h rfl) (fun h => h rfl) (fun h => h rfl) fun _ _ h => h rfl

section
variable {cls : List Nat} {cl d : Nat} {τ : Touch}

theorem cXev_ne : cXev cl ≠ cShd d ∧ cXev cl ≠ cRepair d ∧ cXev cl ≠ cStat d ∧ cXev cl ≠ cEcc d := by
  unfold cXev oCluXev cShd oCluShd cRepair oCluRepair cStat oCluStat cEcc oCluEcc
  omega

theorem cXev_inj (h : cXev cl = cXev d) : cl = d := by
  unfold cXev oCluXev at h
  omega

theorem cXev_apart : apart (cXev cl) := by
  unfold apart cXev oCluXev
  omega

theorem cXev_high : cXev cl % 65536 ≥ 1024 ∧ 0x100000 ≤ cXev cl := by
  unfold cXev oCluXev
  omega

/-- Another cluster's part of a step leaves a cluster's X events. -/
theorem cXev_other (h : cluTouch d τ) (hne : d ≠ cl) : spares (cXev cl) τ := by
  obtain ⟨h1, h2, h3, h4⟩ := cXev_ne (cl := cl) (d := d)
  cases τ with
  | reg o => rcases h with rfl | rfl; exacts [h1.symm, h2.symm]
  | flag o => obtain rfl : o = _ := h; exact h3.symm
  | count o => rcases h with rfl | rfl; exacts [h4.symm, fun e => hne (cXev_inj e.symm).symm]
  | first o => exact h.elim
  | _ => trivial

theorem cXev_note (h : noteTouch cl τ) : spares (cXev cl) τ := by
  obtain ⟨h1, h2, h3, -⟩ := cXev_ne (cl := cl) (d := cl)
  cases τ with
  | reg o => rcases h with rfl | rfl; exacts [h1.symm, h2.symm]
  | flag o => obtain rfl : o = _ := h; exact h3.symm
  | count o | first o => exact h.elim
  | _ => trivial

theorem cXev_store (h : storeTouch cl τ) : spares (cXev cl) τ := by
  obtain ⟨-, -, h3, h4⟩ := cXev_ne (cl := cl) (d := cl)
  cases τ with
  | flag o => obtain rfl : o = _ := h; exact h3.symm
  | count o => obtain rfl : o = _ := h; exact h4.symm
  | reg o | first o => exact h.elim
  | _ => trivial

theorem cXev_ports {s0 : State} (h : portsTouch (runClusters s0) τ) : spares (cXev cl) τ := by
  have stat (d : Nat) : cStat d ≠ cXev cl := cXev_ne.2.2.1.symm
  have high := (cXev_high (cl := cl)).2
  rcases h with ⟨d, hd, h⟩ | h | h
  · have hq := sluiceOf_lt (basin_lt hd)
    cases τ with
    | flag o =>
      rcases h with rfl | rfl
      · show oHldSts ≠ _
        unfold oHldSts; omega
      · exact stat d
    | count o =>
      obtain ⟨rfl, -, -⟩ := h
      show oHldSluCnt _ ≠ _
      unfold oHldSluCnt; omega
    | reg o | first o => exact h.elim
    | _ => trivial
  · cases τ with
    | flag o => obtain ⟨d, rfl⟩ := h; exact stat d
    | reg o | first o | count o => exact h.elim
    | _ => trivial
  · cases τ with
    | flag o => obtain ⟨d, rfl⟩ := h; exact stat d
    | reg o | first o | count o => exact h.elim
    | _ => trivial

theorem cXev_transit (h : transitTouch cls τ) : spares (cXev cl) τ := by
  have stat (d : Nat) : cStat d ≠ cXev cl := cXev_ne.2.2.1.symm
  have low : cXev cl % 65536 ≥ 1024 := cXev_high.1
  have basin {o : Nat} (h : o % 65536 < 1024) : o ≠ cXev cl := fun e => by rw [e] at h; omega
  rcases h with (⟨d, -, h⟩ | h) | h
  · cases τ with
    | reg o => obtain rfl : o = _ := h; exact basin (by unfold oBasContRecF; omega)
    | first o => obtain rfl : o = _ := h; exact basin (by unfold oBasContRec; omega)
    | flag o =>
      rcases h with rfl | rfl
      · exact basin (by unfold oBasReachSts; omega)
      · exact stat d
    | count o =>
      rcases h with ⟨rfl | rfl, -⟩ | ⟨rfl, -⟩ | rfl
      · exact basin (by unfold oBasContHard; omega)
      · exact basin (by unfold oBasContBen; omega)
      · exact basin (by unfold oBasImpOvf; omega)
      · exact basin (by unfold oBasRwEcc; omega)
    | _ => trivial
  · cases τ with
    | reg o | first o | flag o | count o => exact h.elim
    | _ => trivial
  · cases τ with
    | reg o => obtain rfl : o = _ := h; exact basin (by decide)
    | flag o => obtain rfl : o = _ := h; exact basin (by decide)
    | count o => obtain rfl : o = _ := h; exact basin (by decide)
    | first o => exact h.elim
    | _ => trivial

end

section
variable {s0 : State} {hs : List Happening} {cl : Nat} {o : ProcOut} {y : State × List Report}

theorem afterTouch_eval (hcl : cl ∈ runClusters s0) {τ : Touch} (h : afterTouch (runClusters s0) cl τ) : evalTouch (runClusters s0) τ := by
  rcases h with h | (⟨d, hd, -, h⟩ | h | h | h) | h
  · exact .inl (.inl ⟨cl, hcl, cluTouch_of_tail (.inr h)⟩)
  · exact .inl (.inl ⟨d, hd, h⟩)
  · exact .inl (.inr (.inl h))
  · exact .inl (.inr (.inr (.inl h)))
  · exact .inl (.inr (.inr (.inr h)))
  · exact .inr h

/-- The X events of a cluster are those that its memory port has counted. -/
theorem MemAt.xev (hm : MemAt s0 hs cl o y) : rget y.1 (cXev cl) = rget s0 (cXev cl) ∧
    rget (evalWork hs s0).1 (cXev cl) = rget (memIssue s0 cl o y.1).1 (cXev cl) := by
  refine ⟨hm.before.spared cXev_apart fun τ h => ?_, hm.after.trail.spared cXev_apart fun τ h => ?_⟩
  · rcases h with ⟨d, -, hne, h⟩ | h
    · exact cXev_other h hne
    · exact cXev_store h
  · rcases h with h | (⟨d, -, hne, h⟩ | h) | h
    · exact cXev_note h
    · exact cXev_other h hne
    · exact cXev_ports h
    · exact cXev_transit h

end

section
variable {hs : List Happening} {s : State} {cl p k : Nat} (hw : mwf Cluster.fresh s.fab = true) (hrun : basinRuns s (cl / 64) = true) (hp : p < 64)
  (hop : (stepOut hs s cl p).op = .rd k ∨ (stepOut hs s cl p).op = .wr k)
  (alone : ∀ i < 64, i ≠ p → ∀ k, (stepOut hs s cl i).op ≠ .rd k ∧ (stepOut hs s cl i).op ≠ .wr k)

theorem evalBody_fab : (evalBody hs s).seq.st = .safe ∨ (evalBody hs s).fab = (evalWork hs (strikes hs s)).1.fab :=
  (evalBody_over hs s).cases.imp id fun h => h.fab

@[simp] theorem strikes_ownGw : ownGw (strikes hs s) k = ownGw s k := by unfold ownGw rfld; rw [rget_strikes]
@[simp] theorem strikes_portOwns : portOwns (strikes hs s) cl k = portOwns s cl k := by
  unfold portOwns nBanks nBasins ownMode ownLane rfld
  simp only [rget_strikes, strikes_dev]

theorem strikes_memOps : (getCl (strikes hs s) cl).memOps = (getCl s cl).memOps := congrArg (·.memOps) (strikes_cluster hs s cl)

include hw hrun hp hop alone

theorem evalBody_memAt : ∃ y, MemAt (strikes hs s) hs cl (stepOut hs s cl p) y := by
  have h := memAt_of (s0 := strikes hs s) (hs := hs) (p := p) (k := k) (strikes_canonical hs s hw) (by simpa using hrun) hp
  rw [strikes_seq] at h
  exact h hop alone

/-- An access with enable 1, of an owned bank at a known address, is under way at the step's end. -/
theorem evalBody_issues {kind : MemKind} {w : Nat}
    (hkind : (stepOut hs s cl p).op = .rd k ∧ kind = .read ∨ (stepOut hs s cl p).op = .wr k ∧ kind = .write)
    (hen : argAt (stepOut hs s cl p).vs 0 = .one) (hown : portOwns s cl k = true) (haddr : v4nat? (plist (getCl s cl).ma 15) = some w) :
    (evalBody hs s).seq.st = .safe ∨ (⟨kind, s.seq.spos, k, ownGw s k, w, (getCl s cl).mwd, false⟩ : MemOp) ∈ (getCl (evalBody hs s) cl).memOps := by
  obtain ⟨y, hm⟩ := evalBody_memAt hw hrun hp hop alone
  have hports := strikes_ports (hs := hs) (s := s) (cl := cl)
  have hiss := memIssue_issues (s0 := strikes hs s) y.1 hkind hen (by rw [strikes_portOwns, hown]) (by rw [hports.ma, haddr])
  have hnew : newOp (strikes hs s) cl kind k (ownGw (strikes hs s) k) w = ⟨kind, s.seq.spos, k, ownGw s k, w, (getCl s cl).mwd, false⟩ := by
    unfold newOp
    rw [strikes_seq, strikes_ownGw, hports.mwd]
  rw [hnew] at hiss
  refine evalBody_fab.imp id fun hfab => ?_
  have hin : (⟨kind, s.seq.spos, k, ownGw s k, w, (getCl s cl).mwd, false⟩ : MemOp) ∈
      issuedAt (· = (strikes hs s).seq.spos) (getCl (fabricStep (strikes hs s) hs (strikes hs s).seq.pos (strikes hs s)).1 cl) := by
    unfold issuedAt
    rw [hm.memOps, hiss, strikes_seq]
    simp
  rw [← evalWork_issued (strikes_canonical hs s hw) (by simpa using hrun)] at hin
  unfold getCl at hin ⊢
  rw [hfab]
  exact (List.mem_filter.1 hin).1

/-- With enable 0 nothing is issued. -/
theorem evalBody_issuesNone (hen : argAt (stepOut hs s cl p).vs 0 = .zero) (hnone : ∀ m ∈ (getCl s cl).memOps, m.issued ≠ s.seq.spos) :
    ∀ m ∈ (getCl (evalBody hs s) cl).memOps, m.issued ≠ s.seq.spos := by
  obtain ⟨y, hm⟩ := evalBody_memAt hw hrun hp hop alone
  have hw0 := strikes_canonical hs s hw
  have hops := hm.memOps
  rw [memIssue_zero y.1 hen, hm.ops, strikes_memOps] at hops
  intro m hmem hi
  have hin := (((evalBody_over hs s).still.fab ((work_eval hs _).trail.canonical hw0)).2 cl).2.1 m hmem
  have hiss : m ∈ issuedAt (· = (strikes hs s).seq.spos) (getCl (evalWork hs (strikes hs s)).1 cl) :=
    List.mem_filter.2 ⟨hin, by rw [strikes_seq]; exact decide_eq_true hi⟩
  rw [evalWork_issued hw0 (by simpa using hrun)] at hiss
  unfold issuedAt at hiss
  rw [hops] at hiss
  exact hnone m (List.mem_filter.1 hiss).1 hi

/-- An access of a bank that the port does not own sets MEM_OWN. -/
theorem evalBody_unowned (hen : argAt (stepOut hs s cl p).vs 0 ≠ .zero) (hown : portOwns s cl k = false) :
    rbit (evalBody hs s) (cStat cl) 7 = true ∧ rbit (evalBody hs s) oSafSts 3 = true := by
  obtain ⟨y, hm⟩ := evalBody_memAt hw hrun hp hop alone
  obtain ⟨hflag, hrep⟩ := memIssue_unowned (s0 := strikes hs s) y.1 hop hen (by rw [strikes_portOwns, hown])
  have hcl : cl ∈ runClusters (strikes hs s) := mem_runClusters.2 (by simpa using hrun)
  have after := hm.after.mono (B := evalTouch (runClusters (strikes hs s))) fun τ => afterTouch_eval hcl
  have hover := evalBody_over hs s
  refine ⟨?_, hover.classFlag (code := 0x3002) (after.reported (reported_andThen hrep)) (by decide) (by decide)⟩
  rw [evalEnd_rbit hover (by unfold cStat oCluStat; omega)]
  exact cStat_stays after.trail hflag

/-- An access of an owned bank at an unknown address is an X event. -/
theorem evalBody_unknownAddr (hen : argAt (stepOut hs s cl p).vs 0 ≠ .zero) (hown : portOwns s cl k = true)
    (haddr : v4nat? (plist (getCl s cl).ma 15) = none) :
    rfld (evalBody hs s) (cXev cl) 31 16 = min (rfld s (cXev cl) 31 16 + 1) 0xFFFF := by
  obtain ⟨y, hm⟩ := evalBody_memAt hw hrun hp hop alone
  obtain ⟨hbefore, hafter⟩ := hm.xev
  have hcount := memIssue_unknown (s0 := strikes hs s) y.1 hop hen (by rw [strikes_portOwns, hown])
    (by rw [strikes_ports.ma, haddr])
  rw [evalEnd_rfld (evalBody_over hs s) cXev_high.2]
  unfold rfld at hcount ⊢
  rw [hafter, hcount, hbefore, rget_strikes]

end

end Sys2Proof.Machine

namespace Sys2Proof.Machine

/-! ## Read data that arrives (R47, R49) -/

section
variable {s0 : State} {hs : List Happening} {cl k p : Nat} {q : Nat → Bool}

theorem pushOp_sameOps {m : MemOp} (hq : q m.issued = false) (s : State) : sameOps q (getCl s cl) (getCl (pushOp cl m s) cl) := by
  have hops := pushOp_memOps (cl := cl) s m
  refine ⟨?_, by unfold pushOp; rw [getCl_setCl, if_pos rfl]⟩
  unfold issuedAt
  rw [hops, List.filter_append, List.filter_cons_of_neg (by simp [hq]), List.filter_nil, List.append_nil]

/-- What the memory port issues is of the step itself. -/
theorem memIssue_sameOps (hq : q s0.seq.spos = false) (o : ProcOut) (s : State) : sameOps q (getCl s cl) (getCl (memIssue s0 cl o s).1 cl) := by
  have same {t : State} (h : t.fab = s.fab) : getCl t cl = getCl s cl := by unfold getCl; rw [h]
  have push (kind : MemKind) (k w a : Nat) {t : State} (h : t.fab = s.fab) : sameOps q (getCl s cl) (getCl (pushOp cl (newOp s0 cl kind k w a) t) cl) :=
    same h ▸ pushOp_sameOps hq t
  by_cases hen : argAt o.vs 0 = .zero
  · rw [memIssue_zero s hen]
    exact .refl q _
  · cases hop : o.op with
    | rd k =>
      cases hown : portOwns s0 cl k with
      | false =>
        rw [memIssue_unowned_rd s hen hop hown]
        exact push _ _ _ _ rfl
      | true =>
        cases haddr : v4nat? (plist (getCl s0 cl).ma 15) with
        | none =>
          rw [memIssue_unknown_rd s hen hop hown haddr]
          exact push _ _ _ _ rfl
        | some w =>
          rw [memIssue_rd s hen hop hown haddr, lostLanes_cluster]
          exact push _ _ _ _ rfl
    | wr k =>
      cases hown : portOwns s0 cl k with
      | false =>
        rw [memIssue_unowned_wr s hen hop hown]
        exact .refl q _
      | true =>
        cases haddr : v4nat? (plist (getCl s0 cl).ma 15) with
        | none =>
          rw [memIssue_unknown_wr s hen hop hown haddr]
          exact .refl q _
        | some w =>
          rw [memIssue_wr s hen hop hown haddr, lostLanes_cluster]
          exact push _ _ _ _ (ite_fix State.fab rfl rfl)
    | _ =>
      have hid : memIssue s0 cl o s = (s, []) := by
        unfold memIssue
        rw [if_neg hen]
        simp only [hop]
      rw [hid]
      exact .refl q _

theorem memAct_sameOps (hq : q s0.seq.spos = false) (acc : PortAcc) (y : State × List Report) : sameOps q (getCl y.1 cl) (getCl (memAct s0 cl acc y).1 cl) := by
  unfold memAct
  split
  · exact memIssue_sameOps hq _ _
  · exact .refl q _

theorem noted.sameOps {c c' : Cluster} (h : noted c c') : sameOps q c c' := by
  obtain ⟨_, rfl⟩ := h
  exact .refl q c

/-- The fabric's part of a step issues operations of that step alone. -/
theorem fabricStep_sameOps (hw : mwf Cluster.fresh s0.fab = true) (hrun : basinRuns s0 (cl / 64) = true) (hq : q s0.seq.spos = false) :
    sameOps q (getCl s0 cl) (getCl (fabricStep s0 hs s0.seq.pos s0).1 cl) := by
  obtain ⟨x, h1, h2⟩ := fabricStep_at (hs := hs) (st := s0.seq.pos) hrun
  have hw1 := h1.trail.canonical hw
  have hx : getCl x.1 cl = getCl s0 cl := (h1.trail.mono (B := fun τ => otherTouch (runClusters s0) cl τ ∨ portsTouch (runClusters s0) τ) fun _ => .inl).others hw
  have hw2 := (work_clusterApply (s0 := s0) (cl := cl) hs s0.seq.pos x).trail.canonical hw1
  rw [h2.trail.others hw2, clusterApply_eq]
  have hb := trail_clashAct (s0 := s0) (cl := cl) (st := s0.seq.pos) (clusterOuts s0 hs cl s0.seq.pos) x
    (portAcc s0 cl s0.seq.pos (clusterOuts s0 hs cl s0.seq.pos) (getCl x.1 cl))
  have hc := clashAct_cluster (s0 := s0) (cl := cl) (st := s0.seq.pos) (clusterOuts s0 hs cl s0.seq.pos) x hw1
    (portAcc s0 cl s0.seq.pos (clusterOuts s0 hs cl s0.seq.pos) (getCl x.1 cl))
  have hacc : sameOps q (getCl s0 cl) (portAcc s0 cl s0.seq.pos (clusterOuts s0 hs cl s0.seq.pos) (getCl x.1 cl)).c := by
    obtain ⟨_, _, _, _, hwr⟩ := written_ports (st := s0.seq.pos) (clusterOuts s0 hs cl s0.seq.pos) (getCl x.1 cl)
    obtain ⟨_, _, _, _, _, _, hports⟩ := portAcc_portsOnly (s0 := s0) (cl := cl) (st := s0.seq.pos) (clusterOuts s0 hs cl s0.seq.pos) (getCl x.1 cl)
    rw [hports, hwr, hx]
    exact .refl q _
  generalize portAcc s0 cl s0.seq.pos (clusterOuts s0 hs cl s0.seq.pos) (getCl x.1 cl) = acc at hb hc hacc
  generalize clashAct s0 cl acc (storesAct s0 cl s0.seq.pos (clusterOuts s0 hs cl s0.seq.pos) x) = y at hb hc
  have hwm := (work_memAct (s0 := s0) (cl := cl) acc y).trail.canonical (hb.canonical hw1)
  have tail := (work_sendAct (s0 := s0) (cl := cl) acc (memAct s0 cl acc y)).trans (work_shadowAct _ hs s0.seq.pos (clusterOuts s0 hs cl s0.seq.pos))
  rw [← hc] at hacc
  exact (hacc.trans (memAct_sameOps hq acc y)).trans (tail.trail.noted hwm).sameOps

/-- The one read that is due in a step arrives in MRD. -/
theorem mrdArrive_one {fs spos d : Nat} {c : Cluster} {m : MemOp} (h : c.memOps.filter (fun y => y.issued + d = spos + 1) = [m]) (hm : m.kind = .read)
    {j : Nat} (hj : j < 512) : pget (mrdArrive fs spos d c).mrd j = if j < 64 * m.width then pget m.data j else pget c.mrd j := by
  have hdue : c.memOps.filter (fun m => m.issued + d = spos + 1 && m.kind ≠ .write && m.kind ≠ .writePoison) = [m] := by
    have e : (fun m : MemOp => decide (m.issued + d = spos + 1) && decide (m.kind ≠ .write) && decide (m.kind ≠ .writePoison)) =
        fun m => (decide (m.kind ≠ .write) && decide (m.kind ≠ .writePoison)) && decide (m.issued + d = spos + 1) := by
      funext m
      rw [Bool.and_comm (decide (m.kind ≠ .write) && decide (m.kind ≠ .writePoison)), Bool.and_assoc]
    rw [e, ← List.filter_filter, h]
    simp [hm]
  unfold mrdArrive
  dsimp only
  rw [hdue]
  simp only [List.foldl_cons, List.foldl_nil, hm]
  rw [pget_ppack _ (by omega)]
  simp [hj]

theorem mrd_settled {c c' : Cluster} (h : settledCl c = settledCl c') : c.mrd = c'.mrd := congrArg (·.mrd) h
theorem mrd_unstruck {c c' : Cluster} (h : unstruck c = unstruck c') : c.mrd = c'.mrd := congrArg (·.mrd) h

theorem evalBody_mrd {s : State} (hw : mwf Cluster.fresh s.fab = true) (hrun : basinRuns s (cl / 64) = true) {m : MemOp}
    (hdue : (getCl s cl).memOps.filter (fun y => y.issued + dmLatency s = s.seq.spos + 1) = [m]) (hm : m.kind = .read)
    {j : Nat} (hj : j < 512) :
    pget (getCl (evalBody hs s) cl).mrd j = if j < 64 * m.width then pget m.data j else pget (getCl s cl).mrd j := by
  have hw0 := strikes_canonical hs s hw
  have hrun0 : basinRuns (strikes hs s) (cl / 64) = true := by simpa using hrun
  have hlat : dmLatency (strikes hs s) = dmLatency s := by
    unfold dmLatency nativeD rfld
    rw [rget_strikes, strikes_dev]
  have hd := dmLatency_ge s
  have hfab := fabricStep_sameOps (q := fun n => n + dmLatency s = s.seq.spos + 1) (hs := hs) hw0 hrun0
    (by rw [strikes_seq]; exact decide_eq_false (by omega))
  obtain ⟨c, hc, harr⟩ := evalWork_arrive (q := fun n => n + dmLatency s = s.seq.spos + 1) (hs := hs) hw0 hrun0
    (.inl (by rw [strikes_seq]; exact decide_eq_false (by omega)))
  obtain ⟨hops, hmrd⟩ := hfab.trans hc
  have hold : issuedAt (fun n => n + dmLatency s = s.seq.spos + 1) (getCl (strikes hs s) cl) = [m] := by
    unfold issuedAt
    rw [strikes_memOps, hdue]
  rw [hold] at hops
  have hend : (getCl (evalBody hs s) cl).mrd = (getCl (evalWork hs (strikes hs s)).1 cl).mrd :=
    mrd_settled (((evalBody_over hs s).still.fab ((work_eval hs _).trail.canonical hw0)).2 cl).1
  rw [hend, harr, hlat, strikes_seq, mrdArrive_one hops hm hj, hmrd, mrd_unstruck (strikes_cluster hs s cl)]

end

end Sys2Proof.Machine

namespace Sys2Proof.Machine

/-! ## The exchange port (R57) -/

theorem quiet_xch (s : State) : (quiet s).rest.xch = xchKept s.xch := by unfold quiet; rfl

theorem Noise.frags {s t : State} (h : Noise s t) : t.xch.frags = s.xch.frags := by
  have e : xchKept t.xch = xchKept s.xch := by rw [← quiet_xch, h.view, quiet_xch]
  exact congrArg (·.frags) e

theorem PosOver.frags {rs : List Report} {y u : State} (h : PosOver rs y u) : u.seq.st = .safe ∨ u.xch.frags = y.xch.frags :=
  h.cases.imp id fun k => k.frags

/-- Writes that send nothing leave the wharf. -/
theorem Trail.xch {A : Touch → Prop} {s t : State} (h : Trail A s t) (hf : ∀ d, ¬ A (.frags d)) (hb : ¬ A .books) : t.xch = s.xch := by
  refine h.fix State.xch fun τ hA u v hw => ?_
  cases τ with
  | frags d => exact absurd hA (hf d)
  | books => exact absurd hA hb
  | clu d R => obtain ⟨_, -, rfl⟩ := hw; rfl
  | exports => rw [hw]; rfl
  | req q => obtain ⟨_, rfl, -⟩ := hw; rfl
  | first o => obtain ⟨_, rfl, -⟩ := hw; rfl
  | probes => obtain ⟨_, _, _, rfl⟩ := hw; rfl
  | reg | flag | count | slu | lane | gau | trc | bas | lnk | free | dmc => obtain ⟨_, rfl⟩ := hw; rfl

/-- A fragment of the wharf stays there. -/
theorem Trail.frag_stays {A : Touch → Prop} {s t : State} (h : Trail A s t) {f : Fragment} (hf : f ∈ s.xch.frags) : f ∈ t.xch.frags := by
  refine h.keep (P := fun u => f ∈ u.xch.frags) (fun τ hA u v hw hu => ?_) hf
  cases τ with
  | frags d => obtain ⟨l, rfl, -⟩ := hw; exact List.mem_append_left l hu
  | books => exact hw.frags ▸ hu
  | clu d R => obtain ⟨_, -, rfl⟩ := hw; exact hu
  | exports => rw [hw]; exact hu
  | req q => obtain ⟨_, rfl, -⟩ := hw; exact hu
  | first o => obtain ⟨_, rfl, -⟩ := hw; exact hu
  | probes => obtain ⟨_, _, _, rfl⟩ := hw; exact hu
  | reg | flag | count | slu | lane | gau | trc | bas | lnk | free | dmc => obtain ⟨_, rfl⟩ := hw; exact hu

/-- The fragments of another basin's clusters do not count in a basin. -/
theorem Trail.sentHere {A : Touch → Prop} {s t s0 : State} (h : Trail A s t) {b : Nat} (hf : ∀ d, A (.frags d) → d / 64 ≠ b) :
    sentHere s0 b t = sentHere s0 b s := by
  refine h.fix (Machine.sentHere s0 b) fun τ hA u v hw => ?_
  cases τ with
  | frags d =>
    obtain ⟨l, rfl, hl⟩ := hw
    have hnil : l.filter (fun g => !g.void && g.gsc = s0.seq.gsc.toNat && g.src / 64 = b) = [] :=
      List.filter_eq_nil_iff.2 fun g hg => by simp [hl g hg, hf d hA]
    unfold Machine.sentHere
    rw [List.filter_append, hnil, List.append_nil]
  | books =>
    unfold Machine.sentHere
    rw [hw.frags]
  | clu d R => obtain ⟨_, -, rfl⟩ := hw; rfl
  | exports => rw [hw]; rfl
  | req q => obtain ⟨_, rfl, -⟩ := hw; rfl
  | first o => obtain ⟨_, rfl, -⟩ := hw; rfl
  | probes => obtain ⟨_, _, _, rfl⟩ := hw; rfl
  | reg | flag | count | slu | lane | gau | trc | bas | lnk | free | dmc => obtain ⟨_, rfl⟩ := hw; rfl

section
variable {s0 : State} {hs : List Happening} {cl st p : Nat}

/-- Up to its exchange port a cluster sends nothing. -/
theorem memAct_xch (outs : List ProcOut) (x : State × List Report) (acc : PortAcc) :
    (memAct s0 cl acc (clashAct s0 cl acc (storesAct s0 cl st outs x))).1.xch = x.1.xch :=
  ((work_memAct acc _).trail.xch (fun _ => id) id).trans ((trail_clashAct outs x acc).xch (fun _ => id) id)

theorem shadowAct_xch (outs : List ProcOut) (y : State × List Report) : (shadowAct s0 hs cl st outs y).1.xch = y.1.xch := by
  have missed (u : State) : (shadowMiss s0 cl st u).1.xch = u.xch := by
    have once (v : State) (c : Prop) [Decidable c] (off : Nat) (w : Word) : (if c then v else rset off w v).xch = v.xch := ite_fix State.xch rfl rfl
    unfold shadowMiss
    extract_lets f lp phys s1 s2 s3 c recent s4 rep
    have h4 : s4.xch = u.xch := (once s2 _ _ _).trans (once s1 _ _ _)
    exact ite_fix (fun x : State × List Report => x.1.xch) h4 h4
  exact ite_fix (fun x : State × List Report => x.1.xch) (missed y.1) rfl

/-- A cluster without an XSEND sends nothing. -/
theorem clusterApply_unsent (hno : ∀ i < 64, ∀ n e, (procStep s0 cl st i (procFaultOf hs cl i)).op ≠ .xsend n e) (x : State × List Report) :
    (clusterApply s0 hs cl st (clusterOuts s0 hs cl st) x).1.xch = x.1.xch := by
  have hsend : (portAcc s0 cl st (clusterOuts s0 hs cl st) (getCl x.1 cl)).send = none :=
    congrArg Prod.snd (portAcc_none (fun a => (a.c.xsent, a.send)) fun a i hi => portReg_spares.send (hno i hi))
  rw [clusterApply_eq]
  generalize portAcc s0 cl st (clusterOuts s0 hs cl st) (getCl x.1 cl) = acc at hsend
  have hact (y : State × List Report) : sendAct s0 cl acc y = y := by
    unfold sendAct
    rw [hsend]
  rw [shadowAct_xch, hact, memAct_xch]

/-- The exchange port of a cluster whose processor `p` alone sends. -/
theorem portAcc_sends (hp : p < 64) {n e : Nat} (hop : (procStep s0 cl st p (procFaultOf hs cl p)).op = .xsend n e)
    (alone : ∀ i < 64, i ≠ p → ∀ m y, (procStep s0 cl st i (procFaultOf hs cl i)).op ≠ .xsend m y)
    (hen : argAt (procStep s0 cl st p (procFaultOf hs cl p)).vs 0 ≠ .zero) {c : Cluster} (hsent : c.xsent = false) :
    (portAcc s0 cl st (clusterOuts s0 hs cl st) c).c.xsent = true ∧
      (portAcc s0 cl st (clusterOuts s0 hs cl st) c).send = some (procStep s0 cl st p (procFaultOf hs cl p)) := by
  obtain ⟨_, _, _, _, hwr⟩ := written_ports (st := st) (clusterOuts s0 hs cl st) c
  exact portAcc_alone (fun a => (a.c.xsent, a.send))
    (P := fun x y => x.1 = false → y.1 = true ∧ y.2 = some (procStep s0 cl st p (procFaultOf hs cl p))) hp
    (fun a i hi hne => portReg_spares.send (alone i hi hne)) (fun a ha => portReg_send hop ha hen) (by rw [hwr]; exact hsent)

/-- The fragment of processor `p`, where no other of its basin sends one, leaves for the wharf. -/
theorem evalWork_sends (hw : mwf Cluster.fresh s0.fab = true) (hrun : basinRuns s0 (cl / 64) = true) (hp : p < 64) {n e : Nat}
    (hop : (procStep s0 cl s0.seq.pos p (procFaultOf hs cl p)).op = .xsend n e)
    (alone : ∀ d < 2048, ∀ i < 64, d / 64 = cl / 64 → d ≠ cl ∨ i ≠ p → ∀ m y, (procStep s0 d s0.seq.pos i (procFaultOf hs d i)).op ≠ .xsend m y)
    (hsent : (getCl s0 cl).xsent = false) (hen : argAt (procStep s0 cl s0.seq.pos p (procFaultOf hs cl p)).vs 0 ≠ .zero)
    (hnone : sentHere s0 (cl / 64) s0 = 0) :
    ∃ f ∈ (evalWork hs s0).1.xch.frags, f.site = e ∧ f.frame = s0.seq.F.toNat ∧ f.idx = n ∧ f.src = cl ∧ f.data = (getCl s0 cl).xfd ∧
      f.xen = decide (argAt (procStep s0 cl s0.seq.pos p (procFaultOf hs cl p)).vs 0 ≠ .one) ∧ f.void = false := by
  have lt {d : Nat} (hd : d ∈ runClusters s0) : d < 2048 := by have := basin_lt hd; omega
  obtain ⟨x, ⟨h1, hcount⟩, h2⟩ := fabricStep_keeping (hs := hs) (st := s0.seq.pos) (sentHere s0 (cl / 64)) hrun fun d hd hne x => by
    by_cases hb : d / 64 = cl / 64
    · unfold sentHere
      rw [clusterApply_unsent fun i hi => alone d (lt hd) i hi hb (.inl hne)]
    · exact (work_clusterApply hs s0.seq.pos x).trail.sentHere fun a (ha : a = d) => ha ▸ hb
  have hx : getCl x.1 cl = getCl s0 cl := (h1.trail.mono (B := fun τ => otherTouch (runClusters s0) cl τ ∨ portsTouch (runClusters s0) τ) fun _ => .inl).others hw
  obtain ⟨-, hsend⟩ := portAcc_sends (c := getCl x.1 cl) hp hop (fun i hi hne => alone cl (lt (mem_runClusters.2 hrun)) i hi rfl (.inr hne)) hen
    (by rw [hx, hsent])
  rw [clusterApply_eq] at h2
  generalize portAcc s0 cl s0.seq.pos (clusterOuts s0 hs cl s0.seq.pos) (getCl x.1 cl) = acc at hsend h2
  have hxch := memAct_xch (s0 := s0) (cl := cl) (st := s0.seq.pos) (clusterOuts s0 hs cl s0.seq.pos) x acc
  generalize memAct s0 cl acc (clashAct s0 cl acc (storesAct s0 cl s0.seq.pos (clusterOuts s0 hs cl s0.seq.pos) x)) = y at h2 hxch
  have hfew : ¬ 2 ≤ sentHere s0 (cl / 64) y.1 := by
    have : sentHere s0 (cl / 64) y.1 = sentHere s0 (cl / 64) x.1 := by
      unfold sentHere
      rw [hxch]
    rw [this, hcount, hnone]
    decide
  have hact : (sendAct s0 cl acc y).1 = xsendIssue s0 cl (procStep s0 cl s0.seq.pos p (procFaultOf hs cl p)) y.1 := by
    unfold sendAct
    rw [hsend]
    exact congrArg Prod.fst (if_neg hfew)
  have hfrag : ∃ f ∈ (sendAct s0 cl acc y).1.xch.frags, f.site = e ∧ f.frame = s0.seq.F.toNat ∧ f.idx = n ∧ f.src = cl ∧ f.data = (getCl s0 cl).xfd ∧
      f.xen = decide (argAt (procStep s0 cl s0.seq.pos p (procFaultOf hs cl p)).vs 0 ≠ .one) ∧ f.void = false := by
    rw [hact]
    unfold xsendIssue
    simp only [hop]
    exact ⟨_, List.mem_append_right _ (List.mem_singleton.2 rfl), rfl, rfl, rfl, rfl, rfl, rfl, rfl⟩
  obtain ⟨f, hf, hspec⟩ := hfrag
  have hshadow := (work_shadowAct (s0 := s0) (cl := cl) (sendAct s0 cl acc y) hs s0.seq.pos (clusterOuts s0 hs cl s0.seq.pos)).trail.frag_stays hf
  exact ⟨f, (work_transit hs s0).trail.frag_stays (h2.trail.frag_stays hshadow), hspec⟩

end

section
variable {hs : List Happening} {s : State} {cl p : Nat}

/-- XSEND sends its fragment. -/
theorem evalBody_sends (hw : mwf Cluster.fresh s.fab = true) (hrun : basinRuns s (cl / 64) = true) (hp : p < 64) {n e : Nat}
    (hop : (stepOut hs s cl p).op = .xsend n e)
    (alone : ∀ d < 2048, ∀ i < 64, d / 64 = cl / 64 → d ≠ cl ∨ i ≠ p → ∀ m y, (stepOut hs s d i).op ≠ .xsend m y)
    (hsent : (getCl s cl).xsent = false) (hen : argAt (stepOut hs s cl p).vs 0 ≠ .zero) (hnone : sentHere s (cl / 64) s = 0) :
    (evalBody hs s).seq.st = .safe ∨ ((getCl (evalBody hs s) cl).xsent = true ∧ ∃ f ∈ (evalBody hs s).xch.frags, f.site = e ∧ f.frame = s.seq.F.toNat ∧
      f.idx = n ∧ f.src = cl ∧ f.data = (getCl s cl).xfd ∧ f.xen = decide (argAt (stepOut hs s cl p).vs 0 ≠ .one) ∧ f.void = false) := by
  have hcl : cl < 2048 := by have := basin_lt (mem_runClusters.2 hrun); omega
  have hxs := portAcc_sends (c := getCl (strikes hs s) cl) (st := s.seq.pos) hp hop (fun i hi hne => alone cl hcl i hi rfl (.inr hne)) hen
    (by rw [strikes_ports.xsent, hsent])
  have hwork := evalWork_sends (s0 := strikes hs s) (hs := hs) (cl := cl) (p := p) (n := n) (e := e) (strikes_canonical hs s hw) (by simpa using hrun) hp
  rw [strikes_seq, strikes_ports.xfd] at hwork
  obtain ⟨f, hf, hspec⟩ := hwork hop alone (by rw [strikes_ports.xsent, hsent]) hen (by unfold sentHere at hnone ⊢; rwa [strikes_seq, strikes_xch])
  have hend : (evalBody hs s).seq.st = .safe ∨ f ∈ (evalBody hs s).xch.frags :=
    (evalBody_over hs s).frags.imp id fun (h : _ = _) => by rwa [h]
  exact hend.imp id fun hf => ⟨(evalBody_ports hw hrun).xsent.trans hxs.1, f, hf, hspec⟩

end

end Sys2Proof.Machine

namespace Sys2Proof.Machine

/-! ## The gauge port and the probe path (R58, R60) -/

/-- The processors of the running clusters. -/
def stepIdx (s0 : State) : List (Nat × Nat) := (runClusters s0).flatMap fun cl => (List.range 64).map (cl, ·)

section
variable {s0 : State} {hs : List Happening} {cl st p : Nat}

theorem mem_stepIdx {d i : Nat} : (d, i) ∈ stepIdx s0 ↔ basinRuns s0 (d / 64) = true ∧ i < 64 := by
  unfold stepIdx
  simp only [List.mem_flatMap, List.mem_map, List.mem_range, Prod.mk.injEq]
  constructor
  · rintro ⟨c, hc, j, hj, rfl, rfl⟩
    exact ⟨mem_runClusters.1 hc, hj⟩
  · rintro ⟨hc, hj⟩
    exact ⟨d, mem_runClusters.2 hc, i, hj, rfl, rfl⟩

theorem stepIdx_lt {d i : Nat} (h : (d, i) ∈ stepIdx s0) : d < 2048 ∧ i < 64 := by
  obtain ⟨hd, hi⟩ := mem_stepIdx.1 h
  have := basin_lt (mem_runClusters.2 hd)
  exact ⟨by omega, hi⟩

theorem nodup_stepIdx : (stepIdx s0).Nodup := by
  unfold stepIdx
  refine List.nodup_flatMap.2 ⟨fun d _ => List.nodup_range.map fun a b h => (Prod.mk.inj h).2, ?_⟩
  refine (nodup_runClusters s0).imp fun hne => ?_
  intro x hx hy
  obtain ⟨_, -, rfl⟩ := List.mem_map.1 hx
  obtain ⟨_, -, e⟩ := List.mem_map.1 hy
  exact hne (Prod.mk.inj e).1.symm

/-- What the processors of the running clusters do, in order. -/
theorem stepOuts_eq : stepOuts s0 hs st = (stepIdx s0).map fun di => (di.1, procStep s0 di.1 st di.2 (procFaultOf hs di.1 di.2)) := by
  unfold stepOuts stepIdx clusterOuts
  rw [List.map_flatMap]
  simp only [List.map_map]
  rfl

/-! ### GDRV -/

/-- One processor's turn at the gauge port. -/
def gaugeTurn (s0 : State) (acc : List Nat × (State × List Report)) (co : Nat × ProcOut) : List Nat × (State × List Report) :=
  match co.2.op with
  | .gdrv l =>
    let n := 64 * (co.1 / 64) + l
    if !laneBound s0 co.1 l then acc
    else if acc.1.contains n then (acc.1, andThen (portClash s0 co.1 co.2.lp) acc.2)
    else (n :: acc.1, (setLane n { getLane acc.2.1 n with sdrv := some (argAt co.2.vs 0), sexp := some (argAt co.2.vs 1) } acc.2.1, acc.2.2))
  | _ => acc

theorem gaugePort_eq (x : State × List Report) : gaugePort s0 (stepOuts s0 hs st) x = ((stepIdx s0).foldl (fun acc di =>
    gaugeTurn s0 acc (di.1, procStep s0 di.1 st di.2 (procFaultOf hs di.1 di.2))) ([], x)).2 := by
  rw [stepOuts_eq]
  unfold gaugePort
  rw [List.foldl_map]
  rfl

/-- What is driven of lane `n` in the step: whether it is, and what is staged. -/
def laneTurn (n : Nat) (acc : List Nat × (State × List Report)) : Bool × Option V4 × Option V4 :=
  (acc.1.contains n, (getLane acc.2.1 n).sdrv, (getLane acc.2.1 n).sexp)

theorem gaugeTurn_other {n : Nat} {acc : List Nat × (State × List Report)} {co : Nat × ProcOut}
    (h : ∀ l, co.2.op = .gdrv l → laneBound s0 co.1 l = true → 64 * (co.1 / 64) + l ≠ n) : laneTurn n (gaugeTurn s0 acc co) = laneTurn n acc := by
  unfold gaugeTurn
  split
  · next l hop =>
    dsimp only
    split_ifs with hb hc
    · rfl
    · rfl
    · have hne := h l hop (by simpa using hb)
      unfold laneTurn
      dsimp only
      rw [getLane_setLane_other hne.symm, List.contains_cons, beq_false_of_ne hne.symm, Bool.false_or]
  · rfl

theorem gaugeTurn_same {l : Nat} {acc : List Nat × (State × List Report)} {co : Nat × ProcOut} (hop : co.2.op = .gdrv l)
    (hb : laneBound s0 co.1 l = true) (hfree : (laneTurn (64 * (co.1 / 64) + l) acc).1 = false) :
    (laneTurn (64 * (co.1 / 64) + l) (gaugeTurn s0 acc co)).2 = (some (argAt co.2.vs 0), some (argAt co.2.vs 1)) := by
  have hc : ¬ acc.1.contains (64 * (co.1 / 64) + l) = true := by
    show ¬ (laneTurn (64 * (co.1 / 64) + l) acc).1 = true
    rw [hfree]
    decide
  unfold gaugeTurn
  simp only [hop]
  rw [if_neg (by rw [hb]; decide), if_neg hc]
  unfold laneTurn
  dsimp only
  rw [getLane_setLane_same]

theorem laneBound_place {d l : Nat} (h : laneBound s0 d l = true) : d % 64 = l / 8 ∧ l < 64 := by
  unfold laneBound at h
  simp only [Bool.and_eq_true, decide_eq_true_eq] at h
  omega

/-- GDRV stages its lane's values, where no other of its cluster drives the lane. -/
theorem gaugePort_drives (hrun : basinRuns s0 (cl / 64) = true) (hp : p < 64) {l : Nat}
    (hop : (procStep s0 cl st p (procFaultOf hs cl p)).op = .gdrv l) (hb : laneBound s0 cl l = true)
    (alone : ∀ i < 64, i ≠ p → (procStep s0 cl st i (procFaultOf hs cl i)).op ≠ .gdrv l) (x : State × List Report) :
    (getLane (gaugePort s0 (stepOuts s0 hs st) x).1 (64 * (cl / 64) + l)).sdrv = some (argAt (procStep s0 cl st p (procFaultOf hs cl p)).vs 0) ∧
    (getLane (gaugePort s0 (stepOuts s0 hs st) x).1 (64 * (cl / 64) + l)).sexp = some (argAt (procStep s0 cl st p (procFaultOf hs cl p)).vs 1) := by
  rw [gaugePort_eq]
  have h := foldl_rel (laneTurn (64 * (cl / 64) + l)) (fun _ => True)
    (P := fun x y => x.1 = false → y.2 = (some (argAt (procStep s0 cl st p (procFaultOf hs cl p)).vs 0), some (argAt (procStep s0 cl st p (procFaultOf hs cl p)).vs 1)))
    (f := fun acc di => gaugeTurn s0 acc (di.1, procStep s0 di.1 st di.2 (procFaultOf hs di.1 di.2))) (nodup_stepIdx (s0 := s0))
    (mem_stepIdx.2 ⟨hrun, hp⟩) (fun _ _ _ _ => trivial) (fun acc _ ⟨d, i⟩ hdi hne => ?_) (fun acc _ => gaugeTurn_same (co := (cl, procStep s0 cl st p (procFaultOf hs cl p))) hop hb) ([], x) trivial rfl
  · exact Prod.mk.inj h
  · refine gaugeTurn_other fun k hk hbk e => ?_
    have h1 := laneBound_place hbk
    have h2 := laneBound_place hb
    dsimp only at e h1
    have hd : d = cl := by omega
    have hl : k = l := by omega
    subst hd hl
    exact alone i (stepIdx_lt hdi).2 (fun e => hne (e ▸ rfl)) hk

end

end Sys2Proof.Machine

namespace Sys2Proof.Machine

/-! ### PROBE and TRIG -/

section
variable {s0 : State} {hs : List Happening} {cl st p : Nat}

/-- A value offered to a probe by processor `g`. -/
def offerProbe (id : Nat) (v : V4) (g : Nat) (s : State) : State :=
  { s with trc := { s.trc with probe := mset none s.trc.probe id (some v), probeBy := mset 0 s.trc.probeBy id g } }

theorem offerProbe_same (id : Nat) (v : V4) (g : Nat) (s : State) : mget none (offerProbe id v g s).trc.probe id = some v := by
  unfold offerProbe
  rw [mget_mset_same]

theorem offerProbe_other {id k : Nat} (h : id ≠ k) (v : V4) (g : Nat) (s : State) :
    mget none (offerProbe k v g s).trc.probe id = mget none s.trc.probe id := by
  unfold offerProbe
  rw [mget_mset_other _ _ _ _ _ h]

theorem portClash_trc (d lp : Nat) (x : State × List Report) : (andThen (portClash s0 d lp) x).1.trc = x.1.trc := rfl

/-- One processor's turn on the probe path. -/
def traceTurn (s0 : State) (x : State × List Report) (co : Nat × ProcOut) : State × List Report :=
  match co.2.op with
  | .probe id =>
    let g := 64 * co.1 + co.2.lp
    let by_ := mget 0 x.1.trc.probeBy id
    if (mget none x.1.trc.probe id).isNone then (offerProbe id (argAt co.2.vs 0) g x.1, x.2)
    else if g < by_ then andThen (portClash s0 (by_ / 64) (by_ % 64)) (offerProbe id (argAt co.2.vs 0) g x.1, x.2)
    else andThen (portClash s0 co.1 co.2.lp) x
  | .trig n => if sealed s0 co.1 then x else
    ({ x.1 with trc := { x.1.trc with trig := mset .zero x.1.trc.trig n (v4or (mget .zero x.1.trc.trig n) (argAt co.2.vs 0)) } }, x.2)
  | _ => x

theorem tracePort_eq (x : State × List Report) : tracePort s0 (stepOuts s0 hs st) x = (stepIdx s0).foldl (fun x di =>
    traceTurn s0 x (di.1, procStep s0 di.1 st di.2 (procFaultOf hs di.1 di.2))) x := by
  rw [stepOuts_eq]
  unfold tracePort
  rw [List.foldl_map]
  rfl

theorem traceTurn_probe_other {id : Nat} {x : State × List Report} {co : Nat × ProcOut} (h : co.2.op ≠ .probe id) :
    mget none (traceTurn s0 x co).1.trc.probe id = mget none x.1.trc.probe id := by
  unfold traceTurn
  split
  · next k hop =>
    have hk : id ≠ k := fun e => h (e ▸ hop)
    dsimp only
    split_ifs
    · exact offerProbe_other hk ..
    · rw [portClash_trc]
      exact offerProbe_other hk ..
    · rfl
  · split_ifs <;> rfl
  · rfl

theorem traceTurn_probe {id : Nat} {x : State × List Report} {co : Nat × ProcOut} (hop : co.2.op = .probe id)
    (hfree : mget none x.1.trc.probe id = none) : mget none (traceTurn s0 x co).1.trc.probe id = some (argAt co.2.vs 0) := by
  unfold traceTurn
  simp only [hop]
  rw [if_pos (by rw [hfree]; rfl)]
  exact offerProbe_same ..

/-- A trigger bit that is 1 stays so. -/
theorem traceTurn_trig_stays {n : Nat} {x : State × List Report} {co : Nat × ProcOut} (h : mget .zero x.1.trc.trig n = .one) :
    mget .zero (traceTurn s0 x co).1.trc.trig n = .one := by
  unfold traceTurn
  split
  · dsimp only
    split_ifs <;> exact h
  · next k hop =>
    split_ifs
    · exact h
    · dsimp only
      by_cases e : n = k
      · subst e
        rw [mget_mset_same, h]
        rfl
      · rw [mget_mset_other _ _ _ _ _ e, h]
  · exact h

theorem traceTurn_trig {n : Nat} {x : State × List Report} {co : Nat × ProcOut} (hop : co.2.op = .trig n) (hen : argAt co.2.vs 0 = .one)
    (hs : sealed s0 co.1 = false) : mget .zero (traceTurn s0 x co).1.trc.trig n = .one := by
  unfold traceTurn
  simp only [hop]
  rw [if_neg (by rw [hs]; decide), hen]
  dsimp only
  rw [mget_mset_same]
  cases mget V4.zero x.1.trc.trig n <;> rfl

theorem tracePort_probes (hrun : basinRuns s0 (cl / 64) = true) (hp : p < 64) {id : Nat}
    (hop : (procStep s0 cl st p (procFaultOf hs cl p)).op = .probe id)
    (alone : ∀ d < 2048, ∀ i < 64, d ≠ cl ∨ i ≠ p → (procStep s0 d st i (procFaultOf hs d i)).op ≠ .probe id) {x : State × List Report}
    (hfree : mget none x.1.trc.probe id = none) :
    mget none (tracePort s0 (stepOuts s0 hs st) x).1.trc.probe id = some (argAt (procStep s0 cl st p (procFaultOf hs cl p)).vs 0) := by
  rw [tracePort_eq]
  refine foldl_rel (fun x : State × List Report => mget none x.1.trc.probe id) (fun _ => True)
    (P := fun x y => x = none → y = some (argAt (procStep s0 cl st p (procFaultOf hs cl p)).vs 0))
    (f := fun x di => traceTurn s0 x (di.1, procStep s0 di.1 st di.2 (procFaultOf hs di.1 di.2))) (nodup_stepIdx (s0 := s0))
    (mem_stepIdx.2 ⟨hrun, hp⟩) (fun _ _ _ _ => trivial) (fun x _ ⟨d, i⟩ hdi hne => ?_)
    (fun x _ => traceTurn_probe (co := (cl, procStep s0 cl st p (procFaultOf hs cl p))) hop) x trivial hfree
  obtain ⟨hd, hi⟩ := stepIdx_lt hdi
  refine traceTurn_probe_other (alone d hd i hi ?_)
  by_contra h
  push Not at h
  exact hne (by rw [h.1, h.2])

theorem tracePort_trigs (hrun : basinRuns s0 (cl / 64) = true) (hp : p < 64) {n : Nat}
    (hop : (procStep s0 cl st p (procFaultOf hs cl p)).op = .trig n) (hen : argAt (procStep s0 cl st p (procFaultOf hs cl p)).vs 0 = .one)
    (hseal : sealed s0 cl = false) (x : State × List Report) : mget .zero (tracePort s0 (stepOuts s0 hs st) x).1.trc.trig n = .one := by
  rw [tracePort_eq]
  obtain ⟨y, -, h⟩ := foldl_around (R := fun x y : State × List Report => mget .zero x.1.trc.trig n = .one → mget .zero y.1.trc.trig n = .one)
    (fun _ => id) (fun h k => k ∘ h) (f := fun x di => traceTurn s0 x (di.1, procStep s0 di.1 st di.2 (procFaultOf hs di.1 di.2)))
    (nodup_stepIdx (s0 := s0)) (mem_stepIdx.2 ⟨hrun, hp⟩) (fun x _ _ _ => traceTurn_trig_stays) x
  exact h (traceTurn_trig (co := (cl, procStep s0 cl st p (procFaultOf hs cl p))) hop hen hseal)

end

/-! ### The ports at the end of the step -/

theorem quiet_trc (s : State) : (quiet s).rest.trc = trcKept s.trc := by unfold quiet; rfl

theorem Noise.trace {s t : State} (h : Noise s t) : trcKept t.trc = trcKept s.trc := by rw [← quiet_trc, h.view, quiet_trc]

/-- The probes and triggers of the frame. -/
def probed (s : State) : List (Nat × Option V4) × List (Nat × V4) := (s.trc.probe, s.trc.trig)

theorem Noise.probed {s t : State} (h : Noise s t) : probed t = probed s :=
  (congrArg (fun t : TrcState => (t.probe, t.trig)) h.trace :)

theorem probe_of {s t : State} (h : probed t = probed s) : t.trc.probe = s.trc.probe := congrArg Prod.fst h
theorem trig_of {s t : State} (h : probed t = probed s) : t.trc.trig = s.trc.trig := congrArg Prod.snd h

theorem PosOver.probed {rs : List Report} {y u : State} (h : PosOver rs y u) : u.seq.st = .safe ∨ probed u = probed y :=
  h.cases.imp id fun k => k.probed

/-- Writes other than the probe path's leave the probes and triggers. -/
theorem Trail.probed {A : Touch → Prop} {s t : State} (h : Trail A s t) (hp : ¬ A .probes) (ht : ¬ A .trc) : probed t = probed s := by
  refine h.fix Machine.probed fun τ hA u v hw => ?_
  cases τ with
  | probes => exact absurd hA hp
  | trc => exact absurd hA ht
  | books => exact hw.probed
  | frags d => obtain ⟨_, rfl, -⟩ := hw; rfl
  | clu d R => obtain ⟨_, -, rfl⟩ := hw; rfl
  | exports => rw [hw]; rfl
  | req q => obtain ⟨_, rfl, -⟩ := hw; rfl
  | first o => obtain ⟨_, rfl, -⟩ := hw; rfl
  | reg | flag | count | slu | lane | gau | bas | lnk | free | dmc => obtain ⟨_, rfl⟩ := hw; rfl

section
variable {s0 : State} {hs : List Happening} {st : Nat}

/-- The state in which the gauge port acts. -/
def beforeGauge (s0 : State) (hs : List Happening) (st : Nat) : State × List Report :=
  sluicePort s0 st (stepOuts s0 hs st) (clusterPhase s0 hs st (s0, []))

theorem fabricStep_gauge : fabricStep s0 hs st s0 = tracePort s0 (stepOuts s0 hs st) (gaugePort s0 (stepOuts s0 hs st) (beforeGauge s0 hs st)) :=
  fabricStep_eq hs st s0

theorem beforeTrace_probed : probed (gaugePort s0 (stepOuts s0 hs st) (beforeGauge s0 hs st)).1 = probed s0 := by
  have h1 := (work_gaugePort (s0 := s0) (stepOuts s0 hs st) (beforeGauge s0 hs st)).trail.probed id id
  have h2 := (work_sluicePort (s0 := s0) st (stepOuts s0 hs st) (clusterPhase s0 hs st (s0, []))).trail.probed (fun ⟨_, _, h⟩ => h) (fun ⟨_, _, h⟩ => h)
  have h3 := (work_clusterPhase (s0 := s0) hs st (s0, [])).trail.probed (fun ⟨_, _, h⟩ => h) (fun ⟨_, _, h⟩ => h)
  exact h1.trans (h2.trans h3)

theorem transit_probed : probed (evalWork hs s0).1 = probed (fabricStep s0 hs s0.seq.pos s0).1 := by
  refine (work_transit hs s0).trail.probed ?_ ?_
  · rintro ((⟨_, _, h⟩ | h) | h) <;> exact h
  · rintro ((⟨_, _, h⟩ | h) | h) <;> exact h

theorem transit_lanes : (evalWork hs s0).1.gau.lanes = (gaugePort s0 (stepOuts s0 hs s0.seq.pos) (beforeGauge s0 hs s0.seq.pos)).1.gau.lanes := by
  have h1 : (evalWork hs s0).1.gau.lanes = (fabricStep s0 hs s0.seq.pos s0).1.gau.lanes := by
    refine ((work_transit hs s0).trail.lanes ?_ ?_).1
    · rintro n ((⟨_, _, h⟩ | h) | h) <;> exact h
    · rintro ((⟨_, _, h⟩ | h) | h) <;> exact h
  rw [h1, fabricStep_gauge]
  exact ((work_tracePort _ _).trail.lanes (fun _ => id) id).1

end

section
variable {hs : List Happening} {s : State} {cl p : Nat} (hrun : basinRuns s (cl / 64) = true) (hp : p < 64)
include hrun hp

theorem evalBody_drives {l : Nat} (hop : (stepOut hs s cl p).op = .gdrv l) (hb : laneBound s cl l = true)
    (alone : ∀ i < 64, i ≠ p → (stepOut hs s cl i).op ≠ .gdrv l) :
    (getLane (evalBody hs s) (64 * (cl / 64) + l)).sdrv = some (argAt (stepOut hs s cl p).vs 0) ∧
    (getLane (evalBody hs s) (64 * (cl / 64) + l)).sexp = some (argAt (stepOut hs s cl p).vs 1) := by
  have hlanes : (evalBody hs s).gau.lanes = _ := (evalBody_over hs s).lanes.trans transit_lanes
  have hb0 : laneBound (strikes hs s) cl l = true := by
    unfold laneBound at hb ⊢
    rwa [strikes_nLanes]
  have h := gaugePort_drives (s0 := strikes hs s) (hs := hs) (st := s.seq.pos) (by simpa using hrun) hp hop hb0 alone (beforeGauge (strikes hs s) hs s.seq.pos)
  rw [strikes_seq] at hlanes
  unfold getLane at h ⊢
  rw [hlanes]
  exact h

theorem evalBody_probes {id : Nat} (hop : (stepOut hs s cl p).op = .probe id)
    (alone : ∀ d < 2048, ∀ i < 64, d ≠ cl ∨ i ≠ p → (stepOut hs s d i).op ≠ .probe id) (hfree : mget none s.trc.probe id = none) :
    (evalBody hs s).seq.st = .safe ∨ mget none (evalBody hs s).trc.probe id = some (argAt (stepOut hs s cl p).vs 0) := by
  have hpre := probe_of (beforeTrace_probed (s0 := strikes hs s) (hs := hs) (st := s.seq.pos))
  rw [strikes_trc] at hpre
  have h := tracePort_probes (s0 := strikes hs s) (hs := hs) (st := s.seq.pos) (by simpa using hrun) hp hop alone
    (x := gaugePort (strikes hs s) (stepOuts (strikes hs s) hs s.seq.pos) (beforeGauge (strikes hs s) hs s.seq.pos))
    (by rw [hpre, hfree])
  have hend := probe_of (transit_probed (s0 := strikes hs s) (hs := hs))
  rw [fabricStep_gauge, strikes_seq] at hend
  rw [← hend] at h
  exact (evalBody_over hs s).probed.imp (fun h => h) fun k => by rw [probe_of k, h]

theorem evalBody_trigs {n : Nat} (hop : (stepOut hs s cl p).op = .trig n) (hen : argAt (stepOut hs s cl p).vs 0 = .one) (hseal : sealed s cl = false) :
    (evalBody hs s).seq.st = .safe ∨ mget .zero (evalBody hs s).trc.trig n = .one := by
  have hseal0 : sealed (strikes hs s) cl = false := by
    unfold sealed rbit at hseal ⊢
    rwa [rget_strikes]
  have h := tracePort_trigs (s0 := strikes hs s) (hs := hs) (st := s.seq.pos) (by simpa using hrun) hp hop hen hseal0
    (gaugePort (strikes hs s) (stepOuts (strikes hs s) hs s.seq.pos) (beforeGauge (strikes hs s) hs s.seq.pos))
  have hend := trig_of (transit_probed (s0 := strikes hs s) (hs := hs))
  rw [fabricStep_gauge, strikes_seq] at hend
  rw [← hend] at h
  exact (evalBody_over hs s).probed.imp (fun h => h) fun k => by rw [trig_of k, h]

end

end Sys2Proof.Machine

namespace Sys2Proof.Machine

/-! ## What a sub-operation at the sluice does (R53-R56) -/

/-- A tag that an HRD or HWR takes. -/
def takeTag (q t : Nat) (x : TagSt) (s : State) : State := tagIssued q t (setTag q t x s)

def sluRep (s0 : State) (q t code : Nat) : Report := { code := code, lk := 5, locv := locSlu q t, frame := frameNow s0 }

/-- A request refused, and marked in HLD_STS. -/
def refuseMarked (s0 : State) (cl t bit_ code : Nat) (s : State) : State × List Report :=
  (rflag oHldSts bit_ (rflag (cStat cl) 6 (refuseReq (sluiceOf cl) t s)), [sluRep s0 (sluiceOf cl) t code])

/-- The request that an HRD or HWR issues. -/
def newReq (s0 : State) (cl r t : Nat) (wr : Bool) (en : V4) (w : Nat) : SluReq :=
  { q := sluiceOf cl, tag := t, gsc := s0.seq.gsc.toNat, frame := s0.seq.F.toNat, write := wr, addr := rgnBase s0 (sluiceOf cl) r + 8 * w,
    data := BitVec.ofNat 64 ((plist (getCl s0 cl).hwd 64).foldr (fun v n => (if v = .one then 1 else 0) + 2 * n) 0),
    poison := wr && ((plist (getCl s0 cl).hwd 64).any (!v4known ·) || en ≠ .one), xen := !wr && en ≠ .one, ns := s0.tim.mono, seen := false, live := true,
    served := false, reply := .waiting }

section
variable {s0 : State} {cl r t w : Nat} {wr : Bool} {o : ProcOut} (s : State)
  (hop : o.op = .hrd r t ∧ wr = false ∨ o.op = .hwr r t ∧ wr = true)
include hop

theorem sluIssue_unknown (hfree : getTag s0 (sluiceOf cl) t = .free) (hoff : v4nat? (plist (getCl s0 cl).ho 34) = none) :
    sluIssue s0 cl o s = (takeTag (sluiceOf cl) t .unknownAddr s, []) := by
  unfold sluIssue
  rcases hop with ⟨hop, rfl⟩ | ⟨hop, rfl⟩ <;> simp [hop, hoff, hfree, takeTag]

theorem sluIssue_null (hfree : getTag s0 (sluiceOf cl) t = .free) (hoff : v4nat? (plist (getCl s0 cl).ho 34) = some w) (hen : argAt o.vs 0 = .zero) :
    sluIssue s0 cl o s = (takeTag (sluiceOf cl) t .null s, []) := by
  unfold sluIssue
  rcases hop with ⟨hop, rfl⟩ | ⟨hop, rfl⟩ <;> simp [hop, hoff, hfree, hen, takeTag]

theorem sluIssue_beyond (hoff : v4nat? (plist (getCl s0 cl).ho 34) = some w) (hen : argAt o.vs 0 ≠ .zero) (hw : rgnLimit s0 (sluiceOf cl) r ≤ w) :
    sluIssue s0 cl o s = refuseMarked s0 cl t 5 0x4002 s := by
  unfold sluIssue
  rcases hop with ⟨hop, rfl⟩ | ⟨hop, rfl⟩ <;> simp [hop, hoff, hen, hw, refuseMarked, sluRep]

theorem sluIssue_busy (hoff : v4nat? (plist (getCl s0 cl).ho 34) = some w) (hw : w < rgnLimit s0 (sluiceOf cl) r)
    (hbusy : getTag s0 (sluiceOf cl) t ≠ .free) : sluIssue s0 cl o s = refuseMarked s0 cl t 6 0x4003 s := by
  have hlim : ¬ rgnLimit s0 (sluiceOf cl) r ≤ w := Nat.not_le.2 hw
  unfold sluIssue
  rcases hop with ⟨hop, rfl⟩ | ⟨hop, rfl⟩ <;> simp [hop, hoff, hlim, hbusy, refuseMarked, sluRep]

theorem sluIssue_sent (hfree : getTag s0 (sluiceOf cl) t = .free) (hoff : v4nat? (plist (getCl s0 cl).ho 34) = some w) (hen : argAt o.vs 0 ≠ .zero)
    (hw : w < rgnLimit s0 (sluiceOf cl) r) (hroom : (s0.req.filter (·.q = sluiceOf cl)).length < 16) :
    (sluIssue s0 cl o s).1 = { takeTag (sluiceOf cl) t .waiting s with
      req := (takeTag (sluiceOf cl) t .waiting s).req ++ [newReq s0 cl r t wr (argAt o.vs 0) w] } := by
  have hlim : ¬ rgnLimit s0 (sluiceOf cl) r ≤ w := Nat.not_le.2 hw
  have hlen : ¬ 16 ≤ (s0.req.filter (·.q = sluiceOf cl)).length := Nat.not_le.2 hroom
  unfold sluIssue
  rcases hop with ⟨hop, rfl⟩ | ⟨hop, rfl⟩ <;> simp [hop, hoff, hlim, hfree, hen, hlen, takeTag, newReq]

end

/-! ### The tags and buffers they leave -/

section
variable {q t : Nat} (s : State)

theorem getSlu_setSlu_same (x : Sluice) : getSlu (setSlu q x s) q = x := mget_mset_same ..

theorem getTag_setTag (x : TagSt) : getTag (setTag q t x s) q t = x := by
  unfold getTag setTag
  rw [getSlu_setSlu_same]
  exact mget_mset_same ..

theorem getTag_tagIssued : getTag (tagIssued q t s) q t = getTag s q t := by
  unfold getTag tagIssued
  rw [getSlu_setSlu_same]

theorem getTag_takeTag (x : TagSt) : getTag (takeTag q t x s) q t = x := (getTag_tagIssued _).trans (getTag_setTag s x)

theorem getTag_refuseReq : getTag (refuseReq q t s) q t = .refused := getTag_takeTag _ _

theorem rfld_refuseReq : rfld (refuseReq q t s) (oHldSluCnt q) 31 16 = min (rfld s (oHldSluCnt q) 31 16 + 1) 0xFFFF :=
  rfld_rcount_same _ _ (by decide) s

/-- A WAIT frees its tag. -/
def freeTag (s0 : State) (q st t : Nat) (s : State) : State :=
  setTag q t .free (setSlu q { getSlu s q with modeAt := mset none (getSlu s q).modeAt (waitKey s0.seq.F.toNat st t) none } s)

theorem getTag_freeTag (s0 : State) (st : Nat) : getTag (freeTag s0 q st t s) q t = .free := getTag_setTag _ _

theorem getCollect_freeTag (s0 : State) (st : Nat) : getCollect (freeTag s0 q st t s) q t = getCollect s q t := by
  unfold getCollect freeTag setTag
  rw [getSlu_setSlu_same, getSlu_setSlu_same]

theorem getCollect_setCollect (v : BitVec 128) : getCollect (setCollect q t v s) q t = v := by
  unfold getCollect setCollect
  rw [getSlu_setSlu_same]
  exact mget_mset_same ..

end

section
variable {s0 : State} {cl st t : Nat} (s : State)

/-- The flag of a WAIT that no map foresees (R55). -/
def waitFlag (s0 : State) (q st t : Nat) (s : State) : State := if !(mget 0#16 (getSlu s0 q).waitMap st).getLsbD t then rflag oHldSts 8 s else s

theorem getCollect_waitFlag (q : Nat) : getCollect (waitFlag s0 q st t s) q t = getCollect s q t := by
  unfold waitFlag
  split_ifs <;> rfl

theorem sluWait_data {d : BitVec 64} (h : getTag s0 (sluiceOf cl) t = .data d) : (sluWait s0 cl st t s).1 =
    freeTag s0 (sluiceOf cl) st t (setCollect (sluiceOf cl) t (ppack 128 (v4bits 64 d.toNat)) (waitFlag s0 (sluiceOf cl) st t s)) := by
  unfold sluWait
  simp only [h]
  rfl

theorem sluWait_done (h : getTag s0 (sluiceOf cl) t = .written ∨ getTag s0 (sluiceOf cl) t = .null) : (sluWait s0 cl st t s).1 =
    freeTag s0 (sluiceOf cl) st t (waitFlag s0 (sluiceOf cl) st t s) := by
  unfold sluWait
  rcases h with h | h
  · simp only [h]
    rfl
  · simp only [h]
    rfl

/-- A WAIT without its reply gives up the request, and is marked (R55). -/
theorem sluWait_waiting (h : getTag s0 (sluiceOf cl) t = .waiting) :
    (sluWait s0 cl st t s).1.slu = (freeTag s0 (sluiceOf cl) st t (setCollect (sluiceOf cl) t (BitVec.allOnes 128) (waitFlag s0 (sluiceOf cl) st t s))).slu ∧
    rbit (sluWait s0 cl st t s).1 oHldSts 3 = true ∧ reported 0x5001 (sluWait s0 cl st t s) := by
  unfold sluWait
  simp only [h]
  exact ⟨rfl, rbit_rflag_same _ (by decide) _, sluRep s0 (sluiceOf cl) t 0x5001, List.mem_append_right _ (List.mem_singleton.2 rfl), rfl, rfl⟩

end

end Sys2Proof.Machine

namespace Sys2Proof.Machine

/-! ## Where in the step a sub-operation at the sluice acts -/

/-- Writes of an evaluation step that leave sluice `q`'s tags, buffers, requests and counts. -/
def sparesSlu (q : Nat) : Touch → Prop
  | .slu x | .req x => x ≠ q
  | .count off _ _ => off ≠ oHldSluCnt q
  | _ => True

def awayTouch (cls : List Nat) (q : Nat) : Touch → Prop := fun τ => evalTouch cls τ ∧ sparesSlu q τ

section
variable {s0 : State} {hs : List Happening} {cl st p : Nat} {q : Nat}

theorem foldl_keeps {σ β : Type} {R : σ → σ → Prop} (hrefl : ∀ x, R x x) (htrans : ∀ {x y z}, R x y → R y z → R x z) {f : σ → β → σ} {l : List β}
    (hg : ∀ x, ∀ b ∈ l, R x (f x b)) (x : σ) : R x (l.foldl f x) := by
  induction l generalizing x with
  | nil => exact hrefl x
  | cons b t ih => exact htrans (hg x b (by simp)) (ih (fun x c hc => hg x c (by simp [hc])) _)

/-- One processor's WAIT, and its HRD or HWR, at the sluice. -/
def waitTurn (s0 : State) (st : Nat) (x : State × List Report) (co : Nat × ProcOut) : State × List Report :=
  match co.2.op with
  | .wait t => andThen (sluWait s0 co.1 st t) x
  | _ => x

def askTurn (s0 : State) (acc : List Nat × (State × List Report)) (co : Nat × ProcOut) : List Nat × (State × List Report) :=
  match co.2.op with
  | .hrd _ t | .hwr _ t =>
    if acc.1.contains (sluiceOf co.1) then
      (acc.1, andThen (fun s => portClash s0 co.1 co.2.lp (refuseReq (sluiceOf co.1) t s)) acc.2)
    else (sluiceOf co.1 :: acc.1, andThen (sluIssue s0 co.1 co.2) acc.2)
  | _ => acc

theorem sluicePort_eq (outs : List (Nat × ProcOut)) (x : State × List Report) :
    sluicePort s0 st outs x = (outs.foldl (askTurn s0) ([], outs.foldl (waitTurn s0 st) x)).2 := by
  unfold sluicePort
  dsimp only
  rw [List.foldl_filterMap, List.foldl_filter]
  congr 2
  · funext acc co
    unfold askTurn
    cases co.2.op <;> simp
  · refine congrArg (fun f => (([] : List Nat), outs.foldl f x)) (funext fun x => funext fun co => ?_)
    unfold waitTurn
    cases co.2.op <;> simp

/-- The turns of a step at the sluice port. -/
theorem sluicePort_turns (x : State × List Report) : sluicePort s0 st (stepOuts s0 hs st) x =
    ((stepIdx s0).foldl (fun acc di => askTurn s0 acc (di.1, procStep s0 di.1 st di.2 (procFaultOf hs di.1 di.2))) ([],
      (stepIdx s0).foldl (fun x di => waitTurn s0 st x (di.1, procStep s0 di.1 st di.2 (procFaultOf hs di.1 di.2))) x)).2 := by
  rw [sluicePort_eq, stepOuts_eq, List.foldl_map, List.foldl_map]

theorem work_waitTurn (co : Nat × ProcOut) (x : State × List Report) : Work (sluTouch co.1) (frameNow s0) x (waitTurn s0 st x co) := by
  unfold waitTurn
  split
  · exact .andThen (work_sluWait _ _ _)
  · exact .refl x

theorem work_askTurn (co : Nat × ProcOut) (acc : List Nat × (State × List Report)) : Work (sluTouch co.1) (frameNow s0) acc.2 (askTurn s0 acc co).2 := by
  have turn (t : Nat) : Work (sluTouch co.1) (frameNow s0) acc.2 (if acc.1.contains (sluiceOf co.1) then
      (acc.1, andThen (fun s => portClash s0 co.1 co.2.lp (refuseReq (sluiceOf co.1) t s)) acc.2)
    else (sluiceOf co.1 :: acc.1, andThen (sluIssue s0 co.1 co.2) acc.2)).2 := by
    split_ifs
    · exact .andThen (g := fun s => portClash s0 co.1 co.2.lp (refuseReq (sluiceOf co.1) t s)) (work_secondReq _ _ _)
    · exact .andThen (work_sluIssue _ _)
  unfold askTurn
  split
  · exact turn _
  · exact turn _
  · exact .refl _

/-- A sub-operation elsewhere. -/
theorem waitTurn_idle {co : Nat × ProcOut} (h : ∀ t, co.2.op ≠ .wait t) (x : State × List Report) : waitTurn s0 st x co = x := by
  unfold waitTurn
  split
  · exact absurd ‹_› (h _)
  · rfl

theorem askTurn_idle {co : Nat × ProcOut} (h : ∀ r t, co.2.op ≠ .hrd r t ∧ co.2.op ≠ .hwr r t) (acc : List Nat × (State × List Report)) :
    askTurn s0 acc co = acc := by
  unfold askTurn
  split
  · exact absurd ‹_› (h _ _).1
  · exact absurd ‹_› (h _ _).2
  · rfl

theorem askTurn_taken {co : Nat × ProcOut} (hq : sluiceOf co.1 ≠ q) (acc : List Nat × (State × List Report)) :
    (askTurn s0 acc co).1.contains q = acc.1.contains q := by
  have turn (a b : State × List Report) : (if acc.1.contains (sluiceOf co.1) then (acc.1, a) else (sluiceOf co.1 :: acc.1, b)).1.contains q =
      acc.1.contains q := by
    split_ifs
    · rfl
    · rw [List.contains_cons, beq_false_of_ne (Ne.symm hq), Bool.false_or]
  unfold askTurn
  split
  · exact turn _ _
  · exact turn _ _
  · rfl

theorem askTurn_issues {co : Nat × ProcOut} {r t : Nat} (h : co.2.op = .hrd r t ∨ co.2.op = .hwr r t) {acc : List Nat × (State × List Report)}
    (hfree : acc.1.contains (sluiceOf co.1) = false) : (askTurn s0 acc co).2 = andThen (sluIssue s0 co.1 co.2) acc.2 := by
  unfold askTurn
  rcases h with h | h
  · simp only [h]
    rw [if_neg (by rw [hfree]; decide)]
  · simp only [h]
    rw [if_neg (by rw [hfree]; decide)]

theorem oHldSluCnt_inj {a b : Nat} (h : oHldSluCnt a = oHldSluCnt b) : a = b := by
  unfold oHldSluCnt at h
  omega

/-- What other sluices' sub-operations write, what the clusters' own parts write, and what follows the sluice port. -/
theorem away_slu {d : Nat} (hd : d ∈ runClusters s0) (hq : sluiceOf d ≠ q) {τ : Touch} (h : sluTouch d τ) : awayTouch (runClusters s0) q τ := by
  refine ⟨.inl (.inr (.inl ⟨d, hd, h⟩)), ?_⟩
  cases τ with
  | slu x | req x => obtain rfl : x = _ := h; exact hq
  | count off hi lo => obtain ⟨rfl, -, -⟩ := h; exact fun e => hq (oHldSluCnt_inj e)
  | _ => trivial

theorem away_cluster {d : Nat} (hd : d ∈ runClusters s0) (hq : q < 128) {τ : Touch} (h : cluTouch d τ) : awayTouch (runClusters s0) q τ := by
  refine ⟨.inl (.inl ⟨d, hd, h⟩), ?_⟩
  cases τ with
  | slu x | req x => exact h.elim
  | count off hi lo =>
    have high : 0x100000 ≤ off := by rcases h with rfl | rfl; exacts [by unfold cEcc oCluEcc; omega, cXev_high.2]
    show off ≠ _
    unfold oHldSluCnt
    omega
  | _ => trivial

theorem away_shared {τ : Touch} (h : gauTouch τ ∨ trcTouch τ) : awayTouch (runClusters s0) q τ := by
  refine ⟨.inl (.inr (.inr h)), ?_⟩
  cases τ with
  | slu x | req x | count off hi lo => exact (h.elim id id).elim
  | _ => trivial

theorem away_transit (hq : q < 128) {τ : Touch} (h : transitTouch (runClusters s0) τ) : awayTouch (runClusters s0) q τ := by
  refine ⟨.inr h, ?_⟩
  cases τ with
  | slu x | req x => rcases h with (⟨_, _, h⟩ | h) | h <;> exact h.elim
  | count off hi lo =>
    have high : 0x100000 ≤ off := by
      rcases h with (⟨_, _, ⟨rfl | rfl, -⟩ | ⟨rfl, -⟩ | rfl⟩ | h) | h
      · unfold oBasContHard; omega
      · unfold oBasContBen; omega
      · unfold oBasImpOvf; omega
      · unfold oBasRwEcc; omega
      · exact h.elim
      · obtain rfl : off = _ := h
        decide
    show off ≠ _
    unfold oHldSluCnt
    omega
  | _ => trivial

theorem atSluice_idle {op : POp} (h : atSluice op = false) : (∀ t, op ≠ .wait t) ∧ ∀ r t, op ≠ .hrd r t ∧ op ≠ .hwr r t := by
  have hne {o : POp} (ho : atSluice o = true) : op ≠ o := fun e => by
    rw [e, ho] at h
    cases h
  exact ⟨fun t => hne rfl, fun r t => ⟨hne rfl, hne rfl⟩⟩

/-- A turn of the wait phase that leaves sluice `q`. -/
theorem waitTurn_away {co : Nat × ProcOut} (hd : co.1 ∈ runClusters s0) (h : sluiceOf co.1 = q → ∀ t, co.2.op ≠ .wait t) (x : State × List Report) :
    Work (awayTouch (runClusters s0) q) (frameNow s0) x (waitTurn s0 st x co) := by
  by_cases hq : sluiceOf co.1 = q
  · rw [waitTurn_idle (h hq)]
    exact .refl x
  · exact (work_waitTurn co x).mono fun _ => away_slu hd hq

/-- Two states of the request phase between which sluice `q` is left. -/
def askAway (s0 : State) (q : Nat) (a b : List Nat × (State × List Report)) : Prop :=
  Work (awayTouch (runClusters s0) q) (frameNow s0) a.2 b.2 ∧ b.1.contains q = a.1.contains q

theorem askAway.refl (a : List Nat × (State × List Report)) : askAway s0 q a a := ⟨.refl _, rfl⟩
theorem askAway.trans {a b c : List Nat × (State × List Report)} (h : askAway s0 q a b) (k : askAway s0 q b c) : askAway s0 q a c :=
  ⟨h.1.trans k.1, k.2.trans h.2⟩

theorem askTurn_away {co : Nat × ProcOut} (hd : co.1 ∈ runClusters s0) (h : sluiceOf co.1 = q → ∀ r t, co.2.op ≠ .hrd r t ∧ co.2.op ≠ .hwr r t)
    (acc : List Nat × (State × List Report)) : askAway s0 q acc (askTurn s0 acc co) := by
  by_cases hq : sluiceOf co.1 = q
  · rw [askTurn_idle (h hq)]
    exact .refl acc
  · exact ⟨(work_askTurn co acc).mono fun _ => away_slu hd hq, askTurn_taken hq acc⟩

/-- From the clusters' own parts to the sluice port, and from it to the end of the step's work. -/
theorem before_sluice (hq : q < 128) : Work (awayTouch (runClusters s0) q) (frameNow s0) (s0, []) (clusterPhase s0 hs st (s0, [])) :=
  (work_clusterPhase hs st (s0, [])).mono fun _ ⟨_, hd, h⟩ => away_cluster hd hq h

theorem after_sluice (hq : q < 128) : Work (awayTouch (runClusters s0) q) (frameNow s0)
    (sluicePort s0 s0.seq.pos (stepOuts s0 hs s0.seq.pos) (clusterPhase s0 hs s0.seq.pos (s0, []))) (evalWork hs s0) := by
  have h := (work_transit hs s0).mono fun _ => away_transit hq
  rw [fabricStep_eq] at h
  exact ((work_gaugePort _ _).mono fun _ h => away_shared (.inl h)).trans (((work_tracePort _ _).mono fun _ h => away_shared (.inr h)).trans h)

variable (hrun : basinRuns s0 (cl / 64) = true) (hp : p < 64)
  (alone : ∀ d < 2048, ∀ i < 64, sluiceOf d = sluiceOf cl → d ≠ cl ∨ i ≠ p → atSluice (procStep s0 d s0.seq.pos i (procFaultOf hs d i)).op = false)
include hrun hp alone

omit hrun hp in
/-- No other processor uses the sluice. -/
theorem others_idle {d i : Nat} (hdi : (d, i) ∈ stepIdx s0) (hne : (d, i) ≠ (cl, p)) (hq : sluiceOf d = sluiceOf cl) :
    (∀ t, (procStep s0 d s0.seq.pos i (procFaultOf hs d i)).op ≠ .wait t) ∧
      ∀ r t, (procStep s0 d s0.seq.pos i (procFaultOf hs d i)).op ≠ .hrd r t ∧ (procStep s0 d s0.seq.pos i (procFaultOf hs d i)).op ≠ .hwr r t := by
  obtain ⟨hd, hi⟩ := stepIdx_lt hdi
  refine atSluice_idle (alone d hd i hi hq ?_)
  by_contra h
  push Not at h
  exact hne (by rw [h.1, h.2])

theorem sluWait_at {t : Nat} (hop : (procStep s0 cl s0.seq.pos p (procFaultOf hs cl p)).op = .wait t) :
    ∃ y, Work (awayTouch (runClusters s0) (sluiceOf cl)) (frameNow s0) (s0, []) y ∧
      Work (awayTouch (runClusters s0) (sluiceOf cl)) (frameNow s0) (andThen (sluWait s0 cl s0.seq.pos t) y) (evalWork hs s0) := by
  have hcl := mem_runClusters.2 hrun
  have hq := sluiceOf_lt (basin_lt hcl)
  have run {d i : Nat} (h : (d, i) ∈ stepIdx s0) : d ∈ runClusters s0 := mem_runClusters.2 (mem_stepIdx.1 h).1
  obtain ⟨y, h1, h2⟩ := foldl_around (R := Work (awayTouch (runClusters s0) (sluiceOf cl)) (frameNow s0)) Work.refl Work.trans
    (f := fun x di => waitTurn s0 s0.seq.pos x (di.1, procStep s0 di.1 s0.seq.pos di.2 (procFaultOf hs di.1 di.2))) (nodup_stepIdx (s0 := s0))
    (mem_stepIdx.2 ⟨hrun, hp⟩) (fun x ⟨d, i⟩ hdi hne => waitTurn_away (co := (d, procStep s0 d s0.seq.pos i (procFaultOf hs d i))) (run hdi)
      (fun e => (others_idle alone hdi hne e).1) x) (clusterPhase s0 hs s0.seq.pos (s0, []))
  have hit : waitTurn s0 s0.seq.pos y (cl, procStep s0 cl s0.seq.pos p (procFaultOf hs cl p)) = andThen (sluWait s0 cl s0.seq.pos t) y := by
    unfold waitTurn
    simp only [hop]
  dsimp only at h2
  rw [hit] at h2
  have h3 := foldl_keeps (R := askAway s0 (sluiceOf cl)) askAway.refl askAway.trans
    (f := fun acc di => askTurn s0 acc (di.1, procStep s0 di.1 s0.seq.pos di.2 (procFaultOf hs di.1 di.2))) (l := stepIdx s0)
    (fun acc ⟨d, i⟩ hdi => askTurn_away (co := (d, procStep s0 d s0.seq.pos i (procFaultOf hs d i))) (run hdi) (fun e => by
      by_cases hne : (d, i) = (cl, p)
      · obtain ⟨rfl, rfl⟩ := Prod.mk.inj hne
        intro r k
        rw [hop]
        exact ⟨by simp, by simp⟩
      · exact (others_idle alone hdi hne e).2) acc) ([], (stepIdx s0).foldl (fun x di =>
        waitTurn s0 s0.seq.pos x (di.1, procStep s0 di.1 s0.seq.pos di.2 (procFaultOf hs di.1 di.2))) (clusterPhase s0 hs s0.seq.pos (s0, [])))
  have h4 := after_sluice (s0 := s0) (hs := hs) hq
  rw [sluicePort_turns] at h4
  exact ⟨y, (before_sluice hq).trans h1, h2.trans (h3.1.trans h4)⟩

theorem sluIssue_at {r t : Nat} (hop : (procStep s0 cl s0.seq.pos p (procFaultOf hs cl p)).op = .hrd r t ∨
      (procStep s0 cl s0.seq.pos p (procFaultOf hs cl p)).op = .hwr r t) :
    ∃ y, Work (awayTouch (runClusters s0) (sluiceOf cl)) (frameNow s0) (s0, []) y ∧
      Work (awayTouch (runClusters s0) (sluiceOf cl)) (frameNow s0)
        (andThen (sluIssue s0 cl (procStep s0 cl s0.seq.pos p (procFaultOf hs cl p))) y) (evalWork hs s0) := by
  have hcl := mem_runClusters.2 hrun
  have hq := sluiceOf_lt (basin_lt hcl)
  have run {d i : Nat} (h : (d, i) ∈ stepIdx s0) : d ∈ runClusters s0 := mem_runClusters.2 (mem_stepIdx.1 h).1
  have h1 := foldl_keeps (R := Work (awayTouch (runClusters s0) (sluiceOf cl)) (frameNow s0)) Work.refl Work.trans
    (f := fun x di => waitTurn s0 s0.seq.pos x (di.1, procStep s0 di.1 s0.seq.pos di.2 (procFaultOf hs di.1 di.2))) (l := stepIdx s0)
    (fun x ⟨d, i⟩ hdi => waitTurn_away (co := (d, procStep s0 d s0.seq.pos i (procFaultOf hs d i))) (run hdi) (fun e => by
      by_cases hne : (d, i) = (cl, p)
      · obtain ⟨rfl, rfl⟩ := Prod.mk.inj hne
        intro k
        rcases hop with hop | hop <;> simp [hop]
      · exact (others_idle alone hdi hne e).1) x) (clusterPhase s0 hs s0.seq.pos (s0, []))
  generalize hx : (stepIdx s0).foldl (fun x di => waitTurn s0 s0.seq.pos x (di.1, procStep s0 di.1 s0.seq.pos di.2 (procFaultOf hs di.1 di.2)))
    (clusterPhase s0 hs s0.seq.pos (s0, [])) = x at h1
  obtain ⟨acc, h2, h3⟩ := foldl_around (R := askAway s0 (sluiceOf cl)) askAway.refl askAway.trans
    (f := fun acc di => askTurn s0 acc (di.1, procStep s0 di.1 s0.seq.pos di.2 (procFaultOf hs di.1 di.2))) (nodup_stepIdx (s0 := s0))
    (mem_stepIdx.2 ⟨hrun, hp⟩) (fun acc ⟨d, i⟩ hdi hne => askTurn_away (co := (d, procStep s0 d s0.seq.pos i (procFaultOf hs d i))) (run hdi)
      (fun e => (others_idle alone hdi hne e).2) acc) ([], x)
  have hit := askTurn_issues (s0 := s0) (co := (cl, procStep s0 cl s0.seq.pos p (procFaultOf hs cl p))) hop h2.2
  have h4 := after_sluice (s0 := s0) (hs := hs) hq
  rw [sluicePort_turns, hx] at h4
  exact ⟨acc.2, (before_sluice hq).trans (h1.trans h2.1), hit ▸ h3.1.trans h4⟩

end

end Sys2Proof.Machine

namespace Sys2Proof.Machine

/-! ## A sluice before and after a sub-operation of the step -/

theorem quiet_slu (s : State) (q : Nat) : (quiet s).slu q = { getSlu s q with modeAt := [] } := by unfold quiet; rfl
theorem quiet_req (s : State) : (quiet s).rest.req = s.req := by unfold quiet; rfl

/-- A sluice's tags and collect buffers, and its requests. -/
structure SameSluice (q : Nat) (s t : State) : Prop where
  tags : (getSlu t q).tags = (getSlu s q).tags
  collect : (getSlu t q).collect = (getSlu s q).collect
  req : t.req.filter (·.q = q) = s.req.filter (·.q = q)

section
variable {q t : Nat} {a b c : State}

theorem SameSluice.refl (s : State) : SameSluice q s s := ⟨rfl, rfl, rfl⟩
theorem SameSluice.trans (h : SameSluice q a b) (k : SameSluice q b c) : SameSluice q a c :=
  ⟨k.tags.trans h.tags, k.collect.trans h.collect, k.req.trans h.req⟩

theorem SameSluice.tag (h : SameSluice q a b) : getTag b q t = getTag a q t := by unfold getTag; rw [h.tags]
theorem SameSluice.buffer (h : SameSluice q a b) : getCollect b q t = getCollect a q t := by unfold getCollect; rw [h.collect]

theorem SameSluice.mem (h : SameSluice q a b) {x : SluReq} (hx : x ∈ a.req) (hq : x.q = q) : x ∈ b.req := by
  have hx' : x ∈ b.req.filter (·.q = q) := h.req ▸ List.mem_filter.2 ⟨hx, decide_eq_true hq⟩
  exact (List.mem_filter.1 hx').1

theorem Noise.sluice (h : Noise a b) : SameSluice q a b := by
  have hs : ({ getSlu b q with modeAt := [] } : Sluice) = { getSlu a q with modeAt := [] } := by rw [← quiet_slu, h.view, quiet_slu]
  have hr : b.req = a.req := by rw [← quiet_req, h.view, quiet_req]
  exact ⟨(congrArg (fun x : Sluice => x.tags) hs :), (congrArg (fun x : Sluice => x.collect) hs :), by rw [hr]⟩

theorem PosOver.sluice {rs : List Report} (h : PosOver rs a b) : b.seq.st = .safe ∨ SameSluice q a b := h.cases.imp id fun k => by
  have e := k.sluice (q := q)
  exact ⟨e.tags, e.collect, e.req⟩

theorem PosOver.refused {rs : List Report} (h : PosOver rs a b) (hq : q < 128) : rfld b (oHldSluCnt q) 31 16 = rfld a (oHldSluCnt q) 31 16 :=
  h.still.refused hq

theorem SameSluice.of_fields (hslu : b.slu = a.slu) (hreq : b.req = a.req) : SameSluice q a b := by
  refine ⟨?_, ?_, by rw [hreq]⟩
  · unfold getSlu; rw [hslu]
  · unfold getSlu; rw [hslu]

/-- What other sluices' sub-operations leave. -/
theorem Trail.sluice {A : Touch → Prop} (h : Trail A a b) (hA : ∀ τ, A τ → sparesSlu q τ) : SameSluice q a b := by
  refine h.keep (P := fun u => SameSluice q a u) (fun τ hτ u v hw hu => hu.trans ?_) (.refl a)
  have hs := hA τ hτ
  cases τ with
  | slu x =>
    obtain ⟨y, rfl⟩ := hw
    have e : getSlu (setSlu x y u) q = getSlu u q := mget_mset_other _ _ _ _ _ (Ne.symm hs)
    exact ⟨by rw [e], by rw [e], rfl⟩
  | req x =>
    obtain ⟨l, rfl, hl⟩ := hw
    have pick (m : List SluReq) : m.filter (·.q = q) = (m.filter (·.q ≠ x)).filter (·.q = q) := by
      rw [List.filter_filter]
      refine List.filter_congr fun r _ => ?_
      by_cases e : r.q = q
      · have : r.q ≠ x := fun h => hs (h.symm.trans e)
        simp [this]
      · simp [e]
    refine ⟨rfl, rfl, ?_⟩
    show l.filter (·.q = q) = _
    rw [pick l, hl, ← pick]
  | books => exact Noise.sluice hw
  | frags d => obtain ⟨_, rfl, -⟩ := hw; exact .of_fields rfl rfl
  | clu d R => obtain ⟨_, -, rfl⟩ := hw; exact .of_fields rfl rfl
  | exports => rw [hw]; exact .of_fields rfl rfl
  | first o => obtain ⟨_, rfl, -⟩ := hw; exact .of_fields rfl rfl
  | probes => obtain ⟨_, _, _, rfl⟩ := hw; exact .of_fields rfl rfl
  | reg | flag | count | lane | gau | trc | bas | lnk | free | dmc => obtain ⟨_, rfl⟩ := hw; exact .of_fields rfl rfl

end

section
variable {s0 a b : State} {q : Nat} (h : Trail (awayTouch (runClusters s0) q) a b)
include h

theorem away_sluice : SameSluice q a b := h.sluice fun _ hτ => hτ.2

theorem away_refused (hq : q < 128) : rfld b (oHldSluCnt q) 31 16 = rfld a (oHldSluCnt q) 31 16 := by
  refine h.fix (rfld · (oHldSluCnt q) 31 16) fun τ hA u v hw => ?_
  obtain ⟨hA, hs⟩ := hA
  have range : 0xE1200 ≤ oHldSluCnt q ∧ oHldSluCnt q < 0xE1400 := by unfold oHldSluCnt; omega
  rcases reg_writes hw (oHldSluCnt q) with e | rfl | ⟨rfl, -⟩ | ⟨k, rfl, -⟩ | ⟨x, y, k, rfl, -⟩ | ⟨rfl, hn⟩
  · unfold rfld; rw [e]
  · rcases evalTouch_reg hA with ⟨d, e | e⟩ | ⟨d, -, e⟩ | e
    · unfold cShd oCluShd at e; omega
    · unfold cRepair oCluRepair at e; omega
    · unfold oBasContRecF at e; omega
    · unfold oDmcUeRec at e; omega
  · obtain ⟨d, -, e⟩ := evalTouch_first hA
    unfold oBasContRec at e; omega
  · rcases evalTouch_flag hA with ⟨d, e⟩ | e | ⟨d, -, e⟩ | e
    · unfold cStat oCluStat at e; omega
    · unfold oHldSts at e; omega
    · unfold oBasReachSts at e; omega
    · unfold oDmcSts at e; omega
  · exact absurd rfl hs
  · exact hn.still.refused hq

theorem away_hldSts {i : Nat} (hi : rbit a oHldSts i = true) : rbit b oHldSts i = true := by
  refine Trail.flag_stays h (by decide) (fun hA => ?_) (fun hA => ?_) (fun hi lo hA => ?_) hi
  · rcases evalTouch_reg hA.1 with ⟨d, e | e⟩ | ⟨d, -, e⟩ | e
    · unfold oHldSts cShd oCluShd at e; omega
    · unfold oHldSts cRepair oCluRepair at e; omega
    · unfold oHldSts oBasContRecF at e; omega
    · exact absurd e (by decide)
  · obtain ⟨d, -, e⟩ := evalTouch_first hA.1
    unfold oHldSts oBasContRec at e; omega
  · rcases evalTouch_count hA.1 with ⟨d, e | e⟩ | ⟨d, -, e, -⟩ | ⟨d, -, e | e, -⟩ | ⟨d, -, e, -⟩ | ⟨d, -, e⟩ | e
    · unfold oHldSts cEcc oCluEcc at e; omega
    · unfold oHldSts cXev oCluXev at e; omega
    · unfold oHldSts oHldSluCnt at e; omega
    · unfold oHldSts oBasContHard at e; omega
    · unfold oHldSts oBasContBen at e; omega
    · unfold oHldSts oBasImpOvf at e; omega
    · unfold oHldSts oBasRwEcc at e; omega
    · exact absurd e (by decide)

theorem away_cStat {cl i : Nat} (hi : rbit a (cStat cl) i = true) : rbit b (cStat cl) i = true :=
  cStat_stays (h.mono fun _ hτ => hτ.1) hi

end

/-! ### From the sub-operation to the end of the step -/

/-- What stands of a sluice at the end of an evaluation step in which one sub-operation uses it: `z` is the state that it leaves. -/
structure SluEnd (q : Nat) (z : State × List Report) (u : State) : Prop where
  sluice : u.seq.st = .safe ∨ SameSluice q z.1 u
  refused : rfld u (oHldSluCnt q) 31 16 = rfld z.1 (oHldSluCnt q) 31 16
  hldSts : ∀ i, rbit z.1 oHldSts i = true → rbit u oHldSts i = true
  cStat : ∀ cl i, rbit z.1 (cStat cl) i = true → rbit u (cStat cl) i = true
  told : ∀ code, reported code z → code ≠ 0x2001 → code / 4096 < 32 → rbit u oSafSts (code / 4096) = true

theorem sluEnd_of {hs : List Happening} {s : State} {q : Nat} (hq : q < 128) {z : State × List Report}
    (h : Work (awayTouch (runClusters (strikes hs s)) q) (frameNow (strikes hs s)) z (evalWork hs (strikes hs s))) : SluEnd q z (evalBody hs s) where
  sluice := (evalBody_over hs s).sluice.imp (fun h => h) fun k => (away_sluice h.trail).trans k
  refused := ((evalBody_over hs s).refused hq).trans (away_refused h.trail hq)
  hldSts i hi := by
    have hreg := (evalBody_over hs s).reg (off := oHldSts) (by decide) (by decide)
    unfold rbit
    rw [hreg]
    exact away_hldSts h.trail hi
  cStat cl i hi := by
    rw [evalEnd_rbit (evalBody_over hs s) (by unfold Machine.cStat oCluStat; omega)]
    exact away_cStat h.trail hi
  told code hr hc hlt := (evalBody_over hs s).classFlag (h.reported hr) hc hlt

end Sys2Proof.Machine

namespace Sys2Proof.Machine

/-! ## HRD, HWR and WAIT at the end of an evaluation step -/

/-- The number that values spell in binary, a 1 where a value is 1. -/
theorem onesSpelt_bit (vs : List V4) (j : Nat) :
    (vs.foldr (fun v n => (if v = V4.one then 1 else 0) + 2 * n) 0).testBit j = decide (vs.getD j .zero = .one) := by
  induction vs generalizing j with
  | nil => simp
  | cons v t ih =>
    have hb : (if v = V4.one then 1 else 0) < 2 := by split_ifs <;> decide
    cases j with
    | zero =>
      rw [List.foldr_cons, List.getD_cons_zero, Nat.testBit_zero, Nat.add_mul_mod_self_left]
      by_cases h : v = V4.one <;> simp [h]
    | succ j =>
      rw [List.foldr_cons, List.getD_cons_succ, Nat.testBit_succ, ← ih]
      congr 1
      omega

theorem plist_getD {n : Nat} (p : BitVec n) {k j : Nat} (hj : j < k) : (plist p k).getD j .zero = pget p j := by
  unfold plist
  rw [List.getD_eq_getElem?_getD, List.getElem?_map, List.getElem?_range hj]
  rfl

theorem plist_known {n : Nat} {p : BitVec n} {k : Nat} (h : ∀ j < k, pget p j = .zero ∨ pget p j = .one) : (plist p k).any (!v4known ·) = false := by
  rw [List.any_eq_false]
  intro v hv
  obtain ⟨j, hj, rfl⟩ := List.mem_map.1 hv
  rcases h j (List.mem_range.1 hj) with e | e <;> rw [e] <;> decide

/-- A word's bits as a collect buffer holds them. -/
theorem pget_word (d : BitVec 64) {i : Nat} (hi : i < 64) : pget (ppack 128 (v4bits 64 d.toNat)) i = if d.getLsbD i then .one else .zero := by
  rw [pget_ppack _ (by omega)]
  unfold v4bits
  rw [List.getD_eq_getElem?_getD, List.getElem?_map, List.getElem?_range hi, Option.map_some, Option.getD_some,
    nbit_eq_testBit, BitVec.testBit_toNat]
  cases d.getLsbD i <;> rfl

/-- A buffer that holds no value. -/
theorem pget_allOnes {i : Nat} (hi : i < 64) : pget (BitVec.allOnes 128) i = .x := by
  rw [pget_bits, BitVec.getLsbD_allOnes, BitVec.getLsbD_allOnes, decide_eq_true (by omega : 2 * i < 128), decide_eq_true (by omega : 2 * i + 1 < 128)]
  rfl

section
variable {hs : List Happening} {s : State} {cl p t : Nat} (hrun : basinRuns s (cl / 64) = true) (hp : p < 64)
  (alone : ∀ d < 2048, ∀ i < 64, sluiceOf d = sluiceOf cl → d ≠ cl ∨ i ≠ p → atSluice (stepOut hs s d i).op = false)

@[simp] theorem strikes_getTag (q : Nat) : getTag (strikes hs s) q t = getTag s q t := by unfold getTag getSlu; rw [strikes_slu]
@[simp] theorem strikes_rgnLimit (q r : Nat) : rgnLimit (strikes hs s) q r = rgnLimit s q r := by unfold rgnLimit rfld; rw [rget_strikes]
@[simp] theorem strikes_rgnBase (q r : Nat) : rgnBase (strikes hs s) q r = rgnBase s q r := by unfold rgnBase rfld; rw [rget_strikes]

include hrun hp alone

theorem evalBody_ask {r : Nat} (hop : (stepOut hs s cl p).op = .hrd r t ∨ (stepOut hs s cl p).op = .hwr r t) :
    ∃ y : State × List Report, rfld y.1 (oHldSluCnt (sluiceOf cl)) 31 16 = rfld s (oHldSluCnt (sluiceOf cl)) 31 16 ∧
      SluEnd (sluiceOf cl) (andThen (sluIssue (strikes hs s) cl (stepOut hs s cl p)) y) (evalBody hs s) := by
  have hq := sluiceOf_lt (basin_lt (mem_runClusters.2 hrun))
  have h := sluIssue_at (s0 := strikes hs s) (hs := hs) (cl := cl) (p := p) (r := r) (t := t) (by simpa using hrun) hp
  rw [strikes_seq] at h
  obtain ⟨y, h1, h2⟩ := h alone hop
  refine ⟨y, (away_refused h1.trail hq).trans ?_, sluEnd_of hq h2⟩
  unfold rfld
  rw [rget_strikes]

theorem evalBody_wait (hop : (stepOut hs s cl p).op = .wait t) :
    ∃ y : State × List Report, SameSluice (sluiceOf cl) s y.1 ∧
      SluEnd (sluiceOf cl) (andThen (sluWait (strikes hs s) cl s.seq.pos t) y) (evalBody hs s) := by
  have hq := sluiceOf_lt (basin_lt (mem_runClusters.2 hrun))
  have h := sluWait_at (s0 := strikes hs s) (hs := hs) (cl := cl) (p := p) (t := t) (by simpa using hrun) hp
  rw [strikes_seq] at h
  obtain ⟨y, h1, h2⟩ := h alone hop
  exact ⟨y, (SameSluice.of_fields (strikes_slu hs s) (strikes_req hs s)).trans (away_sluice h1.trail), sluEnd_of hq h2⟩

/-- HRD and HWR without a known address. -/
theorem evalBody_unknownTag {r : Nat} {wr : Bool} (hop : (stepOut hs s cl p).op = .hrd r t ∧ wr = false ∨ (stepOut hs s cl p).op = .hwr r t ∧ wr = true)
    (hfree : getTag s (sluiceOf cl) t = .free) (hoff : v4nat? (plist (getCl s cl).ho 34) = none) :
    (evalBody hs s).seq.st = .safe ∨ getTag (evalBody hs s) (sluiceOf cl) t = .unknownAddr := by
  obtain ⟨y, -, hend⟩ := evalBody_ask hrun hp alone (hop.imp And.left And.left)
  refine hend.sluice.imp (fun h => h) fun k => k.tag.trans ?_
  have h := sluIssue_unknown (s0 := strikes hs s) y.1 hop (by rw [strikes_getTag, hfree]) (by rw [strikes_ports.ho, hoff])
  exact (congrArg (fun z : State × List Report => getTag z.1 (sluiceOf cl) t) h).trans (getTag_takeTag y.1 _)

/-- A null request. -/
theorem evalBody_nullTag {r w : Nat} {wr : Bool} (hop : (stepOut hs s cl p).op = .hrd r t ∧ wr = false ∨ (stepOut hs s cl p).op = .hwr r t ∧ wr = true)
    (hfree : getTag s (sluiceOf cl) t = .free) (hoff : v4nat? (plist (getCl s cl).ho 34) = some w) (hen : argAt (stepOut hs s cl p).vs 0 = .zero) :
    (evalBody hs s).seq.st = .safe ∨ getTag (evalBody hs s) (sluiceOf cl) t = .null := by
  obtain ⟨y, -, hend⟩ := evalBody_ask hrun hp alone (hop.imp And.left And.left)
  refine hend.sluice.imp (fun h => h) fun k => k.tag.trans ?_
  have h := sluIssue_null (s0 := strikes hs s) y.1 hop (by rw [strikes_getTag, hfree]) (by rw [strikes_ports.ho, hoff]) hen
  exact (congrArg (fun z : State × List Report => getTag z.1 (sluiceOf cl) t) h).trans (getTag_takeTag y.1 _)

omit hrun hp alone in
theorem getTag_rflag (off i q : Nat) (s : State) : getTag (rflag off i s) q t = getTag s q t := rfl

omit hrun hp alone in
/-- A request refused, as the step's end leaves it: flag `i` of HLD_STS, PORT_CONF and the fault's class are set, REFUSED counts it. -/
theorem refused_end {i code : Nat} {y : State} {z : State × List Report} {u : State} (hi : i < 32) (hcode : code ≠ 0x2001) (hlt : code / 4096 < 32)
    (hq : sluiceOf cl < 128) (hz : z.1 = rflag oHldSts i (rflag (cStat cl) 6 (refuseReq (sluiceOf cl) t y))) (hrep : reported code z)
    (hend : SluEnd (sluiceOf cl) z u) :
    (u.seq.st = .safe ∨ getTag u (sluiceOf cl) t = .refused) ∧ rbit u oHldSts i = true ∧ rbit u (cStat cl) 6 = true ∧
      rbit u oSafSts (code / 4096) = true ∧ rfld u (oHldSluCnt (sluiceOf cl)) 31 16 = min (rfld y (oHldSluCnt (sluiceOf cl)) 31 16 + 1) 0xFFFF := by
  have hstat : cStat cl ≠ oHldSts := by unfold cStat oCluStat oHldSts; omega
  have hcnt : oHldSluCnt (sluiceOf cl) ≠ oHldSts ∧ oHldSluCnt (sluiceOf cl) ≠ cStat cl := by
    unfold oHldSluCnt cStat oCluStat oHldSts; omega
  have htag : getTag z.1 (sluiceOf cl) t = .refused := by
    rw [hz, getTag_rflag, getTag_rflag, getTag_refuseReq]
  have hflag : rbit z.1 oHldSts i = true := by
    rw [hz]
    exact rbit_rflag_same _ hi _
  have hconf : rbit z.1 (cStat cl) 6 = true := by
    rw [hz]
    exact (rbit_rset_other hstat _ _ _).trans (rbit_rflag_same _ (by decide) _)
  have hcount : rfld z.1 (oHldSluCnt (sluiceOf cl)) 31 16 = min (rfld y (oHldSluCnt (sluiceOf cl)) 31 16 + 1) 0xFFFF := by
    rw [hz]
    exact (rfld_rset_other hcnt.1 _ _ _ _).trans ((rfld_rset_other hcnt.2 _ _ _ _).trans (rfld_refuseReq y))
  exact ⟨hend.sluice.imp (fun h => h) fun k => k.tag.trans htag, hend.hldSts i hflag, hend.cStat cl 6 hconf, hend.told code hrep hcode hlt,
    hend.refused.trans hcount⟩

omit hrun hp alone in
theorem refuseMarked_reported {i code : Nat} (x : State × List Report) {g : State → State × List Report}
    (h : g x.1 = refuseMarked (strikes hs s) cl t i code x.1) : reported code (andThen g x) := by
  refine reported_andThen ?_
  rw [h]
  exact ⟨_, List.mem_singleton.2 rfl, rfl, rfl⟩

/-- A request beyond its region. -/
theorem evalBody_beyond {r w : Nat} {wr : Bool} (hop : (stepOut hs s cl p).op = .hrd r t ∧ wr = false ∨ (stepOut hs s cl p).op = .hwr r t ∧ wr = true)
    (hoff : v4nat? (plist (getCl s cl).ho 34) = some w) (hen : argAt (stepOut hs s cl p).vs 0 ≠ .zero) (hw : rgnLimit s (sluiceOf cl) r ≤ w) :
    ((evalBody hs s).seq.st = .safe ∨ getTag (evalBody hs s) (sluiceOf cl) t = .refused) ∧ rbit (evalBody hs s) oHldSts 5 = true ∧
      rbit (evalBody hs s) (cStat cl) 6 = true ∧ rbit (evalBody hs s) oSafSts 4 = true ∧
      rfld (evalBody hs s) (oHldSluCnt (sluiceOf cl)) 31 16 = min (rfld s (oHldSluCnt (sluiceOf cl)) 31 16 + 1) 0xFFFF := by
  obtain ⟨y, hbefore, hend⟩ := evalBody_ask hrun hp alone (hop.imp And.left And.left)
  have h := sluIssue_beyond (s0 := strikes hs s) y.1 hop (by rw [strikes_ports.ho, hoff]) hen (by rwa [strikes_rgnLimit])
  have hend := refused_end (z := andThen (sluIssue (strikes hs s) cl (stepOut hs s cl p)) y) (i := 5) (code := 0x4002) (by decide) (by decide) (by decide) (sluiceOf_lt (basin_lt (mem_runClusters.2 hrun)))
    (congrArg Prod.fst h) (refuseMarked_reported y h) hend
  rwa [hbefore] at hend

/-- A request whose tag is in use. -/
theorem evalBody_busy {r w : Nat} {wr : Bool} (hop : (stepOut hs s cl p).op = .hrd r t ∧ wr = false ∨ (stepOut hs s cl p).op = .hwr r t ∧ wr = true)
    (hoff : v4nat? (plist (getCl s cl).ho 34) = some w) (hw : w < rgnLimit s (sluiceOf cl) r) (hbusy : getTag s (sluiceOf cl) t ≠ .free) :
    ((evalBody hs s).seq.st = .safe ∨ getTag (evalBody hs s) (sluiceOf cl) t = .refused) ∧ rbit (evalBody hs s) oHldSts 6 = true ∧
      rbit (evalBody hs s) (cStat cl) 6 = true ∧ rbit (evalBody hs s) oSafSts 4 = true := by
  obtain ⟨y, -, hend⟩ := evalBody_ask hrun hp alone (hop.imp And.left And.left)
  have h := sluIssue_busy (s0 := strikes hs s) y.1 hop (by rw [strikes_ports.ho, hoff]) (by rwa [strikes_rgnLimit]) (by rwa [strikes_getTag])
  obtain ⟨h1, h2, h3, h4, -⟩ := refused_end (z := andThen (sluIssue (strikes hs s) cl (stepOut hs s cl p)) y) (i := 6) (code := 0x4003) (by decide) (by decide) (by decide)
    (sluiceOf_lt (basin_lt (mem_runClusters.2 hrun))) (congrArg Prod.fst h) (refuseMarked_reported y h) hend
  exact ⟨h1, h2, h3, h4⟩

/-- A request that goes out. -/
theorem evalBody_requests {r w : Nat} {wr : Bool} (hop : (stepOut hs s cl p).op = .hrd r t ∧ wr = false ∨ (stepOut hs s cl p).op = .hwr r t ∧ wr = true)
    (hfree : getTag s (sluiceOf cl) t = .free) (hoff : v4nat? (plist (getCl s cl).ho 34) = some w) (hen : argAt (stepOut hs s cl p).vs 0 = .one)
    (hw : w < rgnLimit s (sluiceOf cl) r) (hroom : (s.req.filter (·.q = sluiceOf cl)).length < 16) :
    (evalBody hs s).seq.st = .safe ∨ (getTag (evalBody hs s) (sluiceOf cl) t = .waiting ∧ newReq (strikes hs s) cl r t wr .one w ∈ (evalBody hs s).req) := by
  have hne : argAt (stepOut hs s cl p).vs 0 ≠ .zero := by rw [hen]; decide
  obtain ⟨y, -, hend⟩ := evalBody_ask hrun hp alone (hop.imp And.left And.left)
  have h := sluIssue_sent (s0 := strikes hs s) y.1 hop (by rw [strikes_getTag, hfree]) (by rw [strikes_ports.ho, hoff]) hne (by rwa [strikes_rgnLimit])
    (by rwa [strikes_req])
  rw [hen] at h
  refine hend.sluice.imp (fun h => h) fun k => ⟨k.tag.trans ?_, k.mem ?_ rfl⟩
  · exact (congrArg (fun z : State => getTag z (sluiceOf cl) t) h).trans (getTag_takeTag y.1 _)
  · have hz : (andThen (sluIssue (strikes hs s) cl (stepOut hs s cl p)) y).1.req = _ := congrArg (fun z : State => z.req) h
    rw [hz]
    exact List.mem_append_right _ (List.mem_singleton.2 rfl)

/-- A WAIT whose data has come. -/
theorem evalBody_waitData {d : BitVec 64} (hop : (stepOut hs s cl p).op = .wait t) (htag : getTag s (sluiceOf cl) t = .data d) :
    (evalBody hs s).seq.st = .safe ∨ (getTag (evalBody hs s) (sluiceOf cl) t = .free ∧
      ∀ i < 64, pget (getCollect (evalBody hs s) (sluiceOf cl) t) i = if d.getLsbD i then .one else .zero) := by
  obtain ⟨y, -, hend⟩ := evalBody_wait hrun hp alone hop
  have h := sluWait_data (s0 := strikes hs s) (cl := cl) (st := s.seq.pos) y.1 (by rw [strikes_getTag, htag])
  refine hend.sluice.imp (fun h => h) fun k => ⟨?_, fun i hi => ?_⟩
  · exact k.tag.trans ((congrArg (fun z : State => getTag z (sluiceOf cl) t) h).trans (getTag_freeTag ..))
  · have hc : getCollect (andThen (sluWait (strikes hs s) cl s.seq.pos t) y).1 (sluiceOf cl) t = ppack 128 (v4bits 64 d.toNat) :=
      (congrArg (fun z : State => getCollect z (sluiceOf cl) t) h).trans ((getCollect_freeTag ..).trans (getCollect_setCollect ..))
    rw [k.buffer, hc, pget_word d hi]

/-- A WAIT whose write is done, or whose request was null. -/
theorem evalBody_waitDone (hop : (stepOut hs s cl p).op = .wait t) (htag : getTag s (sluiceOf cl) t = .written ∨ getTag s (sluiceOf cl) t = .null) :
    (evalBody hs s).seq.st = .safe ∨ (getTag (evalBody hs s) (sluiceOf cl) t = .free ∧
      getCollect (evalBody hs s) (sluiceOf cl) t = getCollect s (sluiceOf cl) t) := by
  obtain ⟨y, hy, hend⟩ := evalBody_wait hrun hp alone hop
  have h := sluWait_done (s0 := strikes hs s) (cl := cl) (st := s.seq.pos) y.1 (by rwa [strikes_getTag])
  refine hend.sluice.imp (fun h => h) fun k => ⟨k.tag.trans ?_, k.buffer.trans ?_⟩
  · exact (congrArg (fun z : State => getTag z (sluiceOf cl) t) h).trans (getTag_freeTag ..)
  · exact (congrArg (fun z : State => getCollect z (sluiceOf cl) t) h).trans
      ((getCollect_freeTag ..).trans ((getCollect_waitFlag ..).trans hy.buffer))

/-- A WAIT whose reply has not come. -/
theorem evalBody_waitEarly (hop : (stepOut hs s cl p).op = .wait t) (htag : getTag s (sluiceOf cl) t = .waiting) :
    rbit (evalBody hs s) oHldSts 3 = true ∧ rbit (evalBody hs s) oSafSts 5 = true ∧ ((evalBody hs s).seq.st = .safe ∨
      (getTag (evalBody hs s) (sluiceOf cl) t = .free ∧ ∀ i < 64, pget (getCollect (evalBody hs s) (sluiceOf cl) t) i = .x)) := by
  obtain ⟨y, -, hend⟩ := evalBody_wait hrun hp alone hop
  obtain ⟨hslu, hflag, hrep⟩ := sluWait_waiting (s0 := strikes hs s) (cl := cl) (st := s.seq.pos) y.1 (by rw [strikes_getTag, htag])
  have read {u v : State} (h : u.slu = v.slu) : getTag u (sluiceOf cl) t = getTag v (sluiceOf cl) t ∧
      getCollect u (sluiceOf cl) t = getCollect v (sluiceOf cl) t := by
    unfold getTag getCollect getSlu
    rw [h]
    exact ⟨rfl, rfl⟩
  obtain ⟨ht, hc⟩ := read hslu
  refine ⟨hend.hldSts 3 hflag, hend.told 0x5001 (reported_andThen hrep) (by decide) (by decide), hend.sluice.imp (fun h => h) fun k => ⟨?_, fun i hi => ?_⟩⟩
  · exact k.tag.trans (ht.trans (getTag_freeTag ..))
  · have hx : getCollect (andThen (sluWait (strikes hs s) cl s.seq.pos t) y).1 (sluiceOf cl) t = BitVec.allOnes 128 :=
      hc.trans ((getCollect_freeTag ..).trans (getCollect_setCollect ..))
    rw [k.buffer, hx, pget_allOnes hi]

end

end Sys2Proof.Machine

namespace Sys2Proof.Machine

/-! ## What an evaluation step writes -/

section
variable {hs : List Happening} {s : State} {cl : Nat}

/-- An entry outside the import entries at the end of an evaluation step: as the fabric's part left it. -/
theorem evalBody_entry (hw : mwf Cluster.fresh s.fab = true) {ph e : Nat} (he : e < 2048) (hout : e < 1024 ∨ 1792 ≤ e) :
    dsGet (getCl (evalBody hs s) cl) ph e = dsGet (getCl (fabricStep (strikes hs s) hs s.seq.pos (strikes hs s)).1 cl) ph e := by
  have hw0 := strikes_canonical hs s hw
  have hw1 := (work_fabricStep (s0 := strikes hs s) hs (strikes hs s).seq.pos (strikes hs s)).trail.canonical hw0
  obtain ⟨⟨hkept, -⟩, -⟩ := (work_transit hs (strikes hs s)).trail.transit_carried hw1 cl
  rw [strikes_seq] at hkept
  rw [dsGet_of_ds (evalBody_ds hw cl)]
  exact (hkept ph e he hout).1

/-- Each processor of a running basin writes its result to the entry of the step's number. -/
theorem evalBody_result (hw : mwf Cluster.fresh s.fab = true) (hrun : basinRuns s (cl / 64) = true) {p : Nat} (hp : p < 64) (hpos : s.seq.pos < 1024) :
    dsGet (getCl (evalBody hs s) cl) (physOf s cl p) s.seq.pos = (stepOut hs s cl p).res := by
  have hw0 := strikes_canonical hs s hw
  have hlt : s.seq.pos < 2048 := by omega
  obtain ⟨_, _, e1⟩ := (fabricStep_cluster (hs := hs) (cl := cl) (st := s.seq.pos) hw0).1 (by simpa using hrun)
  obtain ⟨_, _, _, _, _, _, e2⟩ := portAcc_portsOnly (s0 := strikes hs s) (cl := cl) (st := s.seq.pos) (clusterOuts (strikes hs s) hs cl s.seq.pos)
    (getCl (strikes hs s) cl)
  rw [evalBody_entry hw hlt (.inl hpos), e1, e2]
  have h := (written_entry (s0 := strikes hs s) (cl := cl) (p := p) hs hlt (getCl (strikes hs s) cl)).1 hp
  rw [strikes_physOf] at h
  exact h

end

section
variable {hs : List Happening} {s : State} {cl r t w p : Nat}

theorem newReq_strikes (wr : Bool) (en : V4) : newReq (strikes hs s) cl r t wr en w = newReq s cl r t wr en w := by
  unfold newReq
  rw [strikes_seq, strikes_rgnBase, strikes_ports.hwd, strikes_tim]

/-- A write whose data are known carries them. -/
theorem newReq_data (hk : ∀ j < 64, pget (getCl s cl).hwd j = .zero ∨ pget (getCl s cl).hwd j = .one) : (newReq s cl r t true .one w).poison = false ∧
    ∀ j < 64, (newReq s cl r t true .one w).data.getLsbD j = decide (pget (getCl s cl).hwd j = .one) := by
  unfold newReq
  refine ⟨?_, fun j hj => ?_⟩
  · dsimp only
    rw [plist_known hk]
    rfl
  · rw [BitVec.getLsbD_ofNat, onesSpelt_bit, plist_getD _ hj, decide_eq_true hj, Bool.true_and]

/-- What a processor's word writes and marks (R34-R62). -/
theorem procStep_writes (s : State) (cl st p : Nat) :
    (wordBad s cl st p → (procStep s cl st p {}).res = .x ∧ (procStep s cl st p {}).expo = some .x ∧ (procStep s cl st p {}).flags = [2] ∧
      (procStep s cl st p {}).op = .nop) ∧
    (¬ wordBad s cl st p → (procStep s cl st p {}).fixed = decide (wordEcc s cl st p = .single) ∧
      (procStep s cl st p {}).expo = if wExp (wordAt s cl st p) then some (procStep s cl st p {}).res else none) := by
  refine ⟨fun h => ?_, fun h => ⟨(procStep_executed h).fixed, (procStep_executed h).expo⟩⟩
  rw [procStep_bad h]
  exact ⟨rfl, rfl, rfl, rfl⟩

end

/-- Settles O34: the step's row of writes reaches each sub-operation's port once; what the other processors, the reach network, the memory ports
and the taking of faults write leaves what it wrote. -/
theorem evaluationWrites : Obligations.EvaluationWrites := by
  unfold Obligations.EvaluationWrites
  refine ⟨fun hs s hcan hclk hst hpos hL hnone => ?_, fun hs s cl p hcan hclk hst hpos hnone hrun hp hport => ?_, fun s cl st p => ?_⟩
  · have hw := canonical_fab hcan
    refine ⟨evalBody hs s, leadsTo_evaluation hclk hnone hst hpos hs, fun cl p _ hrun hp => evalBody_result hw hrun hp (by omega),
      fun cl p e he hne hout => ?_⟩
    rw [evalBody_entry hw he hout, fabricStep_entry (strikes_canonical hs s hw) (by omega) he hne]
    exact dsGet_of_ds (congrArg (·.ds) (strikes_cluster hs s cl)) p e
  · have hw := canonical_fab hcan
    intro o c q op a val aloneMem aloneSlu known off
    refine ⟨evalBody hs s, leadsTo_evaluation hclk hnone hst hpos hs, fun n clr h alone j hj => ?_, fun n clr h alone j hj => ?_,
      fun n f h alone j hj => ?_, fun n f h alone j hj => ?_, fun n f h alone j hj => ?_, fun k w h alone ha hown hk => ?_,
      fun k w h alone ha hown hk => ?_, fun k h alone ha hno => ?_, fun k h alone ha hown => ?_, fun k h alone ha hown hk => ?_,
      fun r t w h alone ha htag hoff hlim hroom => ?_, fun r t w h alone ha htag hoff hlim hroom hdata => ?_, fun r t h alone htag hoff => ?_,
      fun r t w h alone htag hoff ha => ?_, fun r t w h alone hoff ha hlim => ?_, fun r t w h alone htag hoff hlim => ?_,
      fun t d h alone htag => ?_, fun t h alone htag => ?_, fun t h alone htag => ?_, fun n x h alone hsent ha hnot => ?_,
      fun l h hb alone => ?_, fun x h alone hfree => ?_, fun n h ha hseal => ?_, fun m hdue hm _ j hj => ?_⟩
    · exact evalBody_ashl hw hrun hp hport h alone hj
    · exact evalBody_hshl hw hrun hp hport h alone hj
    · exact evalBody_wset hw hrun hp hport h alone hj
    · exact evalBody_hset hw hrun hp hport h alone hj
    · exact evalBody_xset hw hrun hp hport h alone hj
    · exact evalBody_issues hw hrun hp (.inl h) alone (.inl ⟨h, rfl⟩) ha hown hk
    · exact evalBody_issues hw hrun hp (.inr h) alone (.inr ⟨h, rfl⟩) ha hown hk
    · exact evalBody_issuesNone hw hrun hp h alone ha hno
    · exact evalBody_unowned hw hrun hp h alone ha hown
    · exact evalBody_unknownAddr hw hrun hp h alone ha hown hk
    · refine (evalBody_requests hrun hp alone (.inl ⟨h, rfl⟩) htag hoff ha hlim hroom).imp (fun h => h) fun ⟨hwait, hin⟩ => ⟨hwait, _, hin, ?_⟩
      rw [newReq_strikes]
      exact ⟨rfl, rfl, rfl, rfl, rfl, rfl, rfl, rfl, rfl⟩
    · refine (evalBody_requests hrun hp alone (.inr ⟨h, rfl⟩) htag hoff ha hlim hroom).imp (fun h => h) fun ⟨hwait, hin⟩ => ⟨hwait, _, hin, ?_⟩
      rw [newReq_strikes]
      obtain ⟨hpoison, hbits⟩ := newReq_data (s := s) (cl := cl) (r := r) (t := t) (w := w) hdata
      exact ⟨rfl, rfl, rfl, rfl, hpoison, rfl, rfl, hbits⟩
    · rcases h with h | h
      · exact evalBody_unknownTag hrun hp alone (.inl ⟨h, rfl⟩) htag hoff
      · exact evalBody_unknownTag hrun hp alone (.inr ⟨h, rfl⟩) htag hoff
    · rcases h with h | h
      · exact evalBody_nullTag hrun hp alone (.inl ⟨h, rfl⟩) htag hoff ha
      · exact evalBody_nullTag hrun hp alone (.inr ⟨h, rfl⟩) htag hoff ha
    · rcases h with h | h
      · exact evalBody_beyond hrun hp alone (.inl ⟨h, rfl⟩) hoff ha hlim
      · exact evalBody_beyond hrun hp alone (.inr ⟨h, rfl⟩) hoff ha hlim
    · rcases h with h | h
      · exact evalBody_busy hrun hp alone (.inl ⟨h, rfl⟩) hoff hlim htag
      · exact evalBody_busy hrun hp alone (.inr ⟨h, rfl⟩) hoff hlim htag
    · exact evalBody_waitData hrun hp alone h htag
    · exact evalBody_waitDone hrun hp alone h htag
    · exact evalBody_waitEarly hrun hp alone h htag
    · exact evalBody_sends hw hrun hp h alone hsent ha hnot
    · exact .inr (evalBody_drives hrun hp h hb alone)
    · exact evalBody_probes hrun hp h alone hfree
    · exact evalBody_trigs hrun hp h ha hseal
    · exact evalBody_mrd hw hrun hdue hm hj
  · intro c ph w ecc op r lane
    obtain ⟨hbad, hgood⟩ := procStep_writes s cl st p
    refine ⟨hbad, fun hecc hpar => ?_⟩
    have hgo := wordGood_iff.2 hecc
    obtain ⟨hfixed, hexpo⟩ := hgood hgo
    obtain ⟨h1, h2, h3, h4, h5, h6, h7, hwire, h9, h10⟩ := procStep_results hgo hpar
    refine ⟨hfixed, hexpo, h1, h2, h3, h4, h5, h6, h7, fun n pull h => ?_, h9, h10⟩
    intro d
    rw [hwire n pull h]
    exact ⟨wireOf_undriven, wireOf_agree (.inl rfl), wireOf_agree (.inr rfl), wireOf_contended⟩

end Sys2Proof.Machine
